-- ==== Sys2Proof/Word.lean ====
section
/-!
DEFINITION. The words of the QTA1624: bytes and the 16-, 32- and 64-bit values of R8 to R10.
-/

namespace Sys2Proof

/-- One byte. -/
abbrev Byte := BitVec 8

/-- A 16-bit value (U16). -/
abbrev W16 := BitVec 16

/-- A 32-bit value (U32, I32). -/
abbrev W32 := BitVec 32

/-- A 64-bit value (U64). -/
abbrev W64 := BitVec 64

end Sys2Proof
end

