-- ==== Sys2Proof/Syntax.lean ====
section
/-!
DEFINITION. The commands of the QTA1624: one constructor per row of spec/opcode_table.json, with the operands the spec gives
the operation or event, and the plain types of those operands. Index operands are bounded (R14 to R16), so an index outside
the hardware cannot be written down; what else an operand must satisfy stands in WellFormed.lean.
-/

namespace Sys2Proof

/-- A transport of the dictionary (R401, R413): the PCIe mailbox or a CAN port. -/
inductive Transport
  | mailbox | can0 | can1
deriving DecidableEq, Repr

/-- The monitored rails of R463. -/
inductive Rail
  | vcore | vaux
deriving DecidableEq, Repr

/-- A stage of R64: a unit, a launch gate (R149) or one of the four stages of a die-link channel (R109). -/
inductive StageRef
  | unit (u : Fin 16777216)
  | gate (g : Fin 8192)
  | link (r : Fin 512) (j : Fin 128) (k : Fin 4)
deriving DecidableEq, Repr

/-- The source of a channel: what drives its rails. -/
inductive Chan
  | unit (u : Fin 16777216)
  | gate (g : Fin 8192)
  | link (r : Fin 512) (j : Fin 128) (k : Fin 4)
  | bankResp (n : Fin 2048) (portB : Bool) (bit : Fin 68)
  | traceResp (r : Fin 512) (bit : Fin 65)
  | block (r : Fin 512) (n : Fin 4096)
deriving DecidableEq, Repr

/-- A receiver of channels: what takes a token and raises an acknowledge (R55, R57). -/
inductive Taker
  | unit (u : Fin 16777216)
  | gate (g : Fin 8192)
  | link (r : Fin 512) (j : Fin 128) (k : Fin 4)
  | bankPort (n : Fin 2048) (portB : Bool)
  | traceWrite (r : Fin 512)
  | traceRead (r : Fin 512)
  | queuePort (p : Fin 1024)
  | enginePort (r : Fin 512)
  | hostPort (r : Fin 512)
  | laneSlice (n : Fin 64) (s : Fin 4)
  | pinOut (s : Fin 384)
  | pinOe (s : Fin 384)
  | userEvent (u : Fin 512)
  | collar (r : Fin 512) (c : Chan)
  /-- The end of a line or vertical channel that nothing selects: it takes every token at once (R97). -/
  | nowhere
deriving DecidableEq, Repr

/-- A host-visible function of the endpoint (R380). -/
inductive Fn
  | pf0 | pf1 | vf (v : Fin 64)
deriving DecidableEq, Repr

/-- Why a function's MSI-X messages wait: its function mask, MSI-X disabled, Bus Master Enable 0, or D3hot (R503). -/
inductive FnBlock
  | mask | disabled | noBusMaster | d3hot
deriving DecidableEq, Repr

/-- What the host masks or lets send: an MSI-X table entry, by its global vector, or a function (R503). -/
inductive MsixBlock
  | entry (v : BitVec 11)
  | function (f : Fn) (why : FnBlock)
deriving DecidableEq, Repr

/-- A register of a function's configuration space (R376, R380, R396, R503). -/
inductive CfgReg
  | ids | classCode | bar (i : Fin 3) | command | power | msix | link | ecrc
deriving DecidableEq, Repr

/-- A place that the host reads or writes: one to eight bytes of BAR0, BAR2 or BAR4, or a register of the configuration
space. -/
inductive HostPlace
  | memory (bar : Fin 3) (off : BitVec 32) (more : Fin 8)
  | config (r : CfgReg)
deriving DecidableEq, Repr

/-- An access of the host: the function it is made to, its place, and the data of a write; none: a read. -/
structure HostAccess where
  fn : Fn
  place : HostPlace
  data : Option (BitVec 64)
deriving DecidableEq, Repr

/-- A stream source of R275. -/
inductive Source
  | aperture | port
deriving DecidableEq, Repr

/-- What the link entry's SECDED finds, and the bits that an upset has flipped in the word read (R205, R206). -/
structure PoolFault where
  correctedLink : Bool
  badLink : Bool
  flips : BitVec 65
deriving DecidableEq, Repr

/-- A fabric channel port of an engine or of the host, by its region (R254, R386). -/
inductive PortRef
  | engine (r : Fin 512)
  | host (r : Fin 512)
deriving DecidableEq, Repr

/-- The results that Survey's tests find (R476, R477). -/
structure SurveyResult where
  fuseGood : Bool
  mirrorGood : Bool
  columns : List (Fin 2048 × Fin 72)
  subBanks : List (Fin 128)
  engines : List (Fin 132)
  lanes : List (Fin 64)
deriving DecidableEq, Repr

/-- The kind of a bridge (R317). -/
inductive BridgeKind
  | status | data | pulse
deriving DecidableEq, Repr

/-- A bridge: its kind, the domain numbers of its two sides (none for a self-timed side, R314) and its number among the
bridges between those sides. -/
structure BridgeId where
  kind : BridgeKind
  src : Option (Fin 108)
  dst : Option (Fin 108)
  slot : Fin 4096
deriving DecidableEq, Repr

/-- What resets the endpoint (R379). -/
inductive LinkReset
  | perst | hot | linkDown
deriving DecidableEq, Repr

/-- One 66-bit block of a lane as received (R335, R336, R341): its header, its payload as the line or the FEC decoder gives it, and
whether it lies in an uncorrectable FEC codeword. -/
structure Block where
  hdr : BitVec 2
  payload : BitVec 64
  fecBad : Bool
deriving DecidableEq, Repr

/-- What a lane receives in one transfer's time: its blocks, and the symbols that were in error in each FEC codeword that ends
with them (R337, R341). -/
structure RxLine where
  blocks : List Block
  words : List Nat
deriving DecidableEq, Repr

/-- What an Ethernet lane completes or times out in (R369). -/
inductive EthEvent
  | cdrLocked | cdrTimeout | fecLocked | lockTimeout
deriving DecidableEq, Repr

/-- A CAN FD frame with a 29-bit identifier (R420, R421). -/
structure CanFrame where
  ident : BitVec 29
  data : List Byte
deriving DecidableEq, Repr

/-- A channel whose faults the supervisor counts (R483). -/
inductive FaultChannel
  | column (n : Fin 2048) (b : Fin 72)
  | bank (n : Fin 2048)
  | engine (p : Fin 132)
  | subBank (b : Fin 128)
  | lane (n : Fin 64)
  | facet (r : Fin 512)
deriving DecidableEq, Repr

/-- A kind of background test (R482): the codes 1 to 6 of TEST[15:12]. -/
inductive TestKind
  | bank | engine | lane | pll | monitor | sensor
deriving DecidableEq, Repr

/-- A background self-test slice: it starts (and borrows its block), or it ends, perhaps as the last of its test, with the
test's figures and the self-test image's (R478, R479), and the bit position at which a failing march failed (R483). -/
structure Slice where
  kind : TestKind
  target : BitVec 12
  starts : Bool
  last : Bool
  coverage : W32
  misr : W64
  wantSlices : W32
  wantCoverage : W32
  wantMisr : W64
  position : Fin 72
deriving DecidableEq, Repr

/-- A request of R407 as a transport delivers it. -/
inductive ReqOp
  | read | write | describe
deriving DecidableEq, Repr

/-- The sixteen bits of a VIO class (R435, R453). -/
inductive VioClass
  | absent | v12 | v15 | v18 | outOfRange
deriving DecidableEq, Repr

/-- The commands of the block: the rows of spec/opcode_table.json, in the table's order. -/
inductive Instr
  | powerUp (ndId : BitVec 7) (pstrap : BitVec 8) (imagesGood : Bool)
  | supplyRemoval
  | pwrgdLow
  | resetNLow
  | resetNHigh (ndId : BitVec 7) (pstrap : BitVec 8)
  | railBelowReset (rail : Rail) (mv : W16)
  | vcoreWarning (rail : Rail) (mv : W16)
  | sagRecovered (rail : Rail) (mv : W16)
  | resetRequest (t : Transport)
  | fullReloadRequest (t : Transport)
  | runRequest (t : Transport)
  | sentinelRequest (t : Transport)
  | holdLatchWrite (t : Transport) (v : Byte)
  | sentinelDrainQuiet
  | drainLimitExpiry (active : List (Fin 512))
  | temperatureSweep (readings : List Int)
  | thermalTrip
  | thermalTripClear
  | integrityCheck (altered : Bool)
  | quarantine (t : Transport) (slot : Fin 4) (sig : List Byte)
  | securityIsolate (t : Transport) (slot : Fin 4) (sig : List Byte) (r : Fin 512)
  | securityRelease (t : Transport) (slot : Fin 4) (sig : List Byte) (r : Fin 512)
  | surveyStepDone (res : SurveyResult)
  | stageCapture (u : StageRef)
  | stageInputsSpacer (k : Taker)
  | stageOffer (u : StageRef)
  | stageAcknowledged (c : Chan)
  | transparentEvaluate (u : Fin 16777216)
  | illegalCode (c : Chan) (r : Fin 512)
  | regionReset (t : Transport) (v : W16)
  | lensSample (r : Fin 512)
  | noProgressWindowEnd (r : Fin 512)
  | noProgressWindowWrite (t : Transport) (v : W32)
  | collarIsolate (t : Transport) (r : Fin 512)
  | collarIsolationComplete (r : Fin 512)
  | collarOpen (t : Transport) (r : Fin 512)
  | collarPolicyWrite (t : Transport) (r : Fin 512) (v : Byte)
  | inboundDrain (r : Fin 512) (c : Chan)
  | setTime (t : Transport) (v : BitVec 80)
  | phaseCorrection (t : Transport) (v : W32)
  | rateAdjust (t : Transport) (v : W32)
  | disciplineSelect (t : Transport) (v : Byte)
  | ppsInEdge
  | ppsHoldover
  | ppsOutRise
  | ppsOutFall
  | twoStepEntryRead (t : Transport)
  | wavefrontTick
  | timeWord (r : Fin 512) (w : W64)
  | wavefrontCalibration (r : Fin 512) (good : Bool) (delay : W16)
  | gateConfigWrite (t : Transport) (g : Fin 8192) (v : W64)
  | epochOriginWrite (t : Transport) (r : Fin 512) (v : W64)
  | bankWrite (t : Transport) (blob : List Byte)
  | commit (t : Transport) (g : W16) (bank : Byte) (epoch : W32)
  | uncommit (t : Transport) (g : W16) (bank : Byte)
  | decisionInstant (g : Fin 8192)
  | epochStart (g : Fin 8192)
  | overlapLimit (g : Fin 8192)
  | gateCapture (g : Fin 8192)
  | gateSetup (g : Fin 8192)
  | gateRelease (g : Fin 8192)
  | lateRelease (g : Fin 8192)
  | timeMessageSend
  | timeMessage (n : Fin 64) (kind : Byte) (sent : BitVec 80) (fraction : W16)
  | followerHoldover
  | bankRequest (n : Fin 2048) (portB : Bool)
  | bankGrant (n : Fin 2048)
  | dualPortCycle (n : Fin 2048)
  | bankAccessComplete (n : Fin 2048) (flips : BitVec 72)
  | hostBankRead (off : BitVec 29) (len : W16)
  | hostBankWrite (off : BitVec 27) (data : List Byte)
  | hostBankSet (off : BitVec 27) (data : List Byte)
  | hostBankClear (off : BitVec 27) (data : List Byte)
  | targetOn (t : Transport) (n : Fin 2048)
  | targetRetain (t : Transport) (n : Fin 2048)
  | targetOff (t : Transport) (n : Fin 2048)
  | targetDeepRetain (t : Transport) (n : Fin 2048)
  | bankIdleExpiry (n : Fin 2048)
  | bankWakeComplete (n : Fin 2048)
  | softRepairWrite (t : Transport) (n : Fin 2048) (v : W32)
  | columnRebuildAccess (n : Fin 2048)
  | bankCauseEnableWrite (t : Transport) (v : Byte)
  | push (a : BitVec 12) (q : BitVec 12) (d : W64)
  | pushAndClose (a : BitVec 12) (q : BitVec 12) (d : W64)
  | pop (a : BitVec 12) (q : BitVec 12) (f : PoolFault)
  | peek (a : BitVec 12) (q : BitVec 12) (f : PoolFault)
  | abort (a : BitVec 12) (q : BitVec 12)
  | queueFlush (t : Transport) (q : BitVec 12)
  | queueControlWrite (t : Transport) (q : BitVec 12) (v : W64)
  | limitsWrite (t : Transport) (q : BitVec 12) (v : W64)
  | linkSweep
  | traceWrite (r : Fin 512)
  | tracePop (r : Fin 512)
  | tracePeek (r : Fin 512)
  | traceHostPop (t : Transport) (r : Fin 512)
  | add (n : Fin 128)
  | sub (n : Fin 128)
  | and (n : Fin 128)
  | ior (n : Fin 128)
  | eor (n : Fin 128)
  | mlo (n : Fin 128)
  | cmps (n : Fin 128)
  | cmpu (n : Fin 128)
  | shl (n : Fin 128)
  | shr (n : Fin 128)
  | sha (n : Fin 128)
  | addk (n : Fin 128)
  | andk (n : Fin 128)
  | iork (n : Fin 128)
  | eork (n : Fin 128)
  | high (n : Fin 128)
  | shlk (n : Fin 128)
  | shrk (n : Fin 128)
  | shak (n : Fin 128)
  | jeq (n : Fin 128)
  | jne (n : Fin 128)
  | jls (n : Fin 128)
  | jgs (n : Fin 128)
  | jlu (n : Fin 128)
  | jgu (n : Fin 128)
  | call (n : Fin 128)
  | jumpr (n : Fin 128)
  | ldw (n : Fin 128)
  | ldb (n : Fin 128)
  | ldp (n : Fin 128)
  | stw (n : Fin 128)
  | stb (n : Fin 128)
  | stp (n : Fin 128)
  | qpush (n : Fin 128)
  | qpushc (n : Fin 128)
  | qpop (n : Fin 128)
  | qpeek (n : Fin 128)
  | qabort (n : Fin 128)
  | bset (n : Fin 128)
  | bclr (n : Fin 128)
  | trd (n : Fin 128)
  | twait (n : Fin 128)
  | twaitTargetReached (n : Fin 128)
  | gent (n : Fin 128)
  | garm (n : Fin 128)
  | send (n : Fin 128)
  | recv (n : Fin 128)
  | poll (n : Fin 128)
  | evr (n : Fin 128)
  | fence (n : Fin 128)
  | rdspec (n : Fin 128)
  | halt (n : Fin 128)
  | tagCompletion (n : Fin 128) (tag : Fin 8) (f : PoolFault)
  | portReceiveCapture (p : PortRef)
  | portSendAcknowledged (p : PortRef)
  | start (t : Transport) (n : Fin 128)
  | stop (t : Transport) (n : Fin 128)
  | resume (t : Transport) (n : Fin 128)
  | stagingWrite (t : Transport) (off : W32) (data : List Byte)
  | imageWindowWrite (off : BitVec 17) (data : List Byte)
  | stagingClear (t : Transport)
  | install (t : Transport) (mask : BitVec 128)
  | installComplete
  | rotation
  | migrationCopyDone (g : Fin 4)
  | streamApertureWrite (data : List Byte)
  | cfgPortByte (b : Option Byte)
  | discardRunEnd (src : Source)
  | headerFirstByte (src : Source) (b : Byte)
  | streamHeader
  | frame
  | loadSilence
  | loaderResync
  | loadAbort (t : Transport)
  | endChecksComplete
  | signerKeyWrite (t : Transport) (slot : Fin 4) (key : List Byte)
  | revokeSlot (t : Transport) (slot : Fin 4) (sig : List Byte) (target : Byte)
  | revocationBlown
  | batteryKeyWrite (t : Transport) (slot : Fin 4) (sig : List Byte) (key : BitVec 256)
  | batteryKeyErase (t : Transport) (slot : Fin 4) (sig : List Byte)
  | scrubFrame (f : Fin 393216) (flips : BitVec 4096) (mirrorGood : Bool)
  | attestationStart (t : Transport) (nonce : List Byte)
  | attestationReady
  | bridgeCapture (b : BridgeId) (v : W64)
  | bridgeDeliver (b : BridgeId)
  | bridgeFree (b : BridgeId)
  | sourcePulse (b : BridgeId)
  | bridgeReset (b : BridgeId) (source : Bool) (release : Bool)
  | clockDeparture (d : Fin 108)
  | clockRecovery (d : Fin 108) (khz : BitVec 21)
  | t0Burst (n : Fin 64)
  | signalDetect (n : Fin 64)
  | cdrLock (n : Fin 64)
  | blockLock (n : Fin 64)
  | lossOfLock (n : Fin 64)
  | lossOfSignal (n : Fin 64)
  | trainingTimeout (n : Fin 64)
  | absentTimeout (n : Fin 64)
  | equaliserConverged (n : Fin 64)
  | prbsCheckEnd (n : Fin 64) (errors : W32)
  | mark (n : Fin 64) (count : Byte) (bseq : W16) (live : Bool)
  | capability (n : Fin 64) (content : BitVec 56)
  | rate (n : Fin 64) (proposed : Byte) (fec : Bool)
  | verify (n : Fin 64) (v : Byte)
  | lowPower (n : Fin 64) (state : Byte)
  | bond (n : Fin 64) (k : W16) (tx : W16) (rx : W16)
  | unknownLinkBlock (n : Fin 64) (ty : Byte)
  | maintenanceTransfer (n : Fin 64)
  | laneTxTransfer (n : Fin 64)
  /-- `words` are the codewords whose decoding ends with the transfer, each by its count of symbols in error (R337, R368). -/
  | laneRxTransfer (n : Fin 64) (x : RxLine)
  | marginSample (n : Fin 64) (m : W16)
  | shortRetrainEnd (n : Fin 64) (m : W16)
  | adaptationSlowdown (n : Fin 64)
  | bondSwitchPoint (b : Fin 16) (receive : Bool)
  | enable (t : Transport) (n : Fin 64) (v : Bool)
  | restart (t : Transport) (n : Fin 64)
  | clearcap (t : Transport) (n : Fin 64)
  | lp (t : Transport) (n : Fin 64) (v : BitVec 2)
  | maxrate (t : Transport) (n : Fin 64) (v : BitVec 3)
  | fecReq (t : Transport) (n : Fin 64) (v : Bool)
  | txeq (t : Transport) (n : Fin 64) (v : BitVec 4)
  | loop (t : Transport) (n : Fin 64) (v : BitVec 2)
  | pattern (t : Transport) (n : Fin 64) (v : BitVec 2)
  | txIdle (t : Transport) (n : Fin 64) (v : Bool)
  | bondMembersWrite (t : Transport) (b : Fin 16) (v : W64)
  | portMapWrite (t : Transport) (e : Fin 8) (v : W32)
  | ethernetLock (n : Fin 64) (ev : EthEvent)
  | hostLinkReset
  | flr (f : Fn)
  | linkStateChange (v : BitVec 13)
  | regionPortSend (f : Fn) (r : Fin 512) (d : W64)
  | regionPortRecv (f : Fn) (r : Fin 512)
  /-- A read, or a write of `data`. A place that a row of its own serves answers as that row does. -/
  | unmappedAccess (x : HostAccess)
  | sqTail (f : Fn) (c : Fin 32) (v : W32)
  | cqHead (f : Fn) (c : Fin 32) (v : W32)
  | descriptorStart (c : Fin 32) (fetched : Option (List Byte))
  | hostToQueue (tag : Byte) (data : Option (List Byte))
  | queueToHost (tag : Byte) (f : PoolFault)
  | hostToBank (tag : Byte) (data : Option (List Byte))
  | bankToHost (tag : Byte)
  | hostToStream (tag : Byte) (data : Option (List Byte))
  | descriptorFinish (tag : Byte)
  | dmaEnable (t : Transport) (c : Fin 32)
  | dmaDisable (t : Transport) (c : Fin 32)
  | read (t : Transport) (index : W16) (sub : Byte)
  | write (t : Transport) (index : W16) (sub : Byte) (data : List Byte)
  | describe (t : Transport) (index : W16) (sub : Byte)
  | doorbell (v : W32) (area : List Byte)
  | canRequestFrame (p : Fin 2) (f : CanFrame)
  | canSegmentTimeout (p : Fin 2)
  | notice (p : Fin 2)
  | canPortDisable (t : Transport) (p : Fin 2)
  | busOffRecovery (p : Fin 2)
  | sealedCommand (t : Transport) (blob : List Byte)
  | publishedAccess (t : Transport) (op : ReqOp) (index : BitVec 12) (sub : Byte) (data : List Byte)
  | publicationEntryWrite (t : Transport) (e : Fin 128) (v : W64)
  | pinConfigWrite (t : Transport) (p : Fin 384) (v : W64)
  | latchRelease (p : Fin 384)
  | latchTimeout (p : Fin 384)
  | pinOutputToken (s : Fin 384) (oe : Bool)
  | pinInputChange (p : Fin 384) (level : Bool)
  | pinSample (p : Fin 384)
  | vioClassChange (k : Fin 8) (c : VioClass)
  | supervisorPinRelease (t : Transport) (slot : Fin 4) (sig : List Byte) (p : W16)
  | voltageWindowEnd (pref : List (Fin 512 × W16)) (groupPref : List W16)
  | selftestSlice (sl : Slice)
  | lendableWrite (t : Transport) (mask : List Byte)
  | faultRetry (ch : FaultChannel) (again : Bool)
  | faultWindowClose (ch : FaultChannel)
  | retireRequest (t : Transport) (entry : W64)
  | fuseRepair (t : Transport) (slot : Fin 4) (sig : List Byte) (entry : W64)
  | fuseBlowComplete
  | fabricUserEvent (u : Fin 128)
  | pulseRawEnd (src : Fin 640)
  | statusClear (t : Transport) (mask : List Byte)
  | eventControlWrite (t : Transport) (src : Fin 640) (v : W32)
  | msixUnblock (b : MsixBlock)
  | phySupplyOutOfRange (vphy vphyh : W16)
  | phySupplyReturn (vphy vphyh : W16)
  | vbatLoss (mv : W16)
  | busError (p : Fin 2) (tec rec : W16)
  | aerError (correctable : Bool)
  | msixMask (b : MsixBlock)
  | vfEnable (numVfs : BitVec 7)
deriving DecidableEq, Repr

end Sys2Proof
end

