-- ==== Sys2Proof/Machine/Table.lean ====
section
/-!
DEFINITION. Sparse tables: every array of the hardware (memory words, registers, units, frames) held as a list of
(key, value) pairs in one canonical form: keys strictly rising, no entry equal to what an unlisted key reads as.
-/

namespace Sys2Proof

/-- A sparse array: what an unlisted key holds is given by the default function of its accessors. -/
abbrev Table (α : Type) := List (Nat × α)

namespace Table

variable {α : Type}

/-- The value at key `k`; an unlisted key holds `d k`. -/
def get (d : Nat → α) : Table α → Nat → α
  | [], k => d k
  | (j, v) :: rest, k => if j = k then v else get d rest k

/-- The table with every entry of key `k` taken out. -/
def erase : Table α → Nat → Table α
  | [], _ => []
  | (j, v) :: rest, k => if j = k then erase rest k else (j, v) :: erase rest k

/-- The table with an entry put before the first entry of a larger key. -/
def place : Table α → Nat → α → Table α
  | [], k, v => [(k, v)]
  | (j, w) :: rest, k, v => if k < j then (k, v) :: (j, w) :: rest else (j, w) :: place rest k v

/-- Write `v` at key `k`. Writing the value an unlisted key holds removes the entry. -/
def put [DecidableEq α] (d : Nat → α) (t : Table α) (k : Nat) (v : α) : Table α :=
  if v = d k then erase t k else place (erase t k) k v

/-- The table with every key for which `p` holds returned to its default. -/
def clear (p : Nat → Bool) (t : Table α) : Table α := t.filter fun e => !p e.1

/-- Every listed key is above `b` and the keys rise strictly. -/
def rises : Option Nat → Table α → Bool
  | _, [] => true
  | b, (j, _) :: rest => (match b with | none => true | some i => decide (i < j)) && rises (some j) rest

/-- The canonical form: keys strictly rising, no entry equal to what an unlisted key holds. -/
def wf [DecidableEq α] (d : Nat → α) (t : Table α) : Bool :=
  rises none t && t.all fun e => decide (e.2 ≠ d e.1)

/-- Apply `f` to the value at key `k`. -/
def modify [DecidableEq α] (d : Nat → α) (t : Table α) (k : Nat) (f : α → α) : Table α :=
  put d t k (f (get d t k))

end Table

end Sys2Proof
end

