-- ==== Sys2Proof/Machine/Crypto.lean ====
section
/-!
DEFINITION. The published algorithms the spec names and does not print: SHA-256 (FIPS 180-4), the verification of
RSASSA-PSS with MGF1 (PKCS #1 v2.2, for the 3,072-bit keys of R264, R278, R426), AES-256-GCM (FIPS 197 and SP 800-38D,
for R285); and the CRC-32C of R279, which the spec gives in full. Log entry 10.
-/

namespace Sys2Proof.Machine.Crypto

/-! ### Octet strings and numbers -/

/-- The `n` octets of a number, first octet least significant (R10). -/
def bytesLE : Nat → Nat → List Byte
  | 0, _ => []
  | n + 1, v => BitVec.ofNat 8 v :: bytesLE n (v / 256)

/-- The number of little-endian octets. -/
def natLE : List Byte → Nat
  | [] => 0
  | b :: rest => b.toNat + 256 * natLE rest

/-- The number of big-endian octets. -/
def natBE (bs : List Byte) : Nat := natLE bs.reverse

/-- The `n` big-endian octets of a number. -/
def bytesBE (n v : Nat) : List Byte := (bytesLE n v).reverse

/-- Exclusive or of two octet strings, as long as the shorter. -/
def xorBytes (a b : List Byte) : List Byte := List.zipWith (fun x y => x ^^^ y) a b

/-- The pieces of `n` octets of a string, the last one perhaps shorter; `fuel` bounds their number. -/
def chunks (n : Nat) : Nat → List Byte → List (List Byte)
  | 0, _ => []
  | _, [] => []
  | fuel + 1, bs => bs.take n :: chunks n fuel (bs.drop n)

/-! ### CRC-32C (R279) -/

/-- One bit of the reflected Castagnoli division. -/
def crcBit (c : Nat) : Nat := if c % 2 = 1 then (c / 2) ^^^ 0x82F63B78 else c / 2

/-- One octet of the reflected Castagnoli division. -/
def crcByte (c : Nat) (b : Byte) : Nat :=
  crcBit (crcBit (crcBit (crcBit (crcBit (crcBit (crcBit (crcBit (c ^^^ b.toNat))))))))

/-- The division register after the octets of a string. -/
def crcUpdate (c : Nat) (bs : List Byte) : Nat := bs.foldl crcByte c

/-- The initial value of the division register (R279). -/
def crcInit : Nat := 0xFFFFFFFF

/-- The final XOR (R279). -/
def crcFinal (c : Nat) : W32 := BitVec.ofNat 32 (c ^^^ 0xFFFFFFFF)

/-- CRC-32C of a string of octets (R279). -/
def crc32c (bs : List Byte) : W32 := crcFinal (crcUpdate crcInit bs)

/-! ### SHA-256 -/

/-- Addition modulo 2^32. -/
def add32 (a b : Nat) : Nat := (a + b) % 4294967296

/-- Rotation of a 32-bit number to the right. -/
def rotr (n x : Nat) : Nat := (x / 2 ^ n) ||| ((x * 2 ^ (32 - n)) % 4294967296)

/-- The 64 round constants of SHA-256. -/
def shaK : List Nat :=
  [0x428A2F98, 0x71374491, 0xB5C0FBCF, 0xE9B5DBA5, 0x3956C25B, 0x59F111F1, 0x923F82A4, 0xAB1C5ED5, 0xD807AA98, 0x12835B01, 0x243185BE, 0x550C7DC3, 0x72BE5D74, 0x80DEB1FE, 0x9BDC06A7, 0xC19BF174]
  ++ [0xE49B69C1, 0xEFBE4786, 0x0FC19DC6, 0x240CA1CC, 0x2DE92C6F, 0x4A7484AA, 0x5CB0A9DC, 0x76F988DA, 0x983E5152, 0xA831C66D, 0xB00327C8, 0xBF597FC7, 0xC6E00BF3, 0xD5A79147, 0x06CA6351, 0x14292967]
  ++ [0x27B70A85, 0x2E1B2138, 0x4D2C6DFC, 0x53380D13, 0x650A7354, 0x766A0ABB, 0x81C2C92E, 0x92722C85, 0xA2BFE8A1, 0xA81A664B, 0xC24B8B70, 0xC76C51A3, 0xD192E819, 0xD6990624, 0xF40E3585, 0x106AA070]
  ++ [0x19A4C116, 0x1E376C08, 0x2748774C, 0x34B0BCB5, 0x391C0CB3, 0x4ED8AA4A, 0x5B9CCA4F, 0x682E6FF3, 0x748F82EE, 0x78A5636F, 0x84C87814, 0x8CC70208, 0x90BEFFFA, 0xA4506CEB, 0xBEF9A3F7, 0xC67178F2]

/-- The initial hash value of SHA-256. -/
def shaInit : List Nat :=
  [0x6A09E667, 0xBB67AE85, 0x3C6EF372, 0xA54FF53A, 0x510E527F, 0x9B05688C, 0x1F83D9AB, 0x5BE0CD19]

/-- Extend a message schedule, held newest word first, by `n` words. -/
def shaSchedule : Nat → List Nat → List Nat
  | 0, w => w
  | n + 1, w =>
    let w2 := w.getD 1 0
    let w7 := w.getD 6 0
    let w15 := w.getD 14 0
    let w16 := w.getD 15 0
    let s1 := (rotr 17 w2 ^^^ rotr 19 w2) ^^^ (w2 / 1024)
    let s0 := (rotr 7 w15 ^^^ rotr 18 w15) ^^^ (w15 / 8)
    shaSchedule n (add32 (add32 s1 w7) (add32 s0 w16) :: w)

/-- The rounds of SHA-256 over the schedule and the constants. -/
def shaRounds : List Nat → List Nat → Nat → Nat → Nat → Nat → Nat → Nat → Nat → Nat → List Nat
  | w :: ws, k :: ks, a, b, c, d, e, f, g, h =>
    let t1 := add32 (add32 h ((rotr 6 e ^^^ rotr 11 e) ^^^ rotr 25 e))
      (add32 ((e &&& f) ^^^ ((e ^^^ 0xFFFFFFFF) &&& g)) (add32 k w))
    let t2 := add32 ((rotr 2 a ^^^ rotr 13 a) ^^^ rotr 22 a) (((a &&& b) ^^^ (a &&& c)) ^^^ (b &&& c))
    shaRounds ws ks (add32 t1 t2) a b c (add32 d t1) e f g
  | _, _, a, b, c, d, e, f, g, h => [a, b, c, d, e, f, g, h]

/-- The compression of one 64-octet block. -/
def shaBlock (hs : List Nat) (blk : List Byte) : List Nat :=
  let w := (chunks 4 16 blk).map natBE
  let ws := (shaSchedule 48 w.reverse).reverse
  List.zipWith add32 hs
    (shaRounds ws shaK (hs.getD 0 0) (hs.getD 1 0) (hs.getD 2 0) (hs.getD 3 0) (hs.getD 4 0) (hs.getD 5 0) (hs.getD 6 0)
      (hs.getD 7 0))

/-- The padded message of SHA-256. -/
def shaPad (m : List Byte) : List Byte :=
  m ++ 0x80#8 :: List.replicate ((119 - m.length % 64) % 64) 0#8 ++ bytesBE 8 (8 * m.length)

/-- SHA-256: the 32 octets of the digest, in the standard's order. -/
def sha256 (m : List Byte) : List Byte :=
  let p := shaPad m
  ((chunks 64 (p.length / 64) p).foldl shaBlock shaInit).flatMap (bytesBE 4)

/-! ### RSASSA-PSS verification -/

/-- `n` octets of the MGF1 mask with SHA-256, `k` blocks from block `i`. -/
def mgf1Blocks (seed : List Byte) : Nat → Nat → List Byte
  | 0, _ => []
  | k + 1, i => sha256 (seed ++ bytesBE 4 i) ++ mgf1Blocks seed k (i + 1)

/-- The first 351 octets of the mask: the length of DB for a 3,072-bit modulus and a 32-octet digest. -/
def mgf1 (seed : List Byte) : List Byte := (mgf1Blocks seed 11 0).take 351

/-- `n` squarings modulo `m`. -/
def squarings (m : Nat) : Nat → Nat → Nat
  | 0, x => x
  | n + 1, x => squarings m n (x * x % m)

/-- The public operation with the exponent 65,537 (R287). -/
def rsaPublic (m x : Nat) : Nat := squarings m 16 x * x % m

/-- RSASSA-PSS verification with SHA-256, MGF1 with SHA-256 and a 32-octet salt (R264): `modulus` and `sig` are the
big-endian octet strings of 384 octets, `mHash` the SHA-256 of the message. -/
def pssVerifyHash (modulus : List Byte) (mHash sig : List Byte) : Bool :=
  let n := natBE modulus
  let s := natBE sig
  let em := bytesBE 384 (rsaPublic n s)
  let maskedDb := em.take 351
  let h := (em.drop 351).take 32
  let db := xorBytes maskedDb (mgf1 h)
  let db0 := db.head?.getD 0#8 &&& 0x7F#8
  let salt := db.drop 319
  decide (s < n) && decide (sig.length = 384) && decide (em.getLast? = some 0xBC#8)
    && decide (maskedDb.head?.getD 0#8 &&& 0x80#8 = 0#8)
    && decide (db0 :: (db.drop 1).take 318 = List.replicate 318 0#8 ++ [1#8])
    && decide (h = sha256 (List.replicate 8 0#8 ++ mHash ++ salt))

/-- RSASSA-PSS verification of a message. -/
def pssVerify (modulus msg sig : List Byte) : Bool := pssVerifyHash modulus (sha256 msg) sig

/-! ### AES-256 -/

/-- The S-box of AES: entry `i` in bits `8 i + 7` to `8 i`. -/
def aesSboxTable : Nat :=
  ((0x16bb54b00f2d99416842e6bf0d89a18cdf2855cee9871e9b948ed9691198f8e19e1dc186b95735610ef6034866b53e708a8bbd4b1f74dde8c6b4a61c2e2578ba * 2 ^ 512
    + 0x08ae7a65eaf4566ca94ed58d6d37c8e779e4959162acd3c25c2406490a3a32e0db0b5ede14b8ee4688902a22dc4f816073195d643d7ea7c41744975fec130ccd) * 2 ^ 512
    + 0xd2f3ff1021dab6bcf5389d928f40a351a89f3c507f02f94585334d43fbaaefd0cf584c4a39becb6a5bb1fc20ed00d153842fe329b3d63b52a05a6e1b1a2c8309) * 2 ^ 512
    + 0x75b227ebe28012079a059618c323c7041531d871f1e5a534ccf73f362693fdb7c072a49cafa2d4adf04759fa7dc982ca76abd7fe2b670130c56f6bf27b777c63

/-- The S-box of AES. -/
def sbox (x : Nat) : Nat := aesSboxTable / 2 ^ (8 * x) % 256

/-- Multiplication by x in the field of AES. -/
def xtime (x : Nat) : Nat := if x < 128 then 2 * x else (2 * x % 256) ^^^ 0x1B

/-- Extend an AES-256 key schedule, held newest word (four octets) first, by `n` words from word number `i`. -/
def aesExpand : Nat → Nat → Nat → List (List Nat) → List (List Nat)
  | 0, _, _, w => w
  | n + 1, i, rc, w =>
    let prev := w.getD 0 []
    let old := w.getD 7 []
    let t :=
      if i % 8 = 0 then
        let r := (prev.drop 1 ++ prev.take 1).map sbox
        List.zipWith (fun x y => x ^^^ y) r [rc, 0, 0, 0]
      else if i % 8 = 4 then prev.map sbox
      else prev
    aesExpand n (i + 1) (if i % 8 = 0 then xtime rc else rc) (List.zipWith (fun x y => x ^^^ y) old t :: w)

/-- The 15 round keys of an AES-256 key, 16 octets each. -/
def aesRoundKeys (key : List Byte) : List (List Nat) :=
  let w0 := (chunks 4 8 key).map fun c => c.map BitVec.toNat
  let ws := (aesExpand 52 8 1 w0.reverse).reverse
  (List.range 15).map fun i => (ws.drop (4 * i)).take 4 |>.flatten

/-- ShiftRows on the 16 octets of a state in column order. -/
def shiftRows (s : List Nat) : List Nat :=
  (List.range 16).map fun i => s.getD ((i + 4 * (i % 4)) % 16) 0

/-- MixColumns on one column. -/
def mixColumn (c : List Nat) : List Nat :=
  let a := c.getD 0 0
  let b := c.getD 1 0
  let d := c.getD 2 0
  let e := c.getD 3 0
  let t := ((a ^^^ b) ^^^ d) ^^^ e
  [(a ^^^ t) ^^^ xtime (a ^^^ b), (b ^^^ t) ^^^ xtime (b ^^^ d), (d ^^^ t) ^^^ xtime (d ^^^ e), (e ^^^ t) ^^^ xtime (e ^^^ a)]

/-- MixColumns on the state. -/
def mixColumns (s : List Nat) : List Nat :=
  mixColumn (s.take 4) ++ mixColumn ((s.drop 4).take 4) ++ mixColumn ((s.drop 8).take 4) ++ mixColumn (s.drop 12)

/-- The rounds of AES over the remaining round keys; the last one mixes no columns. -/
def aesRounds : List (List Nat) → List Nat → List Nat
  | [], s => s
  | [k], s => List.zipWith (fun x y => x ^^^ y) (shiftRows (s.map sbox)) k
  | k :: ks, s => aesRounds ks (List.zipWith (fun x y => x ^^^ y) (mixColumns (shiftRows (s.map sbox))) k)

/-- AES-256 encryption of one block under its round keys. -/
def aesEncrypt (rks : List (List Nat)) (blk : List Byte) : List Byte :=
  (aesRounds (rks.drop 1) (List.zipWith (fun x y => x ^^^ y) (blk.map BitVec.toNat) (rks.getD 0 []))).map (BitVec.ofNat 8)

/-! ### GCM -/

/-- The product in GF(2^128) of GCM: bits of `x` from the most significant, `n` of them left. -/
def ghashMul (x : Nat) : Nat → Nat → Nat → Nat
  | 0, _, z => z
  | n + 1, v, z =>
    let z' := if x / 2 ^ n % 2 = 1 then z ^^^ v else z
    ghashMul x n (if v % 2 = 1 then (v / 2) ^^^ (0xE1 * 2 ^ 120) else v / 2) z'

/-- One step of GHASH: absorb a 16-octet block (padded with zeros). -/
def ghashStep (h : Nat) (y : Nat) (blk : List Byte) : Nat :=
  ghashMul (y ^^^ natBE ((blk ++ List.replicate 16 0#8).take 16)) 128 h 0

/-- GHASH over a string of octets, in blocks of 16. -/
def ghash (h y : Nat) (bs : List Byte) : Nat := (chunks 16 (bs.length / 16 + 1) bs).foldl (ghashStep h) y

/-- The hash subkey of a key. -/
def gcmH (key : List Byte) : Nat := natBE (aesEncrypt (aesRoundKeys key) (List.replicate 16 0#8))

/-- The key stream of `n` counter blocks from counter `c` for a 96-bit IV. -/
def gcmStream (rks : List (List Nat)) (iv : List Byte) : Nat → Nat → List Byte
  | 0, _ => []
  | n + 1, c => aesEncrypt rks (iv ++ bytesBE 4 c) ++ gcmStream rks iv n (c + 1)

/-- Decrypt the payload of the `i`-th accepted frame: counter blocks 2 + 32 i to 33 + 32 i (R285). -/
def gcmDecryptFrame (key iv : List Byte) (i : Nat) (ct : List Byte) : List Byte :=
  xorBytes ct (gcmStream (aesRoundKeys key) iv 32 (2 + 32 * i))

/-- The GCM tag from the GHASH register after the authenticated data and the ciphertext (R285). -/
def gcmTag (key iv : List Byte) (y aadLen ctLen : Nat) : List Byte :=
  let rks := aesRoundKeys key
  let h := gcmH key
  let s := ghashStep h y (bytesBE 8 (8 * aadLen) ++ bytesBE 8 (8 * ctLen))
  xorBytes (bytesBE 16 s) (aesEncrypt rks (iv ++ bytesBE 4 1))

end Sys2Proof.Machine.Crypto
end

