-- ==== Sys2Proof/Machine/Flags.lean ====
section
/-!
DEFINITION. The error code of the memory banks (R191, R192) and what an access makes of the word it meets.
-/

namespace Sys2Proof.Machine.Flags

/-- The numbers 1 to 127 that are not powers of two, ascending. -/
def columns : List Nat :=
  (List.range 128).filter fun n => n ≠ 0 && !([1, 2, 4, 8, 16, 32, 64].contains n)

/-- The column h(i) of data bit i (R191). -/
def column (i : Nat) : BitVec 7 := BitVec.ofNat 7 (columns.getD i 0)

/-- The exclusive or of all bits of a value. -/
def parity {n : Nat} (v : BitVec n) : Bool := (List.range n).foldl (fun a i => a ^^ v.getLsbD i) false

/-- c[6:0] of a data word (R191). -/
def check (d : BitVec 64) : BitVec 7 :=
  (List.range 64).foldl (fun a i => if d.getLsbD i then a ^^^ column i else a) 0

/-- The 72 bits of a word with fresh check bits (R191). -/
def encode (d : BitVec 64) : BitVec 72 :=
  let c := check d
  BitVec.ofBool (parity d ^^ parity c) ++ c ++ d

/-- What the decoder finds in a stored word (R192). -/
inductive Verdict
  | good
  | corrected (fixed : BitVec 72)
  | bad
deriving DecidableEq, Repr

/-- The syndrome: recomputed c[6:0] against the stored ones (R192). -/
def syndrome (w : BitVec 72) : BitVec 7 := check (w.extractLsb' 0 64) ^^^ w.extractLsb' 64 7

/-- The SECDED decode of R192. -/
def decode (w : BitVec 72) : Verdict :=
  let s := syndrome w
  match parity w with
  | false => if s = 0 then .good else .bad
  | true =>
    if s = 0 then .corrected (w ^^^ (1 <<< 71))
    else match (List.range 7).find? (fun j => s == BitVec.ofNat 7 (2 ^ j)) with
      | some j => .corrected (w ^^^ (1 <<< (64 + j)))
      | none => match (List.range 64).find? (fun i => s == column i) with
        | some i => .corrected (w ^^^ (1 <<< i))
        | none => .bad

/-- What a word becomes under an operation code of R169 (R173). -/
def modify (op : BitVec 2) (d m : BitVec 64) : BitVec 64 :=
  match op with
  | 0 => d
  | 1 => m
  | 2 => d ||| m
  | _ => d &&& ~~~m

/-- One access to a stored word: the word left, DATA of the response, and whether it was corrected or poisoned
(R172, R173, R193, R194). -/
structure Access where
  word : BitVec 72
  data : BitVec 64
  corrected : Bool
  bad : Bool
deriving DecidableEq, Repr

/-- Perform operation `op` with operand `m` on the stored word `w`. -/
def access (op : BitVec 2) (m : BitVec 64) (w : BitVec 72) : Access :=
  if op = 1 then { word := encode m, data := 0, corrected := false, bad := false }
  else match decode w with
    | .bad => { word := w, data := w.extractLsb' 0 64, corrected := false, bad := true }
    | .good =>
      let d := w.extractLsb' 0 64
      { word := if op = 0 then w else encode (modify op d m), data := d, corrected := false, bad := false }
    | .corrected f =>
      let d := f.extractLsb' 0 64
      { word := if op = 0 then f else encode (modify op d m), data := d, corrected := true, bad := false }

/-- Whether the bits of a status word gain a bit: some bit of `new` is 1 that was 0 in `old`. -/
def gains (old new : Nat) : Bool := new &&& old != new

end Sys2Proof.Machine.Flags
end

