-- ==== Sys2Proof/Machine/Frames.lean ====
section
/-!
DEFINITION. What the configuration frames say: units, selections, and who drives whom (R59, R86 to R112, R148, R168, R210,
R228, R254, R281, R282, R342, R386, R439).
-/

namespace Sys2Proof.Machine.Frames

/-- The fabric frames: frame `minor` of column `col` of region r at 768 r + 24 col + minor. -/
abbrev FrameMap := Table (BitVec 4096)

/-- A region's border as a path crosses it: the region, and whether the path leaves it. -/
abbrev Cross := Nat × Bool

/-- The number of a frame. -/
def key (r col minor : Nat) : Nat := 768 * r + 24 * col + minor

/-- A frame's payload. -/
def frame (f : FrameMap) (r col minor : Nat) : Nat := (Table.get (fun _ => 0) f (key r col minor)).toNat

/-- `n` bits from bit `p` of the concatenated payloads of a column (R281). -/
def colBits (f : FrameMap) (r x p n : Nat) : Nat :=
  let m := p / 4096
  let o := p % 4096
  let lo := frame f r x m >>> o
  (if o + n ≤ 4096 then lo else lo ||| (frame f r x (m + 1) <<< (4096 - o))) % 2 ^ n

/-- `n` bits from byte `b` of the region frame of column `col` (R282). -/
def regionBits (f : FrameMap) (r col b n : Nat) : Nat := (frame f r col 23 >>> (8 * b)) % 2 ^ n

/-- The unit uk of cluster y.x of region r, as a number. -/
def unitNo (r y x k : Nat) : Nat := ((r * 32 + y) * 32 + x) * 32 + k

/-- Bits [25:0] of a unit's configuration word (R59, R281). -/
def unitWord (f : FrameMap) (u : Nat) : Nat :=
  let k := u % 32
  let x := u / 32 % 32
  let y := u / 1024 % 32
  colBits f (u / 32768) x (2944 * y + 26 * k) 26

/-- Input `i` (0 for a, 3 for d) is used (R59). -/
def inputUsed (w i : Nat) : Bool := (w >>> (2 * i)) % 4 == 0

/-- The value a tied input contributes (R59, R61). -/
def inputTied (w i : Nat) : Bool := (w >>> (2 * i)) % 4 == 2

/-- TMODE: 0 Empty, 1 Token-0, 2 Token-1, 3 Transparent (R63). -/
def tokenMode (w : Nat) : Nat := (w >>> 8) % 4

/-- TABLE[i] (R61). -/
def lut (w i : Nat) : Bool := (w >>> (10 + i)) % 2 == 1

/-- The candidate that a selection field picks (R94): none when no group, or more than one, is enabled. -/
def candidateOf (v : Nat) : Option Nat :=
  ((List.range 8).find? fun g => v / 8 == 2 ^ g).map fun g => 8 * g + v % 8

/-- The candidate that sink `s` of a cluster selects (R94, R281). -/
def selected (f : FrameMap) (r y x s : Nat) : Option Nat :=
  candidateOf (colBits f r x (2944 * y + 832 + 11 * s) 11)

/-- The arrival slot that candidate `c`, 32 to 63, of sink `s` is (R95). -/
def arrivalOf (s c : Nat) : Nat :=
  let d := c - 32
  if s < 128 then
    if s % 2 = 0 then (if d < 28 then d else 56 + (d - 28)) else (if d < 28 then 28 + d else 60 + (d - 28))
  else
    let dir := (s - 128) / 14
    if d < 14 then 14 * dir + d
    else if d < 28 then 14 * ((dir + 1) % 4) + (d - 14)
    else (if dir < 2 then 56 else 60) + (d - 28)

/-- The length of a line (R90). -/
def lineLength (m : Nat) : Nat := if m % 14 < 8 then 1 else if m % 14 < 12 then 4 else 16

/-- The cluster `steps` away along direction `dir` (0 north, 1 east, 2 south, 3 west), within its die (R87, R91). -/
def walk (r y x dir steps : Nat) (back : Bool) : Option (Nat × Nat × Nat) :=
  let gy := 32 * (r % 128 / 16) + y
  let gx := 32 * (r % 16) + x
  let d := if back then (dir + 2) % 4 else dir
  let p : Option (Nat × Nat) :=
    match d with
    | 0 => if gy < steps then none else some (gy - steps, gx)
    | 1 => if gx + steps < 512 then some (gy, gx + steps) else none
    | 2 => if gy + steps < 256 then some (gy + steps, gx) else none
    | _ => if gx < steps then none else some (gy, gx - steps)
  p.map fun q => (128 * (r / 128) + 16 * (q.1 / 32) + q.2 / 32, q.1 % 32, q.2 % 32)

/-- The two dies adjacent to a die, in order of number (R21). -/
def adjacent (d : Nat) : Nat × Nat := if d = 0 ∨ d = 3 then (1, 2) else (0, 3)

/-- The die that a region's owned die-link channel `j` comes from (R282). -/
def linkFrom (r j : Nat) : Nat := if j < 64 then (adjacent (r / 128)).1 else (adjacent (r / 128)).2

/-- The owned channel that is channel `k` arriving at die `d` from die `src` (R107, R282): its region and number. -/
def ownedOf (d src k : Nat) : Nat × Nat :=
  (128 * d + k / 64, k % 64 + (if (adjacent d).1 = src then 0 else 64))

/-- What a die-link channel's source multiplexer selects (R108, R282): an outbound vertical channel of a region, or the
last stage of another die-link channel. -/
inductive LinkSource
  | outbound (r c : Nat)
  | through (r j : Nat)
deriving DecidableEq, Repr

/-- The source of owned channel `j` of region r (R282). -/
def linkSource (f : FrameMap) (r j : Nat) : Option LinkSource :=
  let v := regionBits f r 1 (4 * j) 32
  let sd := linkFrom r j
  match v >>> 30 with
  | 1 => some (.outbound (128 * sd + (v >>> 8) % 128) (v % 256))
  | 2 =>
    let other := if (adjacent sd).1 = r / 128 then (adjacent sd).2 else (adjacent sd).1
    let o := ownedOf sd other (v % 8192)
    some (.through o.1 o.2)
  | _ => none

/-- The outbound channel that block input `e` of region r selects (R282). -/
def blockInput (f : FrameMap) (r e : Nat) : Option Nat :=
  let v := regionBits f r (2 + e / 256) (2 * (e % 256)) 16
  if (v >>> 8) % 2 = 1 then some (v % 256) else none

/-- The multiplexer of inbound channel `c` of region r: its KIND and low bits (R282). -/
def inboundMux (f : FrameMap) (r c : Nat) : Nat × Nat :=
  let v := regionBits f r 0 (2 * c) 16
  (v >>> 14, v % 16384)

/-- The mode of a bank's port (R170, R282): 0 off, 1 read-only, 2 read-write. -/
def portMode (f : FrameMap) (n : Nat) (portB : Bool) : Nat :=
  (regionBits f (n / 4) 6 64 16 >>> (4 * (n % 4) + (if portB then 2 else 0))) % 4

/-- The cluster row of a bank's port (R168). -/
def portRow (n : Nat) (portB : Bool) : Nat := 4 * (n % 4) + (if portB then 3 else 1)

/-- The channel at arrival slot 56 + j of a cluster (R102, R148, R168, R228), with the border it crosses. -/
def specialArrival (f : FrameMap) (r y x j : Nat) : Option (Chan × List Cross) :=
  if y = 16 then
    if 31 ≤ x then none
    else
      let m := inboundMux f r (8 * x + j)
      match m.1 with
      | 1 => some (.link (Fin.ofNat 512 r) (Fin.ofNat 128 m.2) 3, [(r, false)])
      | 2 => some (.block (Fin.ofNat 512 r) (Fin.ofNat 4096 m.2), [(r, false)])
      | _ => none
  else if y = 24 then
    if x % 2 = 0 ∧ j = 0 then some (.gate (Fin.ofNat 8192 (16 * r + x / 2)), []) else none
  else if y = 30 then
    if 8 * x + j ≤ 64 then some (.traceResp (Fin.ofNat 512 r) (Fin.ofNat 65 (8 * x + j)), []) else none
  else if y < 16 ∧ y % 2 = 1 then
    if 8 * x + j < 68 then
      some (.bankResp (Fin.ofNat 2048 (4 * r + y / 4)) (y % 4 == 3) (Fin.ofNat 68 (8 * x + j)), [])
    else none
  else none

/-- The channel that sink `s` of a cluster takes, followed back through line starts, with the borders crossed from
source to sink (R92, R93, R95). `fuel` bounds the number of lines followed. -/
def source (f : FrameMap) : Nat → Nat → Nat → Nat → Nat → Option (Chan × List Cross)
  | 0, _, _, _, _ => none
  | fuel + 1, r, y, x, s =>
    match selected f r y x s with
    | none => none
    | some c =>
      if c < 32 then some (.unit (Fin.ofNat 16777216 (unitNo r y x c)), [])
      else
        let a := arrivalOf s c
        if 56 ≤ a then specialArrival f r y x (a - 56)
        else
          match walk r y x (a / 14) (lineLength a) true with
          | none => none
          | some (r', y', x') =>
            (source f fuel r' y' x' (128 + a)).map fun p =>
              (p.1, if r' = r then p.2 else p.2 ++ [(r', true), (r, false)])

/-- The number of line starts of the package bounds every path. -/
def lines : Nat := 29360128

/-- The channel on outbound vertical channel `c` of region r (R102). -/
def outbound (f : FrameMap) (r c : Nat) : Option (Chan × List Cross) :=
  (source f lines r 16 (c / 8) (184 + c % 8)).map fun p => (p.1, p.2 ++ [(r, true)])

/-- The block inputs `base` to `base + n - 1` of region r that have a selection, numbered from 0. -/
def blockInputs (f : FrameMap) (r base n : Nat) : List (Nat × Option (Chan × List Cross)) :=
  (List.range n).filterMap fun i => (blockInput f r (base + i)).map fun c => (i, outbound f r c)

/-- The used inputs of a taker: the number of each and the channel it takes, none where it has no driver. -/
def inputs (f : FrameMap) (k : Taker) : List (Nat × Option (Chan × List Cross)) :=
  match k with
  | .unit u =>
    let w := unitWord f u
    (List.range 4).filterMap fun i =>
      if inputUsed w i then
        some (i, source f lines (u / 32768) (u / 1024 % 32) (u / 32 % 32) (4 * (u % 32) + i))
      else none
  | .gate g => [(0, source f lines (g / 16) 24 (2 * (g % 16)) 184)]
  | .link r j k =>
    if k.val = 0 then
      [(0, match linkSource f r j with
        | some (.outbound r' c) => outbound f r' c
        | some (.through r' j') => some (.link (Fin.ofNat 512 r') (Fin.ofNat 128 j') 3, [])
        | none => none)]
    else [(0, some (.link r j (Fin.ofNat 4 (k.val - 1)), []))]
  | .bankPort n b =>
    let m := portMode f n b
    let used := if m = 1 then 15 else if m = 2 then 79 else 0
    (List.range used).map fun j => (j, source f lines (n / 4) (portRow n b) (j / 8) (184 + j % 8))
  | .traceWrite r => (List.range 64).map fun j => (j, source f lines r 28 (j / 8) (184 + j % 8))
  | .traceRead r => [(0, source f lines r 30 0 184)]
  | .queuePort p => blockInputs f (p / 2) (0x80 * (p % 2)) 79
  | .enginePort r => blockInputs f r 0x100 64
  | .hostPort r => blockInputs f r 0x380 64
  | .laneSlice n s => blockInputs f (8 * n + s) 0x200 (if s.val = 0 then 0x9C else 0x82)
  | .pinOut p => blockInputs f (4 * (p / 3)) (0x300 + 4 * (p % 3)) 1
  | .pinOe p => blockInputs f (4 * (p / 3)) (0x301 + 4 * (p % 3)) 1
  | .userEvent r => blockInputs f r 0x3C0 1
  | .collar _ _ | .nowhere => []

/-- The taker that block input `e` of region r belongs to, if the input is assigned to the region (R282). -/
def blockTaker (r e : Nat) : Option Taker :=
  if e < 0x4F then some (.queuePort (Fin.ofNat 1024 (2 * r)))
  else if 0x80 ≤ e ∧ e < 0xCF then some (.queuePort (Fin.ofNat 1024 (2 * r + 1)))
  else if 0x100 ≤ e ∧ e < 0x140 then some (.enginePort (Fin.ofNat 512 r))
  else if 0x200 ≤ e ∧ e < 0x29C ∧ r % 8 < 4 ∧ (e < 0x282 ∨ r % 8 = 0) then
    some (.laneSlice (Fin.ofNat 64 (r / 8)) (Fin.ofNat 4 (r % 8)))
  else if 0x300 ≤ e ∧ e < 0x30C ∧ e % 4 < 2 ∧ r % 4 = 0 then
    let p := Fin.ofNat 384 (3 * (r / 4) + (e - 0x300) / 4)
    some (if e % 4 = 0 then .pinOut p else .pinOe p)
  else if 0x380 ≤ e ∧ e < 0x3C0 then some (.hostPort (Fin.ofNat 512 r))
  else if e = 0x3C0 then some (.userEvent (Fin.ofNat 512 r))
  else none

/-- Block output `n` is assigned to region r (R282, R342, R386, R439). -/
def blockAssigned (r n : Nat) : Bool :=
  decide (n < 0x46) || (decide (0x80 ≤ n) && decide (n < 0xC6)) || (decide (0x100 ≤ n) && decide (n < 0x140)) ||
  (decide (r % 8 < 4) && ((decide (0x200 ≤ n) && decide (n < 0x284)) ||
    (r % 8 == 0 && (n == 0x284 || (decide (0x288 ≤ n) && decide (n < 0x2D8)))))) ||
  (r % 4 == 0 && (n == 0x300 || n == 0x304 || n == 0x308)) || (decide (0x380 ≤ n) && decide (n < 0x3C0))

/-- The regions whose region frame of column `col` is listed. -/
def listedRegions (f : FrameMap) (col : Nat) : List Nat :=
  f.filterMap fun e => if e.1 % 768 = 24 * col + 23 then some (e.1 / 768) else none

/-- Everything on B that takes outbound vertical channel `c` of region r (R105). -/
def outboundTakers (f : FrameMap) (r c : Nat) : List (Taker × List Cross) :=
  ((listedRegions f 1).flatMap fun r' => (List.range 128).filterMap fun j =>
    if linkSource f r' j = some (.outbound r c) then
      some (.link (Fin.ofNat 512 r') (Fin.ofNat 128 j) 0, [(r, true)])
    else none) ++
  ((List.range 1024).filterMap fun e =>
    if blockInput f r e = some c then
      match blockTaker r e with
      | some (.userEvent r') => if r'.val % 4 = 0 then some (.userEvent r', [(r, true)]) else none
      | some k => some (k, [(r, true)])
      | none => none
    else none)

/-- A line or vertical channel whose far end nothing takes acknowledges its own tokens, through the borders that it crosses
(R97). -/
def orEnd (l : List (Taker × List Cross)) : List (Taker × List Cross) := if l.isEmpty then [(.nowhere, [])] else l

/-- The takers of a channel that arrives at a cluster: `pick s c` says that candidate `c` of sink `s` is that channel
(R94 to R96). Followed forward through the lines that it enters. -/
def spread (f : FrameMap) : Nat → Nat → Nat → Nat → (Nat → Nat → Bool) → List (Taker × List Cross)
  | 0, _, _, _, _ => []
  | fuel + 1, r, y, x, pick =>
    (List.range 192).flatMap fun s =>
      match selected f r y x s with
      | none => []
      | some c =>
        if !pick s c then []
        else if s < 128 then
          let u := unitNo r y x (s / 4)
          if inputUsed (unitWord f u) (s % 4) then [(.unit (Fin.ofNat 16777216 u), [])] else []
        else if s < 184 then
          let m := s - 128
          match walk r y x (m / 14) (lineLength m) false with
          | none => []
          | some (r', y', x') =>
            (orEnd (spread f fuel r' y' x' fun s c => decide (32 ≤ c) && arrivalOf s c == m)).map fun p =>
              (p.1, if r' = r then p.2 else (r, true) :: (r', false) :: p.2)
        else
          let j := s - 184
          if y = 16 then
            let l := outboundTakers f r (8 * x + j)
            if l.isEmpty then [(.nowhere, [(r, true)])] else l
          else if y = 24 then
            if x % 2 = 0 ∧ j = 0 then [(.gate (Fin.ofNat 8192 (16 * r + x / 2)), [])] else []
          else if y = 28 then if x < 8 then [(.traceWrite (Fin.ofNat 512 r), [])] else []
          else if y = 30 then if x = 0 ∧ j = 0 then [(.traceRead (Fin.ofNat 512 r), [])] else []
          else if y < 16 ∧ y % 2 = 1 then
            let n := 4 * r + y / 4
            let m := portMode f n (y % 4 == 3)
            if (m = 1 ∧ 8 * x + j < 15) ∨ (m = 2 ∧ 8 * x + j < 79) then
              [(.bankPort (Fin.ofNat 2048 n) (y % 4 == 3), [])]
            else []
          else []

/-- The takers reached from arrival slot `a` of a cluster. -/
def fromArrival (f : FrameMap) (r y x a : Nat) : List (Taker × List Cross) :=
  spread f lines r y x fun s c => decide (32 ≤ c) && arrivalOf s c == a

/-- The takers reached through the inbound channels of region r whose multiplexer holds `m`. -/
def fromInbound (f : FrameMap) (r : Nat) (m : Nat × Nat) : List (Taker × List Cross) :=
  (List.range 248).flatMap fun c =>
    if inboundMux f r c = m then
      (orEnd (fromArrival f r 16 (c / 8) (56 + c % 8))).map fun p => (p.1, (r, false) :: p.2)
    else []

/-- Every taker of a channel, with the borders crossed on the way (R96, R105). -/
def takers (f : FrameMap) (c : Chan) : List (Taker × List Cross) :=
  match c with
  | .unit u => spread f lines (u / 32768) (u / 1024 % 32) (u / 32 % 32) fun _ c => c == u.val % 32
  | .gate g => fromArrival f (g / 16) 24 (2 * (g % 16)) 56
  | .link r j k =>
    if k.val < 3 then [(.link r j (Fin.ofNat 4 (k.val + 1)), [])]
    else
      fromInbound f r (1, j.val) ++
      ((listedRegions f 1).flatMap fun r' => (List.range 128).filterMap fun j' =>
        if linkSource f r' j' = some (.through r j) then
          some (.link (Fin.ofNat 512 r') (Fin.ofNat 128 j') 0, [])
        else none)
  | .bankResp n b i => fromArrival f (n / 4) (portRow n b) (i / 8) (56 + i % 8)
  | .traceResp r i => fromArrival f r 30 (i / 8) (56 + i % 8)
  | .block r n => fromInbound f r (2, n.val)

/-- The region that a channel starts in, if it starts in the array. -/
def homeOf : Chan → Option Nat
  | .unit u => some (u / 32768)
  | .gate g => some (g / 16)
  | .bankResp n _ _ => some (n / 4)
  | .traceResp r _ => some r
  | _ => none

/-- The region that a taker stands in, if it stands in the array. -/
def regionOf : Taker → Option Nat
  | .unit u => some (u / 32768)
  | .gate g => some (g / 16)
  | .bankPort n _ => some (n / 4)
  | .traceWrite r | .traceRead r => some r
  | _ => none

/-- The probes of region r (R122, R282): the channel source of each configured probe, with the borders crossed on the way. -/
def probes (f : FrameMap) (r : Nat) : List (Nat × Option (Chan × List Cross)) :=
  (List.range 16).filterMap fun i =>
    let v := regionBits f r 6 (4 * i) 32
    if v >>> 31 = 1 then
      let y := (v >>> 15) % 32
      let x := (v >>> 10) % 32
      let n := v % 128
      some (i, if n < 32 then some (.unit (Fin.ofNat 16777216 (unitNo r y x n)), [])
        else source f lines r y x (96 + n))
    else none

/-- The units of region r with an initial token, and its value (R63). Only columns with a listed frame can hold one. -/
def initialTokens (f : FrameMap) (r : Nat) : List (Nat × Bool) :=
  (List.range 32).flatMap fun x =>
    if f.any fun e => decide (key r x 0 ≤ e.1) && decide (e.1 < key r x 23) then
      (List.range 1024).filterMap fun i =>
        let u := unitNo r (i / 32) x (i % 32)
        match tokenMode (unitWord f u) with
        | 1 => some (u, false)
        | 2 => some (u, true)
        | _ => none
    else []

/-- A selection field is invalid (R99): more than one group, a group its sink lacks, or a line start that does not
exist. -/
def badField (v s : Nat) (lineExists : Bool) : Bool :=
  let g := v / 8
  g != 0 && ((candidateOf v).isNone || (decide (184 ≤ s) && decide (16 ≤ g)) ||
    (decide (128 ≤ s) && decide (s < 184) && !lineExists))

/-! ### Invalid frames -/

/-- Line start `m` of a cluster exists: its line ends on the die (R91). -/
def lineExists (r y x m : Nat) : Bool := (walk r y x (m / 14) (lineLength m) false).isSome

/-- The invalid fields of the cluster block of row y whose last bit lies in frame `minor`, as bit positions and widths in
the column (R60, R99). A field that straddles two frames is judged with the second. -/
def badInBlock (f : FrameMap) (r x minor y : Nat) : List (Nat × Nat) :=
  let here (p n : Nat) : Bool := decide (4096 * minor < p + n) && decide (p + n ≤ 4096 * (minor + 1))
  let units := (List.range 32).flatMap fun k =>
    let p := 2944 * y + 26 * k
    if here p 26 then
      (List.range 4).filterMap fun i => if colBits f r x (p + 2 * i) 2 = 3 then some (p + 2 * i, 2) else none
    else []
  let sinks := (List.range 192).filterMap fun n =>
    let p := 2944 * y + 832 + 11 * n
    if here p 11 ∧ badField (colBits f r x p 11) n (lineExists r y x (n - 128)) then some (p, 11) else none
  units ++ sinks

/-- The rows whose cluster blocks meet frame `minor`. -/
def rowsOf (minor : Nat) : List Nat :=
  (List.range 32).filter fun y => decide (2944 * y < 4096 * (minor + 1)) && decide (4096 * minor < 2944 * (y + 1))

/-- An entry of a region frame that must be 0 where `ok` does not hold: its bit position and width (R282). -/
def badEntries (v n w : Nat) (ok : Nat → Nat → Bool) : List (Nat × Nat) :=
  (List.range n).filterMap fun e => if ok e (v >>> (w * e) % 2 ^ w) then none else some (w * e, w)

/-- Block input `e` is assigned to region r (R282, R496). -/
def inputAssigned (r e : Nat) : Bool := (blockTaker r e).isSome

/-- The invalid entries of region frame `col` of region r, as bit positions and widths (R282). -/
def badInRegion (r col v : Nat) : List (Nat × Nat) :=
  let rest (p : Nat) : List (Nat × Nat) := if v >>> p = 0 then [] else [(p, 4096 - p)]
  match col with
  | 0 => badEntries v 248 16 (fun _ x =>
      match x >>> 14 with
      | 0 => x == 0
      | 1 => x % 2 ^ 14 / 128 == 0
      | 2 => x % 2 ^ 14 / 4096 == 0 && blockAssigned r (x % 4096)
      | _ => false) ++ rest 3968
  | 1 => badEntries v 128 32 (fun _ x =>
      match x >>> 30 with
      | 0 => x == 0
      | 1 => x % 2 ^ 30 / 2 ^ 15 == 0
      | 2 => x % 2 ^ 30 / 2 ^ 13 == 0
      | _ => false)
  | 2 | 3 | 4 | 5 => badEntries v 256 16 (fun e x =>
      x / 512 == 0 && (x == 0 || inputAssigned r (256 * (col - 2) + e)))
  | 6 => badEntries v 16 32 (fun _ x =>
      x % 2 ^ 31 / 2 ^ 20 == 0 && x / 128 % 8 == 0 && !(x >>> 31 == 1 && decide (88 ≤ x % 128))) ++
      (badEntries (v >>> 512 % 65536) 8 2 fun _ x => x != 3).map (fun e => (512 + e.1, e.2)) ++ rest 528
  | _ => rest 0

/-- The invalid fields of frame `minor` of column `col` of region r, as it stands in `f`: bit positions in the column, or
in the frame for minor 23. -/
def badFields (f : FrameMap) (r col minor : Nat) : List (Nat × Nat) :=
  if minor = 23 then badInRegion r col (frame f r col 23)
  else (rowsOf minor).flatMap fun y => badInBlock f r col minor y

/-- Clear a field of a frame payload. -/
def clearBit' (p n : Nat) (v : BitVec 4096) : BitVec 4096 :=
  v &&& ~~~(BitVec.ofNat 4096 ((2 ^ n - 1) * 2 ^ p))

/-- The frames with the named fields of a column set to their default (R100). -/
def clearFields (f : FrameMap) (r col minor : Nat) (l : List (Nat × Nat)) : FrameMap :=
  l.foldl (fun f e =>
    if minor = 23 then Table.modify (fun _ => 0) f (key r col 23) (clearBit' e.1 e.2)
    else
      let m := e.1 / 4096
      let o := e.1 % 4096
      let f := Table.modify (fun _ => 0) f (key r col m) (clearBit' o e.2)
      if o + e.2 ≤ 4096 then f
      else Table.modify (fun _ => 0) f (key r col (m + 1)) (clearBit' 0 (o + e.2 - 4096))) f

end Sys2Proof.Machine.Frames
end

