-- ==== Sys2Proof/Config.lean ====
section
/-!
DEFINITION. What an implementation fixes and the free values: constants without a body, of which nothing can be
proved. A claim about one of them holds for every value it might have.
-/

namespace Sys2Proof.Config

/-- Free values for the challenge of R425, drawn from the security processor's random generator; applied to the model's
counter `fresh`. Log entry 12. -/
opaque challenge : Nat → BitVec 128

/-- Free values for a byte strobed with CFG_D changing inside its set-up or hold window (R457); applied to the model's
counter `fresh`. Log entry 13. -/
opaque strobedByte : Nat → BitVec 8

/-- Free values for the rate adjustment that a servo of R138 or R164 gives after an edge or a message: the spec names the
kind of loop and its bandwidth, not its gains. Log entry 14. -/
opaque servoRate : Nat → BitVec 32

/-- Free values for the phase that a servo of R138 or R164 asks the timebase to slew, in 1/16 ns. Log entry 14. -/
opaque servoSlew : Nat → BitVec 32

/-- Free values for what a DMA channel reads from host memory when the model is not given the bytes. Log entry 15. -/
opaque hostByte : Nat → BitVec 8

/-- Free values, applied to the model's counter `fresh`: the figures of a self-test that was cut short (R479), the signature that its
slices had given and those of the self-test image (log entry 22); where a test pattern starts (R349, R359; log entry 23); and a
margin reference that nothing measured (R357; log entry 53). -/
opaque freeWord : Nat → BitVec 64

/-- The device certificate of 0xC000.02 (R311), per device. Log entry 11. -/
opaque certificate : List (BitVec 8)

/-- The device public modulus of 0xC000.03 (R311), big-endian octets, per device. Log entry 11. -/
opaque deviceModulus : List (BitVec 8)

/-- The Vendor ID of 0x8000.02 (R397), per device. Log entry 11. -/
opaque vendorId : BitVec 16

/-- The supervisor firmware version of 0x1020.01 (R461), per device. Log entry 11. -/
opaque firmwareVersion : BitVec 32

/-- The supervisor firmware hash of 0x1020.02 (R461), per device. Log entry 11. -/
opaque firmwareHash : BitVec 256

/-- The self-test image version of 0x1020.03 (R461), per device. Log entry 11. -/
opaque selftestVersion : BitVec 32

/-- The self-test image hash of 0x1020.04 (R461), per device. Log entry 11. -/
opaque selftestHash : BitVec 256

/-- The device's signature over the 21,248 bytes of an attestation report (R312): 384 octets, as a number with the octet
at the lowest address in bits 7 to 0. The private key never leaves the security processor. Log entry 11. -/
opaque attestationSignature : List (BitVec 8) → BitVec 3072

/-- Which of the resets of R379 a HOST_LINK_RESET is: 0 PERST#, 1 a hot reset, else a link-down reset. Applied to the model's
counter `fresh`. Log entry 95. -/
opaque linkReset : Nat → Nat

/-- How many slices beyond the first a data crossing is built from (R322): by the numbers of its two sides, one above the domain
number and 0 for a self-timed one, and its number between them. Log entry 88. -/
opaque moreSlices : Nat → Nat → Nat → Nat

end Sys2Proof.Config
end

