-- ==== Sys2Proof/Machine/Objects.lean ====
section
/-!
DEFINITION. The object dictionary's tables: for every object of the index map (R433) its subs, with the type, access class,
owner, default and modes that the owning chapters give (R401 to R406).
-/

namespace Sys2Proof.Machine

/-- The types of R402. -/
inductive Ty
  | bool | u8 | u16 | u32 | u64 | i32 | time80 | str | blob
deriving DecidableEq, Repr

/-- The access classes of R403. -/
inductive Acc
  | ro | rw | wo | rwh
deriving DecidableEq, Repr

/-- The owner classes of R404. -/
inductive Own
  | host | security | field
deriving DecidableEq, Repr

/-- A row of an object's table: subs `lo` to `hi`. -/
structure Row where
  lo : Nat
  hi : Nat
  ty : Ty
  acc : Acc
  own : Own
  dflt : Nat
  /-- Bit m set: reachable in Mm. -/
  modes : Nat
  /-- STR and BLOB: the greatest length. -/
  len : Nat
  /-- The bits that a write stores: the others are reserved and stay 0 (R12). -/
  bits : Nat
deriving DecidableEq, Repr

/-- An object: the highest sub number (its sub 0x00) and its rows. -/
structure Obj where
  count : Nat
  own : Own
  rows : List Row
deriving DecidableEq, Repr

namespace Objects

/-- A row owned by the host and reachable in M1 to M7. -/
def r (lo hi : Nat) (ty : Ty) (acc : Acc) (dflt : Nat := 0) : Row :=
  { lo := lo, hi := hi, ty := ty, acc := acc, own := .host, dflt := dflt, modes := 0xFE, len := 0,
    bits := 2 ^ 4096 - 1 }

/-- The same row owned by the security class. -/
def sec (x : Row) : Row := { x with own := .security }
/-- The same row owned by the field class. -/
def fld (x : Row) : Row := { x with own := .field }
/-- The same row reachable in other modes. -/
def inModes (m : Nat) (x : Row) : Row := { x with modes := m }
/-- The same row with a greatest length. -/
def len (n : Nat) (x : Row) : Row := { x with len := n }
/-- The same row with reserved bits. -/
def bits (b : Nat) (x : Row) : Row := { x with bits := b }

/-- R3, R46, R427, R428. -/
def identityAndModes (i : Nat) : Option Obj :=
  match i with
  | 0x0001 => some ⟨3, .security, [sec (r 1 1 .u8 .ro 0x51), sec (r 2 2 .u16 .ro 0x1624), sec (r 3 3 .u8 .ro 0x21)]⟩
  | 0x1000 => some ⟨9, .host, [r 1 1 .u8 .ro 1, r 2 2 .u8 .ro, r 3 3 .u16 .ro 1, r 4 4 .u8 .wo, r 5 5 .u32 .rw 10000,
      r 6 6 .u32 .ro, r 7 7 .time80 .ro, r 8 8 .bool .rw, r 9 9 .bool .ro]⟩
  | 0x1100 => some ⟨6, .host, [r 1 1 .u8 .ro, sec (r 2 2 .bool .rw), r 3 6 .u32 .ro]⟩
  | 0x1101 | 0x1102 => some ⟨0x0A, .host, [r 1 1 .bool .rw 1, r 2 2 .u8 .ro 1, r 3 8 .u32 .ro, r 9 9 .bool .rw 1,
      r 0x0A 0x0A .u32 .ro]⟩
  | 0x1103 => some ⟨0x82, .host, [r 1 0x80 .u64 .rw, bits 0xFFFFFF (r 0x81 0x81 .u32 .rw), r 0x82 0x82 .u32 .ro]⟩
  | _ => none

/-- R142, R147, R161, R162, R165. -/
def time (i : Nat) : Option Obj :=
  match i with
  | 0x3000 => some ⟨0x0B, .host, [r 1 1 .time80 .ro, r 2 2 .u16 .ro, r 3 3 .time80 .rwh, r 4 4 .i32 .wo, r 5 5 .i32 .ro,
      r 6 6 .u16 .rw 100, r 7 7 .i32 .rw, r 8 8 .u8 .rw, r 9 9 .u8 .ro, r 0x0A 0x0A .u64 .ro, r 0x0B 0x0B .u32 .ro]⟩
  | 0x3001 => some ⟨9, .host, [r 1 1 .time80 .ro, r 2 2 .u16 .ro, r 3 3 .u32 .ro, r 4 4 .u8 .rw 1, r 5 5 .i32 .rw,
      r 6 6 .bool .rw, r 7 7 .i32 .rw, r 8 8 .u32 .rw 100000, r 9 9 .i32 .ro]⟩
  | 0x3002 => some ⟨3, .host, [r 1 1 .u16 .ro, len 16 (r 2 2 .blob .ro), r 3 3 .u32 .ro]⟩
  | 0x3003 => some ⟨6, .host, [r 1 2 .u8 .rw, r 3 3 .u64 .rw, r 4 4 .i32 .rw, r 5 5 .u32 .ro, r 6 6 .i32 .ro]⟩
  | 0x3004 => some ⟨3, .host, [r 1 1 .u16 .rw 100, r 2 2 .u16 .ro, r 3 3 .u16 .ro 0xFFFF]⟩
  | 0x3010 => some ⟨4, .host, [len 520 (r 1 1 .blob .wo), len 8 (r 2 2 .blob .wo), bits 0x3FFF (r 3 3 .u32 .rw),
      len 520 (r 4 4 .blob .ro)]⟩
  | _ =>
    if 0x3200 ≤ i ∧ i < 0x3400 then
      some ⟨0x43, .host, [bits 0xF1FFFFFFFFFFFFFF (r 1 0x10 .u64 .rw), r 0x11 0x40 .u32 .ro, r 0x41 0x41 .u64 .rw,
        r 0x42 0x42 .u16 .ro, r 0x43 0x43 .u32 .ro]⟩
    else none

/-- R197. -/
def banks (i : Nat) : Option Obj :=
  if i = 0x4000 then
    some ⟨5, .host, [r 1 2 .u32 .ro, bits 0x3F (r 3 3 .u8 .rw 0x39), r 4 4 .u16 .ro 0xFFFF, r 5 5 .u32 .ro]⟩
  else if 0x4800 ≤ i ∧ i < 0x5000 then
    some ⟨0x0B, .host, [bits 0xFFFF07 (r 1 1 .u32 .rw 4), r 2 2 .u8 .ro 2, r 3 3 .u8 .ro, r 4 5 .u32 .ro, r 6 6 .u16 .ro,
      r 7 7 .u32 .ro, r 8 8 .u64 .ro, fld (r 9 9 .u32 .rw), sec (r 0x0A 0x0A .u32 .ro), bits 0x3F (r 0x0B 0x0B .u8 .rw)]⟩
  else none

/-- R224, R226, R231. -/
def queues (i : Nat) : Option Obj :=
  if i = 0x5000 then
    some ⟨8, .host, [r 1 1 .u32 .ro 262144, r 2 2 .u32 .rw 2048, r 3 3 .u8 .ro 128, r 4 6 .u32 .ro, r 7 7 .u16 .ro 0xFFFF,
      r 8 8 .u32 .ro]⟩
  else if 0x5100 ≤ i ∧ i < 0x5200 then
    some ⟨0x80, .host, (List.range 16).flatMap fun m => [r (1 + 8 * m) (1 + 8 * m) .u64 .rw,
      r (2 + 8 * m) (2 + 8 * m) .u64 .rw 0x100000000000, r (3 + 8 * m) (3 + 8 * m) .u64 .ro,
      bits 0x3F (r (4 + 8 * m) (4 + 8 * m) .u8 .rw), r (5 + 8 * m) (8 + 8 * m) .u32 .ro]⟩
  else if 0x5300 ≤ i ∧ i < 0x5500 then
    some ⟨7, .host, [r 1 3 .u16 .ro, r 4 4 .u32 .ro, r 5 5 .u8 .rw, len 9 (r 6 6 .blob .ro), r 7 7 .bool .rw]⟩
  else none

/-- R271, R272, R274. -/
def engines (i : Nat) : Option Obj :=
  if i = 0x6000 then
    some ⟨8, .host, [len 28656 (r 1 1 .blob .wo), r 2 2 .u32 .rw, len 16 (r 3 3 .blob .wo), r 4 5 .u8 .ro,
      r 6 6 .u32 .rw 10000, r 7 8 .u32 .ro]⟩
  else if 0x6100 ≤ i ∧ i < 0x6180 then
    some ⟨0x0F, .host, [r 1 1 .u8 .wo, r 2 2 .u8 .ro, r 3 3 .u32 .ro, r 4 4 .u8 .ro, r 5 5 .u32 .ro, r 6 6 .u8 .ro,
      bits 0xFFFF001F (r 7 7 .u32 .rw), bits 0xFFFF001F (r 8 8 .u32 .rw 0xFFFF0017), r 9 9 .u64 .ro, r 0x0A 0x0A .u8 .ro,
      r 0x0B 0x0B .bool .rw, len 64 (r 0x0C 0x0C .blob .ro), r 0x0D 0x0D .u16 .rw, len 64 (r 0x0E 0x0E .blob .ro),
      len 32 (r 0x0F 0x0F .blob .ro)]⟩
  else if i = 0x6200 then some ⟨0x84, .host, [r 1 0x84 .u8 .ro]⟩
  else none

/-- R76, R120, R126. -/
def array (i : Nat) : Option Obj :=
  if i = 0x2400 then some ⟨3, .host, [r 1 1 .u16 .wo, r 2 2 .bool .ro, r 3 3 .u32 .ro]⟩
  else if i = 0x2500 then
    some ⟨5, .host, [r 1 1 .u32 .rw 1000, r 2 3 .u16 .ro, r 4 4 .u16 .ro 0xFFFF, r 5 5 .u32 .ro]⟩
  else if 0x2600 ≤ i ∧ i < 0x2800 then
    some ⟨6, .host, [r 1 1 .bool .rw, r 2 2 .u8 .rw, r 3 3 .u8 .ro 3, r 4 4 .u8 .ro, r 5 5 .u32 .ro, r 6 6 .bool .ro]⟩
  else none

/-- R452, R453. -/
def pins (i : Nat) : Option Obj :=
  if i = 0x9000 then some ⟨6, .host, [r 1 1 .u32 .ro, r 2 2 .u8 .ro, r 3 3 .u16 .ro, r 4 6 .u32 .ro]⟩
  else if 0x9100 ≤ i ∧ i < 0x9280 then
    some ⟨6, .host, [r 1 1 .u8 .ro, r 2 2 .u64 .rw (0x000680003FF00000 + 1024 * (i - 0x9100)), r 3 3 .u32 .ro,
      bits 0x1F (r 4 4 .u8 .rw), bits 0x1F (r 5 5 .u8 .rw), r 6 6 .time80 .ro]⟩
  else none

/-- R510. -/
def events (i : Nat) : Option Obj :=
  match i with
  | 0xB000 => some ⟨8, .host, [len 80 (r 1 1 .blob .ro), len 80 (r 2 2 .blob .rw), r 3 3 .u16 .ro 0xFFFF, r 4 4 .u8 .ro,
      r 5 8 .u32 .ro]⟩
  | 0xB001 => some ⟨0x80, .host, [r 1 0x80 .u32 .rw]⟩
  | 0xB100 | 0xB101 | 0xB102 | 0xB103 | 0xB104 => some ⟨0x80, .host, [r 1 0x80 .u32 .rw]⟩
  | _ => none

/-- R461, R468, R329, R330. -/
def suppliesAndClocks (i : Nat) : Option Obj :=
  if i = 0x1010 then
    some ⟨0x0D, .host, [r 1 5 .u16 .ro, r 6 6 .u8 .rw, r 7 7 .u32 .ro, r 8 8 .i32 .ro, r 9 9 .u16 .ro,
      r 0x0A 0x0A .u8 .rw 100, r 0x0B 0x0C .u32 .ro, r 0x0D 0x0D .u16 .ro 0xFFFF]⟩
  else if i = 0x1020 then
    some ⟨5, .host, [r 1 1 .u32 .ro, len 32 (r 2 2 .blob .ro), r 3 3 .u32 .ro, len 32 (r 4 4 .blob .ro),
      sec (r 5 5 .u16 .wo)]⟩
  else if i = 0x1200 then some ⟨0x6C, .host, [r 1 0x6C .u32 .ro]⟩
  else if i = 0x1201 then
    some ⟨5, .host, [r 1 1 .u32 .ro, r 2 2 .u8 .ro 0xFF, r 3 4 .u32 .ro, r 5 5 .u8 .ro]⟩
  else if i = 0x1300 then
    some ⟨5, .host, [r 1 2 .u16 .rw 10, r 3 3 .u16 .rw 50, r 4 4 .u16 .rw 10, r 5 5 .u16 .rw 20]⟩
  else if 0x1400 ≤ i ∧ i < 0x1600 then
    some ⟨0x12, .host, [r 1 1 .u32 .rw, r 2 2 .u16 .rw 750, r 3 3 .u16 .rw 550, r 4 4 .u16 .rw 850, r 5 5 .u16 .ro 750,
      r 6 6 .u8 .ro, r 7 9 .u32 .ro, r 0x0A 0x0A .u16 .ro, r 0x0B 0x10 .u64 .ro, r 0x11 0x12 .u32 .ro]⟩
  else if 0x1600 ≤ i ∧ i < 0x1604 then
    some ⟨5, .host, [r 1 1 .u16 .rw, r 2 2 .u16 .rw 750, r 3 3 .u16 .ro 750, r 4 4 .u16 .ro, r 5 5 .u8 .ro]⟩
  else none

/-- R308, R310. -/
def configuration (i : Nat) : Option Obj :=
  if i = 0x2000 then
    some ⟨0x0C, .host, [bits 3 (r 1 1 .u8 .rw 3), r 2 2 .u8 .ro, r 3 4 .u32 .ro, r 5 5 .u8 .ro, r 6 7 .u64 .ro,
      inModes 0x28 (r 8 8 .u8 .wo), r 9 0x0B .u32 .ro, r 0x0C 0x0C .u16 .ro 0xFFFF]⟩
  else if i = 0x2001 then some ⟨4, .host, [r 1 4 .u32 .ro]⟩
  else if 0x2800 ≤ i ∧ i < 0x2A00 then
    some ⟨9, .host, [r 1 1 .u8 .ro, r 2 2 .u8 .rw 1, r 3 3 .bool .rw, len 32 (r 4 4 .blob .ro), r 5 7 .u32 .ro,
      r 8 8 .u64 .ro, r 9 9 .u32 .ro]⟩
  else none

/-- R366, R370, R371, R375. -/
def lanes (i : Nat) : Option Obj :=
  if i = 0x7000 then some ⟨3, .host, [r 1 3 .u64 .ro]⟩
  else if 0x7100 ≤ i ∧ i < 0x7140 then
    some ⟨0x13, .host, [r 1 1 .u32 .rw 0x04805000, r 2 3 .u8 .ro, r 4 4 .u8 .ro 4, r 5 5 .u32 .ro, r 6 6 .u64 .ro,
      r 7 0x0F .u32 .ro, bits 0xFF1F (r 0x10 0x10 .u16 .rw), bits 0xFF1F (r 0x11 0x11 .u16 .rw 0x4F0F),
      r 0x12 0x12 .time80 .ro, r 0x13 0x13 .u32 .ro]⟩
  else if 0x7200 ≤ i ∧ i < 0x7210 then
    some ⟨7, .host, [r 1 1 .u64 .rw, r 2 2 .u8 .rw 1, r 3 4 .u16 .ro, r 5 5 .u8 .ro, r 6 7 .u32 .ro]⟩
  else if 0x7300 ≤ i ∧ i < 0x7308 then some ⟨4, .host, [r 1 1 .u32 .rw, r 2 2 .u8 .ro, r 3 4 .u32 .ro]⟩
  else none

/-- R397 to R399. -/
def hostLink (i : Nat) : Option Obj :=
  if i = 0x8000 then
    some ⟨8, .host, [r 1 1 .u32 .ro 0x0A00, sec (r 2 2 .u16 .ro), r 3 3 .u8 .rw 7, r 4 4 .u8 .rw 16, r 5 5 .u16 .ro,
      r 6 8 .u32 .ro]⟩
  else if 0x8100 ≤ i ∧ i < 0x8120 then
    some ⟨7, .host, [bits 0xFFFFE3FF (r 1 1 .u32 .rw 0x01810000), r 2 3 .u64 .rw, r 4 4 .u8 .ro, r 5 6 .u32 .ro,
      r 7 7 .u64 .ro]⟩
  else if i = 0x8200 then some ⟨1, .host, [len 512 (r 1 1 .blob .rw)]⟩
  else none

/-- R482, R488, R491, R493. -/
def supervision (i : Nat) : Option Obj :=
  match i with
  | 0xA000 => some ⟨9, .host, [bits 7 (r 1 1 .u8 .rw 7), r 2 2 .u32 .rw 3600, r 3 3 .u32 .rw 1000,
      len 256 (r 4 4 .blob .rw), r 5 7 .u32 .ro, len 32 (r 8 8 .blob .ro), r 9 9 .u32 .ro]⟩
  | 0xA010 => some ⟨5, .host, [r 1 1 .u32 .rw 10000, r 2 3 .u32 .ro, len 24 (r 4 4 .blob .ro),
      fld (inModes 0x20 (r 5 5 .u64 .wo))]⟩
  | 0xA030 => some ⟨7, .host, [r 1 1 .u16 .rw, len 4100 (r 2 2 .blob .ro), r 3 3 .u32 .ro, len 32 (r 4 4 .blob .ro),
      sec (inModes 0xA4 (r 5 5 .u64 .wo)), r 6 6 .u64 .ro, r 7 7 .u16 .ro]⟩
  | 0xA040 => some ⟨5, .host, [r 1 5 .u32 .ro]⟩
  | _ => none

/-- R287, R289, R291, R292, R311, R312. -/
def security (i : Nat) : Option Obj :=
  match i with
  | 0xC000 => some ⟨3, .security, [sec (r 1 1 .u64 .ro), sec (len 2048 (r 2 2 .blob .ro)),
      sec (len 384 (r 3 3 .blob .ro))]⟩
  | 0xC001 => some ⟨7, .security, [sec (len 32 (r 1 4 .blob .ro)), sec (r 5 6 .u8 .ro),
      sec (inModes 0xA4 (r 7 7 .u8 .wo))]⟩
  | 0xC010 => some ⟨4, .host, [len 388 (r 1 4 .blob .rw)]⟩
  | 0xC020 => some ⟨3, .security, [sec (inModes 0x86 (len 32 (r 1 1 .blob .wo))), sec (r 2 2 .u8 .ro),
      sec (r 3 3 .bool .wo)]⟩
  | 0xC030 => some ⟨3, .host, [inModes 0xA4 (len 32 (r 1 1 .blob .wo)), r 2 2 .u8 .ro, len 21632 (r 3 3 .blob .ro)]⟩
  | 0xC040 => some ⟨3, .host, [len 16 (r 1 1 .blob .ro), len 1448 (r 2 2 .blob .wo), r 3 3 .u8 .ro]⟩
  | 0xC050 => some ⟨4, .security, [sec (inModes 0xA0 (r 1 1 .u16 .wo)), sec (r 2 2 .bool .wo), sec (r 3 3 .u32 .ro),
      sec (r 4 4 .u8 .ro)]⟩
  | _ => none

/-- The object of an index (R433). -/
def find (i : Nat) : Option Obj :=
  if i < 0x2000 then (identityAndModes i).orElse fun _ => suppliesAndClocks i
  else if i < 0x3000 then (array i).orElse fun _ => configuration i
  else if i < 0x4000 then time i
  else if i < 0x5000 then banks i
  else if i < 0x6000 then queues i
  else if i < 0x7000 then engines i
  else if i < 0x8000 then lanes i
  else if i < 0x9000 then hostLink i
  else if i < 0xA000 then pins i
  else if i < 0xB000 then supervision i
  else if i < 0xC000 then events i
  else security i

/-- The row of a sub (R401). Sub 0x00 gives the highest sub number. -/
def row (i sub : Nat) : Option Row :=
  match find i with
  | none => none
  | some o =>
    if sub = 0 then some { r 0 0 .u8 .ro o.count with own := o.own }
    else if o.count < sub then none
    else o.rows.find? fun x => decide (x.lo ≤ sub) && decide (sub ≤ x.hi)

/-- The default of a sub, by its number 256 × index + sub. -/
def dflt (key : Nat) : Nat :=
  match row (key / 256) (key % 256) with
  | some x => x.dflt
  | none => 0

/-- The bytes of a fixed-size type (R402). -/
def sizeOf : Ty → Option Nat
  | .bool | .u8 => some 1
  | .u16 => some 2
  | .u32 | .i32 => some 4
  | .u64 => some 8
  | .time80 => some 10
  | .str | .blob => none

end Objects

end Sys2Proof.Machine
end

