-- ==== Sys2Proof/Machine/TypesCore.lean ====
section
/-!
DEFINITION. Plain data of the modes, the dictionary's transports, the events and Lydan time.
-/

namespace Sys2Proof.Machine

/-- The operating modes M0 Dark to M7 Quarantine (R32). -/
inductive Mode
  | m0 | m1 | m2 | m3 | m4 | m5 | m6 | m7
deriving DecidableEq, Repr

/-- A transition that takes more than one command to complete: the entry to M6 (R38), with its cause code. -/
inductive Transit
  /-- A Sentinel request waits for the partial load in progress (R44). -/
  | sentinelWait
  /-- Inbound vertical ports are stalled and the outbound ones drain (R38 step 2). -/
  | draining (cause : Nat)
deriving DecidableEq, Repr

/-- The operating mode and what can change it (R32 to R53). -/
structure ModeState where
  /-- 0x1000.01. -/
  cur : Mode := .m1
  /-- 0x1000.02. -/
  prev : Mode := .m0
  /-- 0x1000.03, a code of R52. -/
  cause : Nat := 0x0001
  /-- 0x1000.06. -/
  count : Nat := 0
  /-- 0x1000.07, as seconds and nanoseconds. -/
  lastSec : Nat := 0
  lastNs : Nat := 0
  /-- The transition in progress, if any (R43). -/
  trans : Option Transit := none
  /-- A reset trigger's cause code, taken before the command ends (R42). -/
  resetDue : Option Nat := none
  /-- A security event that has not yet acted; in M1 it is held (R45). -/
  securityDue : Bool := false
  /-- A fuse integrity failure found in M2 (R37). -/
  fuseDue : Bool := false
  /-- A load or verification failure's cause code (R37). -/
  failDue : Option Nat := none
  /-- A thermal trip to act on once the transition in progress has completed (R43). -/
  tripDue : Bool := false
  /-- A Run request accepted in M6 and not yet taken (R40). -/
  runDue : Bool := false
  /-- A wake event not yet taken (R40, R43). -/
  wakeDue : Bool := false
  /-- A load step whose transition is due: the cause code 0x11, 0x12, 0x13 or 0x30. -/
  loadDue : Option Nat := none
  /-- The trip condition of R467 holds. -/
  tripped : Bool := false
  /-- RESET_N is high. -/
  resetN : Bool := false
  /-- PWRGD is high. -/
  pwrgd : Bool := true
  /-- ERROR_N is asserted (R36). -/
  errorN : Bool := false
  /-- The step of Survey that completes next, 0 to 3; 4 once Survey has completed (R476). -/
  surveyStep : Nat := 0
  /-- The supervisor's two stored images were good at power-up (R462). -/
  imagesGood : Bool := true
  /-- ND_ID as sampled (R419). -/
  ndId : BitVec 7 := 0
  /-- PSTRAP as sampled (R436). -/
  pstrap : BitVec 8 := 0
deriving DecidableEq, Repr

/-- A request of R407 captured from a transport: the tag, the operation code, the target, and the data. -/
structure Request where
  client : Nat
  tag : Nat
  op : Nat
  index : Nat
  sub : Nat
  data : List Byte
deriving DecidableEq, Repr

/-- A reply of R407. -/
structure Reply where
  op : Nat
  index : Nat
  sub : Nat
  err : Nat
  data : List Byte
deriving DecidableEq, Repr

/-- The PCIe mailbox (R415, R416). -/
structure Mailbox where
  busy : Bool := false
  overrun : Bool := false
  lastSeq : Nat := 0
  /-- The request captured by the last accepted doorbell, until its reply is written. -/
  request : Option Request := none
  /-- The bytes of the reply area from 0x8000: the header and DATA. -/
  replyArea : List Byte := []
  /-- The bytes of the request area from 0x1000 that the host has written one access at a time (R415). -/
  area : Table Byte := []
  /-- The reply of the request being executed is discarded (R416). -/
  dropReply : Bool := false
deriving DecidableEq, Repr

/-- A request being reassembled at a CAN port (R421, R422). -/
structure Reassembly where
  client : Nat
  tid : Nat
  op : Nat
  index : Nat
  sub : Nat
  len : Nat
  nextSegment : Nat
  bad : Bool
  data : List Byte
deriving DecidableEq, Repr

/-- A notice waiting to be sent (R424). -/
structure Notice where
  source : Nat
  sec : Nat
  ns : Nat
deriving DecidableEq, Repr

/-- A CAN FD port (R418 to R424, R427). -/
structure CanPort where
  /-- The transmit and receive error counters. -/
  txErr : Nat := 0
  rxErr : Nat := 0
  busOff : Bool := false
  reassembly : Option Reassembly := none
  /-- Clients whose later segments are ignored until their next first frame (R423). -/
  ignored : List Nat := []
  /-- Complete requests waiting for the server, oldest first. -/
  waiting : List Request := []
  /-- Notices waiting to be sent, oldest first: at most 32. -/
  notices : List Notice := []
deriving DecidableEq, Repr

/-- What a transport keeps for itself (R413): the sample of 0x3000.01, the read select of 0x3010.03, the select of
0xA030.01, and the reply last given. -/
structure Context where
  fraction : Nat := 0
  launch : Nat := 0
  readSelect : Nat := 0
  repairSelect : Nat := 0
  reply : Option Reply := none
deriving DecidableEq, Repr

/-- The event block (R497 to R509). -/
structure EventState where
  raw : BitVec 640 := 0
  status : BitVec 640 := 0
  /-- MSI-X pending bits, one for each global vector (R503). -/
  msixPending : BitVec 2048 := 0
  /-- The mask bits of the MSI-X table entries (R503). -/
  msixBlocked : BitVec 2048 := BitVec.allOnes 2048
  /-- NumVFs while VF Enable of PF1 is set, else 0. -/
  numVfs : Nat := 0
deriving DecidableEq, Repr

/-- A two-step transmit timestamp (R141). -/
structure TwoStep where
  lane : Nat
  tag : Nat
  sec : Nat
  ns : Nat
  fraction : Nat
deriving DecidableEq, Repr

/-- Lydan time and its servos (R129 to R142, R164). -/
structure TimeState where
  /-- SECONDS, below 2^48. -/
  sec : Nat := 0
  /-- NANOSECONDS. -/
  ns : Nat := 0
  /-- The accumulator below the nanosecond, in 2^-40 ns; FRACTION is its top 16 bits (R133). -/
  sub : Nat := 0
deriving DecidableEq, Repr

/-- The discipline servos' own memory (R138, R139, R164). -/
structure ServoState where
  /-- The remaining phase correction (R135), in 2^-40 ns. -/
  remain : Int := 0
  /-- 0x3000.09: 0 free-running, 1 acquiring, 2 locked, 3 holdover. -/
  state : Nat := 0
  /-- No edge (or message) has arrived since the source was selected. -/
  first : Bool := true
  /-- Consecutive edges or messages within the lock limit. -/
  good : Nat := 0
  /-- The rate adjustment at the last 10 edges or messages, newest first. -/
  rates : List Int := []
  /-- Launch counts of the exchange in progress with the master (R164). -/
  exchange : List Nat := []
  /-- The sum of all steps of Lydan time, in launch counts modulo 2^64. -/
  steps : BitVec 64 := 0
  /-- PPS_OUT is high until a launch count, and the whole second that it last rose for or had passed when it was enabled or
  Lydan time stepped (R139). -/
  ppsHigh : Bool := false
  ppsEnd : Int := 0
  ppsSecond : Int := 0
  /-- The last tick sent, as its launch count divided by 64 (R143). -/
  tick : Nat := 0
  /-- The two-step queue, oldest first: at most 1,024 (R141). -/
  twoStep : List TwoStep := []
  /-- The whole ms at which the last time message was sent (R164). -/
  sentMs : Nat := 0
deriving DecidableEq, Repr

/-- A region's time keeper (R144, R145). -/
structure Keeper where
  locked : Bool := false
  /-- The last word received, while the keeper is not locked. -/
  last : Option W64 := none
  /-- The word expected next, while the keeper is locked. -/
  expect : W64 := 0
  /-- The first of two consecutive unexpected words. -/
  odd : Option W64 := none
  /-- What the keeper's count is ahead of B's count without its steps (R144). -/
  seen : W64 := 0
  /-- The wavefront delay in use and the calibrated delay it moves to, in 1/16 ns. -/
  delay : Nat := 0
  target : Nat := 0
  /-- The last calibration failed. -/
  failed : Bool := false
deriving DecidableEq, Repr

/-- The state of a schedule bank (R154). -/
inductive BankPhase
  | free
  /-- Committed for epoch k; `timed` is set at D_k if the gate is timed then. -/
  | committed (k : Nat) (timed : Bool)
  | active (k : Nat)
  | tail (k : Nat)
deriving DecidableEq, Repr

/-- A schedule bank of a gate (R153): its state and which entries have fired. -/
structure SchedBank where
  phase : BankPhase := .free
  fired : BitVec 64 := 0
deriving DecidableEq, Repr

/-- Where a gate stands in the firing loop of R156. -/
inductive FirePhase
  | idle
  /-- An entry whose token was held 8 ns before its time; `late` once its release has waited past it. -/
  | armed (bank : Bool) (entry : Fin 64) (late : Bool)
  /-- An entry that waits for its late token. -/
  | waiting (bank : Bool) (entry : Fin 64)
  /-- A release in progress waits for the acknowledge, and its bank has been retired (R151). -/
  | releasing
deriving DecidableEq, Repr

/-- A launch gate's schedule (R149 to R160). -/
structure Gate where
  bank0 : SchedBank := {}
  bank1 : SchedBank := {}
  /-- The epoch of the next decision instant, while the gate is timed. -/
  next : Nat := 0
  fire : FirePhase := .idle
deriving DecidableEq, Repr

end Sys2Proof.Machine
end

