-- ==== Sys2Proof/Machine/TypesBank.lean ====
section
/-!
DEFINITION. Plain data of the memory banks.
-/

namespace Sys2Proof.Machine

/-- The power state of a bank (R187), or where it goes while it wakes (R188): a bank that wakes with `zero` reads 0 in
every word afterwards. -/
inductive Power
  | on | retain | off | deep
  | waking (zero : Bool) (goal : Fin 4)
  | retired
deriving DecidableEq, Repr

/-- A bank request (R169). -/
structure BankReq where
  op : BitVec 2
  addr : BitVec 13
  data : W64
deriving DecidableEq, Repr

/-- A bank response (R172). -/
structure BankResp where
  refused : Bool := false
  collision : Bool := false
  poison : Bool := false
  corrected : Bool := false
  data : W64 := 0
deriving DecidableEq, Repr

/-- How far the channels of a block's output word have come (R55): those that have left spacer for the present word, and
those whose receivers have all acknowledged it. -/
structure Offer where
  sent : BitVec 256 := 0
  taken : BitVec 256 := 0
deriving DecidableEq, Repr

/-- A request port: at most one granted and one waiting request, and the response buffer (R174). -/
structure BankPort where
  granted : Option BankReq := none
  waiting : Option BankReq := none
  /-- The waiting request was captured after the change of state in progress began (R190). -/
  after : Bool := false
  resp : Option BankResp := none
  offer : Offer := {}
deriving DecidableEq, Repr

/-- Who a request that a bank holds is from. -/
inductive MaintKind
  /-- The host: the byte offset and the length within the word, for a read (R185). -/
  | host (lo len : Nat)
  /-- An engine event delivery (R505). -/
  | event
  /-- A bank initialisation frame of the loader: whether it is its bank's first of the load, its MINOR and its payload (R283,
  R304). -/
  | image (first : Bool) (minor : Nat) (v : BitVec 4096)
  /-- A port whose region has been reset since: the response is discarded (R74). -/
  | port
deriving DecidableEq, Repr

/-- A request that a bank holds while it wakes, is borrowed or serves others: the maintenance requester's (R184), or one that a
region reset has left to be completed (R74). -/
structure MaintReq where
  kind : MaintKind
  req : BankReq := { op := 0, addr := 0, data := 0 }
  /-- It came after the change of state in progress began (R190). -/
  after : Bool := false
deriving DecidableEq, Repr

/-- A memory bank but for its words. -/
structure Bank where
  /-- The bank's own power state; none: that of all banks together. -/
  power : Option Power := none
  /-- The change of state in progress, which waits for the requests captured before it (R190). -/
  leaving : Option (Fin 4) := none
  /-- The TARGET written while that change was in progress (R190). -/
  next : Option (Fin 4) := none
  /-- Borrowed by background self-test (R479). -/
  borrowed : Bool := false
  portA : BankPort := {}
  portB : BankPort := {}
  /-- Port A wins its next conflict (R178). -/
  aWins : Bool := true
  /-- Port B wins its next conflict with the maintenance requester (R184). DESIGN CHOICE: the first one too (log entry 24). -/
  bWins : Bool := true
  /-- A maintenance request deferred to the next cycle of a dual-port bank (R184). -/
  deferred : Bool := false
  held : List MaintReq := []
  /-- The next word of a column rebuild (R196). -/
  rebuild : Option Nat := none
  /-- The soft steerings in force, coded as a repair word (R200). -/
  steer : Nat := 0
deriving DecidableEq, Repr

end Sys2Proof.Machine
end

