-- ==== Sys2Proof/Machine/TypesQueue.lean ====
section
/-!
DEFINITION. Plain data of the cell pool, the queues and their fabric ports, and the trace rings.
-/

namespace Sys2Proof.Machine

/-- A cell of the pool (R202, R206): its number, the words written to it that have not been popped, each with its parity
bit P in bit 64, how many words its link entry counts, and whether it is visible (R208). -/
structure Cell where
  id : Nat
  words : List (BitVec 65) := []
  written : Nat := 0
  visible : Bool := false
deriving DecidableEq, Repr

/-- A packet of a queue (R207): its cells, oldest first. `opened`: the producer is still writing it. `poisoned`: aborted
after the consumer had begun it (R218). `started`: its first word has been popped. -/
structure Packet where
  cells : List Cell := []
  opened : Bool := true
  poisoned : Bool := false
  started : Bool := false
deriving DecidableEq, Repr

/-- The operations of a queue (R213). -/
inductive QOp
  | push | pushClose | pop | peek | abort | reserved
deriving DecidableEq, Repr

/-- A request of R210. -/
structure QReq where
  op : QOp
  queue : BitVec 12
  data : W64
deriving DecidableEq, Repr

/-- A response of R210. -/
structure QResp where
  refused : Bool := false
  flushed : Bool := false
  poison : Bool := false
  eop : Bool := false
  sop : Bool := false
  valid : Bool := false
  data : W64 := 0
deriving DecidableEq, Repr

/-- A word owed to the consumer (R218, R219). -/
inductive Owed
  | flushed | poisonEnd
deriving DecidableEq, Repr

/-- A queue but for its dictionary subs. -/
structure Queue where
  /-- Packets held, oldest first; the open one, if any, is the last. -/
  packets : List Packet := []
  discarding : Bool := false
  /-- The rest of the producer's packet is accepted and discarded (R220). -/
  swallowing : Bool := false
  owed : Option Owed := none
  /-- The sub-bank of the cell allocated last (R203). -/
  lastBank : Option Nat := none
  /-- DEPTH at the end of the previous slot that changed it (R222). -/
  lastDepth : Nat := 0
deriving DecidableEq, Repr

/-- A fabric queue port (R210, R211): the request granted and held (R214), the waiting request, the response on offer. -/
structure QPort where
  held : Option QReq := none
  waiting : Option QReq := none
  resp : Option QResp := none
  offer : Offer := {}
deriving DecidableEq, Repr

/-- The cell pool (R202, R203, R206). -/
structure Pool where
  /-- The sub-bank that the next allocation starts from. -/
  rot : Nat := 0
  retired : BitVec 128 := 0
  /-- Cells that can no longer be reached and that the sweep has not yet returned (R206). -/
  lost : List Nat := []
deriving DecidableEq, Repr

/-- A trace ring (R228, R229): its pointers and the response on offer, bit 64 VALID. -/
structure Ring where
  wp : BitVec 9 := 0
  rp : BitVec 9 := 0
  resp : Option (BitVec 65) := none
  offer : Offer := {}
deriving DecidableEq, Repr

end Sys2Proof.Machine
end

