-- ==== Sys2Proof/Machine/TypesEngine.lean ====
section
/-!
DEFINITION. Plain data of the Prism engines.
-/

namespace Sys2Proof.Machine

/-- The states of a logical engine (R259). -/
inductive EngState
  | unloaded | stopped | running | halted | fault | sentinel | lost | installing
deriving DecidableEq, Repr

/-- A tagged request in flight (R242): its tag, the registers it writes, and what it asks. -/
inductive TagReq
  /-- R249: the data pair (for pop and peek) and the status register. -/
  | queue (op : QOp) (q : BitVec 12) (data : W64) (pair : Option (Fin 16)) (status : Fin 16)
  /-- R250: the address word, the mask, and whether it clears; the old half goes to `old`. -/
  | bank (clear : Bool) (addr : W32) (mask : W32) (old : Fin 16) (status : Fin 16)
  /-- GENT (R253). -/
  | entry (place : W32) (entry : W64) (status : Fin 16)
  /-- GARM (R253). -/
  | arm (place : W32) (epoch : W32) (status : Fin 16)
deriving DecidableEq, Repr

/-- A tag in flight. -/
structure Tag where
  tag : Fin 8
  req : TagReq
deriving DecidableEq, Repr

/-- A logical engine but for its scratchpads (R233). -/
structure Engine where
  state : EngState := .unloaded
  pc : W32 := 0
  /-- g1 to g15; g0 is never written (R235). -/
  regs : Table W32 := []
  /-- The pending marks of R244: registers and the tag that marks each. -/
  marks : List (Fin 16 × Fin 8) := []
  /-- Tags in flight, in issue order. -/
  tags : List Tag := []
  /-- TWAIT waits for this launch count. -/
  twait : Option W64 := none
  faultCause : Nat := 0
  faultPc : W32 := 0
  retired : W64 := 0
  version : W32 := 0
  entry : W32 := 0
  hash : BitVec 256 := 0
deriving DecidableEq, Repr

/-- A fabric channel port of an engine (R255) or of the host (R386): the word to send with its offer, and the word
received. -/
structure ChanPort where
  send : Option W64 := none
  offer : Offer := {}
  recv : Option W64 := none
  /-- The last word that filled the send buffer. -/
  last : W64 := 0
deriving DecidableEq, Repr

/-- A migration under way in a group (R268): the logical engine and its target; `forced` for a retirement. -/
structure Migration where
  engine : Nat
  target : Nat
  forced : Bool
deriving DecidableEq, Repr

/-- The installer of images (R265, R266). -/
structure Installer where
  /-- The staging buffer, by offset. -/
  staged : Table Byte := []
  stagedLen : Nat := 0
  /-- 0x6000.04 and 0x6000.05. -/
  status : Nat := 0
  result : Nat := 0
  /-- The target mask of the install in progress. -/
  mask : BitVec 128 := 0
deriving DecidableEq, Repr

/-- The engines' shared state. -/
structure EngineState where
  engines : Table Engine := []
  /-- Instruction scratchpads, word w of engine n at 8192 n + w. -/
  imem : Table W32 := []
  /-- Data scratchpads, byte a of engine n at 65536 n + a. -/
  dmem : Table Byte := []
  /-- The physical engine of each logical one, where it is not the one of R232. -/
  physical : Table Nat := []
  /-- The codes of 0x6200, where they are not 0. -/
  physState : Table Nat := []
  migrations : List (Nat × Migration) := []
  /-- The slot that rotation takes next in each group. -/
  rotSlot : Table Nat := []
  installer : Installer := {}
deriving DecidableEq, Repr

end Sys2Proof.Machine
end

