-- ==== Sys2Proof/Machine/TypesFabric.lean ====
section
/-!
DEFINITION. Plain data of the array: stages, channels in handshake, collars and lenses.
-/

namespace Sys2Proof.Machine

/-- A stage or transparent unit (R64, R65): the token held, the code on its output rails (none: spacer), and its input
acknowledge. -/
structure Stage where
  held : Option Bool := none
  rails : Option Bool := none
  inAck : Bool := false
deriving DecidableEq, Repr

/-- A word that a block of B offers on block outputs: a lane's receive slice (R343), a pin's input (R446). -/
structure WordOut where
  word : Option (BitVec 256) := none
  offer : Offer := {}
deriving DecidableEq, Repr

/-- The isolation of a region's collar (R114 to R121, R527). The policy is 0x2600.02. -/
structure Collar where
  /-- 0x2600.01: isolated, or isolating, for some cause. -/
  isolate : Bool := false
  /-- 0x2600.04. -/
  cause : Nat := 0
  /-- The ladder of R116 has not yet reached step 3. -/
  isolating : Bool := false
  /-- Whether the collar was isolated, and its policy, before the writes made while an entry to M6 overrides it; none: no such
  write. They act at the end of the override (R119). -/
  lines : Option Bool := none
  linePolicy : Option Nat := none
deriving DecidableEq, Repr

/-- A region's lens (R122 to R125): the six counters, the probes valid at the last sample with no handshake since, and
the progress watch: whether the whole window so far had waiting inputs and no movement. -/
structure Lens where
  tokensIn : BitVec 48 := 0
  tokensOut : BitVec 48 := 0
  probeTokens : BitVec 48 := 0
  stallSamples : BitVec 48 := 0
  waitSamples : BitVec 48 := 0
  codeErrors : BitVec 48 := 0
  stuck : List Nat := []
  /-- The inbound-wait condition has held at every sample of the window, and nothing has moved in it. -/
  still : Bool := true
  /-- The window has had a sample. -/
  sampled : Bool := false
  /-- The launch count at which the window started. -/
  windowStart : Nat := 0
  /-- 0x2600.06. -/
  noProgress : Bool := false
deriving DecidableEq, Repr

/-- A channel whose present token goes on outside a region that has been emptied or rerouted (R73, R116). -/
structure Orphan where
  chan : Chan
  /-- The region that it has left. -/
  region : Nat
  /-- Its sender still offers it; otherwise `value` is on the rails outside the region, none once all have taken it. -/
  live : Bool
  value : Option Bool := none
  /-- The takers that it is offered to: their input, and the borders on the way. -/
  ends : List (Taker × Nat × List (Nat × Bool)) := []
deriving DecidableEq, Repr

/-- The array's state. -/
structure FabricState where
  /-- Fabric frames as written (R281, R282): frame `minor` of column `col` of region r at 768 r + 24 col + minor. -/
  frames : Table (BitVec 4096) := []
  stages : Table Stage := []
  /-- Acknowledges of the takers that are not stages, by their number. -/
  acks : Table Bool := []
  /-- Fabric frames accepted in the partial load in progress: they take effect at its step 4 (R301). -/
  incoming : Table (BitVec 4096) := []
  orphans : List Orphan := []
  /-- Inbound channels that a collar has acknowledged and whose token it has discarded, until they return to spacer:
  the drain policy's (R114) and those of a region reset (R73). -/
  spent : List (Nat × Chan) := []
  /-- Channels in handshake that an isolating collar still passes (R116). -/
  grace : List (Nat × Chan) := []
  /-- Channels showing the illegal code, each with the region that it was counted in (R58). -/
  illegal : List (Chan × Nat) := []
  collars : Table Collar := []
  lenses : Table Lens := []
  /-- Regions whose acknowledge network is frozen for a partial load. -/
  frozen : BitVec 512 := 0
deriving DecidableEq, Repr

end Sys2Proof.Machine
end

