-- ==== Sys2Proof/Machine/TypesPort.lean ====
section
/-!
DEFINITION. Plain data of the pins and of the test access port.
-/

namespace Sys2Proof.Machine

/-- What a source of a pin last delivered since the last function switch (R444). -/
structure PinSource where
  val : Option Bool := none
  oe : Option Bool := none
deriving DecidableEq, Repr

/-- A general-purpose pin (R444 to R450). -/
structure Pin where
  /-- The level that the board puts on the ball. -/
  level : Bool := false
  /-- The level last sampled. -/
  sampled : Bool := false
  /-- The pad latch holds this state: driving a level, or undriven. -/
  latch : Option (Option Bool) := none
  /-- The configuration word in effect; none: the default word. -/
  active : Option Nat := none
  srcA : PinSource := {}
  srcB : PinSource := {}
  /-- The last level delivered as a token since the last release (R446). -/
  delivered : Option Bool := none
deriving DecidableEq, Repr

/-- A boundary-scan cell of a CMOS signal or general-purpose pin whose level the model holds (R454, R455). -/
inductive ScanCell
  | gpio (p : Fin 384)
  | resetN | pwrgd | errorN | cfgDone | ppsOut
  | ndId (i : Fin 7)
  | pstrap (i : Fin 8)
deriving DecidableEq, Repr

/-- The states of the test access port's controller, by IEEE 1149.1 (R455; log entry 61). -/
inductive TapCtrl
  | reset | idle | selectDr | captureDr | shiftDr | exit1Dr | pauseDr | exit2Dr | updateDr
  | selectIr | captureIr | shiftIr | exit1Ir | pauseIr | exit2Ir | updateIr
deriving DecidableEq, Repr

/-- The test access port (R455): TRST_N, the controller, and the boundary-scan register, the cell next to TDO first; empty
until it has captured. -/
structure Tap where
  trstN : Bool := false
  ctrl : TapCtrl := .reset
  cells : List Bool := []
deriving DecidableEq, Repr

end Sys2Proof.Machine
end

