-- ==== Sys2Proof/Machine/TypesLoader.lean ====
section
/-!
DEFINITION. Plain data of the loader, the facets, the mirror store, the scrubbers and the security processor.
-/

namespace Sys2Proof.Machine

/-- What the loader is doing (R308, sub 0x02). The release of R298 is one step of the model, so code 5 never shows. -/
inductive LoadPhase
  | idle | header | frames | resend | endChecks | resync
deriving DecidableEq, Repr

/-- An accepted stream header (R278). -/
structure Header where
  facetOnly : Bool
  perFrame : Bool
  signer : Nat
  enc : Nat
  facet : Nat
  frames : Nat
  iv : List Byte
  tag : List Byte
  endCrc : Nat
  version : Nat
  /-- Bytes 0 to 127. -/
  head : List Byte
  signature : List Byte
deriving DecidableEq, Repr

/-- The load in progress (R295, R296). -/
structure Load where
  header : Header
  /-- i: frames accepted so far. -/
  accepted : Nat := 0
  /-- Rejections of the address awaited. -/
  tries : Nat := 0
  rejected : Nat := 0
  /-- The address of the last bank frame accepted. -/
  lastBank : Option Nat := none
  firstCrc : Option Nat := none
  firstInvalid : Option Nat := none
  /-- The CRC-32C register over the accepted frames (R283). -/
  crc : Nat := 0xFFFFFFFF
  /-- The GHASH register over the ciphertext of the accepted frames (R285). -/
  ghash : Nat := 0
  /-- C_i (R286). -/
  chain : List Byte := List.replicate 32 0
  /-- Banks that have received a bank initialisation frame. -/
  banks : List Nat := []
  /-- A write of TRUE to 0x2600.01 + r was accepted during the load (R302). -/
  keepIsolated : Bool := false
deriving DecidableEq, Repr

/-- The loader (R275 to R309). -/
structure Loader where
  phase : LoadPhase := .idle
  /-- The active source. -/
  src : Source := .aperture
  /-- Bytes of the header or frame being received: at most 512 or 524. -/
  unit : List Byte := []
  /-- Bytes that have arrived at the stream aperture and wait behind them. -/
  aperture : List Byte := []
  /-- The buffer of the configuration port: at most 512 bytes (R456). -/
  port : List Byte := []
  /-- A run of discarded bytes is under way at each source (R276). -/
  apertureRun : Bool := false
  portRun : Bool := false
  load : Option Load := none
deriving DecidableEq, Repr

/-- The state of a facet (R310). -/
inductive FacetState
  | empty | loaded | loading | retired
deriving DecidableEq, Repr

/-- A facet (R310): its state, the reload-requested flag, and the stream that last configured it. -/
structure Facet where
  state : FacetState := .empty
  reload : Bool := false
  /-- The stream hash, its first octet in bits 7 to 0. -/
  hash : BitVec 256 := 0
  version : Nat := 0
deriving DecidableEq, Repr

/-- The mirror store and the parity of the configuration memory (R305), and the scrub pass (R306). -/
structure ScrubState where
  /-- The golden CRC of each frame; none: the entry is empty. -/
  mirror : Table (Option (BitVec 32)) := []
  /-- The row parities in bits 63 to 0 and the column parities in bits 127 to 64. -/
  parity : Table (BitVec 128) := []
  /-- Frames of each facet read back in the present pass. -/
  seen : Table (BitVec 768) := []
  /-- The launch count at which the present pass began, and the last region whose partial load or reset has held its die's
  configuration memory since (R492 case 5). -/
  start : Nat := 0
  held : Option Nat := none
deriving DecidableEq, Repr

/-- What survives the removal of supplies (R521): the fuses, the manufacturing data and, while VBAT lasts, the
battery-backed key. -/
structure Nonvolatile where
  /-- 0xC000.01. -/
  serial : Nat := 0
  /-- The fused signer-key hash of each slot, its first octet in bits 7 to 0; 0: unprogrammed (R289). -/
  hashes : Table (BitVec 256) := []
  revoked : BitVec 4 := 0
  /-- The fused bitstream key, its first octet in bits 7 to 0. -/
  fusedKey : Option (BitVec 256) := none
  /-- 0xC001.06 bits [0] and [1]. -/
  encRequired : Bool := false
  batteryAllowed : Bool := false
  battery : Option (BitVec 256) := none
  /-- The fused repair entries (R490), with ORIGIN 2. -/
  repairs : List Nat := []
  /-- Fuse rows spent on blows that a warning ended (R491). -/
  wasted : Nat := 0
deriving DecidableEq, Repr

/-- The security processor (R285 to R292, R311, R312, R425). -/
structure SecurityState where
  /-- 0xC040.01. -/
  challenge : BitVec 128 := Config.challenge 0
  /-- The staged signer keys: 388 bytes each, or none (R287). -/
  key0 : List Byte := []
  key1 : List Byte := []
  key2 : List Byte := []
  key3 : List Byte := []
  /-- The slots whose revocation fuses are being blown, in the order of their writes (R290). -/
  revoking : List (Fin 4) := []
  /-- 0xC030.02: 0 none, 1 generating, 2 ready. -/
  reportStatus : Nat := 0
  /-- The 21,248 bytes sampled, and once ready the signature. -/
  report : List Byte := []
deriving DecidableEq, Repr

end Sys2Proof.Machine
end

