-- ==== Sys2Proof/Machine/TypesBridge.lean ====
section
/-!
DEFINITION. Plain data of the clocked domains and the bridges.
-/

namespace Sys2Proof.Machine

/-- A clocked domain (R314, R316). -/
structure Domain where
  /-- The clock monitor holds the domain in reset. -/
  departed : Bool := false
  /-- DEPARTED of the status word. -/
  latched : Bool := false
  /-- The frequency measured at the last recovery, in kHz, and the nominal one at that time. -/
  freq : Option (Nat × Nat) := none
  /-- Domain 99: the reference has been stable since the M0 to M1 transition (R314). -/
  stable : Bool := false
deriving DecidableEq, Repr

/-- A side of a bridge as BRIDGE_RESET leaves it (R325). -/
inductive SideReset
  /-- Out of reset. -/
  | out
  /-- In reset, steps 1 to 3 of the ladder run. -/
  | held
deriving DecidableEq, Repr

/-- A bridge (R317 to R328). A data bridge is a whole crossing of R322, all its slices together. -/
structure Bridge where
  /-- H of a status or pulse bridge, while a transfer is in progress. A pulse bridge holds C in bits 3 to 0 and OVF in bit 4. -/
  h : Option W64 := none
  /-- The destination has taken H. -/
  delivered : Bool := false
  /-- N of a status bridge. -/
  n : Option W64 := none
  /-- The values in H and N of a data crossing's slices, oldest first: slice i of k has every k-th of them. -/
  line : List Nat := []
  /-- How many of them the destination has taken: the oldest ones. -/
  taken : Nat := 0
  /-- A data value that the source holds while the slice whose turn it is is full. -/
  held : Option Nat := none
  /-- The present value of a status source. -/
  present : Option W64 := none
  /-- The destination's output register. -/
  dst : Option Nat := none
  /-- A and the pending overflow bit of a pulse bridge. -/
  acc : Nat := 0
  ovf : Bool := false
  /-- The destination's event count. -/
  events : Nat := 0
  srcReset : SideReset := .out
  dstReset : SideReset := .out
  /-- The domain on that side holds it in reset (R314, R316). -/
  srcDomain : Bool := false
  dstDomain : Bool := false
deriving DecidableEq, Repr

end Sys2Proof.Machine
end

