-- ==== Sys2Proof/Machine/TypesLane.lean ====
section
/-!
DEFINITION. Plain data of the lanes, the bonds and the Ethernet groups.
-/

namespace Sys2Proof.Machine

/-- The state of a lane (R371, sub 0x02). -/
inductive LaneSt
  | off | t0 | t1 | t2 | t3 | t4 | t5 | t6 | t7 | lp1 | lp2 | test | retired
deriving DecidableEq, Repr

/-- Two blocks of a slice, as captured from the fabric (R342): DATA in bits 127 to 0 and CTRL in bits 129 to 128; slice 0
has TSOP, TAG and OFFSET above. -/
abbrev SliceWord := BitVec 156

/-- A block of a transfer on its way to the fabric (R341): CTRL, ERR and its payload. -/
structure RxBlock where
  ctrl : Bool
  err : Bool
  payload : W64
deriving DecidableEq, Repr

/-- A transfer in a lane's receive buffer (R343), with RXTIME, TSF and BSEQ (R342, R344). -/
structure RxTransfer where
  blocks : List RxBlock
  time : W64
  tsf : Bool
  bseq : BitVec 16
deriving DecidableEq, Repr

/-- A link block that waits to be sent in a maintenance transfer (R339). -/
inductive LinkBlock
  /-- A time message: KIND, and for a delay response the time it carries. -/
  | time (kind : Nat) (at' : Option (Nat × Nat × Nat))
  | bond (k tx rx : Nat)
  | lowPower (state : Nat)
deriving DecidableEq, Repr

/-- The checker of a test pattern (R359). -/
structure Checker where
  reg : BitVec 31 := 0
  locked : Bool := false
  /-- Bits that it has seeded itself from; once locked, bits of the present 4,096. -/
  seen : Nat := 0
  /-- Correct bits in a row before the lock. -/
  run : Nat := 0
  /-- Errors in the present 4,096 bits. -/
  errors : Nat := 0
deriving DecidableEq, Repr

/-- A lane (R332 to R362). -/
structure Lane where
  st : LaneSt := .off
  /-- Its bit in 0x7000.03. -/
  absent : Bool := false
  rate : Nat := 0
  fec : Bool := false
  /-- The failure cap (R350). -/
  cap : Nat := 4
  /-- Failures at rates 1 to 4, 8 bits each. -/
  failures : Nat := 0
  /-- The rates that passed with FEC when they last passed, bit X for rate X (R350). -/
  passedFec : Nat := 0
  /-- The rate and the FEC request offered since the last entry to T3 (R347, R348, R354). -/
  offer : Nat := 0
  offerFec : Bool := false
  /-- The partner's last Capability, bytes 1 to 7. -/
  partner : BitVec 56 := 0
  reference : Nat := 0
  /-- T6 has ended, or a retrain from LP2 runs: the reference is set at T7 (R357, R362). -/
  refDue : Bool := false
  /-- The margin that was measured in the present T6 or retrain. -/
  measured : Option Nat := none
  margin : Nat := 0
  /-- Lydan time of the last change of state, as a TIME80. -/
  changed : Nat := 0
  locked : Bool := false
  marked : Bool := false
  /-- T2 was entered from T7 on a loss of lock (R355). -/
  fromLoss : Bool := false
  /-- Consecutive identical Capability, matching Rate, or ready Verify blocks received in the present stage. -/
  run : Nat := 0
  /-- ACK has been set, and a block with ACK set received (R347). -/
  ackSent : Bool := false
  ackSeen : Bool := false
  /-- Rate blocks sent in T4 (R348). -/
  sent : Nat := 0
  converged : Bool := false
  /-- The results of T6 at this end and at the partner (R349). -/
  ownPass : Option Bool := none
  partnerPass : Option Bool := none
  /-- The last 31 bits of the pattern sent in T6 or test, the latest in bit 0 (R349, R359). -/
  prbs : BitVec 31 := 1
  /-- The low-power state that the partner has announced: 1 or 2. -/
  partnerLp : Nat := 0
  /-- Consecutive samples below 850/1,000 of the reference; a short retrain runs; the launch count before which no other
  starts (R357). -/
  low : Nat := 0
  retraining : Bool := false
  pauseUntil : Nat := 0
  /-- Idle and link blocks received in a row, and whether the tracking rate of adaptation has halved (R356). -/
  idle : Nat := 0
  slow : Bool := false
  /-- The last 58 line bits sent and received without FEC, the latest in bit 0 (R336). -/
  scrambler : BitVec 58 := 0
  descrambler : BitVec 58 := 0
  /-- Scrambled 257-bit blocks that wait for their codeword (R337). -/
  fecLine : List (BitVec 257) := []
  /-- Blocks received, valid headers in a row, and which of the last 256 blocks had invalid headers, latest first (R355). -/
  blocks : Nat := 0
  validRun : Nat := 0
  invalid : List Nat := []
  /-- Codewords in a row that decoded, and that were uncorrectable (R355). -/
  goodWords : Nat := 0
  badWords : Nat := 0
  /-- A test pattern's checker (R359). -/
  checker : Checker := {}
  /-- RESTART was written outside M5 (R373). -/
  restart : Bool := false
  /-- Transfers since the last maintenance transfer, and maintenance transfers sent (R338, R339). -/
  since : Nat := 0
  maintenance : Nat := 0
  /-- Link blocks waiting for a maintenance transfer, in the order they became pending. -/
  queue : List LinkBlock := []
  /-- The receive buffer: at most 32 transfers for each slice, oldest first. -/
  rx0 : List RxTransfer := []
  rx1 : List RxTransfer := []
  rx2 : List RxTransfer := []
  rx3 : List RxTransfer := []
  /-- The last PATTERN cause, as a launch count (R359). -/
  patternAt : Option Nat := none
  /-- The BSEQ of the next bond transfer that arrives on the lane, as its Marks gave it (R363). -/
  bseq : Option Nat := none
deriving DecidableEq, Repr

/-- A bond (R363 to R366). Masks have bit i for position i. -/
structure Bond where
  /-- The rate and FEC of the live set: those of the first member that reached T7 while it was empty (R365). -/
  rate : Option (Nat × Bool) := none
  /-- The transmit live set. -/
  txLive : Nat := 0
  /-- The receive live mask: the members whose receivers are in T7, at the live set's rate and FEC. -/
  rxMask : Nat := 0
  /-- The live set that the receiver applies: the partner's transmit live set. -/
  rxLive : Nat := 0
  /-- The partner's last receive live mask. -/
  partnerRx : Nat := 0
  /-- k of the next transfer sent, and of the next transfer delivered. -/
  txNext : Nat := 0
  rxNext : Nat := 0
  /-- A switch of a live set: the transfer from which it applies, and the new set. -/
  txSwitch : Option (Nat × Nat) := none
  rxSwitch : Option (Nat × Nat) := none
  /-- Transfers received and not yet delivered: k, the lane, and the transfer (R364). -/
  waiting : List (Nat × Nat × RxTransfer) := []
deriving DecidableEq, Repr

/-- What is still to do in an Ethernet frame that takes a one-step timestamp (R140). -/
structure OneStep where
  /-- Bytes of the frame before the timestamp. -/
  skip : Nat
  /-- Bytes of the timestamp that are still to be written. -/
  left : List Byte
  /-- The frame check sequence of what has been changed, up to the last four bytes, and the changes of those. -/
  crc : Nat := 0
  lag : List Byte := []
deriving DecidableEq, Repr

/-- An Ethernet port (R367 to R370), by its first lane. -/
structure EthPort where
  /-- The transfers its bit streams have carried. -/
  tx : Nat := 0
  rx : Nat := 0
  /-- A one-step frame that is going out, and its last transfer, by lane, which waits for the next: it may hold the first bytes of
  the frame check sequence (R140). -/
  frame : Option OneStep := none
  held : Option (Nat × List (BitVec 2 × W64)) := none
deriving DecidableEq, Repr

end Sys2Proof.Machine
end

