-- ==== Sys2Proof/Machine/TypesHost.lean ====
section
/-!
DEFINITION. Plain data of the host link and its DMA channels.
-/

namespace Sys2Proof.Machine

/-- The state of a DMA channel (R398, sub 0x04). -/
inductive DmaState
  | disabled | running | halted | draining
deriving DecidableEq, Repr

/-- A DMA channel (R388 to R395). -/
structure Dma where
  state : DmaState := .disabled
  sqHead : Nat := 0
  sqTail : Nat := 0
  cqHead : Nat := 0
  cqTail : Nat := 0
  /-- PHASE of the records of the present pass (R392). -/
  phase : Bool := true
  /-- 0x8100 + c sub 0x05. -/
  halt : Nat := 0
deriving DecidableEq, Repr

/-- A descriptor (R389). -/
structure Descriptor where
  op : Nat
  flags : Nat
  cookie : Nat
  len : Nat
  host : Nat
  target : Nat
deriving DecidableEq, Repr

/-- A started descriptor and its tag (R391). -/
structure DmaTag where
  tag : Nat
  chan : Nat
  slot : Nat
  desc : Descriptor
  /-- Bytes moved. -/
  done : Nat := 0
  /-- FLAGS of the record, without PHASE. -/
  flags : Nat := 0
  reason : Nat := 0
  /-- STATUS, once the descriptor has ended. -/
  status : Option Nat := none
  /-- A pop of it is held at the queue manager (R214). -/
  holding : Bool := false
deriving DecidableEq, Repr

/-- The message of an MSI-X table entry (R381 to R384, R503). Its mask is a bit of EventState. -/
structure MsixEntry where
  addr : W64 := 0
  data : W32 := 0
deriving DecidableEq, Repr

/-- What the host has set in a function's configuration space (R376, R380, R396, R503). PRESUMED: its values after reset are those of
PCI Express (log entry 7). -/
structure FnConfig where
  /-- The base addresses of BAR0, BAR2 and BAR4. -/
  bars : Table W64 := []
  memory : Bool := false
  busMaster : Bool := false
  msixEnable : Bool := false
  msixMask : Bool := false
  d3hot : Bool := false
  aspmL1 : Bool := false
  ecrcGenerate : Bool := false
  ecrcCheck : Bool := false
deriving DecidableEq, Repr

/-- The host link (R376 to R400). -/
structure HostState where
  /-- The functions' configurations, by OWNER code. -/
  fns : Table FnConfig := []
  /-- The MSI-X tables, by global vector. -/
  msix : Table MsixEntry := []
  /-- Tags whose descriptors have ended, in the order in which they did (R391). -/
  ended : List Nat := []
  /-- A tag has come free after none was, and channels wait for one; the channel that started a descriptor last (R391). -/
  short : Bool := false
  lastStart : Nat := 31
  chans : Table Dma := []
  tags : List DmaTag := []
  /-- Abandoned pops that stay held at the queue manager (R395): the channel and the queue. -/
  orphans : List (Nat × Nat) := []
  /-- 0x8200.01: byte r, where it is not 1. -/
  owners : Table Nat := []
  /-- PERST# is asserted or the link is down: 0x8000.01 reads 5 in [11:9]. -/
  link : BitVec 13 := 0x0A00
  /-- The reset of the endpoint in progress. The link is down at first: PERST# is asserted. -/
  reset : Option LinkReset := some .perst
deriving DecidableEq, Repr

end Sys2Proof.Machine
end

