-- ==== Sys2Proof/Machine/TypesSuper.lean ====
section
/-!
DEFINITION. Plain data of the supervisor: rails, temperature, adaptive voltage, self-test, faults and the repair record.
-/

namespace Sys2Proof.Machine

/-- A region's regulator (R469 to R474). -/
structure Supply where
  v : Nat := 750
  /-- State short. -/
  short : Bool := false
  good : Nat := 0
  prefOk : Nat := 0
  rate : Nat := 0
  wait : Nat := 0
  stall : Nat := 0
  pref : Nat := 0
  /-- The lens counters at the start of the window: tokens in, stall samples, wait samples. -/
  tokens0 : Nat := 0
  stall0 : Nat := 0
  wait0 : Nat := 0
  /-- Target, floor and ceiling as they applied at the start of the window. -/
  target : Nat := 0
  fixed : Nat := 750
  floor : Nat := 550
  ceiling : Nat := 850
  /-- The set value at entry to M6 (R469). -/
  kept : Nat := 750
deriving DecidableEq, Repr

/-- An engine group's regulator (R473). -/
structure GroupSupply where
  v : Nat := 750
  short : Bool := false
  good : Nat := 0
  pref : Nat := 0
  target : Nat := 0
  fixed : Nat := 750
  kept : Nat := 750
deriving DecidableEq, Repr

/-- A channel under observation (R484): its entry of R489, the launch count of the first observation, and the retries
made. -/
structure Watch where
  entry : Nat
  opened : Nat
  retries : Nat
deriving DecidableEq, Repr

/-- A background test in progress (R478 to R480). -/
structure TestRun where
  kind : TestKind
  target : BitVec 12
  slices : Nat
  /-- A slice is running. -/
  running : Bool
deriving DecidableEq, Repr

/-- The supervisor (R460 to R494). -/
structure SuperState where
  /-- Measured rails, mV. -/
  vcore : Nat := 800
  vphy : Nat := 900
  vphyh : Nat := 1200
  vaux : Nat := 1800
  vbat : Nat := 3000
  /-- The warning and reset comparators of VCORE and VAUX (R463). -/
  coreWarn : Bool := false
  auxWarn : Bool := false
  coreReset : Bool := false
  auxReset : Bool := false
  /-- [0] and [1] of 0x1010.06. -/
  coreLatched : Bool := false
  auxLatched : Bool := false
  /-- Adaptive voltage is frozen (R464). -/
  frozen : Bool := false
  /-- The hottest reading of the last sweep in 0.1 °C, and its sensor (R467). -/
  hottest : Int := 0
  sensor : Nat := 0
  /-- Source 388 may be raised again. -/
  warnArmed : Bool := true
  /-- The lowest region active at the last drain limit. -/
  drainRegion : Nat := 0xFFFF
  /-- VPHY and VPHYH are outside operating conditions (R520). -/
  phyOut : Bool := false
  /-- The regions' and the engine groups' regulators; what an unlisted region holds is `supplyBase`. -/
  supplies : Table Supply := []
  supplyBase : Supply := {}
  groups : Table GroupSupply := []
  /-- The launch count at which the window of R470 started. -/
  windowStart : Nat := 0
  /-- Repairs in force, as entries of R489, but for the fused ones. -/
  repairs : List Nat := []
  retiredLanes : BitVec 64 := 0
  watches : List Watch := []
  tests : List TestRun := []
  /-- 0xA000.04. -/
  lendable : BitVec 2048 := 0
  /-- 0xA000.08: the last result record. -/
  lastResult : List Byte := List.replicate 32 0
  /-- 0xA010.04. -/
  lastFault : List Byte := List.replicate 24 0
  /-- The repair entry being fused, and the transport that waits for the reply (R490, R491). -/
  blowing : Option (Nat × Transport) := none
  /-- Column retirements that wait for a rebuild of their bank to end (R487). -/
  waiting : List Nat := []
  /-- Channels observed at fault within the present command, as entries of R489 (R483). -/
  observed : List Nat := []
deriving DecidableEq, Repr

end Sys2Proof.Machine
end

