-- ==== Sys2Proof/Machine/State.lean ====
section
/-!
DEFINITION. The state of the QTA1624 as plain data, what a command can end in besides a next state, and the state right
after the M0 to M1 transition.
-/

namespace Sys2Proof.Machine

/-- Why a command stops with a fault: no command of this block does. -/
inductive Fault
  /-- Raised by no command. Safe: it only stops. -/
  | none
deriving DecidableEq, Repr

/-- Why a command is refused. -/
inductive Refusal
  /-- Raised by the dispatch for a command without a meaning yet. Safe: it only stops. -/
  | notModelled (mnemonic : String)
deriving DecidableEq, Repr

/-- What a command sends out of the package. -/
inductive Output
  /-- The MSI-X message of a global vector: the address and the data of its table entry (R503). -/
  | msix (vector : Nat) (addr : W64) (data : W32)
  /-- A CAN FD frame of a port (R420). -/
  | can (port : Nat) (ident : Nat) (data : List Byte)
  /-- The bytes of a host read's completion, and whether it is poisoned (R185). -/
  | completion (data : List Byte) (poison : Bool)
  /-- A response to a queue operation that did not come from a fabric port (R212). -/
  | queue (resp : QResp)
  /-- A transfer of a lane: its blocks' headers and payloads, as the line carries them (R335, R336, R339, R340, R359). -/
  | lane (n : Nat) (blocks : List (BitVec 2 × W64))
  /-- A codeword of a lane with FEC, its symbols in the order of the line (R337). -/
  | codeword (n : Nat) (symbols : List (BitVec 10))
  /-- A memory write of a DMA channel or of a completion record (R390, R392). -/
  | hostWrite (addr : Nat) (data : List Byte)
  /-- The value that a host read of a register of a BAR returned. -/
  | readback (value : W64)
  /-- A tick and its time-word bit (R143). -/
  | tick (value wordBit : Bool)
deriving DecidableEq, Repr

/-- The state of the QTA1624. -/
structure State where
  modes : ModeState := {}
  /-- Dictionary subs that hold a value of their own, at 256 × index + sub. -/
  regs : Table Nat := []
  mailbox : Mailbox := {}
  can0 : CanPort := {}
  can1 : CanPort := {}
  ctxMailbox : Context := {}
  ctxCan0 : Context := {}
  ctxCan1 : Context := {}
  events : EventState := {}
  time : TimeState := {}
  servo : ServoState := {}
  keepers : Table Keeper := []
  gates : Table Gate := []
  /-- Schedule entries: entry i of bank b of gate g at 128 g + 64 b + i (R153). -/
  entries : Table W64 := []
  banks : Table Bank := []
  /-- The power state of every bank that has none of its own. -/
  bankBase : Power := .off
  /-- Bank words: word w of bank n at 8192 n + w (R166). -/
  bankMem : Table (BitVec 72) := []
  /-- The spare columns of the banks: the four bits of word w of bank n at 8192 n + w (R195). -/
  bankSpare : Table (BitVec 4) := []
  pool : Pool := {}
  queues : Table Queue := []
  qports : Table QPort := []
  rings : Table Ring := []
  /-- Trace entries: entry i of region r at 256 r + i (R228). -/
  ringMem : Table W64 := []
  eng : EngineState := {}
  /-- Fabric channel ports: the engine port of region r at r (R254), the host's at 512 + r (R386). -/
  ports : Table ChanPort := []
  fab : FabricState := {}
  /-- The receive slices of the lanes, slice s of lane n at 4 n + s, and the IN channels of the pins' slots. -/
  laneOut : Table WordOut := []
  pinIn : Table WordOut := []
  pins : Table Pin := []
  /-- The state of every pin that the table does not list. -/
  pinBase : Pin := {}
  /-- The VIO classes of the pin banks (R435), by bank. -/
  vio : Table VioClass := []
  /-- The test access port (R455). -/
  tap : Tap := {}
  loader : Loader := {}
  facets : Table Facet := []
  /-- The state of every facet that has none of its own. -/
  facetBase : Facet := {}
  scrub : ScrubState := {}
  sec : SecurityState := {}
  nv : Nonvolatile := {}
  /-- The clocked domains (R314) and the bridges in use. -/
  domains : Table Domain := []
  bridges : List (BridgeId × Bridge) := []
  lanes : Table Lane := []
  bonds : Table Bond := []
  ethPorts : Table EthPort := []
  host : HostState := {}
  sup : SuperState := {}
  /-- The model's own counter for free values (log entry 2). -/
  fresh : Nat := 1
  /-- What the last command sent out of the package (log entry 3). -/
  out : List Output := []
  /-- The commands waiting, first in, first out. -/
  pending : List Instr := []
deriving DecidableEq, Repr

/-- The machine right after the cold M0 to M1 transition: RESET_N low, nothing loaded. -/
def State.reset : State := {}

end Sys2Proof.Machine
end

