-- ==== Sys2Proof/Machine/Ops.lean ====
section
/-!
DEFINITION. The named operations that every family shares: dictionary subs and counters, Lydan time, raising an event
source and delivering it (R497 to R508), and one access to a bank word with what it counts (R191 to R201).
-/

namespace Sys2Proof.Machine

/-- What a meaning answers. -/
abbrev Out := Host.Outcome State Fault Refusal

namespace Ops

/-- The stored value of a sub; one that nothing has written holds its default (R406). -/
def reg (s : State) (index sub : Nat) : Nat := Table.get Objects.dflt s.regs (256 * index + sub)

/-- Store a value in a sub. -/
def setReg (index sub v : Nat) (s : State) : State :=
  { s with regs := Table.put Objects.dflt s.regs (256 * index + sub) v }

/-- Add to a counter that wraps at 2^`w`. -/
def add (index sub w n : Nat) (s : State) : State := setReg index sub ((reg s index sub + n) % 2 ^ w) s

/-- Increment a counter that wraps at 2^32. -/
def bump (index sub : Nat) (s : State) : State := add index sub 32 1 s

/-- Return every sub of the indices from `lo` to `hi` to its default, but for those `keep` names. -/
def defaults (lo hi : Nat) (keep : Nat → Bool) (s : State) : State :=
  { s with regs := Table.clear (fun k => decide (256 * lo ≤ k) && decide (k < 256 * (hi + 1)) && !keep k) s.regs }

/-- The value of a two's-complement number of `w` bits. -/
def signed (w v : Nat) : Int := if v < 2 ^ (w - 1) then (v : Int) else (v : Int) - 2 ^ w

/-- The `w` bits of a number in two's complement. -/
def unsigned (w : Nat) (v : Int) : Nat := (v % 2 ^ w).toNat

/-- Bit `i` of a number. -/
def bit (v i : Nat) : Bool := v.testBit i

/-- The number with bit `i` set. -/
def setBit (v i : Nat) : Nat := v ||| 2 ^ i

/-- The number with the bits of `m` cleared. -/
def clearBits (v m : Nat) : Nat := v - (v &&& m)

/-- The launch count of a time: 16 × (10^9 × SECONDS + NANOSECONDS) + FRACTION[15:12], modulo 2^64 (R132). -/
def launchOf (sec ns fraction : Nat) : W64 := BitVec.ofNat 64 (16 * (1000000000 * sec + ns) + fraction / 4096)

/-- FRACTION: the top 16 bits of the accumulator below the nanosecond (R130, R133). -/
def fraction (s : State) : Nat := s.time.sub / 2 ^ 24

/-- The present launch count. -/
def launch (s : State) : W64 := launchOf s.time.sec s.time.ns (fraction s)

/-- The bytes of a TIME80: NANOSECONDS, then SECONDS (R131). -/
def time80 (sec ns : Nat) : List Byte := Crypto.bytesLE 4 ns ++ Crypto.bytesLE 6 sec

/-- A TIME80 as one number. -/
def time80Nat (sec ns : Nat) : Nat := ns + 2 ^ 32 * sec

/-- The number of a mode (R47). -/
def modeNo : Mode → Nat
  | .m0 => 0 | .m1 => 1 | .m2 => 2 | .m3 => 3 | .m4 => 4 | .m5 => 5 | .m6 => 6 | .m7 => 7

/-- The present mode. -/
def mode (s : State) : Mode := s.modes.cur

/-- The present mode is one of a list. -/
def modeIn (s : State) (l : List Mode) : Bool := l.contains s.modes.cur

/-- Send something out of the package. -/
def emit (o : Output) (s : State) : State := { s with out := s.out ++ [o] }

/-- The next free value's argument; the counter moves on (log entry 2). -/
def tickFresh (s : State) : State := { s with fresh := s.fresh + 1 }

/-! ### Banks: power, words and causes -/

/-- A bank's record. -/
def bank (s : State) (n : Nat) : Bank := Table.get (fun _ => {}) s.banks n

/-- Store a bank's record. -/
def setBank (n : Nat) (b : Bank) (s : State) : State := { s with banks := Table.put (fun _ => {}) s.banks n b }

/-- A bank's power state. -/
def power (s : State) (n : Nat) : Power := (bank s n).power.getD s.bankBase

/-- Set a bank's power state. -/
def setPower (n : Nat) (p : Power) (s : State) : State := setBank n { bank s n with power := some p } s

/-- The enables and positions of a repair word (R200). -/
def spares (v : Nat) : List (Nat × Nat) :=
  (List.range 4).filterMap fun i => if bit v (8 * i + 7) then some (i, v / 2 ^ (8 * i) % 128) else none

/-- The fused repair word of a bank, from the fused repairs (R195, R200). -/
def fusedWord (s : State) (n : Nat) : Nat :=
  s.nv.repairs.foldl (fun v e => if e / 2 ^ 60 = 1 ∧ e / 2 ^ 32 % 65536 = n then
      v ||| ((128 + e % 128) * 2 ^ (8 * (e / 256 % 4))) else v) 0

/-- The bit position that spare column k of a bank replaces (R195): a fused one, or a soft one of a position that no fuse
steers. -/
def steered (s : State) (n k : Nat) : Option Nat :=
  let fused := spares (fusedWord s n)
  (fused ++ (spares (bank s n).steer).filter fun e => !fused.any fun g => g.2 == e.2).findSome? fun e =>
    if e.1 = k then some e.2 else none

/-- A word with the position that one spare column replaces taken from that column's bit. -/
def fromSpare (position : Option Nat) (spare : Bool) (v : BitVec 72) : BitVec 72 :=
  match position with
  | none => v
  | some p => if spare then v ||| BitVec.twoPow 72 p else v &&& ~~~(BitVec.twoPow 72 p)

/-- The bit that a write of `v` leaves in a spare column which held `old`. -/
def toSpare (position : Option Nat) (v : BitVec 72) (old : Bool) : Bool := (position.map fun p => v.getLsbD p).getD old

/-- The bits of the spare columns at a word. -/
def spareBits (s : State) (n w : Nat) : BitVec 4 := Table.get (fun _ => 0) s.bankSpare (8192 * n + w)

/-- A bank word as the array gives it: each steered position from its spare column (R195). -/
def word (s : State) (n w : Nat) : BitVec 72 :=
  let x := spareBits s n w
  fromSpare (steered s n 3) (x.getLsbD 3) <| fromSpare (steered s n 2) (x.getLsbD 2) <|
    fromSpare (steered s n 1) (x.getLsbD 1) <| fromSpare (steered s n 0) (x.getLsbD 0) <|
      Table.get (fun _ => 0) s.bankMem (8192 * n + w)

/-- Store a bank word, with each steered position in its spare column too. -/
def setWord (n w : Nat) (v : BitVec 72) (s : State) : State :=
  let x := spareBits s n w
  let b (k : Nat) : Nat := (toSpare (steered s n k) v (x.getLsbD k)).toNat
  { s with
    bankMem := Table.put (fun _ => 0) s.bankMem (8192 * n + w) v
    bankSpare := Table.put (fun _ => 0) s.bankSpare (8192 * n + w) (BitVec.ofNat 4 (b 0 + 2 * b 1 + 4 * b 2 + 8 * b 3)) }

/-- The words for which `p` holds of 8192 n + w read 0 with valid check bits, in their spare columns too. -/
def clearWords (p : Nat → Bool) (s : State) : State :=
  { s with bankMem := Table.clear p s.bankMem, bankSpare := Table.clear p s.bankSpare }

/-- TARGET, WAKE and IDLE of a bank's control word (R198). -/
def target (s : State) (n : Nat) : Nat := reg s (0x4800 + n) 1 % 4
def wakes (s : State) (n : Nat) : Bool := bit (reg s (0x4800 + n) 1) 2
def idle (s : State) (n : Nat) : Nat := reg s (0x4800 + n) 1 / 256 % 65536

/-- Start the wake of a bank that a request has reached (R188 to R190): from Retain while WAKE is 1, and, for the
maintenance requester in M7, from Deep-retain. -/
def wakeBank (n : Nat) (maint : Bool) (s : State) : State :=
  match power s n with
  | .retain => if wakes s n then setPower n (.waking false 0) s else s
  | .deep => if maint && modeIn s [.m7] then setPower n (.waking false 0) s else s
  | _ => s

/-- The entry of R489 of a channel: its KIND, ORIGIN run-time, UNIT and POSITION. -/
def channel (kind unit position : Nat) : Nat := kind * 2 ^ 60 + 2 ^ 58 + unit * 2 ^ 32 + position

/-- A fault is observed on a channel; the supervisor acts on it before the command ends (R483, R484). -/
def observe (c : Nat) (s : State) : State := { s with sup := { s.sup with observed := s.sup.observed ++ [c] } }

/-- A guarantee has been broken (R493). -/
def brokenBy (again : Nat → State → State) (guarantee prevailed case unit : Nat) (s : State) : State :=
  again 377 (setReg 0xA040 5 (guarantee * 2 ^ 28 + prevailed * 2 ^ 24 + case * 2 ^ 16 + unit) (bump 0xA040 guarantee s))

/-- A request claims a bank that self-test has borrowed: the slice in progress is abandoned, the segment is restored and the
bank is On again (R480). -/
def claim (again : Nat → State → State) (n : Nat) (s : State) : State :=
  if (bank s n).borrowed then
    let s := setBank n { bank s n with borrowed := false } s
    let s := { s with sup := { s.sup with tests := s.sup.tests.map fun t =>
        if t.kind = .bank ∧ t.target.toNat = n then { t with running := false } else t } }
    brokenBy again 4 3 4 n (bump 0xA000 9 s)
  else s

/-- A bank serves accesses now: On, and not borrowed by self-test. -/
def ready (s : State) (n : Nat) : Bool := power s n == .on && !(bank s n).borrowed

/-- A bank refuses accesses: Off or retired (R187). -/
def refuses (s : State) (n : Nat) : Bool := power s n == .off || power s n == .retired

/-- A port's waiting request can be granted: nothing of its own is granted, its response buffer is empty (R174), and no change
of state began before it was captured (R190). -/
def grantable (b : Bank) (p : BankPort) : Bool :=
  p.waiting.isSome && p.granted.isNone && p.resp.isNone && !(b.leaving.isSome && p.after)

/-- The array has a port's access in progress (R177). -/
def granted (b : Bank) : Bool := b.portA.granted.isSome || b.portB.granted.isSome

/-- No one but the maintenance request that arrives asks for the array, and no change of state is in progress. -/
def arrayFree (b : Bank) : Bool :=
  b.leaving.isNone && b.held.isEmpty && !granted b && !grantable b b.portA && !grantable b b.portB

/-- A bank holds a maintenance request, which starts its wake (R184, R189, R190). -/
def hold (n : Nat) (m : MaintReq) (s : State) : State :=
  let b := bank s n
  wakeBank n true (setBank n { b with held := b.held ++ [{ m with after := b.leaving.isSome }] } s)

/-- The banks of group `k` have a pending cause that is enabled (R201). -/
def groupPending (s : State) (k : Nat) : Bool :=
  s.regs.any fun e =>
    e.1 % 256 == 0x0B && decide (0x4800 + 64 * k ≤ e.1 / 256) && decide (e.1 / 256 < 0x4800 + 64 * (k + 1)) &&
      (e.2 &&& reg s 0x4000 3) != 0

/-- The RAW bit of a level source follows a condition: when the condition begins to hold the source is raised, and when
it ceases to hold RAW falls (R497). -/
def level (again : Nat → State → State) (src : Nat) (now : Bool) (s : State) : State :=
  if now then (if s.events.raw.getLsbD src then s else again src s)
  else { s with events := { s.events with raw := s.events.raw &&& ~~~(BitVec.twoPow 640 src) } }

/-- A bank gains a cause (R201). -/
def bankCause (again : Nat → State → State) (n c : Nat) (s : State) : State :=
  let s := setReg (0x4800 + n) 0x0B (setBit (reg s (0x4800 + n) 0x0B) c) s
  level again (320 + n / 64) (groupPending s (n / 64)) s

/-- The counters, the last error and the causes of R193 and R194, for one access `a` of bank n to word w that met the
stored bits `v`. -/
def noteAccess (again : Nat → State → State) (n w : Nat) (v : BitVec 72) (a : Flags.Access) (s : State) : State :=
  let at' := match Flags.decode v with
    | .corrected f => (List.range 72).find? fun i => (f ^^^ v).getLsbD i
    | _ => none
  let s := if a.corrected then observe (channel 1 n (at'.getD 0)) s else if a.bad then observe (channel 2 n 0) s else s
  let s := if a.corrected then
      bankCause again n 1 (setReg (0x4800 + n) 6 w (bump 0x4000 1 (bump (0x4800 + n) 4 s)))
    else s
  if a.bad then
    bankCause again n 0 (setReg (0x4800 + n) 6 (0x8000 + w) (bump 0x4000 2 (bump (0x4800 + n) 5 s)))
  else s

/-- One access of the array of bank n, whose stored bits at that word are first upset by `flips` (R173, R191 to R194). -/
def bankAccess (again : Nat → State → State) (n : Nat) (req : BankReq) (flips : BitVec 72) (s : State) :
    State × Flags.Access :=
  let w := req.addr.toNat
  let v := word s n w ^^^ flips
  let a := Flags.access req.op req.data v
  (noteAccess again n w v a (setWord n w a.word s), a)

/-- A request or access that an Off or retired bank refuses (R172, R185). -/
def refuse (again : Nat → State → State) (n : Nat) (s : State) : State :=
  let v := reg s (0x4800 + n) 8
  bankCause again n 3 (setReg (0x4800 + n) 8 (v / 2 ^ 32 * 2 ^ 32 + (v + 1) % 2 ^ 32) s)

/-! ### Events -/

/-- The control word of a source (R502). -/
def control (s : State) (src : Nat) : Nat := reg s (0xB100 + src / 128) (1 + src % 128)

/-- The configuration of a function, by its OWNER code. -/
def fnConfig (s : State) (o : Nat) : FnConfig := Table.get (fun _ => {}) s.host.fns o

/-- The OWNER code of the function that has a vector in its table (R384). -/
def ownerOf (v : Nat) : Nat := if v < 64 then 0 else if v < 1024 then 1 else 2 + (v - 1024) / 16

/-- A function can send messages, and is not masked (R503). -/
def able (s : State) (o : Nat) : Bool :=
  let c := fnConfig s o
  c.msixEnable && !c.msixMask && c.busMaster && !c.d3hot

/-- A vector's message has to wait (R503). -/
def msixBlocked (s : State) (v : Nat) : Bool := s.events.msixBlocked.getLsbD v || !able s (ownerOf v)

/-- The message of a vector's table entry. -/
def message (s : State) (v : Nat) : Output :=
  let e := Table.get (fun _ => ({} : MsixEntry)) s.host.msix v
  .msix v e.addr e.data

/-- The link is in L1 or one of its substates (R397). -/
def inL1 (s : State) : Bool := decide (2 ≤ s.host.link.toNat / 512 % 8) && decide (s.host.link.toNat / 512 % 8 ≤ 4)

/-- In M6 a message, or an access of the host, brings the link back to L0 (R396, R400, R503). -/
def toL0 (again : Nat → State → State) (s : State) : State :=
  if modeIn s [.m6] && inL1 s then
    again 407 (again 400 { s with host := { s.host with link := s.host.link &&& 0x11FF } })
  else s

/-- The delivery of a source to its MSI-X vector (R503). -/
def deliverMsix (again : Nat → State → State) (v : Nat) (s : State) : State :=
  if 1024 ≤ v ∧ s.events.numVfs ≤ (v - 1024) / 16 then bump 0xB000 6 s
  else if msixBlocked s v then
    { s with events := { s.events with msixPending := s.events.msixPending ||| BitVec.twoPow 2048 v } }
  else emit (message s v) (toL0 again s)

/-- The delivery of a source to an engine's event word (R505). -/
def deliverEngine (again : Nat → State → State) (engine b : Nat) (s : State) : State :=
  let e := reg s 0xB001 (1 + engine)
  let n := e / 8192 % 2048
  if !modeIn s [.m5, .m7] || !bit e 31 || refuses s n then bump 0xB000 7 s
  else
    let req : BankReq := { op := 2, addr := BitVec.ofNat 13 (e % 8192), data := BitVec.twoPow 64 b }
    let s := claim again n s
    if ready s n && arrayFree (bank s n) then
      let p := bankAccess again n req 0 s
      if p.2.bad then bump 0xB000 7 p.1 else p.1
    else hold n { kind := .event, req := req } s

/-- CAN port `p`. -/
def can (s : State) (p : Nat) : CanPort := if p = 0 then s.can0 else s.can1

/-- Store CAN port `p`. -/
def setCan (p : Nat) (c : CanPort) (s : State) : State := if p = 0 then { s with can0 := c } else { s with can1 := c }

/-- Queue a notice on a port that sends notices (R424). -/
def queueNotice (again : Nat → State → State) (src p : Nat) (s : State) : State :=
  if reg s (0x1101 + p) 1 = 0 ∨ reg s (0x1101 + p) 9 = 0 then s
  else
    let c := can s p
    if c.notices.length < 32 then
      setCan p { c with notices := c.notices ++ [{ source := src, sec := s.time.sec, ns := s.time.ns }] } s
    else again 419 (bump (0x1101 + p) 8 s)

/-- A change of STATUS from 0 to 1: one delivery to every destination enabled in the control word (R499). -/
def deliver (again : Nat → State → State) (src : Nat) (s : State) : State :=
  let c := control s src
  let s := { s with events := { s.events with status := s.events.status ||| BitVec.twoPow 640 src } }
  let s := bump 0xB000 5 s
  let s := if bit c 11 then deliverMsix again (c % 2048) s else s
  let s := if bit c 25 then deliverEngine again (c / 2 ^ 18 % 128) (c / 4096 % 64) s else s
  let s := if bit c 29 then queueNotice again src 1 (queueNotice again src 0 s) else s
  if bit c 30 && (modeIn s [.m6] || s.modes.trans.isSome) then { s with modes := { s.modes with wakeDue := true } } else s

/-- Raise a source (R498, R499). A delivery can itself raise a source; each source delivers at most once while its STATUS
is 1, so 640 turns suffice. -/
def raiseTurns : Nat → Nat → State → State
  | 0, _, s => s
  | turns + 1, src, s =>
    let s := { s with events := { s.events with raw := s.events.raw ||| BitVec.twoPow 640 src } }
    if bit (control s src) 31 && !s.events.status.getLsbD src then deliver (raiseTurns turns) src s else s

/-- Raise a source. -/
def raise (src : Nat) (s : State) : State := raiseTurns 640 src s

/-- Raise a level source, or let its RAW fall. -/
def track (src : Nat) (now : Bool) (s : State) : State := level raise src now s

/-- A guarantee has been broken (R493). -/
def broken (guarantee prevailed case unit : Nat) (s : State) : State :=
  brokenBy raise guarantee prevailed case unit s

/-! ### The frame of every command -/

/-- Clear what the last command sent out. -/
def begin (s : State) : State := { s with out := [] }

/-- A byte list as a number, first byte lowest (R10). -/
abbrev le := Crypto.natLE

/-- A number as `n` bytes, lowest first (R10). -/
abbrev bytes := Crypto.bytesLE

end Ops

end Sys2Proof.Machine
end

