-- ==== Sys2Proof/Machine/Bridges.lean ====
section
/-!
DEFINITION. Clocked domains and bridges (R314 to R331).
-/

namespace Sys2Proof.Machine.Bridges

open Sys2Proof.Machine.Ops

/-- A domain. -/
def domain (s : State) (d : Nat) : Domain := Table.get (fun _ => {}) s.domains d

/-- Store a domain. -/
def setDomain (d : Nat) (x : Domain) (s : State) : State :=
  { s with domains := Table.put (fun _ => {}) s.domains d x }

/-! ### The conditions that hold a domain in reset -/

/-- The state of lane n. -/
def lane (s : State) (n : Nat) : Lane := Table.get (fun _ => {}) s.lanes n

/-- A lane's receiver has no clock: T0, LP2 or off, or its CDR is unlocked, as it is in T1 (R314, R346). -/
def noClock (x : Lane) : Bool :=
  match x.st with
  | .off | .retired | .t0 | .t1 | .lp2 => true
  | _ => false

/-- A lane that is not off. -/
def laneOn (x : Lane) : Bool := x.st != .off && x.st != .retired

/-- The lane is in Ethernet use: its group's port map covers its position (R367). -/
def inEthernet (s : State) (n : Nat) : Bool :=
  (List.range 8).any fun p =>
    let c := reg s (0x7300 + n / 8) 1 / 16 ^ p % 16
    let w := [0, 4, 2, 1, 4, 2, 1, 8, 4, 2, 8, 4].getD c 0
    decide (p ≤ n % 8) && decide (n % 8 < p + w)

/-- The host link is down: PERST#, a hot reset or a link-down reset (R379, R397). -/
def linkDown (s : State) : Bool := s.host.link.toNat / 512 % 8 == 5

/-- A condition of the domain's own holds it in reset: that of R314 (for a pin bank, R435's: absent or out of range), a rail of the lanes and the link outside R513 (R520), or the
clock monitor, which does not hold domain 99 (R316). A PLL that loses its lock is seen by the clock monitor (log entry 49). -/
def heldHere (s : State) (d : Nat) : Bool :=
  (decide (d ≤ 90) && s.sup.phyOut) || (d != 99 && (domain s d).departed) ||
  (if d < 64 then noClock (lane s d)
   else if d < 80 then (List.range 4).all fun i => !laneOn (lane s (4 * (d - 64) + i))
   else if d < 88 then (List.range 8).all fun i => !inEthernet s (8 * (d - 80) + i)
   else if d = 88 then s.host.reset == some .perst
   else if d = 89 then s.host.reset == some .hot || s.host.reset == some .linkDown
   else if d < 91 then false
   else if d < 99 then (match Table.get (fun _ => VioClass.absent) s.vio (d - 91) with
      | .absent | .outOfRange => true
      | _ => false)
   else if d = 99 then !(domain s d).stable
   else if d = 100 ∨ d = 101 then reg s (0x1101 + (d - 100)) 1 == 0
   else if d = 102 then !bit (reg s 0x2000 1) 1
   else false)

/-- The domain is held in reset (R314, R316, R520); 89 follows 88, and 90 follows 89. -/
def inReset (s : State) (d : Nat) : Bool :=
  heldHere s d || (d == 90 && heldHere s 89) || ((d == 89 || d == 90) && heldHere s 88)

/-! ### Bridges -/

/-- A side of a bridge stands in a domain that is in reset. -/
def sideInReset (s : State) (side : Option (Fin 108)) : Bool := side.any fun d => inReset s d.val

/-- A bridge that nothing has passed yet: its sides are where their domains are. -/
def fresh (s : State) (b : BridgeId) : Bridge := { srcDomain := sideInReset s b.src, dstDomain := sideInReset s b.dst }

/-- A bridge. -/
def find (s : State) (b : BridgeId) : Bridge := ((s.bridges.find? fun e => e.1 == b).map (·.2)).getD (fresh s b)

/-- Store a bridge. -/
def store (b : BridgeId) (x : Bridge) (s : State) : State :=
  let rest := s.bridges.filter fun e => e.1 != b
  { s with bridges := if x = fresh s b then rest else (b, x) :: rest }

/-- A side is out of reset and its reset handshake has completed. -/
def sideOut (r : SideReset) (dom : Bool) : Bool := r == .out && !dom

/-- Both sides are out of reset and every reset handshake has completed (R326, R328). -/
def ready (x : Bridge) : Bool := sideOut x.srcReset x.srcDomain && sideOut x.dstReset x.dstDomain

/-- The number of a side: one above its domain's, 0 where it is self-timed. -/
def sideNo (side : Option (Fin 108)) : Nat := (side.map fun d => d.val + 1).getD 0

/-- The slices of a data crossing (R322). -/
def slices (b : BridgeId) : Nat := Config.moreSlices (sideNo b.src) (sideNo b.dst) b.slot.val + 1

/-- A data crossing takes a value into the slice whose turn it is: into H, or into N. Both sides take the slices in strict rotation,
so a slice that is full holds the crossing (R321, R322). -/
def accept (b : BridgeId) (v : Nat) (x : Bridge) : Bridge :=
  if x.line.length < 2 * slices b then { x with line := x.line ++ [v] } else { x with held := some v }

/-- A data crossing can take one more value into its slices (R321, R322, R326). -/
def room (s : State) (b : BridgeId) : Bool :=
  let x := find s b
  ready x && decide (x.line.length < 2 * slices b)

/-- The source captures a value (R318, R321, R322, R326). -/
def capture (b : BridgeId) (v : Nat) (s : State) : State :=
  let x := find s b
  match b.kind with
  | .status =>
    let v := BitVec.ofNat 64 v
    let x := { x with present := some v }
    store b (if !ready x || x.h.isSome then { x with n := some v } else { x with h := some v, delivered := false }) s
  | .data =>
    if x.held.isSome then s
    else store b (if ready x then accept b v x else { x with held := some v }) s
  | .pulse => s

/-- The value of H on a pulse bridge: C and OVF (R323). -/
def countWord (c : Nat) (ovf : Bool) : W64 := BitVec.ofNat 64 (c + if ovf then 16 else 0)

/-- The domain number recorded for a source; 0xFF for a self-timed one (R330). -/
def sourceNo (b : BridgeId) : Nat := match b.src with | some d => d | none => 0xFF

/-- The destination takes H (R318 step 2, R322, R324). Of a data crossing it takes the slices in rotation too. -/
def deliver (b : BridgeId) (s : State) : State :=
  let x := find s b
  if !ready x then s
  else
    match b.kind with
    | .data =>
      if x.taken < slices b then
        match x.line[x.taken]? with
        | none => s
        | some v => store b { x with taken := x.taken + 1, dst := some v } s
      else s
    | kind =>
      match x.h with
      | none => s
      | some v =>
        if x.delivered then s
        else
          let x := { x with delivered := true, dst := some v.toNat }
          if kind = .pulse then
            let s := store b { x with events := x.events + v.toNat % 16 } s
            if v.getLsbD 4 then setReg 0x1201 2 (sourceNo b) (bump 0x1201 1 s) else s
          else store b x s

/-- A bridge, or the slice whose turn it is, is free again (R318 step 5, R321 to R323). -/
def free (b : BridgeId) (s : State) : State :=
  let x := find s b
  match b.kind with
  | .data =>
    if x.taken = 0 then s
    else
      let y := { x with line := x.line.drop 1, taken := x.taken - 1, held := none }
      store b (match x.held with | none => y | some v => accept b v y) s
  | .status => if x.h.isNone || !x.delivered then s else store b { x with h := x.n, delivered := false, n := none } s
  | .pulse =>
    if x.h.isNone || !x.delivered then s
    else if x.acc = 0 then store b { x with h := none, delivered := false } s
    else store b { x with h := some (countWord x.acc x.ovf), delivered := false, acc := 0, ovf := false } s

/-- The values that wait in a data crossing are dropped. -/
def drop (b : BridgeId) (s : State) : State := store b { find s b with line := [], taken := 0, held := none } s

/-- A pulse at the source (R323, R326). -/
def pulse (b : BridgeId) (s : State) : State :=
  let x := find s b
  if b.kind ≠ .pulse ∨ !ready x then s
  else if x.h.isNone then store b { x with h := some (countWord 1 false), delivered := false } s
  else if x.acc < 15 then store b { x with acc := x.acc + 1 } s
  else store b { x with ovf := true } s

/-- Both halves are flushed (R325 steps 1 and 2). A value that a data source holds outside the bridge, and a status
source's latest value in N, are kept (R326). -/
def flush (b : BridgeId) (x : Bridge) : Bridge :=
  { x with h := none, delivered := false, n := if b.kind = .status then x.present else none
           line := [], taken := 0, dst := none, acc := 0, ovf := false }

/-- A side enters reset, which `f` notes: both halves are flushed, and the data values not yet delivered are counted (R325 steps 1
to 3, R326). -/
def enterSide (b : BridgeId) (f : Bridge → Bridge) (s : State) : State :=
  let x := find s b
  store b (f (flush b x)) (add 0x1201 3 32 (x.line.length - x.taken) s)

/-- A bridge that has become ready transfers what waits: a status source's present value, a data source's held one (R326,
R327). -/
def resume (b : BridgeId) (x : Bridge) : Bridge :=
  match b.kind with
  | .status => { x with h := x.present, n := none }
  | .data => match x.held with | none => x | some v => accept b v { x with held := none }
  | .pulse => x

/-- A side leaves reset, which `f` notes; its handshake completes once nothing holds the side any more (R325 steps 4 to 6,
R328). -/
def leaveSide (b : BridgeId) (source : Bool) (f : Bridge → Bridge) (s : State) : State :=
  let x := f (find s b)
  if if source then sideOut x.srcReset x.srcDomain else sideOut x.dstReset x.dstDomain then
    store b (if ready x then resume b x else x) (bump 0x1201 4 s)
  else store b x s

/-- BRIDGE_RESET holds a side, or no longer does. -/
def withReset (source : Bool) (r : SideReset) (x : Bridge) : Bridge :=
  if source then { x with srcReset := r } else { x with dstReset := r }

/-- The domain of a side holds it, or no longer does. -/
def withDomain (source v : Bool) (x : Bridge) : Bridge := if source then { x with srcDomain := v } else { x with dstDomain := v }

/-- One side of a bridge enters reset. -/
def enterReset (b : BridgeId) (source : Bool) (s : State) : State := enterSide b (withReset source .held) s

/-- One side of a bridge leaves reset. -/
def leaveReset (b : BridgeId) (source : Bool) (s : State) : State :=
  let x := find s b
  if (if source then x.srcReset else x.dstReset) = .out then s else leaveSide b source (withReset source .out) s

/-- One side of a bridge enters or leaves reset (R325). -/
def reset (b : BridgeId) (source release : Bool) (s : State) : State :=
  if release then leaveReset b source s else enterReset b source s

/-- A side of a bridge follows its domain into reset or out of it. -/
def followSide (b : BridgeId) (source : Bool) (s : State) : State :=
  let x := find s b
  let was := if source then x.srcDomain else x.dstDomain
  let now := sideInReset s (if source then b.src else b.dst)
  if now && !was then enterSide b (withDomain source true) s
  else if was && !now then leaveSide b source (withDomain source false) s
  else s

/-- Every bridge that is in use follows the domains of its sides (R314, R316, R325, R520). DESIGN CHOICE: the handshakes of a
bridge that nothing has passed yet are not counted (log entry 88). -/
def follow (s : State) : State :=
  (s.bridges.map (·.1)).foldl (fun s b => followSide b false (followSide b true s)) s

/-- The region that a crossing with a self-timed side serves. DESIGN CHOICE: the spec does not number the crossings; in the model
those numbered 8 r to 8 r + 7 serve region r, and user event u has its own of region 4 u (R496; log entry 88). -/
def regionOf (b : BridgeId) : Nat :=
  if b.kind = .pulse ∧ b.src = none ∧ b.dst = some 103 ∧ b.slot.val < 128 then 4 * b.slot.val else b.slot.val / 8

/-- The handshake sides of the bridges that `p` picks go through a reset, whose handshakes complete at once (R328). -/
def resetHandshakes (p : BridgeId → Bool) (s : State) : State :=
  ((s.bridges.map (·.1)).filter fun b => p b && (b.src.isNone || b.dst.isNone)).foldl (fun s b =>
    let pulse (source : Bool) (s : State) : State := leaveSide b source id (enterSide b id s)
    let s := if b.src.isNone then pulse true s else s
    if b.dst.isNone then pulse false s else s) s

/-! ### Domains -/

/-- The frequency of a lane rate divided by 512, in kHz (R314, R332). -/
def rateKhz (r : Nat) : Nat := [20141, 50354, 103760, 207520, 415039].getD r 0

/-- The domain's clock is present: for a lane's receive clock, recovered; for a quad's, some lane on. -/
def clocked (s : State) (d : Nat) : Bool :=
  if d < 64 then !noClock (lane s d)
  else if d < 80 then !(List.range 4).all fun i => !laneOn (lane s (4 * (d - 64) + i))
  else true

/-- RUNNING (R329). -/
def running (s : State) (d : Nat) : Bool := clocked s d && !(domain s d).departed

/-- The nominal frequency of a domain in kHz (R314). -/
def nominal (s : State) (d : Nat) : Nat :=
  if d < 64 then rateKhz (lane s d).rate
  else if d < 80 then (((List.range 4).filterMap fun i =>
      let x := lane s (4 * (d - 64) + i)
      if laneOn x then some (rateKhz x.rate) else none).foldl max 0)
  else if d < 88 then 850000
  else if d = 88 then 2000000
  else if d = 89 then 1000000
  else if d = 90 then 800000
  else if d < 99 then 400000
  else if d = 99 then 1000000
  else if d < 102 then 80000
  else if d = 102 then 500000
  else if d = 103 then 600000
  else 50000

/-- FREQ of a domain whose clock runs (R329): what the last recovery measured, until the expected frequency is another. -/
def frequency (s : State) (d : Nat) : Nat :=
  match (domain s d).freq with
  | some (khz, n) => if n = nominal s d then khz else nominal s d
  | none => nominal s d

/-- A domain's status word (R329). -/
def statusWord (s : State) (d : Nat) : Nat :=
  let b (v : Bool) (i : Nat) : Nat := if v then 2 ^ i else 0
  b (running s d) 31 + b (inReset s d) 30 + b (domain s d).latched 29 + (if running s d then frequency s d % 2 ^ 21 else 0)

/-- A domain's clock stops or departs by more than 5 % (R316, R468). -/
def depart (d : Nat) (s : State) : State :=
  if d = 99 then raise 390 (bump 0x1010 0x0C (setDomain d { domain s d with departed := true } s))
  else follow (setDomain d { domain s d with departed := true, latched := true } s)

/-- A domain's clock has been within 1 % for 10 µs (R316). That of domain 99 is then stable as well (R314). -/
def recover (d khz : Nat) (s : State) : State :=
  let x := domain s d
  if !x.departed && (d != 99 || x.stable) then s
  else follow (setDomain d { x with departed := false, freq := some (khz, nominal s d), stable := d == 99 } s)

/-- What a read of a bridge or domain object returns where the stored value is not it. -/
def readSub (s : State) (index sub : Nat) : Option Nat :=
  if index = 0x1200 ∧ 1 ≤ sub then some (statusWord s (sub - 1))
  else if index = 0x1201 ∧ sub = 5 then some ((List.range 108).filter fun d => !running s d).length
  else none

/-- A read of a status word clears DEPARTED (R329). -/
def afterRead (index sub : Nat) (s : State) : State :=
  if index = 0x1200 ∧ 1 ≤ sub then setDomain (sub - 1) { domain s (sub - 1) with latched := false } s else s

end Sys2Proof.Machine.Bridges
end

