-- ==== Sys2Proof/Machine/Fabric.lean ====
section
/-!
DEFINITION. Handshakes of the array: what every taker sees, stages and transparent units, block outputs, collars, region
reset and the lens (R54 to R78, R96, R97, R105, R113 to R125, R527).
-/

namespace Sys2Proof.Machine.Fabric

open Sys2Proof.Machine.Ops

/-- The code on a channel (R54). -/
inductive Code
  | spacer | valid (v : Bool) | illegal
deriving DecidableEq, Repr

/-- A block that offers words on channels. -/
inductive Source
  | bank (n : Nat) (portB : Bool)
  | trace (r : Nat)
  | queue (p : Nat)
  | port (i : Nat)
  | lane (i : Nat)
  | pin (p : Nat)
deriving DecidableEq, Repr

/-- The number of a stage in the table of stages. -/
def stageNo : StageRef → Nat
  | .unit u => u
  | .gate g => 16777216 + g
  | .link r j k => 16785408 + (r * 128 + j) * 4 + k

/-- A stage. -/
def stage (s : State) (u : StageRef) : Stage := Table.get (fun _ => {}) s.fab.stages (stageNo u)

/-- Store a stage. -/
def setStage (u : StageRef) (x : Stage) (s : State) : State :=
  { s with fab := { s.fab with stages := Table.put (fun _ => {}) s.fab.stages (stageNo u) x } }

/-- The number of a taker that is no stage. -/
def takerNo : Taker → Nat
  | .bankPort n b => 2 * n + (if b then 1 else 0)
  | .traceWrite r => 10000 + r
  | .traceRead r => 11000 + r
  | .queuePort p => 12000 + p
  | .enginePort r => 14000 + r
  | .hostPort r => 15000 + r
  | .laneSlice n s => 16000 + 4 * n + s
  | .pinOut p => 17000 + p
  | .pinOe p => 18000 + p
  | .userEvent r => 19000 + r
  | _ => 20000

/-- A taker's acknowledge. -/
def ack (s : State) : Taker → Bool
  | .unit u => (stage s (.unit u)).inAck
  | .gate g => (stage s (.gate g)).inAck
  | .link r j k => (stage s (.link r j k)).inAck
  | .collar r c => s.fab.spent.contains (r.val, c)
  | k => Table.get (fun _ => false) s.fab.acks (takerNo k)

/-- Set a taker's acknowledge. -/
def setAck (k : Taker) (b : Bool) (s : State) : State :=
  match k with
  | .unit u => setStage (.unit u) { stage s (.unit u) with inAck := b } s
  | .gate g => setStage (.gate g) { stage s (.gate g) with inAck := b } s
  | .link r j i => setStage (.link r j i) { stage s (.link r j i) with inAck := b } s
  | .collar r c =>
    let rest := s.fab.spent.filter fun e => e != (r.val, c)
    { s with fab := { s.fab with spent := if b then (r.val, c) :: rest else rest } }
  | k => { s with fab := { s.fab with acks := Table.put (fun _ => false) s.fab.acks (takerNo k) b } }

/-- A region's collar. -/
def collar (s : State) (r : Nat) : Collar := Table.get (fun _ => {}) s.fab.collars r

/-- Store a region's collar. -/
def setCollar (r : Nat) (c : Collar) (s : State) : State :=
  { s with fab := { s.fab with collars := Table.put (fun _ => {}) s.fab.collars r c } }

/-- A region's lens. -/
def lens (s : State) (r : Nat) : Lens := Table.get (fun _ => {}) s.fab.lenses r

/-- Store a region's lens. -/
def setLens (r : Nat) (x : Lens) (s : State) : State :=
  { s with fab := { s.fab with lenses := Table.put (fun _ => {}) s.fab.lenses r x } }

/-- Handshakes fire: M5, also while it drains for M6 (R32, R38, R69). -/
def awake (s : State) : Bool := modeIn s [.m5]

/-- The region of a channel or taker is not frozen by a partial load. -/
def thawed (s : State) (r : Option Nat) : Bool :=
  match r with
  | some r => !s.fab.frozen.getLsbD r
  | none => true

/-- Entry to M6 has begun: inbound vertical channels stall (R38, R119). -/
def draining (s : State) : Bool :=
  match s.modes.trans with
  | some (.draining _) => true
  | _ => modeIn s [.m6]

/-- The collar acts as isolated: writes made during an entry to M6 wait for its end (R119). -/
def acts (k : Collar) : Bool := k.lines.getD k.isolate

/-- The policy in effect of a region's collar: 0 stall, 1 drain (R114, R118, R119). -/
def policy (s : State) (r : Nat) : Nat := (collar s r).linePolicy.getD (reg s (0x2600 + r) 2)

/-- The token of a channel that goes on outside a region which was emptied or rerouted. -/
def orphan (s : State) (c : Chan) : Option Orphan := s.fab.orphans.find? fun o => o.chan == c

/-- A crossing of a border that does not pass channel `c`: an isolated collar, a frozen region, or, for a vertical port,
an entry to M6. A handshake that was under way when the collar isolated still passes. -/
def blocked (s : State) (c : Chan) (first : Bool) (x : Frames.Cross) : Bool :=
  !s.fab.grace.contains (x.1, c) &&
    (acts (collar s x.1) || s.fab.frozen.getLsbD x.1 ||
      (first && !x.2 && (Frames.homeOf c).isNone && draining s))

/-- A crossing that the present token of channel `c` does not pass: it is blocked, or its collar has taken the token. -/
def stops (s : State) (c : Chan) (first : Bool) (x : Frames.Cross) : Bool :=
  blocked s c first x || (!x.2 && s.fab.spent.contains (x.1, c))

/-- The crossings of a path that the present token of channel `c` passes. -/
def passed (s : State) (c : Chan) : Bool → List Frames.Cross → List Frames.Cross
  | _, [] => []
  | first, x :: rest => if stops s c first x then [] else x :: passed s c false rest

/-- A path starts at its channel's sender; the path of a token left outside an emptied region starts beyond that region. -/
def fromStart (s : State) (c : Chan) : Bool := (orphan s c).all fun o => o.live

/-- The first crossing of a path that the present token of channel `c` does not pass. -/
def stopAt (s : State) (c : Chan) (path : List Frames.Cross) : Option Frames.Cross :=
  (path.drop (passed s c (fromStart s c) path).length).head?

/-- The state of a region's facet is loading, or empty after a partial load that aborted (R303). -/
def unset (s : State) (r : Nat) : Bool :=
  let f := (Table.get (fun _ => s.facetBase) s.facets r).state
  f == .loading || f == .empty

/-- Every end of a channel, with the borders on the way: those that the configuration gives (R96, R105), those of a token left
outside, and the collar for an input pin whose region's selections are unset (R303). -/
def legs (s : State) (c : Chan) : List (Taker × List Frames.Cross) :=
  match orphan s c with
  | some o => o.ends.map fun e => (e.1, e.2.2)
  | none =>
    match c, Frames.takers s.fab.frames c with
    | .block r n, [] => if 0x300 ≤ n.val && n.val < 0x380 && unset s r then [(.collar r c, [])] else []
    | _, l => l

/-- The takers that a channel's sender waits for: those its token reaches, and an inbound collar in place of those behind it
(R57, R96, R97, R114). -/
def view (s : State) (c : Chan) : List Taker :=
  ((legs s c).filterMap fun p =>
    match stopAt s c p.2 with
    | some (_, true) => none
    | some (r, false) => some (.collar (Fin.ofNat 512 r) c)
    | none => some p.1).eraseDups.filter fun k => k != .nowhere

/-- An outbound collar holds the channel on some way: it does not acknowledge (R114). -/
def heldOut (s : State) (c : Chan) : Bool := (legs s c).any fun p => (stopAt s c p.2).any (·.2)

/-- The inputs of a taker that a channel feeds: those its token was offered to, where it goes on outside a region. -/
def feeds (s : State) (c : Chan) (k : Taker) : List Nat :=
  match orphan s c with
  | some o => o.ends.filterMap fun e => if e.1 = k then some e.2.1 else none
  | none => (Frames.inputs s.fab.frames k).filterMap fun e => if (e.2.map (·.1)) = some c then some e.1 else none

/-- The token left at an input of a taker: the oldest, where there are more. -/
def leftAt (s : State) (k : Taker) (i : Nat) : Option Orphan :=
  s.fab.orphans.find? fun o => o.ends.any fun e => e.1 == k && e.2.1 == i

/-- A taker's acknowledge does not answer a channel: at every input that the channel feeds, it belongs to the token that another
channel has left there. -/
def answersOther (s : State) (c : Chan) (k : Taker) : Bool :=
  (s.fab.orphans.any fun o => o.chan != c && o.ends.any fun e => e.1 == k) &&
    !(feeds s c k).isEmpty && (feeds s c k).all fun i => (leftAt s k i).any fun o => o.chan != c

/-- A taker has acknowledged the token that its channel carries; the end of a channel that nothing selects always has (R97). -/
def took (s : State) (c : Chan) (k : Taker) : Bool := k == .nowhere || (ack s k && !answersOther s c k)

/-- Every taker has acknowledged: A is high while the channel is valid (R57, R97). -/
def acked (s : State) (c : Chan) : Bool := !heldOut s c && (view s c).all fun k => took s c k

/-- No taker acknowledges: A is low while the channel is at spacer (R57, R97). -/
def free (s : State) (c : Chan) : Bool := (view s c).all fun k => !ack s k

/-- The block that offers a channel, and the channel's bit in its word (R168, R210, R228, R254, R342, R386, R439). -/
def locate (c : Chan) : Option (Source × Nat) :=
  match c with
  | .bankResp n b i => some (.bank n b, i)
  | .traceResp r i => some (.trace r, i)
  | .block r n =>
    if !Frames.blockAssigned r n then none
    else if n.val < 0x80 then some (.queue (2 * r), n)
    else if n.val < 0x100 then some (.queue (2 * r + 1), n - 0x80)
    else if n.val < 0x200 then some (.port r, n - 0x100)
    else if n.val < 0x300 then some (.lane (4 * (r / 8) + r % 8), n - 0x200)
    else if n.val < 0x380 then some (.pin (3 * (r / 4) + (n - 0x300) / 4), 0)
    else some (.port (512 + r), n - 0x380)
  | _ => none

/-- The channel of bit `i` of a block's word. -/
def chanOf (src : Source) (i : Nat) : Chan :=
  match src with
  | .bank n b => .bankResp (Fin.ofNat 2048 n) b (Fin.ofNat 68 i)
  | .trace r => .traceResp (Fin.ofNat 512 r) (Fin.ofNat 65 i)
  | .queue p => .block (Fin.ofNat 512 (p / 2)) (Fin.ofNat 4096 (0x80 * (p % 2) + i))
  | .port j => if j < 512 then .block (Fin.ofNat 512 j) (Fin.ofNat 4096 (0x100 + i))
    else .block (Fin.ofNat 512 (j - 512)) (Fin.ofNat 4096 (0x380 + i))
  | .lane j => .block (Fin.ofNat 512 (8 * (j / 4) + j % 4)) (Fin.ofNat 4096 (0x200 + i))
  | .pin p => .block (Fin.ofNat 512 (4 * (p / 3))) (Fin.ofNat 4096 (0x300 + 4 * (p % 3)))

/-- How many channels a block's word has. -/
def width : Source → Nat
  | .bank _ _ => 68
  | .trace _ => 65
  | .queue _ => 70
  | .port _ => 64
  | .lane j => if j % 4 = 0 then 216 else 132
  | .pin _ => 1

/-- A bank response as the word of R172. -/
def bankWord (x : BankResp) : BitVec 68 :=
  BitVec.ofBool x.refused ++ BitVec.ofBool x.collision ++ BitVec.ofBool x.poison ++ BitVec.ofBool x.corrected ++ x.data

/-- A queue response as the word of R210. -/
def queueWord (x : QResp) : BitVec 70 :=
  BitVec.ofBool x.refused ++ BitVec.ofBool x.flushed ++ BitVec.ofBool x.poison ++ BitVec.ofBool x.eop ++
    BitVec.ofBool x.sop ++ BitVec.ofBool x.valid ++ x.data

/-- The word a block has on offer, and how far its channels have come. The send buffers of a Lost engine offer nothing (R270). -/
def onOffer (s : State) (src : Source) : Option (BitVec 256) × Offer :=
  match src with
  | .bank n b =>
    let p := if b then (bank s n).portB else (bank s n).portA
    (p.resp.map fun x => (bankWord x).setWidth 256, p.offer)
  | .trace r =>
    let g := Table.get (fun _ => ({} : Ring)) s.rings r
    (g.resp.map fun x => x.setWidth 256, g.offer)
  | .queue p =>
    let q := Table.get (fun _ => ({} : QPort)) s.qports p
    (q.resp.map fun x => (queueWord x).setWidth 256, q.offer)
  | .port i =>
    let p := Table.get (fun _ => ({} : ChanPort)) s.ports i
    if i < 512 ∧ (Table.get (fun _ => ({} : Engine)) s.eng.engines (i / 4)).state = .lost then (none, p.offer)
    else (p.send.map fun x => x.setWidth 256, p.offer)
  | .lane i =>
    let w := Table.get (fun _ => ({} : WordOut)) s.laneOut i
    (w.word, w.offer)
  | .pin p =>
    let w := Table.get (fun _ => ({} : WordOut)) s.pinIn p
    (w.word, w.offer)

/-- Store how far a block's channels have come; when all have been taken, the word leaves the block's buffer. -/
def setOffer (src : Source) (o : Offer) (s : State) : State :=
  let done := o.taken == BitVec.ofNat 256 (2 ^ width src - 1)
  let o : Offer := if done then {} else o
  match src with
  | .bank n b =>
    let k := bank s n
    let p := if b then k.portB else k.portA
    let p := { p with offer := o, resp := if done then none else p.resp }
    setBank n (if b then { k with portB := p } else { k with portA := p }) s
  | .trace r =>
    let g := Table.get (fun _ => ({} : Ring)) s.rings r
    { s with rings := Table.put (fun _ => {}) s.rings r { g with offer := o, resp := if done then none else g.resp } }
  | .queue p =>
    let q := Table.get (fun _ => ({} : QPort)) s.qports p
    { s with qports := Table.put (fun _ => {}) s.qports p { q with offer := o, resp := if done then none else q.resp } }
  | .port i =>
    let p := Table.get (fun _ => ({} : ChanPort)) s.ports i
    { s with ports := Table.put (fun _ => {}) s.ports i { p with offer := o, send := if done then none else p.send } }
  | .lane i =>
    let w := Table.get (fun _ => ({} : WordOut)) s.laneOut i
    { s with laneOut := Table.put (fun _ => {}) s.laneOut i { offer := o, word := if done then none else w.word } }
  | .pin i =>
    let w := Table.get (fun _ => ({} : WordOut)) s.pinIn i
    { s with pinIn := Table.put (fun _ => {}) s.pinIn i { offer := o, word := if done then none else w.word } }

/-- The block outputs of a lane's slice leave gaps in the numbering; every other word's channels are all there. -/
def hasChannel (src : Source) (i : Nat) : Bool :=
  match src with
  | .lane j => Frames.blockAssigned (8 * (j / 4) + j % 4) (0x200 + i)
  | _ => true

/-- A channel carries no token of before: no token of it is still outside an emptied region, and no illegal code. -/
def fresh (s : State) (c : Chan) : Bool := (orphan s c).isNone && s.fab.illegal.all fun e => e.1 != c

/-- Offer every channel of a block's word that can leave spacer (R55, R56). A channel without a receiver is taken at once
(R97). -/
def pump (src : Source) (s : State) : State :=
  match onOffer s src with
  | (none, _) => s
  | (some _, o) =>
    setOffer src ((List.range (width src)).foldl (fun o i =>
      if o.sent.getLsbD i then o
      else if !hasChannel src i || (legs s (chanOf src i)).isEmpty then
        { sent := o.sent ||| BitVec.twoPow 256 i, taken := o.taken ||| BitVec.twoPow 256 i }
      else if fresh s (chanOf src i) && free s (chanOf src i) then { o with sent := o.sent ||| BitVec.twoPow 256 i }
      else o) o) s

/-- The value that a channel's sender offers. -/
def offered (s : State) (c : Chan) : Option Bool :=
  match c with
  | .unit u => (stage s (.unit u)).rails
  | .gate g => (stage s (.gate g)).rails
  | .link r j k => (stage s (.link r j k)).rails
  | c =>
    match locate c with
    | none => none
    | some (src, i) =>
      match onOffer s src with
      | (some w, o) => if o.sent.getLsbD i && !o.taken.getLsbD i then some (w.getLsbD i) else none
      | (none, _) => none

/-- The value of a token left outside a region. -/
def orphanValue (s : State) (o : Orphan) : Option Bool := if o.live then offered s o.chan else o.value

/-- The code of a value on offer. -/
def codeOf : Option Bool → Code
  | some b => .valid b
  | none => .spacer

/-- The code on a channel, where nothing stops it. -/
def rails (s : State) (c : Chan) : Code :=
  if s.fab.illegal.any fun e => e.1 == c then .illegal
  else
    match offered s c with
    | some b => .valid b
    | none => codeOf ((orphan s c).bind fun o => orphanValue s o)

/-- The code that a taker sees on an input: that of a token left at it; spacer behind a collar that does not pass the channel or
has taken its token, and on the ways of the channel that such a token does not go; else what the sender offers. -/
def seen (s : State) (k : Taker) (e : Nat × Option (Chan × List Frames.Cross)) : Code :=
  match s.fab.orphans.findSome? fun o => (o.ends.find? fun x => x.1 == k && x.2.1 == e.1).map fun x => (o, x.2.2) with
  | some (o, path) =>
    if (stopAt s o.chan path).isSome then .spacer
    else if s.fab.illegal.any fun x => x.1 == o.chan then .illegal
    else codeOf (orphanValue s o)
  | none =>
    match e.2 with
    | none => .spacer
    | some (c, path) => if (orphan s c).isSome || (stopAt s c path).isSome then .spacer else rails s c

/-- The values of a taker's used inputs, once all of them are valid (R62, R171). -/
def allValid (s : State) (k : Taker) : Option (List (Nat × Bool)) :=
  (Frames.inputs s.fab.frames k).foldr (fun e acc =>
    match seen s k e, acc with
    | .valid v, some l => some ((e.1, v) :: l)
    | _, _ => none) (some [])

/-- Every used input of a taker is at spacer (R62). -/
def allSpacer (s : State) (k : Taker) : Bool := (Frames.inputs s.fab.frames k).all fun e => seen s k e == .spacer

/-- The bits of captured inputs as a number. -/
def gather (l : List (Nat × Bool)) : Nat := l.foldl (fun a e => if e.2 then setBit a e.1 else a) 0

/-- Capture a word of a port (R171, R211, R255): its used channels all valid, at least one of them, and its acknowledge
low. -/
def captured (s : State) (k : Taker) : Option Nat :=
  if !awake s || !thawed s (Frames.regionOf k) || ack s k || (Frames.inputs s.fab.frames k).isEmpty then none
  else (allValid s k).map gather

/-- The regions that a channel's token enters or leaves when its handshake completes, without repeats. -/
def crossed (s : State) (c : Chan) (outward : Bool) : List Nat :=
  (((orphan s c).toList.filterMap fun o => if outward && !o.live then some o.region else none) ++
    (legs s c).flatMap fun p => (passed s c (fromStart s c) p.2).filterMap fun x =>
      if x.2 == outward then some x.1 else none).eraseDups

/-- A counter of a region's lens moved: the progress watch starts anew (R125). -/
def moved (r : Nat) (f : Lens → Lens) (s : State) : State :=
  setLens r { f (lens s r) with still := false, noProgress := false } s

/-- A completed handshake as the lenses count it (R123). -/
def countHandshake (c : Chan) (s : State) : State :=
  let ins := crossed s c false
  let outs := crossed s c true
  let s := ins.foldl (fun s r => moved r (fun x => { x with tokensIn := x.tokensIn + 1 }) s) s
  let s := outs.foldl (fun s r => moved r (fun x => { x with tokensOut := x.tokensOut + 1 }) s) s
  let near := ((Frames.homeOf c).toList ++ ins ++ outs).eraseDups
  near.foldl (fun s r =>
    let hit := (Frames.probes s.fab.frames r).filterMap fun p =>
      if p.2.any fun e => e.1 == c && (stopAt s c e.2).isNone then some p.1 else none
    if hit.isEmpty then s
    else moved r (fun x => { x with
      probeTokens := x.probeTokens + BitVec.ofNat 48 hit.length
      stuck := x.stuck.filter fun i => !hit.contains i }) s) s

/-- Handshakes that an isolating collar still passes end when the channel is back at spacer and its takers' acknowledges
are low, as does one that goes on outside a region; a collar that took a token lowers its acknowledge when the channel is back at
spacer. -/
def sweep (s : State) : State :=
  let spent := s.fab.spent.filter fun e => rails s e.2 != .spacer
  let s := { s with fab := { s.fab with spent := spent } }
  let grace := s.fab.grace.filter fun e => rails s e.2 != .spacer || (view s e.2).any fun k => ack s k
  let orphans := s.fab.orphans.filter fun o => (orphanValue s o).isSome || o.ends.any fun e => ack s e.1
  { s with fab := { s.fab with grace := grace, orphans := orphans } }

/-- The stage that sends a channel, if a stage does. -/
def sender : Chan → Option StageRef
  | .unit u => some (.unit u)
  | .gate g => some (.gate g)
  | .link r j k => some (.link r j k)
  | _ => none

/-- The unit is transparent (R63). -/
def transparent (s : State) (u : Nat) : Bool := Frames.tokenMode (Frames.unitWord s.fab.frames u) == 3

/-- The LUT output of a unit for the inputs captured (R61). -/
def output (s : State) (u : Nat) (l : List (Nat × Bool)) : Bool :=
  let w := Frames.unitWord s.fab.frames u
  let tied := (List.range 4).foldl (fun a i => if Frames.inputTied w i then setBit a i else a) 0
  Frames.lut w (tied ||| gather l)

/-- The taker that a storing stage is; none for a transparent unit. -/
def takerOf (s : State) : StageRef → Option Taker
  | .unit u => if transparent s u then none else some (.unit u)
  | .gate g => some (.gate g)
  | .link r j k => some (.link r j k)

/-- The token a stage makes of its inputs: a gate and a die-link stage pass the value on. -/
def tokenOf (s : State) (u : StageRef) (l : List (Nat × Bool)) : Bool :=
  match u with
  | .unit u => output s u l
  | _ => l.any (·.2)

/-- The first stage of a die-link channel whose owner is being reloaded acknowledges nothing (R110). -/
def linkHeld (s : State) : StageRef → Bool
  | .link r _ k => k == 0 && s.fab.frozen.getLsbD r
  | _ => false

/-- A storing stage captures (R64, input side). -/
def capture (u : StageRef) (s : State) : State :=
  match takerOf s u with
  | none => s
  | some k =>
    let x := stage s u
    if !awake s || linkHeld s u || !thawed s (Frames.regionOf k) || x.held.isSome || x.inAck then s
    else
      match allValid s k with
      | some l => setStage u { x with held := some (tokenOf s u l), inAck := true } s
      | none => s

/-- After a taker has lowered its acknowledge: the block channels that waited for it may offer (R56). -/
def wakeSenders (k : Taker) (s : State) : State :=
  ((Frames.inputs s.fab.frames k).filterMap fun e => e.2.bind fun p => (locate p.1).map (·.1)).eraseDups.foldl
    (fun s src => pump src s) s

/-- A taker whose inputs are all at spacer lowers its acknowledge (R55 step 4, R64). -/
def lower (k : Taker) (s : State) : State :=
  match k with
  | .collar _ _ => sweep s
  | .unit u =>
    if awake s && thawed s (Frames.regionOf k) && !transparent s u && ack s k && allSpacer s k then
      wakeSenders k (sweep (setAck k false s))
    else s
  | k =>
    if awake s && thawed s (Frames.regionOf k) && ack s k && allSpacer s k then
      wakeSenders k (sweep (setAck k false s))
    else s

/-- The channel that a stage sends. -/
def chanOfStage : StageRef → Chan
  | .unit u => .unit u
  | .gate g => .gate g
  | .link r j k => .link r j k

/-- A stage's output channel can take a new token: at spacer, with A low (R56). -/
def clear (s : State) (u : StageRef) : Bool :=
  (stage s u).rails.isNone && fresh s (chanOfStage u) && free s (chanOfStage u)

/-- Offer the held token (R64, output side). -/
def offer (u : StageRef) (s : State) : State :=
  if !awake s || !thawed s (Frames.homeOf (chanOfStage u)) || !clear s u then s
  else setStage u { stage s u with rails := (stage s u).held } s

/-- All receivers have taken the token on a channel: the sender returns to spacer and has room (R55 step 3, R64). A token
left outside by a region reset ends here too (R73). Transparent units go on under R65. -/
def acknowledge (c : Chan) (s : State) : State :=
  if !awake s || rails s c == .spacer || rails s c == .illegal || !acked s c then s
  else if (offered s c).isNone then
    let s := countHandshake c s
    let f (o : Orphan) : Orphan := if o.chan = c then { o with value := none } else o
    sweep { s with fab := { s.fab with orphans := s.fab.orphans.map f } }
  else
    match sender c with
    | some u =>
      match u with
      | .unit v =>
        if transparent s v then s
        else
          let s := countHandshake c s
          sweep (setStage u { stage s u with rails := none, held := none } s)
      | u =>
        let s := countHandshake c s
        sweep (setStage u { stage s u with rails := none, held := none } s)
    | none =>
      match locate c with
      | some (src, i) =>
        let s := countHandshake c s
        let o := (onOffer s src).2
        sweep (setOffer src { o with taken := o.taken ||| BitVec.twoPow 256 i } s)
      | none => s

/-- One move of a transparent unit (R65). -/
def evaluate (u : Fin 16777216) (s : State) : State :=
  let k := Taker.unit u
  let c := Chan.unit u
  let x := stage s (.unit u)
  if !awake s || !thawed s (Frames.regionOf k) || !transparent s u then s
  else if !x.inAck then
    match x.rails with
    | none =>
      match allValid s k with
      | some l =>
        if fresh s c && free s c then setStage (.unit u) { x with rails := some (output s u l) } s else s
      | none => s
    | some _ => if acked s c then setStage (.unit u) { x with inAck := true } s else s
  else
    match x.rails with
    | some _ =>
      if allSpacer s k then
        let s := countHandshake c s
        sweep (setStage (.unit u) { x with rails := none } s)
      else s
    | none => if free s c then wakeSenders k (sweep (setStage (.unit u) { x with inAck := false } s)) else s

/-- A channel enters the illegal code (R58). -/
def enterIllegal (c : Chan) (r : Nat) (s : State) : State :=
  if s.fab.illegal.any fun e => e.1 == c then s
  else
    let s := { s with fab := { s.fab with illegal := (c, r) :: s.fab.illegal } }
    observe (channel 6 r 0) (setLens r { lens s r with codeErrors := (lens s r).codeErrors + 1 } s)

/-- The channels of stages and block outputs that carry a token now. -/
def active (s : State) : List Chan :=
  (s.fab.stages.filterMap fun e =>
    if e.2.rails.isNone then none
    else if e.1 < 16777216 then some (Chan.unit (Fin.ofNat 16777216 e.1))
    else if e.1 < 16785408 then some (Chan.gate (Fin.ofNat 8192 (e.1 - 16777216)))
    else
      let n := e.1 - 16785408
      some (Chan.link (Fin.ofNat 512 (n / 512)) (Fin.ofNat 128 (n / 4 % 128)) (Fin.ofNat 4 (n % 4)))) ++
  ((s.banks.flatMap fun e => [Source.bank e.1 false, Source.bank e.1 true]) ++
    (s.rings.map fun e => Source.trace e.1) ++ (s.qports.map fun e => Source.queue e.1) ++
    (s.ports.map fun e => Source.port e.1) ++ (s.laneOut.map fun e => Source.lane e.1) ++
    (s.pinIn.map fun e => Source.pin e.1)).flatMap fun src =>
      (List.range (width src)).filterMap fun i =>
        if rails s (chanOf src i) == .spacer then none else some (chanOf src i)

/-- A way of a channel whose token has left region r, or has been taken behind its border (R116 steps 1 and 2). -/
def across (s : State) (r : Nat) (c : Chan) (p : Taker × List Frames.Cross) : Bool :=
  let l := passed s c (fromStart s c) p.2
  l.contains (r, true) || (l.contains (r, false) && l.length == p.2.length && took s c p.1)

/-- Channels in handshake across the border of region r (R116 steps 1 and 2). -/
def underWay (s : State) (r : Nat) : List Chan :=
  ((active s ++ s.fab.orphans.map (·.chan)).eraseDups).filter fun c => (legs s c).any (across s r c)

/-- The start of an entry to M6: an inbound handshake from B that the array has begun to take completes, and no other (R38, R119). -/
def holdInbound (s : State) : State :=
  let g := (active s).filterMap fun c =>
    if (Frames.homeOf c).isSome then none
    else ((legs s c).findSome? fun p =>
      match p.2 with
      | (r, false) :: _ => if across s r c p then some (r, c) else none
      | _ => none)
  { s with fab := { s.fab with grace := g ++ s.fab.grace } }

/-- The rank of an isolation cause (R527). -/
def rank (cause : Nat) : Nat :=
  match cause with
  | 4 => 5 | 5 => 4 | 3 => 3 | 2 => 2 | 1 => 1 | _ => 0

/-- Isolate a collar for a cause (R116, R527); during an entry to M6 and in M6 it acts when that override ends (R119). -/
def isolate (r cause : Nat) (s : State) : State :=
  let k := collar s r
  if k.isolate then setCollar r { k with cause := if rank k.cause < rank cause then cause else k.cause } s
  else
    let new : Collar := { k with isolate := true, cause := cause, isolating := true }
    let s :=
      if draining s then setCollar r { new with lines := some (acts k) } s
      else
        let g := (underWay s r).map fun c => (r, c)
        let s := setCollar r new s
        { s with fab := { s.fab with grace := g ++ s.fab.grace } }
    setLens r { lens s r with noProgress := false } s

/-- The isolating ladder ends once no channel still passes and none of the region's tokens is still offered outside (R116
step 3). -/
def isolated (r : Nat) (s : State) : State :=
  let s := sweep s
  let k := collar s r
  if s.fab.grace.any (fun e => e.1 == r) || s.fab.orphans.any (fun o => o.region == r) || k.lines.isSome then s
  else setCollar r { k with isolating := false } s

/-- Start a no-progress window of region r (R125). -/
def restartWindow (r : Nat) (s : State) : State :=
  setLens r { lens s r with still := true, sampled := false, windowStart := (launch s).toNat } s

/-- Open a collar (R117); during an entry to M6 and in M6 it opens when that override ends (R119). -/
def openCollar (r : Nat) (s : State) : State :=
  let k := collar s r
  if draining s then setCollar r { lines := some (acts k), linePolicy := k.linePolicy } s
  else
    let s := setCollar r {} s
    let s := { s with fab := { s.fab with grace := s.fab.grace.filter fun e => e.1 != r } }
    restartWindow r s

/-- The end of the override of an entry to M6: each collar takes the state that its objects give (R119). -/
def endOverride (s : State) : State :=
  s.fab.collars.foldl (fun s e =>
    let k := collar s e.1
    let plain : Collar := { k with lines := none, linePolicy := none }
    match k.lines with
    | none => setCollar e.1 plain s
    | some was =>
      if was = k.isolate then setCollar e.1 { plain with isolating := false } s
      else if k.isolate then isolate e.1 k.cause (setCollar e.1 {} s)
      else openCollar e.1 s) s

/-- A rule removes a cause: if it is the one held, the collar opens or stays isolated with cause 1 (R527). -/
def removeCause (r cause : Nat) (opens : Bool) (s : State) : State :=
  let k := collar s r
  if !k.isolate || k.cause != cause then s
  else if opens then openCollar r s else setCollar r { k with cause := 1 } s

/-- The mode, an entry to M6 or a frozen region overrides the collar (R119). -/
def overridden (s : State) : Bool := !modeIn s [.m5] || draining s

/-- 0x2600.03 (R120). -/
def collarState (s : State) (r : Nat) : Nat :=
  if overridden s then 3
  else if (collar s r).isolate && !(collar s r).isolating then 1 + reg s (0x2600 + r) 2 % 2 else 0

/-- 0x2600.04 (R120). -/
def collarCause (s : State) (r : Nat) : Nat :=
  if (collar s r).isolate && !(collar s r).isolating then (collar s r).cause else 0

/-- The inputs of a taker at which a way of a channel ends. -/
def endsAt (f : Frames.FrameMap) (c : Chan) (p : Taker × List Frames.Cross) : List Nat :=
  (Frames.inputs f p.1).filterMap fun e => if e.2 = some (c, p.2) then some e.1 else none

/-- What lies beyond the border of region r on a path. -/
def beyond (r : Nat) (path : List Frames.Cross) : List Frames.Cross := (path.dropWhile fun x => x != (r, true)).drop 1

/-- A channel's token as it goes on outside region r, which is emptied: to the takers that it has been offered to (R73). -/
def leftOutside (s : State) (r : Nat) (c : Chan) : Option Orphan :=
  match rails s c with
  | .valid v =>
    let ends := (legs s c).flatMap fun p =>
      if (passed s c (fromStart s c) p.2).contains (r, true) then
        (endsAt s.fab.frames c p).map fun i => (p.1, i, beyond r p.2)
      else []
    if ends.isEmpty then none else some { chan := c, region := r, live := false, value := some v, ends := ends.eraseDups }
  | _ => none

/-- The collar of region r has acknowledged a channel's token: every taker behind it has taken it (R57, R73). -/
def takenIn (s : State) (r : Nat) (c : Chan) : Bool :=
  let l := (legs s c).filter fun p => p.2.contains (r, false)
  !l.isEmpty && l.all fun p => across s r c p

/-- A channel's illegal code ends with a reset of the region that it starts in or was counted in (R58). -/
def legal (r : Nat) (e : Chan × Nat) : Bool := Frames.homeOf e.1 != some r && e.2 != r

/-- Steps 1 to 5 of a region reset for the region's stages and channels (R72, R73): tokens already outside stay offered
there, tokens that the collar has acknowledged are discarded, everything inside is emptied, and the initial tokens are
set. The code-error state that step 3 clears is the channels' illegal codes (log entry 75). -/
def resetStages (r : Nat) (s : State) : State :=
  let act := active s
  let left := act.filterMap fun c =>
    if Frames.homeOf c = some r && (orphan s c).isNone then leftOutside s r c else none
  let took := act.filter fun c => takenIn s r c
  let stages := Table.clear (fun k =>
    (decide (32768 * r ≤ k) && decide (k < 32768 * (r + 1))) ||
    (decide (16777216 + 16 * r ≤ k) && decide (k < 16777216 + 16 * (r + 1)))) s.fab.stages
  let acks := Table.clear (fun k =>
    (decide (8 * r ≤ k) && decide (k < 8 * (r + 1))) || k == 10000 + r || k == 11000 + r) s.fab.acks
  let fab := { s.fab with
    stages := stages
    acks := acks
    orphans := s.fab.orphans ++ left
    spent := (took.map fun c => (r, c)) ++ s.fab.spent.filter fun e => e.1 != r
    illegal := s.fab.illegal.filter (legal r) }
  let s := { s with fab := fab }
  (Frames.initialTokens fab.frames r).foldl (fun s e =>
    setStage (.unit (Fin.ofNat 16777216 e.1)) { held := some e.2 } s) s

/-- New fabric frames take effect. A token that has already been offered outside a region goes on to the takers that it was
offered to, whatever way the new configuration gives its channel (R116): no token is withdrawn. -/
def reroute (f : Frames.FrameMap) (s : State) : State :=
  let old := s.fab.frames
  let lasts (x : Taker × Nat × List Frames.Cross) : Bool := (Frames.inputs f x.1).any fun e => e.1 == x.2.1
  let live := (active s).filterMap fun c =>
    if (orphan s c).isSome then none
    else
      let new := Frames.takers f c
      let gone := (legs s c).flatMap fun p =>
        if (stopAt s c p.2).isNone && p.2.any (·.2) && !new.contains p then
          (endsAt old c p).map fun i => (p.1, i, p.2)
        else []
      let gone := gone.filter lasts
      match gone with
      | [] => none
      | x :: _ => some { chan := c, region := ((x.2.2.find? (·.2)).map (·.1)).getD 0, live := true,
                         ends := (gone ++ new.flatMap fun p => (endsAt f c p).map fun i => (p.1, i, p.2)).eraseDups }
  let kept := s.fab.orphans.filterMap fun o =>
    let e := o.ends.filter lasts
    if e.isEmpty then none else some { o with ends := e }
  { s with fab := { s.fab with frames := f, orphans := kept ++ live } }

/-- The illegal codes that end when frames of column `col` of region r are rewritten: those counted in the region of channels that
a cluster of the column sends or takes (R58). -/
def rewritten (r col : Nat) (s : State) : State :=
  let near (k : Taker) : Bool := match k with
    | .unit u => u.val / 32768 == r && u.val / 32 % 32 == col
    | _ => false
  let touches (e : Chan × Nat) : Bool :=
    (match e.1 with
     | .unit u => u.val / 32768 == r && u.val / 32 % 32 == col
     | _ => false) || (e.2 == r && (Frames.takers s.fab.frames e.1).any fun p => near p.1)
  { s with fab := { s.fab with illegal := s.fab.illegal.filter fun e => !touches e } }

/-- The stages of region r hold nothing: before the initial tokens of a new configuration are set (R301 step 1). -/
def dropTokens (r : Nat) (s : State) : State :=
  { s with fab := { s.fab with stages := Table.clear (fun k =>
      decide (32768 * r ≤ k) && decide (k < 32768 * (r + 1))) s.fab.stages } }

/-- A stage of a die-link channel holds a token that its receivers have not all taken (R64, R110). -/
def undelivered (s : State) (k : Nat) (x : Stage) : Bool :=
  let n := k - 16785408
  x.held.isSome && !(x.rails.isSome &&
    acked s (.link (Fin.ofNat 512 (n / 512)) (Fin.ofNat 128 (n / 4 % 128)) (Fin.ofNat 4 (n % 4))))

/-- The stages of the die-link channels that region r owns are emptied; each token discarded is counted (R110). A first stage
that has acknowledged its source does so until the source is back at spacer (R56). -/
def dropLinks (r : Nat) (s : State) : State :=
  let mine (k : Nat) : Bool := decide (16785408 + 512 * r ≤ k) && decide (k < 16785408 + 512 * (r + 1))
  let n := (s.fab.stages.filter fun e => mine e.1 && undelivered s e.1 e.2).length
  let stages := s.fab.stages.filterMap fun e =>
    if !mine e.1 then some e
    else if e.1 % 4 = 0 ∧ e.2.inAck then some (e.1, { inAck := true }) else none
  add 0x2500 5 32 n { s with fab := { s.fab with stages := stages } }

/-- Every stage empty, every channel at spacer (R32, R41, R69); what an entry to M6 had put off is done. -/
def emptyAll (s : State) : State :=
  let plain (k : Collar) : Collar := { k with lines := none, linePolicy := none }
  { s with fab := { s.fab with
      stages := [], acks := [], orphans := [], spent := [], grace := [], illegal := [], frozen := 0, incoming := []
      collars := (s.fab.collars.map fun e => (e.1, plain e.2)).filter fun e => e.2 != ({} : Collar) } }

/-- An inbound border channel of region r is valid and not acknowledged by the collar (R123). -/
def waitingIn (s : State) (r : Nat) : Bool :=
  ((active s ++ s.fab.orphans.map (·.chan)).eraseDups).any fun c =>
    match rails s c with
    | .valid _ => (legs s c).any fun p =>
        ((passed s c (fromStart s c) p.2).contains (r, false) &&
          !(match stopAt s c p.2 with
            | none => took s c p.1
            | some (r', false) => s.fab.spent.contains (r', c)
            | some (_, true) => false)) ||
        (stopAt s c p.2 == some (r, false) && !s.fab.spent.contains (r, c))
    | _ => false

/-- A probe shows a valid channel. -/
def probed (s : State) (p : Option (Chan × List Frames.Cross)) : Bool :=
  match p with
  | none => false
  | some (c, path) =>
    match rails s c with
    | .valid _ => (orphan s c).isNone && (stopAt s c path).isNone
    | _ => false

/-- One sample of a lens (R123, R125). -/
def sample (r : Nat) (s : State) : State :=
  if !awake s then s
  else
    let x := lens s r
    let valid := (Frames.probes s.fab.frames r).filterMap fun p => if probed s p.2 then some p.1 else none
    let w := waitingIn s r
    setLens r { x with
      stallSamples := if valid.any fun i => x.stuck.contains i then x.stallSamples + 1 else x.stallSamples
      waitSamples := if w then x.waitSamples + 1 else x.waitSamples
      stuck := valid
      sampled := true
      still := x.still && w } s

/-- The end of a no-progress window (R125). -/
def windowEnd (r : Nat) (s : State) : State :=
  let x := lens s r
  let due := decide (x.windowStart + 16000000 * reg s 0x2500 1 ≤ (launch s).toNat)
  if !awake s || !due then s
  else
    let stuck := x.sampled && x.still && !(collar s r).isolate && !overridden s
    let s := restartWindow r s
    if stuck && !x.noProgress then raise 356 (setLens r { lens s r with noProgress := true } s) else s

end Sys2Proof.Machine.Fabric
end

