-- ==== Sys2Proof/Machine/EventBlock.lean ====
section
/-!
DEFINITION. The event block's objects, its fabric events and the pulses of RAW (R495 to R511).
-/

namespace Sys2Proof.Machine.EventBlock

open Sys2Proof.Machine.Ops

/-- A pulse source (R495). -/
def pulseSource (n : Nat) : Bool :=
  [(288, 303), (305, 307), (352, 363), (368, 378), (385, 385), (387, 398), (400, 407), (416, 422), (488, 489),
    (512, 639)].any fun (e : Nat × Nat) => decide (e.1 ≤ n) && decide (n ≤ e.2)

/-- 16 periods after a pulse source's raise its RAW falls (R497). -/
def pulseEnd (n : Nat) (s : State) : State := if pulseSource n then track n false s else s

/-- STATUS bits are cleared (R498). -/
def clear (m : BitVec 640) (s : State) : State :=
  { s with events := { s.events with status := s.events.status &&& ~~~m } }

/-- A write of a control word: ENABLE from 0 to 1 while RAW is 1 counts as a raise (R498, R501, R502). -/
def writeControl (index sub v : Nat) (s : State) : State :=
  let n := 128 * (index - 0xB100) + sub - 1
  let old := reg s index sub
  let s := setReg index sub v s
  if !bit old 31 && bit v 31 && s.events.raw.getLsbD n then raise n s else s

/-- The sources with ENABLE and STATUS 1, in rising order. -/
def showing (s : State) : List Nat := (List.range 640).filter fun n => s.events.status.getLsbD n && bit (control s n) 31

/-- INT_N[k] is asserted (R504). -/
def intN (s : State) (k : Nat) : Bool :=
  (showing s).any fun n => bit (control s n) 28 && control s n / 2 ^ 26 % 4 == k

/-- What a read of an event object returns where the stored value is not it (R510). -/
def readSub (s : State) (index sub : Nat) : Option Nat :=
  if index ≠ 0xB000 then none
  else
    match sub with
    | 1 => some s.events.raw.toNat
    | 2 => some s.events.status.toNat
    | 3 => some ((showing s).headD 0xFFFF)
    | 4 => some ((List.range 4).foldl (fun a k => if intN s k then setBit a k else a) 0)
    | _ => none

/-- A write of an event object that does more than store (R510). -/
def writeSub (index sub : Nat) (d : List Byte) (s : State) : Option (Nat ⊕ State) :=
  let v := le d
  if index = 0xB000 then
    if sub = 2 then some (if d.length ≠ 80 then .inl 4 else .inr (clear (BitVec.ofNat 640 v) s)) else none
  else if index = 0xB001 then (if v &&& 0x7F000000 ≠ 0 then some (.inl 4) else none)
  else if 0xB100 ≤ index ∧ index ≤ 0xB104 then some (.inr (writeControl index sub v s))
  else none

/-! ### Fabric user events (R496) -/

/-- The pulse crossing of region 4u's block input 0x3C0. -/
def crossing (u : Nat) : BridgeId := { kind := .pulse, src := none, dst := some 103, slot := Fin.ofNat 4096 u }

/-- The user event whose crossing a bridge is. -/
def userOf (b : BridgeId) : Option Nat := if b = crossing b.slot.val ∧ b.slot.val < 128 then some b.slot.val else none

/-- A transfer of a bridge reaches its destination (R318, R324); one of a user event's crossing raises its source, and one with
OVF set is counted (R496). -/
def deliver (b : BridgeId) (s : State) : State :=
  match userOf b with
  | none => Bridges.deliver b s
  | some u =>
    let before := (Bridges.find s b).events
    let ovf := ((Bridges.find s b).h.getD 0).getLsbD 4
    let t := Bridges.deliver b s
    if (Bridges.find t b).events = before then t
    else raise (512 + u) (if ovf then bump 0xB000 8 t else t)

/-- A token on block input 0x3C0 of region 4u (R496): acknowledged, and of value 1 sent through its crossing, which is free
again at once unless a transfer of its own is still under way. -/
def token (u : Nat) (s : State) : State :=
  let k := Taker.userEvent (Fin.ofNat 512 (4 * u))
  match Fabric.captured s k with
  | none => s
  | some v =>
    let s := Fabric.setAck k true s
    let b := crossing u
    if v ≠ 1 then s
    else if (Bridges.find s b).h.isSome then Bridges.pulse b s
    else Bridges.free b (deliver b (Bridges.pulse b s))

end Sys2Proof.Machine.EventBlock
end

