-- ==== Sys2Proof/Machine/Banks.lean ====
section
/-!
DEFINITION. The memory banks: ports, arbitration and array cycles, the host's accesses, power states, repair and objects
(R166 to R201).
-/

namespace Sys2Proof.Machine.Banks

open Sys2Proof.Machine.Ops

/-- Banks whose number is a multiple of 16 are true dual-port (R15, R167). -/
def dual (n : Nat) : Bool := n % 16 == 0

/-- A port of a bank. -/
def port (b : Bank) (portB : Bool) : BankPort := if portB then b.portB else b.portA

/-- A bank with a port replaced. -/
def withPort (b : Bank) (portB : Bool) (p : BankPort) : Bank :=
  if portB then { b with portB := p } else { b with portA := p }

/-- Store a port of bank n. -/
def setPort (n : Nat) (portB : Bool) (p : BankPort) (s : State) : State := setBank n (withPort (bank s n) portB p) s

/-- The request that the captured channels spell (R169); a read-only port performs reads (R170). -/
def requestOf (readOnly : Bool) (v : Nat) : BankReq :=
  { op := if readOnly then 0 else BitVec.ofNat 2 v
    addr := BitVec.ofNat 13 (v / 4)
    data := if readOnly then 0 else BitVec.ofNat 64 (v / 2 ^ 15) }

/-- A port captures a request and acknowledges its channels together (R171, R174); one that reaches a Retain bank starts
its wake (R189), and one captured while a change of state is in progress waits for its end (R190). -/
def request (n : Nat) (portB : Bool) (s : State) : State :=
  let b := bank s n
  let p := port b portB
  let k := Taker.bankPort (Fin.ofNat 2048 n) portB
  let m := Frames.portMode s.fab.frames n portB
  if p.waiting.isSome || (m != 1 && m != 2) then s
  else
    match Fabric.captured s k with
    | none => s
    | some v =>
      let p := { p with waiting := some (requestOf (m == 1) v), after := b.leaving.isSome }
      wakeBank n false (Fabric.setAck k true (claim raise n (setPort n portB p s)))

/-- Put a response into a port's buffer and offer it (R172). -/
def respond (n : Nat) (portB : Bool) (x : BankResp) (s : State) : State :=
  let p := port (bank s n) portB
  Fabric.pump (.bank n portB) (setPort n portB { p with granted := none, resp := some x, offer := {} } s)

/-- Grant a port's waiting request; an Off or retired bank refuses it (R172). -/
def grantPort (n : Nat) (portB : Bool) (s : State) : State :=
  let p := port (bank s n) portB
  if refuses s n then
    respond n portB { refused := true } (refuse raise n (setPort n portB { p with waiting := none, after := false } s))
  else setPort n portB { p with granted := p.waiting, waiting := none } s

/-- The response to an access (R172). -/
def responseOf (a : Flags.Access) : BankResp := { poison := a.bad, corrected := a.corrected, data := a.data }

/-- The power state for a TARGET code (R198). -/
def powerOf (t : Nat) : Power :=
  match t with
  | 0 => .on | 1 => .retain | 2 => .off | _ => .deep

/-- Lose a bank's contents: every word then reads 0 with valid check bits (R188), and a rebuild has nothing left to do (log
entry 81). -/
def lose (n : Nat) (s : State) : State :=
  let s := setBank n { bank s n with rebuild := none, steer := reg s (0x4800 + n) 9 } s
  clearWords (fun k => k / 8192 == n) s

/-! ### The maintenance requester -/

/-- Write the image bits of a bank initialisation frame (R283): bit 72 w + i of the image is bit i of word w. -/
def writeImage (n m : Nat) (v : BitVec 4096) (s : State) : State :=
  let lo := 4096 * m
  let first := lo / 72
  (List.range 58).foldl (fun s i =>
    let w := first + i
    let p := 72 * w
    if 8192 ≤ w ∨ lo + 4096 ≤ p ∨ p + 72 ≤ lo then s
    else if lo ≤ p then
      let n' := min 72 (lo + 4096 - p)
      let part := (v >>> (p - lo)).setWidth 72 &&& BitVec.ofNat 72 (2 ^ n' - 1)
      let keep := word s n w &&& ~~~(BitVec.ofNat 72 (2 ^ n' - 1))
      setWord n w (keep ||| part) s
    else
      let d := lo - p
      let keep := word s n w &&& BitVec.ofNat 72 (2 ^ d - 1)
      setWord n w (keep ||| ((v.setWidth 72) <<< d)) s) s

/-- The completion of a host read (R185), if that is what the request is. -/
def completion (m : MaintReq) (data : W64) (poison : Bool) (s : State) : State :=
  match m.kind with
  | .host lo len => if m.req.op = 0 then emit (.completion ((bytes 8 data.toNat).drop lo |>.take len) poison) s else s
  | _ => s

/-- Perform a maintenance request on a bank that is ready (R184). A frame's words that no frame of its load has carried yet
read 0 (R283). -/
def perform (n : Nat) (m : MaintReq) (s : State) : State :=
  match m.kind with
  | .image first minor v => writeImage n minor v (if first then clearWords (fun k => k / 8192 == n) s else s)
  | k =>
    let p := bankAccess raise n m.req 0 s
    if k = .event then (if p.2.bad then bump 0xB000 7 p.1 else p.1) else completion m p.2.data p.2.bad p.1

/-- A request that an Off or retired bank refuses: a host read returns all ones (R185), an event delivery is counted as not made
(R505). -/
def refuseOne (n : Nat) (m : MaintReq) (s : State) : State :=
  if m.kind = .event then bump 0xB000 7 s else completion m (BitVec.allOnes 64) false (refuse raise n s)

/-- The requests that an Off or retired bank cannot hold any longer are refused. -/
def refuseHeld (n : Nat) (s : State) : State :=
  if !refuses s n then s
  else (bank s n).held.foldl (fun s m => refuseOne n m s) (setBank n { bank s n with held := [], deferred := false } s)

/-- Perform the first request that the bank holds. -/
def performHead (n : Nat) (s : State) : State :=
  match (bank s n).held with
  | [] => s
  | m :: rest => perform n m (setBank n { bank s n with held := rest, deferred := false } s)

/-- A held request may enter the array: no change of state began before it came (R190). The later ones follow it. -/
def maintWaits (b : Bank) : Bool := b.held.head?.any fun m => !(b.leaving.isSome && m.after)

/-- Perform held requests in the order in which they came (R184), as many as may enter. -/
def performHeld : Nat → Nat → State → State
  | 0, _, s => s
  | k + 1, n, s => if maintWaits (bank s n) then performHeld k n (performHead n s) else s

/-- An array that has become free serves a deferred request (R184), and the other held ones while no port competes with them
(R178). -/
def serve (n : Nat) (s : State) : State :=
  if !ready s n || granted (bank s n) then s
  else
    let s := if (bank s n).deferred then performHead n s else s
    let b := bank s n
    if grantable b b.portA || grantable b b.portB then s else performHeld b.held.length n s

/-! ### Changes of state -/

/-- Nothing captured before a change of state is left to serve (R190). -/
def quiet (b : Bank) : Bool :=
  let done (p : BankPort) : Bool := p.granted.isNone && (p.waiting.isNone || (b.leaving.isSome && p.after))
  done b.portA && done b.portB && b.held.all fun m => b.leaving.isSome && m.after

/-- A bank goes Off: its contents are lost, and what it held is refused (R188, R190). -/
def switchOff (n : Nat) (s : State) : State := refuseHeld n (lose n (setPower n .off s))

/-- TARGET takes effect in a bank that is not On (R188). -/
def applyAway (n t : Nat) (s : State) : State :=
  match power s n, t with
  | .retain, 0 => setPower n (.waking false 0) s
  | .retain, 1 => s
  | .retain, 2 => switchOff n s
  | .retain, _ => setPower n .deep s
  | .off, 0 => setPower n (.waking true 0) s
  | .off, 1 => setPower n (.waking true 1) s
  | .deep, 0 => setPower n (.waking false 0) s
  | .deep, 1 => setPower n (.waking false 1) s
  | .deep, 2 => switchOff n s
  | _, _ => s

/-- What waits in a bank that has gone to sleep starts its wake, as a request that reaches it then does (R189, R190). -/
def rouse (n : Nat) (s : State) : State :=
  let b := bank s n
  if !b.held.isEmpty then wakeBank n true s
  else if b.portA.waiting.isSome || b.portB.waiting.isSome then wakeBank n false s else s

/-- The bank with no change of state in progress: what came after its start waits like the rest. -/
def settled (b : Bank) : Bank :=
  { b with
    leaving := none, next := none
    portA := { b.portA with after := false }, portB := { b.portB with after := false }
    held := b.held.map fun m => { m with after := false } }

/-- Take the state change that waited for the requests captured before it, then the one that TARGET has been given since
(R190). -/
def depart (n : Nat) (s : State) : State :=
  let b := bank s n
  match b.leaving with
  | none => s
  | some t =>
    if !quiet b then s
    else
      let s := setBank n (settled b) s
      let s := if t.val = 2 then switchOff n s else setPower n (powerOf t) s
      rouse n (match b.next with | none => s | some t => applyAway n t s)

/-- Start a change of state of an On bank: at once, or after the requests captured before it (R188, R190). -/
def leave (n t : Nat) (s : State) : State :=
  depart n (setBank n { bank s n with leaving := some (Fin.ofNat 4 t) } s)

/-- TARGET is written (R188, R190). -/
def applyTarget (n t : Nat) (s : State) : State :=
  let b := bank s n
  match power s n with
  | .retired => s
  | .waking z _ => setPower n (.waking z (Fin.ofNat 4 t)) s
  | .on =>
    if b.leaving.isSome then setBank n { b with next := some (Fin.ofNat 4 t) } s
    else if t = 0 then s else leave n t s
  | _ => applyAway n t s

/-- The array is free again: the maintenance requester is served, and a change of state that waited is made. -/
def afterCycle (n : Nat) (s : State) : State := depart n (serve n s)

/-! ### Arbitration and array cycles -/

/-- Who gets the array. -/
inductive Client
  | maint
  | port (portB : Bool)
deriving DecidableEq, Repr

/-- The arbiter of a single-port bank (R178, R184): the maintenance requester, where it waits, and port B compete first, and the
winner with port A; a conflict goes to who lost the last one. -/
def arbitrate (b : Bank) (maint : Bool) : Option Client × Bank :=
  let a := grantable b b.portA
  let c := grantable b b.portB
  let side : Option Client × Bank :=
    if c && maint then (some (if b.bWins then .port true else .maint), { b with bWins := !b.bWins })
    else if c then (some (.port true), b)
    else if maint then (some .maint, b) else (none, b)
  match a, side with
  | false, x => x
  | true, (none, b) => (some (.port false), b)
  | true, (some x, b) => (some (if b.aWins then .port false else x), { b with aWins := !b.aWins })

/-- Grants in a single-port bank, one access at a time (R178); an access of the maintenance requester is complete at once. -/
def grantSingle : Nat → Nat → State → State
  | 0, _, s => s
  | k + 1, n, s =>
    if granted (bank s n) then s
    else
      match arbitrate (bank s n) (maintWaits (bank s n)) with
      | (none, _) => s
      | (some (.port portB), b) => grantPort n portB (setBank n b s)
      | (some .maint, b) => grantSingle k n (performHead n (setBank n b s))

/-- A maintenance request is deferred by port A's access in the same cycle (R184): both have the same word. A modifying request
that meets a read of port A goes after it as well, so that the read returns the word as it was. -/
def defers (m : MaintReq) (qa : Option BankReq) : Bool :=
  match m.kind with
  | .image _ _ _ => qa.isSome
  | _ => qa.any fun q => q.addr == m.req.addr

/-- Grants in a dual-port bank (R180, R184): every grantable port, but port B and the maintenance requester compete for one side
of the array. -/
def grantDual (n : Nat) (s : State) : State :=
  let b := bank s n
  let c := grantable b b.portB
  let m := maintWaits b && b.portB.granted.isNone && !b.deferred
  let s := if c && m then setBank n { b with bWins := !b.bWins } s else s
  let s := if grantable b b.portA then grantPort n false s else s
  if m && !(c && b.bWins) then
    let b := bank s n
    if b.held.head?.any fun m => defers m b.portA.granted then setBank n { b with deferred := true } s
    else
      let s := performHead n s
      if c && b.portA.granted.isNone then grantPort n true s else s
  else if c then grantPort n true s
  else s

/-- The arbiter's grant (R178 to R180, R184). -/
def grant (n : Nat) (s : State) : State :=
  if !ready s n && !refuses s n then s
  else if dual n then grantDual n s
  else grantSingle 4 n s

/-- The access of a granted port completes and its response is offered (R172, R175). -/
def completePort (n : Nat) (portB : Bool) (flips : BitVec 72) (s : State) : State :=
  match (port (bank s n) portB).granted with
  | none => s
  | some q =>
    let p := bankAccess raise n q flips s
    respond n portB (responseOf p.2) p.1

/-- An array access of a single-port bank completes (R176 to R179). -/
def complete (n : Nat) (flips : BitVec 72) (s : State) : State :=
  if dual n then s
  else if (bank s n).portA.granted.isSome then afterCycle n (completePort n false flips s)
  else afterCycle n (completePort n true flips s)

/-- Whether an operation changes the word. -/
def modifying (q : BankReq) : Bool := q.op != 0

/-- A collision (R182). -/
def collide (n w : Nat) (s : State) : State :=
  let v := reg s (0x4800 + n) 8
  bankCause raise n 2 (setReg (0x4800 + n) 8 (v % 2 ^ 51 + w * 2 ^ 51) (bump (0x4800 + n) 7 s))

/-- Both ports access one word in one cycle (R181): each meets the word as it was before the cycle; of two modifying
operations port A's is stored and port B's is dropped. The two responses, and the state. DEDUCED: the array is read once in the
cycle, so an error of the word counts once, and a dropped bit-set or bit-clear carries CORRECTED when the word it returns was
corrected. -/
def pairAccess (n : Nat) (qa qb : BankReq) (s : State) : (BankResp × BankResp) × State :=
  let w := qb.addr.toNat
  let v := word s n w
  let a := Flags.access qa.op qa.data v
  let b := Flags.access qb.op qb.data v
  let left := if modifying qa then a.word else b.word
  let d := left.extractLsb' 0 64
  let stuck := a.bad
  let coll := modifying qa && modifying qb && !stuck && Flags.modify qb.op d qb.data != d
  let s := noteAccess raise n w v (if qa.op = 1 then b else a) (setWord n w left s)
  let s := if coll then collide n w s else s
  ((responseOf a, { responseOf b with collision := coll }), s)

/-- Both ports' accesses to one word, and their responses (R181). -/
def sameWord (n : Nat) (qa qb : BankReq) (s : State) : State :=
  let p := pairAccess n qa qb s
  respond n true p.1.2 (respond n false p.1.1 p.2)

/-- One array cycle of a dual-port bank (R180, R181). -/
def cycle (n : Nat) (s : State) : State :=
  if !dual n then s
  else
    match (bank s n).portA.granted, (bank s n).portB.granted with
    | some qa, some qb =>
      if qa.addr = qb.addr then afterCycle n (sameWord n qa qb s)
      else afterCycle n (completePort n true 0 (completePort n false 0 s))
    | some _, none => afterCycle n (completePort n false 0 s)
    | none, some _ => afterCycle n (completePort n true 0 s)
    | none, none => s

/-- The array runs until the turn of a maintenance access that waits in its own unit: accesses in progress complete, and the
arbiter decides as ever (R178, R184). DESIGN CHOICE: that access is not made later than the command that asks for it (log entry
24). -/
def runArray : Nat → Nat → State → State
  | 0, _, s => s
  | k + 1, n, s =>
    let b := bank s n
    if !ready s n then s
    else if granted b then runArray k n (if dual n then cycle n s else complete n 0 s)
    else
      match arbitrate b (b.leaving.isNone || maintWaits b) with
      | (none, _) => s
      | (some (.port portB), b) => runArray k n (grantPort n portB (setBank n b s))
      | (some .maint, b) =>
        if maintWaits b then runArray k n (performHead n (setBank n b s)) else setBank n b s

/-- The array's turn comes round to an access of a DMA channel, of an engine's tagged request or of the server. -/
def turn (n : Nat) (s : State) : State :=
  let s := claim raise n s
  runArray (8 + (bank s n).held.length) n s

/-- That access can be made now. -/
def entered (s : State) (n : Nat) : Bool :=
  ready s n && (bank s n).leaving.isNone && (bank s n).held.isEmpty && !granted (bank s n)

/-! ### Host accesses -/

/-- A host access to one word, or a bank initialisation frame (R184 to R186, R190): performed, held, or refused. -/
def arrive (n : Nat) (m : MaintReq) (s : State) : State :=
  if refuses s n then refuseOne n m s
  else
    let s := claim raise n s
    if ready s n && arrayFree (bank s n) then perform n m s else hold n m s

/-- The host read past the bank part of BAR2 returns all ones and is counted (R183, R385). -/
def pastBanks (len : Nat) (s : State) : State := emit (.completion (List.replicate len 0xFF) false) (bump 0x8000 7 s)

/-- Host reads of `len` bytes from offset `off`, word by word in rising order (R183, R185). -/
def hostRead : Nat → Nat → Nat → State → State
  | 0, _, _, s => s
  | fuel + 1, off, len, s =>
    if len = 0 then s
    else if 0x18000000 ≤ off then pastBanks len s
    else
      let lo := off % 8
      let k := min len (8 - lo)
      let m : MaintReq := { kind := .host lo k, req := { op := 0, addr := BitVec.ofNat 13 (off / 8), data := 0 } }
      hostRead fuel (off + k) (len - k) (arrive (off / 65536 % 2048) m s)

/-- Host writes of whole words with an operation, in rising order (R183, R185). -/
def hostWrite (op : BitVec 2) : Nat → Nat → List Byte → State → State
  | 0, _, _, s => s
  | fuel + 1, off, data, s =>
    if data.isEmpty then s
    else
      let m : MaintReq :=
        { kind := .host 0 8
          req := { op := op, addr := BitVec.ofNat 13 (off / 8), data := BitVec.ofNat 64 (le (data.take 8)) } }
      hostWrite op fuel (off + 8) (data.drop 8) (arrive (off / 65536 % 2048) m s)

/-- A host read of the bank aperture or of an alias (R183, R185, R186). -/
def apertureRead (off len : Nat) (s : State) : State :=
  if 0x18000000 ≤ off then pastBanks len s
  else if modeIn s [.m5, .m7] then hostRead len off len s
  else emit (.completion (List.replicate len 0xFF) false) s

/-- A host write to the aperture or an alias (R185, R186). A write that is not made of whole aligned words is discarded and
counted. -/
def apertureWrite (op : BitVec 2) (off : Nat) (data : List Byte) (s : State) : State :=
  if !modeIn s [.m5, .m7] then s
  else if off % 8 ≠ 0 ∨ data.length % 8 ≠ 0 then
    bankCause raise (off / 65536 % 2048) 4 (bump 0x4000 5 s)
  else hostWrite op data.length off data s

/-! ### Power -/

/-- A wake completes: the bank is On, its held requests are served, and it goes on to the state stored (R188 to R190). After a
wake from Off, port A wins the first conflict (R178). -/
def wakeComplete (n : Nat) (s : State) : State :=
  match power s n with
  | .waking z g =>
    let s := if z then lose n (setBank n { bank s n with aWins := true, bWins := true } s) else s
    let s := serve n (setPower n .on s)
    if g.val = 0 then s else leave n g s
  | _ => s

/-- IDLE expires with no request (R188). -/
def idleExpiry (n : Nat) (s : State) : State :=
  let b := bank s n
  if ready s n && modeIn s [.m5, .m7] && idle s n != 0 && b.leaving.isNone && quiet b then
    setPower n .retain s
  else s

/-- The present state of a bank, 0x4800 + n sub 0x02 (R197). -/
def stateCode (s : State) (n : Nat) : Nat :=
  match power s n with
  | .retired => 6
  | .waking _ _ => 4
  | .on => if (bank s n).borrowed then 5 else 0
  | .retain => 1
  | .off => 2
  | .deep => 3

/-! ### Modes and resets -/

/-- Change the power state of every bank that is not retired. -/
def everyPower (f : Power → Power) (s : State) : State :=
  let g (p : Power) : Power := if p = .retired then .retired else f p
  { s with
    bankBase := g s.bankBase
    banks := s.banks.map fun e => (e.1, { e.2 with power := e.2.power.map g }) }

/-- Host reads that the banks still hold when the host is served no longer return all ones (R186). -/
def endHostReads (s : State) : State :=
  s.banks.foldl (fun s e => e.2.held.foldl (fun s m => completion m (BitVec.allOnes 64) false s) s) s

/-- Empty every port and every held request. -/
def emptyPorts (s : State) : State :=
  let s := endHostReads s
  { s with banks := s.banks.map fun e => (e.1, { e.2 with
      portA := {}, portB := {}, held := [], deferred := false, leaving := none, next := none, borrowed := false }) }

/-- Entry to M1: every bank Off with its contents lost, its counters 0 and its soft steering none (R178, R186 to R188, R195,
R197). DESIGN CHOICE: the last error and the word of the last collision return to 0 with the counters (log entry 82). -/
def onM1 (s : State) : State :=
  let s := clearWords (fun _ => true) { endHostReads s with banks := [], bankBase := .off }
  { s with regs := Table.clear (fun k =>
      (decide (256 * 0x4800 ≤ k) && decide (k < 256 * 0x5000) &&
        ((decide (4 ≤ k % 256) && decide (k % 256 ≤ 9)))) ||
      k == 256 * 0x4000 + 1 || k == 256 * 0x4000 + 2 || k == 256 * 0x4000 + 5) s.regs }

/-- Entry to M2: every bank is brought up from Off (R188), but for those whose retirement is fused (R187, R485). -/
def onM2 (s : State) : State :=
  s.nv.repairs.foldl (fun s e => if e / 2 ^ 60 = 2 then setPower (e / 2 ^ 32 % 65536) .retired s else s)
    (everyPower (fun _ => .waking true 0) s)

/-- Survey completes: every word reads 0, and a bank is On, or Deep-retain where written so (R188). -/
def onSurvey (s : State) : State :=
  everyPower (fun p => match p with | .waking _ g => powerOf g.val | p => p) s

/-- A bank loses its contents when it comes up from this state. -/
def fromOff : Power → Bool
  | .off | .waking true _ => true
  | _ => false

/-- Entry to M3: Deep-retain banks come On; by a full-reload request every bank does, and TARGET is written On (R41, R188). -/
def onM3 (reload : Bool) (s : State) : State :=
  if reload then
    let s := emptyPorts s
    let s := s.banks.foldl (fun s e => if fromOff (power s e.1) then
      lose e.1 (setBank e.1 { bank s e.1 with aWins := true, bWins := true } s) else s) s
    let s := { s with
      regs := s.regs.filterMap fun e =>
        if 256 * 0x4800 ≤ e.1 ∧ e.1 < 256 * 0x5000 ∧ e.1 % 256 = 1 ∧ power s (e.1 / 256 - 0x4800) ≠ .retired then
          (if e.2 / 4 * 4 = 4 then none else some (e.1, e.2 / 4 * 4))
        else some e }
    everyPower (fun _ => .on) s
  else everyPower (fun p => match p with | .deep => .on | .waking _ _ => .on | p => p) s

/-- Entry to M6: On banks go to Retain; an Off bank stays Off (R188). A change of state in progress is left to the exit, where
TARGET decides. -/
def onM6 (s : State) : State :=
  let s : State := { s with banks := s.banks.map fun (e : Nat × Bank) => (e.1, settled e.2) }
  let s := s.banks.foldl (fun s e => match power s e.1 with | .waking _ 2 => switchOff e.1 s | _ => s) s
  everyPower (fun p => match p with | .on | .waking _ _ => .retain | p => p) s

/-- Exit from M6: Retain banks take the state of TARGET (R188). DESIGN CHOICE: one whose TARGET still reads Deep-retain goes there,
in M5 as well (log entry 80). -/
def offM6 (s : State) : State :=
  let s := s.banks.foldl (fun s e =>
    if power s e.1 = .retain then
      match target s e.1 with
      | 0 => afterCycle e.1 (setPower e.1 .on s)
      | 2 => switchOff e.1 s
      | t => rouse e.1 (setPower e.1 (powerOf t) s)
    else s) s
  { s with bankBase := if s.bankBase = .retain then .on else s.bankBase }

/-- Entry to M7: what the fabric had asked of the banks is gone, and a change of state that waited for it is made; the host's
requests stay (R32, R190). -/
def onM7 (s : State) : State :=
  let s : State := { s with banks := s.banks.map fun (e : Nat × Bank) => (e.1, { e.2 with portA := {}, portB := {} }) }
  (s.banks.map fun (e : Nat × Bank) => e.1).foldl (fun s n => afterCycle n s) s

/-- What a bank's ports have captured is completed, and the responses are discarded (R74): what is granted, then what waits, in
the order of the arbiter (R178); two accesses of a dual-port bank go in one cycle (R181). A bank that is not ready keeps the
requests until it is. -/
def completeCaptured (n : Nat) (s : State) : State :=
  let access (q : BankReq) (s : State) : State := (bankAccess raise n q 0 s).1
  let both (a b : Option BankReq) (s : State) : State :=
    match a, b with
    | some a, some b =>
      if dual n then (if a.addr = b.addr then (pairAccess n a b s).2 else access b (access a s))
      else if (bank s n).aWins then access b (access a s) else access a (access b s)
    | some a, none => access a s
    | none, some b => access b s
    | none, none => s
  let k := bank s n
  let b : Bank := { k with portA := {}, portB := {} }
  let left (p : BankPort) : List MaintReq := p.waiting.toList.map fun q => { kind := .port, req := q, after := p.after }
  let l := if k.aWins then left k.portA ++ left k.portB else left k.portB ++ left k.portA
  let s := both k.portA.granted k.portB.granted (setBank n b s)
  if refuses s n then l.foldl (fun s m => refuseOne n m s) s
  else if ready s n && k.leaving.isNone && k.held.isEmpty then both k.portA.waiting k.portB.waiting s
  else setBank n { bank s n with held := (l.filter fun m => !m.after) ++ b.held ++ l.filter fun m => m.after } s

/-- A region reset: the banks complete every request they have captured, and port A wins the next conflict (R74, R178). -/
def resetRegion (r : Nat) (s : State) : State :=
  (List.range 4).foldl (fun s b =>
    let n := 4 * r + b
    if bank s n = {} then s
    else
      let s := completeCaptured n s
      afterCycle n (setBank n { bank s n with aWins := true, bWins := true } s)) s

/-! ### Repair -/

/-- A soft repair word is refused (R200). -/
def badRepair (s : State) (n v : Nat) : Bool :=
  let l := spares v
  let fused := spares (fusedWord s n)
  let old := spares (reg s (0x4800 + n) 9)
  l.any (fun e => decide (71 < e.2)) || !decide (l.map (·.2)).Nodup ||
    l.any (fun e => fused.any fun g => g.1 == e.1) ||
    (modeIn s [.m5] && old.any fun e => !l.contains e)

/-- The next soft steering that the soft repair word asks for is put in place, and its column is to be rebuilt (R196). One at a
time, so that a word not yet rebuilt has one position to correct. -/
def steerNext (n : Nat) (s : State) : State :=
  let b := bank s n
  match (spares (reg s (0x4800 + n) 9)).find? fun e => !(spares b.steer).contains e with
  | none => s
  | some e =>
    let v := clearBits b.steer (0xFF * 2 ^ (8 * e.1)) + (128 + e.2) * 2 ^ (8 * e.1)
    setBank n { b with steer := v, rebuild := some 0 } s

/-- A soft steering is applied; in M5 new positions start a rebuild (R196, R200). DESIGN CHOICE: in another mode, and in a bank
whose contents are lost, it is in place at once (log entry 81). -/
def applyRepair (n v : Nat) (s : State) : State :=
  let fresh := (spares v).any fun e => !(spares (reg s (0x4800 + n) 9)).contains e
  let s := setReg (0x4800 + n) 9 v s
  let s := if fresh then raise 373 s else s
  if !modeIn s [.m5] || refuses s n || fromOff (power s n) then setBank n { bank s n with steer := v } s
  else if (bank s n).rebuild.isSome then s else steerNext n s

/-- One rebuild access, in an array cycle that no one has asked for (R196). -/
def rebuild (n : Nat) (s : State) : State :=
  let b := bank s n
  match b.rebuild with
  | none => s
  | some w =>
    if !ready s n || !arrayFree { b with leaving := none } then s
    else
      let p := bankAccess raise n { op := 0, addr := BitVec.ofNat 13 w, data := 0 } 0 s
      if w + 1 < 8192 then setBank n { bank p.1 n with rebuild := some (w + 1) } p.1
      else steerNext n (bankCause raise n 5 (setBank n { bank p.1 n with rebuild := none } p.1))

/-- A bank is retired: its contents are lost and it refuses from then on (R187, R485); a request already granted is refused,
and a waiting one when it is granted (R172). -/
def retire (n : Nat) (s : State) : State :=
  let b := bank s n
  let drop (portB : Bool) (p : BankPort) (s : State) : State :=
    if p.granted.isSome then respond n portB { refused := true } (refuse raise n s) else s
  let s := lose n (setBank n { settled b with power := some .retired } s)
  refuseHeld n (drop true b.portB (drop false b.portA s))

/-! ### Objects -/

/-- What a read of a bank object returns where the stored value is not it (R197). -/
def readSub (s : State) (index sub : Nat) : Option Nat :=
  if index = 0x4000 ∧ sub = 4 then
    let l := s.regs.filterMap fun e =>
      if e.1 % 256 = 0x0B ∧ 0x4800 ≤ e.1 / 256 ∧ e.1 / 256 < 0x5000 ∧ (e.2 &&& reg s 0x4000 3) ≠ 0 then
        some (e.1 / 256 - 0x4800) else none
    some (l.foldl min 0xFFFF)
  else if 0x4800 ≤ index ∧ index < 0x5000 then
    let n := index - 0x4800
    match sub with
    | 2 => some (stateCode s n)
    | 3 => some (Frames.portMode s.fab.frames n false + 4 * Frames.portMode s.fab.frames n true)
    | 0x0A => some (fusedWord s n)
    | _ => none
  else none

/-- The group sources follow their pending causes (R201). -/
def trackGroup (k : Nat) (s : State) : State := track (320 + k) (groupPending s k) s

/-- A write of a bank's control word: the error, or the state after it (R188, R199). -/
def writeControl (n v : Nat) (s : State) : Nat ⊕ State :=
  let old := reg s (0x4800 + n) 1
  let t := v % 4
  if power s n = .retired then .inl 4
  else if (modeIn s [.m5, .m7] && (t != 3 || modeIn s [.m7])) || (modeIn s [.m2] && (t == 0 || t == 3)) then
    .inr (applyTarget n t (claim raise n (setReg (0x4800 + n) 1 v s)))
  else if t = old % 4 then .inr (setReg (0x4800 + n) 1 v s)
  else if t = 3 then .inl 4
  else .inl 3

/-- A write of a bank sub that does more than store: the error, or the state after it. -/
def writeSub (index sub v : Nat) (s : State) : Option (Nat ⊕ State) :=
  if index = 0x4000 ∧ sub = 3 then
    some (.inr ((List.range 32).foldl (fun s k => trackGroup k s) (setReg 0x4000 3 (v &&& 0x3F) s)))
  else if 0x4800 ≤ index ∧ index < 0x5000 then
    let n := index - 0x4800
    match sub with
    | 1 => some (writeControl n (v &&& 0xFFFF07) s)
    | 9 => some (if badRepair s n v then .inl 4 else .inr (applyRepair n v s))
    | 0x0B => some (.inr (trackGroup (n / 64) (setReg index 0x0B (clearBits (reg s index 0x0B) v) s)))
    | _ => none
  else none

end Sys2Proof.Machine.Banks
end

