-- ==== Sys2Proof/Machine/Pins.lean ====
section
/-!
DEFINITION. General-purpose pins: ownership, outputs, inputs, the pad latch and the function switch; CFG_DONE and the test access
port (R298, R434 to R455).
-/

namespace Sys2Proof.Machine.Pins

open Sys2Proof.Machine.Ops

/-- A pin. -/
def pin (s : State) (p : Nat) : Pin := Table.get (fun _ => s.pinBase) s.pins p

/-- Store a pin. -/
def setPin (p : Nat) (x : Pin) (s : State) : State := { s with pins := Table.put (fun _ => s.pinBase) s.pins p x }

/-- The default configuration word of a pin (R441). -/
def defaultWord (p : Nat) : Nat := 0x000680003FF00000 + 1024 * p

/-- The stored configuration word. -/
def stored (s : State) (p : Nat) : Nat := reg s (0x9100 + p) 2

/-- The configuration word in effect. -/
def active (s : State) (p : Nat) : Nat := (pin s p).active.getD (defaultWord p)

/-- The pins whose configuration word has been written, with the word. -/
def written (s : State) : List (Nat × Nat) :=
  s.regs.filterMap fun (e : Nat × Nat) =>
    if 0x9100 ≤ e.1 / 256 ∧ e.1 / 256 < 0x9280 ∧ e.1 % 256 = 2 then some (e.1 / 256 - 0x9100, e.2) else none

/-- The pins that are listed or written. -/
def inUse (s : State) : List Nat :=
  ((s.pins.map fun (e : Nat × Pin) => e.1) ++ (written s).map fun e => e.1).eraseDups

/-- The fields of R441. -/
def owner (v : Nat) : Nat := v / 2 ^ 60
def engineOf (v : Nat) : Nat := v / 2 ^ 53 % 128
def dir (v : Nat) : Nat := v / 2 ^ 51 % 4
def openDrain (v : Nat) : Bool := bit v 45
def dflt (v : Nat) : Bool := bit v 44
def inMode (v : Nat) : Bool := bit v 43
def edge (v : Nat) : Nat := v / 2 ^ 41 % 4
def srcB (v : Nat) : Nat := v / 2 ^ 20 % 1024
def srcA (v : Nat) : Nat := v / 2 ^ 10 % 1024

/-- The function of a pin: owner, DIR, SRCA and SRCB. -/
def function (v : Nat) : Nat × Nat := (v / 2 ^ 51, v / 2 ^ 10 % 2 ^ 20)

/-- The VIO class of bank k. -/
def vioClass (s : State) (k : Nat) : VioClass := Table.get (fun _ => .absent) s.vio k

/-- The pin's bank is present: in one class (R435). -/
def present (s : State) (p : Nat) : Bool :=
  vioClass s (p / 48) != .absent && vioClass s (p / 48) != .outOfRange

/-- The value and OE that a source contributes (R444): none named contributes 0. -/
def contribution (v src : Nat) (x : PinSource) : Bool × Bool :=
  if src = 0x3FF then (false, false) else (x.val.getD (dflt v), x.oe.getD true)

/-- The supervisor's alarm (R462): a warning is latched, or the hottest junction is at or above the threshold. -/
def alarm (s : State) : Bool :=
  s.sup.coreLatched || s.sup.auxLatched || decide (10 * (reg s 0x1010 0x0A : Int) ≤ s.sup.hottest)

/-- What the pad's function drives, without the latch (R444, R462). -/
def drive (s : State) (p : Nat) : Option Bool :=
  let v := active s p
  if owner v = 2 then (if present s p && alarm s then some false else none)
  else
  let a := contribution v (srcA v) (pin s p).srcA
  let b := contribution v (srcB v) (pin s p).srcB
  let val := a.1 || b.1
  if !present s p then none
  else if dir v = 2 ∨ (dir v = 3 ∧ (a.2 || b.2)) then (if openDrain v && val then none else some val)
  else none

/-- What the pad drives: the latch's state while it holds, the function in M5, nothing otherwise (R32, R35, R448). -/
def pad (s : State) (p : Nat) : Option Bool :=
  match (pin s p).latch with
  | some c => if present s p then c else none
  | none => if modeIn s [.m5] then drive s p else none

/-- The level on the ball. -/
def ball (s : State) (p : Nat) : Bool := (pad s p).getD (pin s p).level

/-- The pending causes of the six pins of a group. -/
def groupPending (s : State) (g : Nat) : Bool := (List.range 6).any fun i => reg s (0x9100 + 6 * g + i) 4 != 0

/-- The group has an enabled pending cause. -/
def groupEnabled (s : State) (g : Nat) : Bool :=
  (List.range 6).any fun i => (reg s (0x9100 + 6 * g + i) 4 &&& reg s (0x9100 + 6 * g + i) 5) != 0

/-- The group's source follows its causes (R451): raised by an enabled cause, re-armed when none is pending. -/
def trackGroup (g : Nat) (s : State) : State :=
  if groupEnabled s g then track (424 + g) true s
  else if groupPending s g then s else track (424 + g) false s

/-- A pin gains a cause (R451). -/
def cause (p b : Nat) (s : State) : State :=
  trackGroup (p / 6) (setReg (0x9100 + p) 4 (setBit (reg s (0x9100 + p) 4) b) s)

/-- The pin's input is sampled: DIR is not off and its bank is present, in M5 and M6, and in M7 for the supervisor's and
the security processor's own pins (R446, R450). -/
def sampling (s : State) (p : Nat) : Bool :=
  let v := active s p
  dir v != 0 && present s p && (modeIn s [.m5, .m6] || (modeIn s [.m7] && decide (2 ≤ owner v)))

/-- Put an input token on the pin's path: to IN of its slot, or to the engine port channel that it replaces (R447). -/
def offerIn (p : Nat) (b : Bool) (s : State) : State :=
  let v := active s p
  if 2 ≤ owner v then s
  else
    let s := setPin p { pin s p with delivered := some b } s
    let w : WordOut := { word := some (if b then 1 else 0) }
    let s := { s with pinIn := Table.put (fun _ => {}) s.pinIn p w }
    if owner v = 0 then Fabric.pump (.pin p) s else s

/-- The path holds a token that has not been taken. -/
def waiting (s : State) (p : Nat) : Bool := (Table.get (fun _ => ({} : WordOut)) s.pinIn p).word.isSome

/-- The data crossing of a pin's sampled input (R446). Its number is the model's (log entry 88). -/
def crossing (p : Nat) : BridgeId :=
  { kind := .data, src := some (Fin.ofNat 108 (91 + p / 48)), dst := none, slot := Fin.ofNat 4096 (8 * (4 * (p / 3)) + 2 + p % 3) }

/-- The next sample of the crossing is offered once the path is free (R321, R446, R450). -/
def feed (p : Nat) (s : State) : State :=
  let x := Bridges.find s (crossing p)
  match modeIn s [.m5] && !waiting s p && Bridges.ready x, x.line with
  | true, v :: _ => offerIn p (v == 1) (Bridges.free (crossing p) (Bridges.deliver (crossing p) s))
  | _, _ => s

/-- Offer the present level when it differs from the last one delivered (R446, INMODE 0). -/
def deliver (p : Nat) (s : State) : State :=
  if !modeIn s [.m5] || !sampling s p || inMode (active s p) || waiting s p ||
      (pin s p).delivered == some (ball s p) then s
  else offerIn p (ball s p) s

/-- The pad samples the ball (R446, R451). -/
def sample (p : Nat) (s : State) : State :=
  if !sampling s p then s
  else
    let x := pin s p
    let now := ball s p
    let s := setPin p { x with sampled := now } s
    let s := if x.sampled = now then s
      else
        let s := bump (0x9100 + p) 3 s
        let e := edge (active s p)
        if now && bit e 0 then cause p 0 s else if !now && bit e 1 then cause p 1 s else s
    deliver p s

/-- The ball's level changes from outside. -/
def inputChange (p : Nat) (b : Bool) (s : State) : State := sample p (setPin p { pin s p with level := b } s)

/-- A sample instant of INMODE 1 (R446): the sample is dropped when the crossing is full. -/
def sampleTick (p : Nat) (s : State) : State :=
  if !modeIn s [.m5] || !sampling s p || !inMode (active s p) then s
  else
    let s := feed p (sample p s)
    if 2 ≤ owner (active s p) then s
    else if Bridges.room s (crossing p) then
      feed p (Bridges.capture (crossing p) (if ball s p then 1 else 0) s)
    else cause p 3 (bump 0x9000 5 s)

/-- A token of the pin stands on IN of its slot, where it stays until it is acknowledged (R56). -/
def onSlot (s : State) (p : Nat) : Bool := (Table.get (fun _ => ({} : WordOut)) s.pinIn p).offer.sent.getLsbD 0

/-- What the pin still has to offer is dropped; a token that stands on IN of its slot stays (log entry 94). -/
def dropInput (p : Nat) (s : State) : State :=
  let s := if (Bridges.find s (crossing p)).line.isEmpty then s else Bridges.drop (crossing p) s
  if onSlot s p then s else { s with pinIn := Table.put (fun _ => {}) s.pinIn p {} }

/-- Switch a pin to a configuration word (R448, R449). -/
def apply (p v : Nat) (s : State) : State :=
  if function v = function (active s p) then setPin p { pin s p with active := some v } s
  else
    let x := pin s p
    let held := x.latch.getD (pad s p)
    let s := setPin p { x with
      latch := some held, active := some v, srcA := {}, srcB := {}, delivered := none } s
    let s := dropInput p s
    setReg (0x9100 + p) 6 (time80Nat s.time.sec s.time.ns) s

/-- A stored word takes effect: in M5, once the bank is present (R442, R443). -/
def settle (p : Nat) (s : State) : State :=
  if modeIn s [.m5] && present s p && stored s p != active s p then deliver p (apply p (stored s p) s) else s

/-- A source of the pin has delivered a token since the switch. -/
def hasToken (x : Pin) : Bool :=
  x.srcA.val.isSome || x.srcA.oe.isSome || x.srcB.val.isSome || x.srcB.oe.isSome

/-- The latch releases at the first token of the new function (R448). -/
def latchRelease (p : Nat) (s : State) : State :=
  let x := pin s p
  if modeIn s [.m5] && x.latch.isSome && hasToken x then sample p (setPin p { x with latch := none } s) else s

/-- The latch releases at its 1 µs limit (R448); a token that came with it releases it instead (R449). -/
def latchTimeout (p : Nat) (s : State) : State :=
  let x := pin s p
  if !modeIn s [.m5] || x.latch.isNone then s
  else if hasToken x then latchRelease p s
  else sample p (cause p 2 (bump 0x9000 4 (setPin p { x with latch := none } s)))

/-- A value reaches the pins whose word in effect names a source (R444): listed ones, and the pin of that number, which names its
own slot while its word is the default. -/
def sourceToken (own eng src : Nat) (f : PinSource → PinSource) (s : State) : State :=
  let l := s.pins.map fun (e : Nat × Pin) => e.1
  (if l.contains src then l else l ++ [src]).foldl (fun s p =>
    let x := pin s p
    let v := active s p
    if owner v = own ∧ engineOf v = eng ∧ (srcA v = src ∨ srcB v = src) then
      sample p (setPin p { x with
        srcA := if srcA v = src then f x.srcA else x.srcA
        srcB := if srcB v = src then f x.srcB else x.srcB } s)
    else s) s

/-- A token on OUT or OE of a slot: acknowledged, and its value taken by every pin that names the slot (R444, R445). -/
def outputToken (slot : Nat) (oe : Bool) (s : State) : State :=
  let k := if oe then Taker.pinOe (Fin.ofNat 384 slot) else Taker.pinOut (Fin.ofNat 384 slot)
  match Fabric.captured s k with
  | none => s
  | some v =>
    let b := v == 1
    sourceToken 0 0 slot (fun x => if oe then { x with oe := some b } else { x with val := some b })
      (Fabric.setAck k true s)

/-- SEND fills the send buffer of port q of engine n (R444). -/
def engineSend (n q : Nat) (w : W64) (s : State) : State :=
  (List.range 64).foldl (fun s j =>
    sourceToken 1 n (64 * q + j) (fun _ => { val := some (w.getLsbD j), oe := some (w.getLsbD ((j + 32) % 64)) }) s) s

/-- The engine-owned pins that replace receive channels of port q of engine n: channel and pin (R447). -/
def engineInputs (s : State) (n q : Nat) : List (Nat × Nat) :=
  s.pins.filterMap fun e =>
    let v := active s e.1
    if owner v = 1 ∧ engineOf v = n ∧ srcA v / 64 = q ∧ srcA v < 256 then some (srcA v % 64, e.1) else none

/-- A pin's token is taken: the next level, or the next sample, may be offered (R446). -/
def taken (p : Nat) (s : State) : State := if waiting s p then s else feed p (deliver p s)

/-- The engine port takes the tokens of the pins it captured (R447). -/
def takeEngine (l : List (Nat × Nat)) (s : State) : State :=
  l.foldl (fun s e => taken e.2 { s with pinIn := Table.put (fun _ => {}) s.pinIn e.2 {} }) s

/-- The inputs of a bank without a usable supply offer no token (R435). -/
def silence (k : Nat) (s : State) : State :=
  if present s (48 * k) then s
  else { s with pinIn := s.pinIn.filter fun (e : Nat × WordOut) => e.1 / 48 != k }

/-- A change of a bank's VIO class (R435). -/
def classChange (k : Nat) (c : VioClass) (s : State) : State :=
  if vioClass s k = c then s
  else
    let was := vioClass s k == .absent || vioClass s k == .outOfRange
    let s := cause (48 * k) 4 (silence k (Bridges.follow { s with vio := Table.put (fun _ => .absent) s.vio k c }))
    if was && present s (48 * k) then
      (inUse s).foldl (fun s p => if p / 48 = k then
            let s := settle p s
            sample p (setPin p { pin s p with delivered := none } s)
          else s) s
    else s

/-- After a change of the alarm, the pins that the supervisor owns follow it (R462). -/
def alarmPins (s : State) : State :=
  (inUse s).foldl (fun s p => if owner (active s p) = 2 then sample p s else s) s

/-- The supervisor releases a pin to the security processor (R462). -/
def releaseSupervisor (p : Nat) (s : State) : Nat ⊕ State :=
  if 384 ≤ p ∨ owner (stored s p) ≠ 2 then .inl 4
  else
    let v := clearBits (stored s p) (0xF018000000000000 + 0x3FFFFC00) + 3 * 2 ^ 60 + 0x3FFFFC00
    .inr (raise 378 (settle p (setReg (0x9100 + p) 2 v s)))

/-- The checks of R442. -/
def badWord (v : Nat) : Bool :=
  let o := owner v
  let okSrc (x : Nat) : Bool :=
    match o with
    | 0 => decide (x < 384) || x == 0x3FF
    | 1 => decide (x < 256) || x == 0x3FF
    | _ => x == 0x3FF
  decide (3 < o) || (o != 1 && engineOf v != 0) || !okSrc (srcA v) || !okSrc (srcB v) ||
    v % 1024 != 0 || v / 2 ^ 30 % 8 != 0

/-- A write of the configuration word is owned by the security class (R440). -/
def sealedOnly (s : State) (p v : Nat) : Bool := decide (2 ≤ owner (stored s p)) || decide (2 ≤ owner v)

/-- A write of the configuration word after the owner check (R440, R442, R443). -/
def writeWord (p v : Nat) (s : State) : Nat ⊕ State :=
  if owner (stored s p) = 2 then .inl 4
  else if badWord v then .inl 4
  else .inr (settle p (setReg (0x9100 + p) 2 v s))

/-- A write of a pin sub that does more than store. -/
def writeSub (index sub v : Nat) (s : State) : Option (Nat ⊕ State) :=
  let p := index - 0x9100
  if index < 0x9100 then none
  else
    match sub with
    | 2 => some (writeWord p v s)
    | 4 => some (.inr (trackGroup (p / 6) (setReg index 4 (clearBits (reg s index 4) v) s)))
    | 5 => some (.inr (trackGroup (p / 6) (setReg index 5 (v &&& 0x1F) s)))
    | _ => none

/-- The code of a VIO class (R453). -/
def classCode : VioClass → Nat
  | .absent => 0 | .v12 => 1 | .v15 => 2 | .v18 => 3 | .outOfRange => 4

/-- What a read of a pin sub returns where the stored value is not it. -/
def readSub (s : State) (index sub : Nat) : Option Nat :=
  if index = 0x9000 then
    match sub with
    | 1 => some ((List.range 8).foldl (fun a k => a + classCode (vioClass s k) * 16 ^ k) 0)
    | 2 => some s.modes.pstrap.toNat
    | 3 => some (s.regs.filter fun e =>
        decide (0x9100 ≤ e.1 / 256) && decide (e.1 / 256 < 0x9280) && e.1 % 256 == 2 && owner e.2 != 0).length
    | _ => none
  else if sub = 1 then
    let p := index - 0x9100
    let b (v : Bool) (i : Nat) : Nat := if v then 2 ^ i else 0
    some (b (ball s p) 0 + b (pad s p).isSome 1 + b (pin s p).latch.isSome 2 + b (present s p) 3)
  else none

/-! ### Dedicated signals and boundary scan -/

/-- CFG_DONE is asserted: in M5 and M6, and in no other mode (R32, R298 step 5). -/
def cfgDone (s : State) : Bool := modeIn s [.m5, .m6]

/-- The CMOS signals that the model holds a level of, as their boundary-scan cells capture them (R455): the general-purpose pins,
and RESET_N, PWRGD, ERROR_N (open-drain, low while asserted), CFG_DONE, PPS_OUT and the straps. No fabric die is in the chain. -/
def scanLevel (s : State) : ScanCell → Bool
  | .gpio p => ball s p
  | .resetN => s.modes.resetN
  | .pwrgd => s.modes.pwrgd
  | .errorN => !s.modes.errorN
  | .cfgDone => cfgDone s
  | .ppsOut => s.servo.ppsHigh
  | .ndId i => s.modes.ndId.getLsbD i
  | .pstrap i => s.modes.pstrap.getLsbD i

/-- One rising edge of TCK: the controller's next state for the level of TMS; while TRST_N is low it stays in Test-Logic-Reset
(R455; log entry 61). -/
def tapNext (trstN tms : Bool) (x : TapCtrl) : TapCtrl :=
  if !trstN then .reset
  else
    match x, tms with
    | .reset, true => .reset
    | .reset, false | .idle, false | .updateDr, false | .updateIr, false => .idle
    | .idle, true | .updateDr, true | .updateIr, true => .selectDr
    | .selectDr, true => .selectIr
    | .selectDr, false => .captureDr
    | .captureDr, false | .shiftDr, false | .exit2Dr, false => .shiftDr
    | .captureDr, true | .shiftDr, true => .exit1Dr
    | .exit1Dr, false | .pauseDr, false => .pauseDr
    | .exit1Dr, true | .exit2Dr, true => .updateDr
    | .pauseDr, true => .exit2Dr
    | .selectIr, true => .reset
    | .selectIr, false => .captureIr
    | .captureIr, false | .shiftIr, false | .exit2Ir, false => .shiftIr
    | .captureIr, true | .shiftIr, true => .exit1Ir
    | .exit1Ir, false | .pauseIr, false => .pauseIr
    | .exit1Ir, true | .exit2Ir, true => .updateIr
    | .pauseIr, true => .exit2Ir

/-- The chain of boundary-scan cells that the model holds: none of a fabric die (R455). -/
def scanChain : List ScanCell :=
  (List.finRange 384).map .gpio ++ [.resetN, .pwrgd, .errorN, .cfgDone, .ppsOut] ++
    (List.finRange 7).map .ndId ++ (List.finRange 8).map .pstrap

/-- A rising edge of TCK with the boundary-scan register selected: the cells capture their signals, or shift towards TDO
(R455; log entry 61). No command of the table gives one: the port stays idle with TRST_N low. -/
def tapClock (tms tdi : Bool) (s : State) : State :=
  let x := s.tap
  let cells := match x.ctrl with
    | .captureDr => scanChain.map (scanLevel s)
    | .shiftDr => x.cells.drop 1 ++ [tdi]
    | _ => x.cells
  { s with tap := { x with ctrl := tapNext x.trstN tms x.ctrl, cells := if x.trstN then cells else [] } }

/-- TDO drives only while the controller shifts (R454's table). -/
def tdoDrives (x : Tap) : Bool := x.ctrl == .shiftDr || x.ctrl == .shiftIr

/-! ### Modes -/

/-- Change every pin, listed or not. -/
def every (f : Nat → Pin → Pin) (base : Pin) (s : State) : State :=
  { s with pins := (s.pins.map fun e => (e.1, f e.1 e.2)).filter fun e => e.2 != base, pinBase := base }

/-- The pads latch their present state: entry to M6, and to M1 from another mode (R32, R449). -/
def latchAll (s : State) : State :=
  every (fun p x => { x with latch := some (x.latch.getD (pad s p)) }) { s.pinBase with
    latch := some (s.pinBase.latch.getD none) } s

/-- Every pin at its reset default, keeping only what the board puts on its ball (R35, R437). -/
def resetAll (s : State) : State :=
  every (fun _ x => { level := x.level, sampled := x.sampled }) {} { s with pinIn := [] }

/-- Entry to M1 from another mode: the pads stay latched, and every object returns to its default (R32, R449, R452). -/
def onM1 (s : State) : State :=
  let s := latchAll s
  let s := every (fun _ x => { level := x.level, sampled := x.sampled, latch := x.latch }) { latch := s.pinBase.latch } s
  defaults 0x9100 0x927F (fun _ => false) { s with pinIn := [] }

/-- Release step 4 of R298: each pin switches from its reset default to its stored function (R443, R448). -/
def release (s : State) : State :=
  let base : Pin := { latch := some none }
  let s := every (fun _ x => { level := x.level, sampled := x.sampled, latch := some none }) base s
  (written s).foldl (fun s e => sample e.1 (setPin e.1 { pin s e.1 with active := some e.2 } s)) s

/-- Exit from M6: the latches release, and words written meanwhile take effect (R35, R443, R449, R450). -/
def offM6 (s : State) : State :=
  let s := every (fun _ x => { x with latch := none, delivered := none }) { s.pinBase with latch := none } s
  (inUse s).foldl (fun s p => sample p (settle p (if inMode (active s p) then dropInput p s else s))) s

end Sys2Proof.Machine.Pins
end

