-- ==== Sys2Proof/Machine/Queues.lean ====
section
/-!
DEFINITION. The cell pool, the queues and their fabric ports, and the trace rings (R202 to R231).
-/

namespace Sys2Proof.Machine.Queues

open Sys2Proof.Machine.Ops

/-- A queue's record. -/
def queue (s : State) (q : Nat) : Queue := Table.get (fun _ => {}) s.queues q

/-- Store a queue's record. -/
def setQueue (q : Nat) (x : Queue) (s : State) : State := { s with queues := Table.put (fun _ => {}) s.queues q x }

/-- A sub of queue q: `off` from 1 to 8 (R224). -/
def sub (s : State) (q off : Nat) : Nat := reg s (0x5100 + q / 16) (off + 8 * (q % 16))

/-- Add to a counter of queue q. -/
def count (q off n : Nat) (s : State) : State := add (0x5100 + q / 16) (off + 8 * (q % 16)) 32 n s

/-- The fields of the control and limits words (R224). -/
def enabled (s : State) (q : Nat) : Bool := bit (sub s q 1) 63
def cut (s : State) (q : Nat) : Nat := sub s q 1 / 2 ^ 48 % 256
def producer (s : State) (q : Nat) : Nat := sub s q 1 / 2 ^ 24 % 4096
def consumer (s : State) (q : Nat) : Nat := sub s q 1 / 2 ^ 12 % 4096
def maxDepth (s : State) (q : Nat) : Nat := sub s q 2 / 2 ^ 38 % 2 ^ 19
def high (s : State) (q : Nat) : Nat := sub s q 2 / 2 ^ 19 % 2 ^ 19
def low (s : State) (q : Nat) : Nat := sub s q 2 % 2 ^ 19

/-- The cells allocated to a queue (R207). -/
def cellsOf (x : Queue) : List Cell := x.packets.flatMap fun p => p.cells

/-- DEPTH (R207). -/
def depth (x : Queue) : Nat := (cellsOf x).length

/-- The producer has an open packet. -/
def isOpen (x : Queue) : Bool := x.packets.any fun p => p.opened

/-- The consumer is part-way through a packet. -/
def midway (x : Queue) : Bool := (x.packets.head?.any fun p => p.started) || x.owed.isSome

/-- Words not yet popped of some cells. -/
def wordsIn (l : List Cell) : Nat := (l.map fun c => c.words.length).sum

/-! ### The pool -/

/-- Every cell that is not on a free list. -/
def inUse (s : State) : List Nat :=
  (s.queues.flatMap fun e => (cellsOf e.2).map fun c => c.id) ++ s.pool.lost

/-- The sub-banks in service (R203). -/
def inService (s : State) : Nat := ((List.range 128).filter fun b => !s.pool.retired.getLsbD b).length

/-- Free cells: those of the sub-banks in service (R203, R226). -/
def freeCells (s : State) : Nat :=
  2048 * inService s - ((inUse s).filter fun c => !s.pool.retired.getLsbD (c % 128)).length

/-- The lowest free row of a sub-bank from `row` on. -/
def freeRow (used : List Nat) (b : Nat) : Nat → Nat → Option Nat
  | 0, _ => none
  | fuel + 1, row => if used.contains (row * 128 + b) then freeRow used b fuel (row + 1) else some (row * 128 + b)

/-- A free cell of the first sub-bank in service, from sub-bank `b` on in rotation and but for sub-bank `skip`, that has one
(R203; log entry 21). -/
def pick (s : State) (used : List Nat) (skip : Option Nat) : Nat → Nat → Option Nat
  | 0, _ => none
  | fuel + 1, b =>
    if s.pool.retired.getLsbD (b % 128) || skip == some (b % 128) then pick s used skip fuel (b + 1)
    else
      match freeRow used (b % 128) 2048 0 with
      | some c => some c
      | none => pick s used skip fuel (b + 1)

/-- Source 304 is raised when free cells, `before` at first, have fallen below the threshold by `s` (R227). -/
def trackFree (before : Nat) (s : State) : State :=
  let t := reg s 0x5000 2
  if t ≤ before ∧ freeCells s < t then raise 304 s else s

/-- Allocate a cell for queue q, in another sub-bank than its last one while any other has a free cell (R203). -/
def allocate (q : Nat) (s : State) : Option (Nat × State) :=
  let used := inUse s
  match (pick s used (queue s q).lastBank 128 s.pool.rot).or (pick s used none 128 s.pool.rot) with
  | none => none
  | some c =>
    let s := { s with pool := { s.pool with rot := (c % 128 + 1) % 128 } }
    some (c, setQueue q { queue s q with lastBank := some (c % 128) } s)

/-- RAW of source 304 falls once free cells are no longer below the threshold (R227, R497). -/
def relax (s : State) : State :=
  if s.events.raw.getLsbD 304 && decide (reg s 0x5000 2 ≤ freeCells s) then track 304 false s else s

/-! ### Notices and watermarks -/

/-- Some queue of a group with NOTICE_EN has a notice set (R227). -/
def groupNotice (s : State) (k : Nat) : Bool :=
  s.regs.any fun e =>
    decide (0x5100 + 8 * k ≤ e.1 / 256) && decide (e.1 / 256 < 0x5100 + 8 * (k + 1)) && e.1 % 8 == 4 && e.2 != 0 &&
      bit (reg s (e.1 / 256) (e.1 % 256 - 3)) 61

/-- The group source of a queue follows its notices (R227). -/
def trackNotices (q : Nat) (s : State) : State := track (256 + q / 128) (groupNotice s (q / 128)) s

/-- A queue gains a notice (R224, R227). -/
def notice (q b : Nat) (s : State) : State :=
  trackNotices q (setReg (0x5100 + q / 16) (4 + 8 * (q % 16)) (setBit (sub s q 4) b) s)

/-- At the end of a slot that changes DEPTH the watermarks are compared (R222). -/
def watermarks (q : Nat) (s : State) : State :=
  let x := queue s q
  let d := depth x
  let l := x.lastDepth
  if d = l then s
  else
    let s := setQueue q { x with lastDepth := d } s
    if high s q = 0 then s
    else
      let c := sub s q 5
      if l < high s q ∧ high s q ≤ d then
        notice q 0 (setReg (0x5100 + q / 16) (5 + 8 * (q % 16)) ((c / 65536 + 1) % 65536 * 65536 + c % 65536) s)
      else if low s q < l ∧ d ≤ low s q then
        notice q 1 (setReg (0x5100 + q / 16) (5 + 8 * (q % 16)) (c / 65536 * 65536 + (c % 65536 + 1) % 65536) s)
      else s

/-! ### Operations -/

/-- A word with the parity bit that the queue manager writes beside it (R202). -/
def withParity (d : W64) : BitVec 65 := BitVec.ofBool (Flags.parity d) ++ d

/-- Put a word into a cell (R204, R208). -/
def fill (c : Cell) (d : W64) (close : Bool) : Cell :=
  { c with
    words := c.words ++ [withParity d]
    written := c.written + 1
    visible := c.written + 1 == 8 || close }

/-- Replace the last element of a list. -/
def mapLast {α : Type} (f : α → α) : List α → List α
  | [] => []
  | [x] => [f x]
  | x :: rest => x :: mapLast f rest

/-- The open packet has room in its last cell. -/
def hasRoom (x : Queue) : Bool :=
  x.packets.getLast?.any fun p => p.opened && p.cells.getLast?.any fun c => decide (c.written < 8) && !c.visible

/-- Append a word to the open packet's last cell, or, with a new cell, to the open packet or a new one (R213). -/
def append (x : Queue) (cell : Option Nat) (d : W64) (close : Bool) : Queue :=
  match cell with
  | none =>
    { x with packets := mapLast (fun p =>
        { p with cells := mapLast (fun c => fill c d close) p.cells, opened := !close }) x.packets }
  | some id =>
    let c := fill { id := id } d close
    if isOpen x then
      { x with packets := mapLast (fun p => { p with cells := p.cells ++ [c], opened := !close }) x.packets }
    else { x with packets := x.packets ++ [{ cells := [c], opened := !close }] }

/-- End the open packet as aborted (R218). -/
def abortOpen (q : Nat) (s : State) : State :=
  let x := queue s q
  if !isOpen x then s
  else
    let x := match x.packets.getLast? with
      | none => x
      | some p =>
        if !p.started then { x with packets := x.packets.dropLast }
        else if wordsIn p.cells = 0 then { x with packets := x.packets.dropLast, owed := some .poisonEnd }
        else { x with packets := mapLast (fun p => { p with
            opened := false, poisoned := true
            cells := p.cells.map fun c => { c with visible := true } }) x.packets }
    notice q 5 (setQueue q x s)

/-- A refused response with its reason (R215). -/
def refused (reason : Nat) : QResp := { refused := true, data := BitVec.ofNat 64 reason }

/-- The common checks, in the order of R215: 5 reserved, 4 disabled or outside M5, 3 attachment. -/
def precheck (s : State) (a q who : Nat) : Option Nat :=
  if !modeIn s [.m5] || !enabled s q then some 4
  else if a ≠ who then some 3
  else none

/-- Push, or push and close (R213, R215, R217, R220). -/
def push (a q : Nat) (d : W64) (close : Bool) (s : State) : QResp × State :=
  let x := queue s q
  match precheck s a q (producer s q) with
  | some r => (refused r, s)
  | none =>
    if x.discarding then
      (refused 6, count q 6 1 (setQueue q { x with discarding := !close } s))
    else if x.swallowing then
      ({}, count q 6 1 (setQueue q { x with swallowing := !close } s))
    else if isOpen x && hasRoom x then ({}, setQueue q (append x none d close) s)
    else
      let fail (r : Nat) : QResp × State :=
        let s := abortOpen q s
        let s := setQueue q { queue s q with discarding := !close } s
        (refused r, notice q 2 (count q 6 1 s))
      if depth x = maxDepth s q then fail 1
      else
        match allocate q s with
        | none => fail 2
        | some (c, t) => ({}, trackFree (freeCells s) (setQueue q (append (queue t q) (some c) d close) t))

/-- Abort (R213, R215, R217, R218, R220). DESIGN CHOICE: one that ends a packet whose rest is being discarded is not counted and
sets no notice (log entry 84). -/
def abort (a q : Nat) (s : State) : QResp × State :=
  let x := queue s q
  match precheck s a q (producer s q) with
  | some r => (refused r, s)
  | none =>
    if x.discarding then (refused 6, count q 6 1 (setQueue q { x with discarding := false } s))
    else if x.swallowing then ({}, setQueue q { x with swallowing := false } s)
    else ({}, abortOpen q s)

/-- A DMA channel's pop is held at queue q, be it of a descriptor in progress or of an abandoned one (R214, R390, R394, R395). -/
def dmaHolds (s : State) (q : Nat) : Bool :=
  (s.host.tags.any fun t => t.holding && t.desc.op == 2 && t.desc.target % 4096 == q) ||
    s.host.orphans.any fun e => e.2 == q

/-- Flush a queue (R219); a pop that is held is owed the FLUSHED word too (R394). Cells whose link entry was lost wait for the
sweep instead of being freed (R206). DESIGN CHOICE: all the cells of the queue, that of the word being read too (log entry
85). -/
def flush (q : Nat) (lost : Bool) (s : State) : State :=
  let x := queue s q
  let s := if lost then { s with pool := { s.pool with lost := s.pool.lost ++ (cellsOf x).map fun c => c.id } } else s
  setQueue q { x with
    packets := []
    owed := if midway x || dmaHolds s q then some .flushed else none
    discarding := x.discarding || isOpen x || x.swallowing
    swallowing := false } s

/-- A packet at the head is eligible (R208). -/
def eligible (s : State) (q : Nat) (p : Packet) : Bool :=
  !p.opened || (cut s q != 0 && decide (cut s q ≤ (p.cells.filter fun c => c.visible).length))

/-- The faults that the pool shows on a read of the head cell (R205, R206). -/
def linkFault (q : Nat) (f : PoolFault) (s : State) : State :=
  let s := if f.correctedLink then bump 0x5000 5 s else s
  if f.badLink then raise 306 (notice q 4 (bump 0x5000 6 (flush q true s))) else s

/-- Deliver the head word (R205, R207, R213, R218). -/
def deliver (q : Nat) (remove : Bool) (f : PoolFault) (p : Packet) (c : Cell) (rest : List Cell) (w : BitVec 65)
    (ws : List (BitVec 65)) (s : State) : QResp × State :=
  let w := w ^^^ f.flips
  let bad := Flags.parity w
  let eop := !p.opened && ws.isEmpty && wordsIn rest == 0
  let s := if bad then observe (channel 5 (c.id % 128) 0) (raise 305 (notice q 3 (count q 7 1 (bump 0x5000 4 s)))) else s
  let r : QResp := { poison := bad || p.poisoned, eop := eop, sop := !p.started, valid := true, data := w.setWidth 64 }
  if !remove then (r, s)
  else
    let x := queue s q
    let cells := if ws.isEmpty then rest else { c with words := ws } :: rest
    let tail := x.packets.drop 1
    let x := { x with packets := if eop then tail else { p with cells := cells, started := true } :: tail }
    (r, (if eop then count q 8 1 else id) (setQueue q x s))

/-- A pop or peek that has passed the checks, as one that was held had (R213, R214, R218, R219): the response, or none while it
is held. -/
def next (q : Nat) (remove : Bool) (f : PoolFault) (s : State) : Option QResp × State :=
  let faulty := (queue s q).owed.isNone && (queue s q).packets.head?.any fun p =>
    (p.started || eligible s q p) && p.cells.head?.any fun c => c.visible
  let s := if faulty then linkFault q f s else s
  let x := queue s q
  match x.owed with
  | some o =>
    let r : QResp := match o with
      | .flushed => { flushed := true, eop := true, valid := true }
      | .poisonEnd => { poison := true, eop := true, valid := true }
    (some r, if remove then (if o = .poisonEnd then count q 8 1 else id) (setQueue q { x with owed := none } s) else s)
  | none =>
    match x.packets with
    | [] => (some {}, s)
    | p :: _ =>
      if !p.started && !eligible s q p then (some {}, s)
      else
        match p.cells with
        | [] => (none, s)
        | c :: rest =>
          match c.words with
          | [] => (none, s)
          | w :: ws =>
            if !c.visible then (none, s)
            else
              let d := deliver q remove f p c rest w ws s
              (some d.1, d.2)

/-- Pop or peek (R213 to R215): the response, or none while it is held (R214). -/
def pop (a q : Nat) (remove : Bool) (f : PoolFault) (s : State) : Option QResp × State :=
  match precheck s a q (consumer s q) with
  | some r => (some (refused r), s)
  | none => next q remove f s

/-- The operation of an OP code (R210). -/
def opOf (v : Nat) : QOp :=
  match v with
  | 0 => .push | 1 => .pushClose | 2 => .pop | 3 => .peek | 4 => .abort | _ => .reserved

/-- One slot of a queue: an operation by an attachment, then the watermarks (R213 to R222). -/
def operate (a : Nat) (r : QReq) (f : PoolFault) (s : State) : Option QResp × State :=
  let q := r.queue.toNat
  let p : Option QResp × State := match r.op with
    | .push => let p := push a q r.data false s; (some p.1, p.2)
    | .pushClose => let p := push a q r.data true s; (some p.1, p.2)
    | .pop => pop a q true f s
    | .peek => pop a q false f s
    | .abort => let p := abort a q s; (some p.1, p.2)
    | .reserved => (some (refused 5), s)
  (p.1, watermarks q p.2)

/-- No fault of the pool. -/
def sound : PoolFault := { correctedLink := false, badLink := false, flips := 0 }

/-! ### Fabric ports -/

/-- A fabric queue port. -/
def qport (s : State) (p : Nat) : QPort := Table.get (fun _ => {}) s.qports p

/-- Store a fabric queue port. -/
def setQPort (p : Nat) (x : QPort) (s : State) : State := { s with qports := Table.put (fun _ => {}) s.qports p x }

/-- Put a response into a port's buffer and offer it (R211). -/
def respond (p : Nat) (r : QResp) (s : State) : State :=
  Fabric.pump (.queue p) (setQPort p { qport s p with resp := some r, offer := {} } s)

/-- A held pop or peek is looked at again, in whatever mode (R214, R219). -/
def resume (r : QReq) (f : PoolFault) (s : State) : Option QResp × State :=
  let q := r.queue.toNat
  let p := next q (r.op == .pop) f s
  (p.1, watermarks q p.2)

/-- Serve a port's next request: a held one that can now be answered, else the waiting one (R211, R214). -/
def serve (p : Nat) (f : PoolFault) (s : State) : State :=
  let x := qport s p
  if x.resp.isSome then s
  else
    let answer (r : QReq) (a : Option QResp × State) : State :=
      match a with
      | (some a, s) => respond p a (setQPort p { qport s p with held := none } s)
      | (none, s) => setQPort p { qport s p with held := some r } s
    match x.held with
    | some r => answer r (resume r f s)
    | none =>
      match x.waiting with
      | some r => answer r (operate (0x400 + p) r f (setQPort p { x with waiting := none } s))
      | none => s

/-- After a change of queue q, a pop that its consumer's port holds may be answered (R214). An abandoned pop of a DMA
channel takes its word, which is discarded and counted (R395). -/
def wakeConsumer (q : Nat) (s : State) : State :=
  let a := consumer s q
  if a / 1024 = 1 then
    let p := a % 1024
    if (qport s p).held.any fun r => r.queue.toNat == q then serve p sound s else s
  else if a / 1024 = 3 && s.host.orphans.contains (a % 1024, q) then
    match resume { op := .pop, queue := BitVec.ofNat 12 q, data := 0 } sound s with
    | (some x, s) =>
      if !x.valid then s
      else count q 6 1 { s with host := { s.host with orphans := s.host.orphans.erase (a % 1024, q) } }
    | (none, s) => s
  else s

/-- A port whose response has been taken is served, and its operation may end the hold of the queue's consumer (R211, R214,
R218, R221). -/
def serveNext (p : Nat) (s : State) : State :=
  let x := qport s p
  let t := serve p sound s
  match x.held.or x.waiting with
  | some r => wakeConsumer r.queue.toNat t
  | none => t

/-- The request that captured channels spell (R210). -/
def requestOf (v : Nat) : QReq :=
  { op := opOf (v % 8), queue := BitVec.ofNat 12 (v / 8), data := BitVec.ofNat 64 (v / 2 ^ 15) }

/-- The request is the one named: data counts for pushes alone. A request whose OP is reserved has no command of its own:
any operation named on its queue captures it, and it is refused with reason 5 (R211, R215). -/
def sameRequest (r want : QReq) : Bool :=
  (r.op == want.op || r.op == .reserved) && r.queue == want.queue &&
    (!(r.op == .push || r.op == .pushClose) || r.data == want.data)

/-- A port is off when its OP channels select nothing (R210). -/
def portOn (s : State) (p : Nat) : Bool :=
  (List.range 3).any fun i => (Frames.blockInput s.fab.frames (p / 2) (0x80 * (p % 2) + i)).isSome

/-- A port captures the request on its channels, if it is the one named, and serves it when its buffer is empty (R211). -/
def capture (p : Nat) (want : QReq) (f : PoolFault) (s : State) : State :=
  let k := Taker.queuePort (Fin.ofNat 1024 p)
  let x := qport s p
  if !portOn s p || x.waiting.isSome then s
  else
    match Fabric.captured s k with
    | none => s
    | some v =>
      if !sameRequest (requestOf v) want then s
      else
        let s := Fabric.setAck k true (setQPort p { x with waiting := some (requestOf v) } s)
        wakeConsumer want.queue.toNat (serve p f s)

/-- An operation by any attachment (R209, R212): a fabric port captures it from its channels; the others are answered
directly, unless the operation is held. -/
def command (a : Nat) (r : QReq) (f : PoolFault) (s : State) : State :=
  if a / 1024 = 1 then capture (a % 1024) r f s
  else
    match operate a r f s with
    | (some x, s) => wakeConsumer r.queue.toNat (emit (.queue x) s)
    | (none, s) => s

/-! ### Resets and modes -/

/-- A port has offered its response on a channel that the region takes (R220). -/
def offers (s : State) (p : Nat) : Bool :=
  (List.range 70).any fun i =>
    (qport s p).offer.sent.getLsbD i && !(Fabric.legs s (Fabric.chanOf (.queue p) i)).isEmpty

/-- The trigger of a region reset, or the start of a partial load, at a region's ports (R220). -/
def dropPorts (r : Nat) (partialLoad : Bool) (s : State) : State :=
  [2 * r, 2 * r + 1].foldl (fun s p =>
    let x := qport s p
    let keep := !partialLoad && offers s p
    setQPort p { x with
      held := none, waiting := none
      resp := if keep then x.resp else none, offer := if keep then x.offer else {} } s) s

/-- A word owed to the consumer is discarded (R219, R220). -/
def cutOwed (q : Nat) (s : State) : State :=
  let x := queue s q
  let t := setQueue q { x with owed := none } s
  if x.owed = some .poisonEnd then notice q 5 t else t

/-- The consumer's packet is cut (R220). DESIGN CHOICE: the word owed at the end of an aborted packet is discarded as its rest, and
is none of the words that are counted (log entry 84). -/
def cutConsumer (q : Nat) (s : State) : State :=
  let x := queue s q
  if !midway x then s
  else
    match x.packets with
    | p :: rest =>
      if p.started then
        notice q 5 (watermarks q (count q 6 (wordsIn p.cells) (setQueue q { x with
          packets := rest, owed := none, swallowing := x.swallowing || p.opened } s)))
      else cutOwed q s
    | [] => cutOwed q s

/-- A region reset or partial load of region r as the queues see it (R220). -/
def resetRegion (r : Nat) (partialLoad : Bool) (s : State) : State :=
  let s := dropPorts r partialLoad s
  (s.queues.map fun e => e.1).foldl (fun s q =>
    let s := if producer s q / 2 = 0x200 + r then
        let s := watermarks q (abortOpen q s)
        wakeConsumer q (setQueue q { queue s q with swallowing := false } s)
      else s
    if consumer s q / 2 = 0x200 + r then cutConsumer q s else s) s

/-- Every queue emptied and every cell freed, with no crossing counted (R220). -/
def empty (s : State) : State :=
  { s with queues := [], qports := [], pool := { s.pool with rot := 0, lost := [] } }

/-- Entry to M1: the objects of this chapter return to their defaults (R220, R231). -/
def onM1 (s : State) : State :=
  let s := empty s
  let s := defaults 0x5000 0x54FF (fun _ => false) s
  { s with rings := [], ringMem := [] }

/-- The sweep returns unreachable cells (R206). -/
def sweep (s : State) : State :=
  let n := s.pool.lost.length
  add 0x5000 8 32 n { s with pool := { s.pool with lost := [] } }

/-- A sub-bank is retired (R203, R227). -/
def retireSubBank (b : Nat) (s : State) : State :=
  trackFree (freeCells s) (raise 307 { s with pool := { s.pool with retired := s.pool.retired ||| BitVec.twoPow 128 b } })

/-! ### Objects -/

/-- The state word of a queue (R224): a packet whose rest is being discarded is still open at its producer (R220), and one whose
last word is owed is still held in part (R218). -/
def stateWord (s : State) (q : Nat) : Nat :=
  let x := queue s q
  let d := depth x
  let b (v : Bool) (i : Nat) : Nat := if v then 2 ^ i else 0
  b (isOpen x || x.swallowing) 63 + b x.discarding 62 + b (midway x) 61 + b (high s q != 0 && decide (high s q ≤ d)) 60 +
    b (high s q != 0 && decide (d ≤ low s q)) 59 + b (d == maxDepth s q) 58 + b (enabled s q) 57 + d * 2 ^ 38 +
    (x.packets.length + (if x.owed = some .poisonEnd then 1 else 0)) * 2 ^ 19

/-- What a read of a queue or trace object returns where the stored value is not it. -/
def readSub (s : State) (index sub : Nat) : Option Nat :=
  if index = 0x5000 then
    match sub with
    | 1 => some (freeCells s)
    | 3 => some (inService s)
    | 7 => some ((s.regs.filterMap fun e =>
        if 0x5100 ≤ e.1 / 256 ∧ e.1 / 256 < 0x5200 ∧ e.1 % 8 = 4 ∧ e.2 ≠ 0 then
          some (16 * (e.1 / 256 - 0x5100) + (e.1 % 256 - 4) / 8) else none).foldl min 0xFFFF)
    | _ => none
  else if 0x5100 ≤ index ∧ index < 0x5200 ∧ sub % 8 = 3 then
    some (stateWord s (16 * (index - 0x5100) + sub / 8))
  else if 0x5300 ≤ index ∧ index < 0x5500 then
    let g := Table.get (fun _ => ({} : Ring)) s.rings (index - 0x5300)
    match sub with
    | 1 => some g.wp.toNat
    | 2 => some g.rp.toNat
    | 3 => some (g.wp - g.rp).toNat
    | _ => none
  else none

/-- An attachment code that names nothing (R225). -/
def badAttachment (a : Nat) : Bool :=
  (a / 1024 == 2 && decide (127 < a % 1024)) || (a / 1024 == 3 && decide (31 < a % 1024))

/-- A write of a control word (R219, R225, R227): the error, or the state after it. DESIGN CHOICE: a flush takes effect at once, in
every mode (log entry 83). -/
def writeControl (q v : Nat) (s : State) : Nat ⊕ State :=
  let v := v &&& 0xE0FF000FFFFFF000
  let old := sub s q 1
  let x := queue s q
  if bit old 63 ∧ (v / 2 ^ 12 % 2 ^ 24 ≠ old / 2 ^ 12 % 2 ^ 24 ∨ v / 2 ^ 48 % 256 ≠ old / 2 ^ 48 % 256) then .inl 5
  else if bit old 63 ∧ !bit v 63 ∧ !bit v 62 ∧ (depth x ≠ 0 ∨ isOpen x ∨ x.swallowing) then .inl 5
  else if badAttachment (v / 2 ^ 24 % 4096) || badAttachment (v / 2 ^ 12 % 4096) then .inl 4
  else
    let s := if bit v 62 then wakeConsumer q (watermarks q (flush q false s)) else s
    .inr (trackNotices q (setReg (0x5100 + q / 16) (1 + 8 * (q % 16)) (clearBits v (2 ^ 62)) s))

/-- A write of a limits word (R223, R225): the error, or the state after it. -/
def writeLimits (q v : Nat) (s : State) : Nat ⊕ State :=
  let v := v % 2 ^ 57
  let m := v / 2 ^ 38
  let h := v / 2 ^ 19 % 2 ^ 19
  if m = 0 ∨ 262144 < m ∨ (h ≠ 0 ∧ (h ≤ v % 2 ^ 19 ∨ m < h)) then .inl 4
  else if m < depth (queue s q) then .inl 5
  else .inr (setReg (0x5100 + q / 16) (2 + 8 * (q % 16)) v s)

/-- A write of a queue or trace sub that does more than store. -/
def writeSub (index sub v : Nat) (s : State) : Option (Nat ⊕ State) :=
  if index = 0x5000 ∧ sub = 2 then (if 262144 < v then some (.inl 4) else none)
  else if 0x5100 ≤ index ∧ index < 0x5200 then
    let q := 16 * (index - 0x5100) + (sub - 1) / 8
    match sub % 8 with
    | 1 => some (writeControl q v s)
    | 2 => some (writeLimits q v s)
    | 4 => some (.inr (trackNotices q (setReg index sub (clearBits (reg s index sub) v) s)))
    | _ => none
  else if 0x5300 ≤ index ∧ index < 0x5500 ∧ sub = 5 then (if 1 < v then some (.inl 4) else none)
  else none

/-! ### Trace rings -/

/-- A trace ring. -/
def ring (s : State) (r : Nat) : Ring := Table.get (fun _ => {}) s.rings r

/-- Store a trace ring. -/
def setRing (r : Nat) (x : Ring) (s : State) : State := { s with rings := Table.put (fun _ => {}) s.rings r x }

/-- A read of a ring: VALID with the oldest entry, or 0 (R229). -/
def ringRead (r : Nat) (remove : Bool) (s : State) : BitVec 65 × State :=
  let g := ring s r
  if g.wp = g.rp then (0, s)
  else
    let e := Table.get (fun _ => (0 : W64)) s.ringMem (256 * r + g.rp.toNat % 256)
    ((1#1 ++ e : BitVec 65), if remove then setRing r { g with rp := g.rp + 1 } s else s)

/-- A write to a ring; a full ring loses its oldest entry (R229). -/
def ringWrite (r : Nat) (d : W64) (s : State) : State :=
  let g := ring s r
  let full := g.wp - g.rp == 256
  let s := setRing r { g with wp := g.wp + 1, rp := if full then g.rp + 1 else g.rp } s
  let s := { s with ringMem := Table.put (fun _ => 0) s.ringMem (256 * r + g.wp.toNat % 256) d }
  if full then
    let s := bump (0x5300 + r) 4 s
    if reg s (0x5300 + r) 7 = 1 then raise (288 + r / 32) s else s
  else s

/-- The ring captures a write from the fabric (R228, R229). -/
def traceWrite (r : Nat) (s : State) : State :=
  let k := Taker.traceWrite (Fin.ofNat 512 r)
  match Fabric.captured s k with
  | some v => ringWrite r (BitVec.ofNat 64 v) (Fabric.setAck k true s)
  | none => s

/-- The ring captures a read request of value 1, a pop, or 0, a peek (R228, R229, R231). -/
def traceRead (r : Nat) (remove : Bool) (s : State) : State :=
  let k := Taker.traceRead (Fin.ofNat 512 r)
  if (ring s r).resp.isSome then s
  else
    match Fabric.captured s k with
    | none => s
    | some v =>
      if (v == 1) != remove then s
      else
        let s := Fabric.setAck k true s
        let p := if reg s (0x5300 + r) 5 = 1 then ((0 : BitVec 65), s) else ringRead r remove s
        Fabric.pump (.trace r) (setRing r { ring p.2 r with resp := some p.1, offer := {} } p.2)

/-- The host's pop: byte 0 valid, bytes 1 to 8 the entry (R231). -/
def hostPop (r : Nat) (s : State) : List Byte × State :=
  if reg s (0x5300 + r) 5 = 1 then
    let p := ringRead r true s
    (bytes 1 (p.1.toNat / 2 ^ 64) ++ bytes 8 (p.1.toNat % 2 ^ 64), p.2)
  else (bytes 9 0, s)

/-- The start of a partial load clears the ring's pointers and its lost count (R231). -/
def clearRing (r : Nat) (s : State) : State := setReg (0x5300 + r) 4 0 (setRing r {} s)

/-- A region reset discards the response on offer (R73, R74). -/
def resetRing (r : Nat) (s : State) : State := setRing r { ring s r with resp := none, offer := {} } s

end Sys2Proof.Machine.Queues
end

