-- ==== Sys2Proof/Machine/Time.lean ====
section
/-!
DEFINITION. Lydan time and timed launch: the timebase, the PPS servo, keepers, launch gates and their schedules (R129 to
R163).
-/

namespace Sys2Proof.Machine.Time

open Sys2Proof.Machine.Ops

/-- The nanoseconds of a second. -/
def second : Nat := 1000000000

/-- A time with `d` units of 2^-40 ns added, carrying into NANOSECONDS and SECONDS (R129, R133). -/
def plus (d : Nat) (t : TimeState) : TimeState :=
  let sub := t.sub + d
  let ns := t.ns + sub / 2 ^ 40
  { sec := (t.sec + ns / second) % 2 ^ 48, ns := ns % second, sub := sub % 2 ^ 40 }

/-- The rate adjustment A (R133). -/
def rate (s : State) : Int := signed 32 (reg s 0x3000 7)

/-- The largest slew step of one period, in 2^-40 ns (R135). -/
def slewLimit (s : State) : Int := (reg s 0x3000 6 * 2 ^ 40 / 1000000 : Nat)

/-- The slew step s of a period: the remainder, limited (R135). -/
def slew (s : State) : Int := max (-(slewLimit s)) (min (slewLimit s) s.servo.remain)

/-- What one period of the 1 GHz timebase clock adds, in 2^-40 ns (R133). -/
def increment (s : State) : Nat := (2 ^ 40 + rate s + slew s).toNat

/-- One period of the timebase clock (R133, R135). -/
def period (s : State) : State :=
  { s with time := plus (increment s) s.time, servo := { s.servo with remain := s.servo.remain - slew s } }

/-- The time that a TIME80 states; NANOSECONDS above 999,999,999 is no time (R131). -/
def ofBytes (b : List Byte) : Option TimeState :=
  let ns := le (b.take 4)
  if ns < second then some { sec := le ((b.drop 4).take 6), ns := ns, sub := 0 } else none

/-- The whole launch count of a time, before the reduction modulo 2^64. -/
def units (t : TimeState) : Nat := 16 * (second * t.sec + t.ns) + t.sub / 2 ^ 36

/-- The time a number of 1/16 ns units after SECONDS 0. -/
def ofUnits (u : Nat) : TimeState :=
  { sec := u / 16 / second % 2 ^ 48, ns := u / 16 % second, sub := u % 16 * 2 ^ 36 }

/-! ### Keepers -/

/-- A region's keeper. -/
def keeper (s : State) (r : Nat) : Keeper := Table.get (fun _ => {}) s.keepers r

/-- Store a keeper. -/
def setKeeper (r : Nat) (k : Keeper) (s : State) : State :=
  { s with keepers := Table.put (fun _ => {}) s.keepers r k }

/-- A region's local time as a launch count: a keeper that has not yet followed a step runs on its own count, and one that has
taken a count from its time words on that one (R144). -/
def local' (s : State) (r : Nat) : W64 := launch s - s.servo.steps + (keeper s r).seen

/-- The start of the frame that a time word announces, on B's count: the multiple of 4,096 nearest to the present launch count. -/
def frameStart (s : State) : W64 := (launch s + 2048) >>> 12 <<< 12

/-- What a keeper that takes the count of time word `w` at the start of the announced frame is ahead (R144). -/
def ahead (w : W64) (s : State) : W64 := w - (frameStart s - s.servo.steps)

/-- A keeper completes a time word (R144). The spec gives no condition for the loss of lock, and a locked keeper keeps it (log
entry 79). -/
def timeWord (r : Nat) (w : W64) (s : State) : State :=
  let k := keeper s r
  if !k.locked then
    if k.last = some (w - 4096) then
      setKeeper r { k with locked := true, last := none, odd := none, expect := w + 4096, seen := ahead w s } s
    else setKeeper r { k with last := some w } s
  else if w = k.expect then setKeeper r { k with expect := k.expect + 4096, odd := none } s
  else if k.odd = some (w - 4096) then
    setKeeper r { k with expect := w + 4096, odd := none, seen := ahead w s } s
  else bump 0x3000 0x0B (setKeeper r { k with expect := k.expect + 4096, odd := some w } s)

/-- The ticks that are due: B sends one each time Lydan time crosses a multiple of 64 units (R143). -/
def tick (s : State) : State :=
  let n := (units s.time) / 64
  if n ≤ s.servo.tick then s
  else
    let t := s.servo.tick + 1
    let next : W64 := BitVec.ofNat 64 ((t / 64 + 1) * 4096)
    let s := { s with
      servo := { s.servo with tick := t }
      keepers := s.keepers.map fun e => (e.1, { e.2 with
        delay := if e.2.delay < e.2.target then e.2.delay + 1 else if e.2.target < e.2.delay then e.2.delay - 1
          else e.2.delay }) }
    emit (.tick (t % 64 == 0) (next.getLsbD (t % 64))) s

/-- A calibration of a region ends (R145). -/
def calibrate (r : Nat) (good : Bool) (d : Nat) (s : State) : State :=
  if modeIn s [.m2, .m5, .m6] then
    if good then setKeeper r { keeper s r with target := d, failed := false } s
    else raise 397 (setKeeper r { keeper s r with failed := true } s)
  else s

/-! ### Gates and schedules -/

/-- A gate. -/
def gate (s : State) (g : Nat) : Gate := Table.get (fun _ => {}) s.gates g

/-- Store a gate. -/
def setGate (g : Nat) (x : Gate) (s : State) : State := { s with gates := Table.put (fun _ => {}) s.gates g x }

/-- A gate's configuration word and its fields (R150). -/
def config (s : State) (g : Nat) : Nat := reg s (0x3200 + g / 16) (1 + g % 16)
def modeOf (v : Nat) : Nat := v / 2 ^ 62 % 4
def lateSkip (v : Nat) : Bool := bit v 61
def repeats (v : Nat) : Bool := bit v 60
def overlap (v : Nat) : Nat := v / 2 ^ 30 % 2 ^ 27
def epochLen (v : Nat) : Nat := v % 2 ^ 30
def timed (s : State) (g : Nat) : Bool := modeOf (config s g) == 1

/-- Lydan time less the region's epoch origin, as a signed difference modulo 2^64 (R132, R152). -/
def since (s : State) (g : Nat) : Int := (launch s - BitVec.ofNat 64 (reg s (0x3200 + g / 16) 0x41)).toInt

/-- The same by the region's own local time. -/
def sinceLocal (s : State) (g : Nat) : Int :=
  (local' s (g / 16) - BitVec.ofNat 64 (reg s (0x3200 + g / 16) 0x41)).toInt

/-- S_k less the epoch origin (R152). -/
def startOf (s : State) (g k : Nat) : Int := 16 * (epochLen (config s g) : Int) * k

/-- The first epoch whose decision instant falls after the present time (R159, R160). -/
def firstAfter (s : State) (g : Nat) : Nat :=
  let e := epochLen (config s g)
  let x := since s g + 8000
  if e = 0 ∨ x < 0 then 0 else (x / (16 * (e : Int))).toNat + 1

/-- A schedule bank of a gate. -/
def sched (x : Gate) (b : Bool) : SchedBank := if b then x.bank1 else x.bank0

/-- A gate with a schedule bank replaced. -/
def withSched (x : Gate) (b : Bool) (k : SchedBank) : Gate := if b then { x with bank1 := k } else { x with bank0 := k }

/-- A schedule entry (R153). -/
def entry (s : State) (g : Nat) (b : Bool) (i : Nat) : W64 :=
  Table.get (fun _ => 0) s.entries (128 * g + (if b then 64 else 0) + i)

/-- VALID and OFFSET of an entry. -/
def entryValid (e : W64) : Bool := e.getLsbD 63
def entryOffset (e : W64) : Nat := e.toNat % 2 ^ 34

/-- Store schedule entries from entry `i` on. -/
def putEntries (g : Nat) (b : Bool) : Nat → List W64 → State → State
  | _, [], s => s
  | i, e :: rest, s =>
    let k := 128 * g + (if b then 64 else 0) + i
    putEntries g b (i + 1) rest { s with entries := Table.put (fun _ => 0) s.entries k (e &&& 0x80000003FFFFFFFF) }

/-- The unfired valid entries of a bank. -/
def unfired (s : State) (g : Nat) (b : Bool) : List Nat :=
  (List.range 64).filter fun i => entryValid (entry s g b i) && !(sched (gate s g) b).fired.getLsbD i

/-- A gate's late, skip and release counters (R161). -/
def count (g which n : Nat) (s : State) : State := add (0x3200 + g / 16) (which + g % 16) 32 n s

/-- The firing loop's present entry belongs to a bank. -/
def firing (x : Gate) (b : Bool) : Bool :=
  match x.fire with
  | .armed c _ _ | .waiting c _ => c == b
  | .idle | .releasing => false

/-- The firing loop when its entry is discarded: a release that waits for the acknowledge goes on (R151, R156). -/
def dropped (x : Gate) : FirePhase :=
  match x.fire with
  | .armed _ _ true | .releasing => .releasing
  | _ => .idle

/-- Retire a bank that served epoch `k`: unfired entries are discarded, and counted late where `counted`; with REPEAT 1 it
is committed again for the epoch two later (R154). -/
def retire (g : Nat) (b : Bool) (k : Nat) (counted : Bool) (s : State) : State :=
  let n := (unfired s g b).length
  let x := gate s g
  let ph := if repeats (config s g) then BankPhase.committed (k + 2) false else .free
  let x := { (withSched x b { phase := ph }) with fire := if firing x b then dropped x else x.fire }
  let s := setGate g x s
  if counted && n != 0 then raise 395 (count g 0x11 n s) else s

/-- Retire the ACTIVE and TAIL banks of a gate, and, when the gate leaves timed mode, a bank taken for an epoch that has not
started (R151, R159, R160). -/
def retireAll (g : Nat) (counted taken : Bool) (s : State) : State :=
  [false, true].foldl (fun s b =>
    match (sched (gate s g) b).phase with
    | .active k | .tail k => retire g b k counted s
    | .committed k true => if taken then retire g b k false s else s
    | _ => s) s

/-- Banks committed for an epoch whose decision instant has passed become FREE; for a later one they stay committed, and its
decision instant is still to come (R159, R160). -/
def dropPassed (g : Nat) (s : State) : State :=
  [false, true].foldl (fun s b =>
    match (sched (gate s g) b).phase with
    | .committed k _ =>
      setGate g (withSched (gate s g) b (if startOf s g k - 8000 ≤ since s g then {} else { phase := .committed k false })) s
    | _ => s) s

/-- Every gate that is timed or holds a schedule. -/
def gatesInUse (s : State) : List Nat :=
  ((s.gates.map fun (e : Nat × Gate) => e.1) ++ s.regs.filterMap fun (e : Nat × Nat) =>
    if 256 * 0x3200 ≤ e.1 ∧ e.1 < 256 * 0x3400 ∧ 1 ≤ e.1 % 256 ∧ e.1 % 256 ≤ 16 ∧ modeOf e.2 = 1 then
      some (16 * (e.1 / 256 - 0x3200) + e.1 % 256 - 1)
    else none).eraseDups

/-- Every gate resumes at the first epoch whose decision instant lies ahead (R159, R160). -/
def resume (counted : Bool) (s : State) : State :=
  (gatesInUse s).foldl (fun s g =>
    let s := dropPassed g (retireAll g counted false s)
    setGate g { gate s g with next := firstAfter s g, fire := dropped (gate s g) } s) s

/-- The whole second, plus the offset of 0x3001.07, that a launch count has reached (R139). -/
def ppsAt (s : State) (u : Int) : Int := (u - signed 32 (reg s 0x3001 7)) / (16 * second)

/-- PPS_OUT starts to count seconds at the present time: the next rise is at the next instant that Lydan time reaches (R139). -/
def ppsRebase (s : State) : State :=
  { s with servo := { s.servo with ppsSecond := ppsAt s ((units s.time : Int) - 1) } }

/-- Lydan time steps to a new value (R134): the ticks and the pulse per second go on from there (R139, R143), and the step acts
on every gate (R144, R160). -/
def step (t : TimeState) (s : State) : State :=
  let l := launch s
  let u := units s.time
  let s := { s with time := t }
  let s := { s with servo := { s.servo with
    steps := s.servo.steps + (launch s - l)
    tick := units t / 64
    ppsEnd := s.servo.ppsEnd + ((units t : Int) - u) } }
  resume false (ppsRebase s)

/-- Exit from M6, before the release (R159). -/
def offM6 (s : State) : State := resume true s

/-- The decision instant of a gate's next epoch (R154). -/
def decision (g : Nat) (s : State) : State :=
  let x := gate s g
  let k := x.next
  if !timed s g || modeIn s [.m6] || decide (since s g < startOf s g k - 8000) then s
  else
    let b := k % 2 == 1
    let x := { x with next := k + 1 }
    if (sched x b).phase = .committed k false then
      setGate g (withSched x b { sched x b with phase := .committed k true }) s
    else raise 394 (bump (0x3200 + g / 16) 0x43 (setGate g x s))

/-- A schedule bank at an epoch start (R154). -/
def startBank (g : Nat) (b : Bool) (s : State) : State :=
  let x := gate s g
  match (sched x b).phase with
  | .active k =>
    if startOf s g (k + 1) ≤ since s g then
      if overlap (config s g) = 0 then retire g b k true s
      else setGate g (withSched x b { sched x b with phase := .tail k }) s
    else s
  | .committed k t =>
    if startOf s g k ≤ since s g then
      setGate g (withSched x b (if t then { phase := .active k } else {})) s
    else s
  | _ => s

/-- An epoch starts (R154). -/
def epochStart (g : Nat) (s : State) : State :=
  if modeIn s [.m6] then s
  else [false, true].foldl (fun s b => startBank g b s) s

/-- The overlap limit of a TAIL bank (R154, R157). -/
def overlapLimit (g : Nat) (s : State) : State :=
  if modeIn s [.m6] then s
  else [false, true].foldl (fun s b =>
    match (sched (gate s g) b).phase with
    | .tail k =>
      if startOf s g (k + 1) + 16 * overlap (config s g) ≤ since s g then retire g b k true s else s
    | _ => s) s

/-- The due time of an entry, less the epoch origin, if its bank is ACTIVE or TAIL. -/
def dueTime (s : State) (g : Nat) (b : Bool) (i : Nat) : Option Int :=
  match (sched (gate s g) b).phase with
  | .active k | .tail k => some (startOf s g k + entryOffset (entry s g b i))
  | _ => none

/-- The earliest unfired entry of the TAIL and ACTIVE banks, TAIL first on equal times (R156, R157). -/
def earliest (s : State) (g : Nat) : Option (Bool × Nat × Int) :=
  let pick (b : Bool) : Option (Bool × Nat × Int) :=
    (unfired s g b).foldl (fun best i =>
      match dueTime s g b i, best with
      | some t, none => some (b, i, t)
      | some t, some (_, _, u) => if t < u then some (b, i, t) else best
      | none, _ => best) none
  let tail1 := match (gate s g).bank1.phase with | .tail _ => true | _ => false
  match pick tail1, pick (!tail1) with
  | some p, some q => if q.2.2 < p.2.2 then some q else some p
  | some p, none => some p
  | none, q => q

/-- A gate holds a token that it has not offered. -/
def holds (s : State) (g : Nat) : Bool :=
  let x := Fabric.stage s (.gate (Fin.ofNat 8192 g))
  x.held.isSome && x.rails.isNone

/-- Mark an entry fired, and the loop goes on. -/
def fired (g : Nat) (b : Bool) (i : Nat) (s : State) : State :=
  let x := gate s g
  let k := sched x b
  setGate g { (withSched x b { k with fired := k.fired ||| BitVec.twoPow 64 i }) with fire := .idle } s

/-- An entry without its token, 8 ns before its time or when the token is lost before it (R156). -/
def missing (g : Nat) (b : Bool) (i : Fin 64) (s : State) : State :=
  if lateSkip (config s g) then raise 395 (count g 0x21 1 (fired g b i s))
  else setGate g { gate s g with fire := .waiting b i } s

/-- The token of a gate is discarded before its release: its entry is left without one, as if it had never been held (R156); a
release in progress ends with its token. -/
def loseToken (g : Nat) (s : State) : State :=
  match (gate s g).fire with
  | .armed b i _ => missing g b i s
  | .releasing => setGate g { gate s g with fire := .idle } s
  | _ => s

/-- The tokens of region r's gates are discarded (R72, R156, R159). -/
def loseTokens (r : Nat) (s : State) : State := (List.range 16).foldl (fun s g => loseToken (16 * r + g) s) s

/-- The tokens of every gate are discarded (R159). -/
def loseAll (s : State) : State := (s.gates.map fun (e : Nat × Gate) => e.1).foldl (fun s g => loseToken g s) s

/-- The gate's keeper is locked, so it may release (R144). -/
def mayRelease (s : State) (g : Nat) : Bool := (keeper s (g / 16)).locked && Fabric.awake s

/-- Local time reaches an entry's release time less 8 ns (R156). -/
def setup (g : Nat) (s : State) : State :=
  match (gate s g).fire, earliest s g with
  | .idle, some (b, i, t) =>
    if !timed s g || modeIn s [.m6] || decide (sinceLocal s g < t - 128) then s
    else if holds s g && mayRelease s g then setGate g { gate s g with fire := .armed b (Fin.ofNat 64 i) false } s
    else missing g b (Fin.ofNat 64 i) s
  | _, _ => s

/-- Offer the held token and count the release, late or not (R156). -/
def release (g : Nat) (b : Bool) (i : Nat) (late : Bool) (s : State) : State :=
  let u := StageRef.gate (Fin.ofNat 8192 g)
  let s := count g 0x31 1 (fired g b i (Fabric.offer u s))
  if late then raise 395 (count g 0x11 1 s) else s

/-- Local time reaches an entry's release time (R156). A release that finds the output not yet clear waits for it, and is
then late. -/
def releaseDue (g : Nat) (s : State) : State :=
  match (gate s g).fire with
  | .armed b i late =>
    match dueTime s g b i with
    | none => s
    | some t =>
      if modeIn s [.m6] || decide (sinceLocal s g < t) then s
      else if !holds s g then missing g b i s
      else if !mayRelease s g then missing g b i s
      else if Fabric.clear s (.gate (Fin.ofNat 8192 g)) then release g b i late s
      else setGate g { gate s g with fire := .armed b i true } s
  | .releasing =>
    if modeIn s [.m6] then s
    else if !holds s g then setGate g { gate s g with fire := .idle } s
    else if mayRelease s g && Fabric.clear s (.gate (Fin.ofNat 8192 g)) then
      let s := setGate g { gate s g with fire := .idle } (Fabric.offer (.gate (Fin.ofNat 8192 g)) s)
      raise 395 (count g 0x11 1 (count g 0x31 1 s))
    else s
  | _ => s

/-- A late token for the entry that waits (R156): released at its time, or on capture if that is later. -/
def lateRelease (g : Nat) (s : State) : State :=
  match (gate s g).fire with
  | .waiting b i =>
    match dueTime s g b i with
    | none => s
    | some t =>
      if modeIn s [.m6] || decide (sinceLocal s g < t) || !holds s g || !mayRelease s g ||
          !Fabric.clear s (.gate (Fin.ofNat 8192 g)) then s
      else release g b i true s
  | _ => s

/-- A gate captures a token; in bypass mode it offers it at once (R149). -/
def capture (g : Nat) (s : State) : State :=
  let u := StageRef.gate (Fin.ofNat 8192 g)
  let s := Fabric.capture u s
  if modeOf (config s g) = 2 then Fabric.offer u s else s

/-! ### Objects -/

/-- A write of a gate's configuration word: the error, or the state after it (R151). -/
def writeConfig (g v : Nat) (s : State) : Nat ⊕ State :=
  let old := config s g
  if modeOf v = 3 ∨ (modeOf v = 1 ∧ (epochLen v < 1000 ∨ 1000000000 < epochLen v ∨ epochLen v / 8 < overlap v)) then
    .inl 4
  else if modeOf old = 1 ∧ (epochLen v ≠ epochLen old ∨ overlap v ≠ overlap old ∨ repeats v ≠ repeats old) then .inl 5
  else
    let s := if modeOf old = 1 ∧ modeOf v ≠ 1 then
        let s := retireAll g false true s
        setGate g { gate s g with fire := dropped (gate s g) } s
      else s
    let s := setReg (0x3200 + g / 16) (1 + g % 16) v s
    let s := if modeOf v = 1 ∧ modeOf old ≠ 1 then setGate g { gate s g with next := firstAfter s g } s else s
    .inr (if modeOf v = 2 ∧ modeOf old ≠ 2 then Fabric.offer (.gate (Fin.ofNat 8192 g)) s else s)

/-- Any gate of a region is timed (R162). -/
def anyTimed (s : State) (r : Nat) : Bool := (List.range 16).any fun g => timed s (16 * r + g)

/-- The epoch that a commit names: the first with the remainder whose start has not been reached (R155). -/
def namedEpoch (s : State) (g e : Nat) : Nat :=
  let x := since s g
  let first := if x < 0 then 0 else (x / (16 * (epochLen (config s g) : Int))).toNat + 1
  first + (e + 2 ^ 32 - first % 2 ^ 32) % 2 ^ 32

/-- The entries of a bank form a contiguous run from entry 0 with rising offsets below 32 × E (R155). -/
def goodEntries (s : State) (g : Nat) (b : Bool) : Bool :=
  let l := (List.range 64).map fun i => entry s g b i
  let run := l.takeWhile entryValid
  (l.drop run.length).all (fun e => !entryValid e) &&
    decide (List.Pairwise (fun x y => entryOffset x < entryOffset y) run) &&
    run.all fun e => decide (entryOffset e < 32 * epochLen (config s g))

/-- A commit or uncommit (R155): the error, or the state after it. -/
def commit (g : Nat) (b : Bool) (e : Nat) (s : State) : Nat ⊕ State :=
  let x := gate s g
  if e = 0xFFFFFFFF then
    match (sched x b).phase with
    | .free => .inl 4
    | .committed k _ =>
      if startOf s g k - 8000 ≤ since s g then .inl 5 else .inr (setGate g (withSched x b {}) s)
    | _ => .inl 5
  else
    let len := epochLen (config s g)
    let k := namedEpoch s g e
    if len < 1000 ∨ 1000000000 < len then .inl 4
    else if startOf s g k - 8000 ≤ since s g then .inl 5
    else if k % 2 ≠ (if b then 1 else 0) then .inl 4
    else if (sched x b).phase ≠ .free then .inl 4
    else if !goodEntries s g b then .inl 4
    else .inr (setGate g (withSched x b { phase := .committed k false }) s)

/-- The words of a byte list, 8 bytes each. -/
def words : Nat → List Byte → List W64
  | 0, _ => []
  | n + 1, d => BitVec.ofNat 64 (le (d.take 8)) :: words n (d.drop 8)

/-- A bank write (R155): the error, or the state after it. -/
def bankWrite (d : List Byte) (s : State) : Nat ⊕ State :=
  let g := le (d.take 2)
  let b := le ((d.drop 2).take 1)
  let first := le ((d.drop 3).take 1)
  let n := le ((d.drop 4).take 2)
  if d.length < 8 ∨ d.length ≠ 8 + 8 * n ∨ 8191 < g ∨ 1 < b ∨ n < 1 ∨ 64 < n ∨ 64 < first + n ∨
      le ((d.drop 6).take 2) ≠ 0 then .inl 4
  else if (sched (gate s g) (b == 1)).phase ≠ .free then .inl 5
  else .inr (putEntries g (b == 1) first (words n (d.drop 8)) s)

/-- A commit BLOB (R155). -/
def commitBlob (d : List Byte) (s : State) : Nat ⊕ State :=
  let g := le (d.take 2)
  let b := le ((d.drop 2).take 1)
  if d.length ≠ 8 ∨ 8191 < g ∨ 1 < b ∨ le ((d.drop 3).take 1) ≠ 0 then .inl 4
  else commit g (b == 1) (le ((d.drop 4).take 4)) s

/-- The bank read BLOB of R155. -/
def bankRead (s : State) (sel : Nat) : List Byte :=
  let g := sel / 2 % 8192
  let b := sel % 2 == 1
  let p : Nat × Nat := match (sched (gate s g) b).phase with
    | .free => (0, 0)
    | .committed k _ => (1, k)
    | .active k => (2, k)
    | .tail k => (3, k)
  bytes 1 p.1 ++ [0] ++ bytes 2 g ++ bytes 4 p.2 ++
    (List.range 64).flatMap fun i => bytes 8 (entry s g b i).toNat

/-- No edge for 1.5 s, or no message for 10 ms: holdover, with A at its average (R138, R164). -/
def holdover (source src : Nat) (s : State) : State :=
  if reg s 0x3000 8 ≠ source ∨ s.servo.state = 3 then s
  else
    let l := s.servo.rates
    let s := if l.isEmpty then s else setReg 0x3000 7 (unsigned 32 (Int.tdiv l.sum l.length)) s
    raise src { s with servo := { s.servo with state := 3, good := 0 } }

/-- The follower's lane is not Up: holdover (R164). -/
def followerLane (s : State) : State :=
  if (Table.get (fun _ => ({} : Lane)) s.lanes (reg s 0x3003 1)).st = .t7 then s else holdover 2 396 s

/-- A write of a time or launch sub that does more than store (R134 to R136, R142, R147, R151, R155, R161, R162): the
error, or the state after it. -/
def writeSub (index sub : Nat) (d : List Byte) (s : State) : Option (Nat ⊕ State) :=
  let v := le d
  let disciplined := reg s 0x3000 8 != 0
  let ranged (lo hi : Nat) : Option (Nat ⊕ State) := if v < lo ∨ hi < v then some (.inl 4) else none
  match index, sub with
  | 0x3000, 3 =>
    some (match ofBytes d with
      | none => .inl 4
      | some t => .inr (setReg 0x3000 3 v (step t { s with servo := { s.servo with remain := 0 } })))
  | 0x3000, 4 =>
    if disciplined then some (.inl 5)
    else
      let n := s.servo.remain + signed 32 v * 2 ^ 36
      some (if n < -(2 ^ 31 * 2 ^ 36) ∨ 2 ^ 31 * 2 ^ 36 < n then .inl 4
        else .inr { s with servo := { s.servo with remain := n } })
  | 0x3000, 6 => ranged 1 1000
  | 0x3000, 7 => if disciplined then some (.inl 5) else none
  | 0x3000, 8 =>
    if 2 < v then some (.inl 4)
    else
      let s := if v = reg s 0x3000 8 then s
        else { s with servo := { s.servo with
          state := if v = 0 then 0 else 1, first := true, good := 0, rates := [], exchange := [] } }
      some (.inr (followerLane (setReg 0x3000 8 v s)))
  | 0x3001, 6 =>
    let s' := setReg 0x3001 6 v s
    some (.inr (if v = 0 then { s' with servo := { s'.servo with ppsHigh := false } }
      else if reg s 0x3001 6 = 0 then ppsRebase s' else s'))
  | 0x3001, 7 => some (.inr (ppsRebase (setReg 0x3001 7 v s)))
  | 0x3001, 4 => ranged 0 2
  | 0x3001, 8 => ranged 1 500000
  | 0x3003, 1 => some (if 63 < v then .inl 4 else .inr (followerLane (setReg 0x3003 1 v s)))
  | 0x3003, 2 => ranged 0 1
  | 0x3004, 1 => ranged 10 1000
  | 0x3010, 1 => some (bankWrite d s)
  | 0x3010, 2 => some (commitBlob d s)
  | _, _ =>
    if 0x3200 ≤ index ∧ index < 0x3400 then
      if 1 ≤ sub ∧ sub ≤ 16 then
        some (writeConfig (16 * (index - 0x3200) + sub - 1) (v &&& 0xF1FFFFFFFFFFFFFF) s)
      else if sub = 0x41 ∧ anyTimed s (index - 0x3200) then some (.inl 5)
      else none
    else none

/-- What a read of a time or launch sub returns where the stored value is not it. 0x3000.05 gives the remainder in whole 1/16 ns,
rounded towards zero; a remainder of 2^31 units, which R135 allows and an I32 does not hold, reads as -2^31 (log entry 78). -/
def readSub (s : State) (c : Context) (index sub : Nat) : Option Nat :=
  match index, sub with
  | 0x3000, 1 => some (time80Nat s.time.sec s.time.ns)
  | 0x3000, 2 => some c.fraction
  | 0x3000, 5 => some (unsigned 32 (Int.tdiv s.servo.remain (2 ^ 36)))
  | 0x3000, 9 => some s.servo.state
  | 0x3000, 0x0A => some c.launch
  | 0x3002, 1 => some s.servo.twoStep.length
  | 0x3004, 2 => some (s.keepers.filter fun e => e.2.failed).length
  | 0x3004, 3 => some ((s.keepers.filterMap fun e => if e.2.failed then some e.1 else none).foldl min 0xFFFF)
  | 0x3010, 3 => some c.readSelect
  | _, 0x42 =>
    if 0x3200 ≤ index ∧ index < 0x3400 then
      some ((List.range 16).foldl (fun a g =>
        if (Fabric.stage s (.gate (Fin.ofNat 8192 (16 * (index - 0x3200) + g)))).held.isSome then setBit a g else a) 0)
    else none
  | _, _ => none

/-- The Timestamp of IEEE 1588: seconds, then nanoseconds, each big-endian (R131). -/
def timestamp (sec ns : Nat) : List Byte := (bytes 6 sec).reverse ++ (bytes 4 ns).reverse

/-- The oldest two-step entry as 16 bytes; LANE 0xFF when the queue is empty (R141). -/
def twoStepBytes (s : State) : List Byte :=
  match s.servo.twoStep with
  | [] => bytes 16 0xFF
  | e :: _ => bytes 1 e.lane ++ [0] ++ bytes 2 e.tag ++ time80 e.sec e.ns ++ bytes 2 e.fraction

/-- Queue a transmit timestamp; a full queue discards it (R141). -/
def queueTwoStep (lane tag : Nat) (s : State) : State :=
  if s.servo.twoStep.length < 1024 then
    { s with servo := { s.servo with twoStep := s.servo.twoStep ++
        [{ lane := lane, tag := tag, sec := s.time.sec, ns := s.time.ns, fraction := fraction s }] } }
  else raise 398 (bump 0x3002 3 s)

/-- Entry to M1: the objects of this chapter return to their defaults but for the counts since cold reset (R142, R159). -/
def onM1 (s : State) : State :=
  let s := defaults 0x3000 0x3002 (fun k => k == 256 * 0x3000 + 0x0B || k == 256 * 0x3001 + 3 || k == 256 * 0x3002 + 3) s
  let s := defaults 0x3010 0x3010 (fun _ => false) s
  let s := defaults 0x3200 0x33FF (fun _ => false) s
  { s with
    gates := []
    entries := []
    servo := { s.servo with
      remain := 0, state := 0, first := true, good := 0, rates := [], exchange := [], twoStep := [], ppsHigh := false }
    ctxMailbox := { s.ctxMailbox with readSelect := 0 }
    ctxCan0 := { s.ctxCan0 with readSelect := 0 }
    ctxCan1 := { s.ctxCan1 with readSelect := 0 } }

/-! ### PPS -/

/-- The servo acts on A and on s after an edge or message: what it sets is open (log entry 14). -/
def servoAct (s : State) : State :=
  let a := Config.servoRate s.fresh
  let p := Config.servoSlew s.fresh
  let s := setReg 0x3000 7 a.toNat (tickFresh s)
  { s with servo := { s.servo with
      remain := p.toInt * 2 ^ 36, rates := (a.toInt :: s.servo.rates).take 10 } }

/-- The servo sees an error in 1/16 ns: lock after `need` within `limit` in a row (R138, R164). -/
def judge (err limit : Int) (need src : Nat) (s : State) : State :=
  let good := if err ≤ limit ∧ -limit ≤ err then s.servo.good + 1 else 0
  let was := s.servo.state
  let st := if need ≤ good then 2 else if was = 3 ∨ was = 0 then 1 else if good = 0 then 1 else was
  let s := { s with servo := { s.servo with good := good, state := st, first := false } }
  if st = 2 ∧ was ≠ 2 then raise src s else s

/-- A rising edge of PPS_IN (R138). -/
def ppsEdge (s : State) : State :=
  let cap := (units s.time : Int) - signed 32 (reg s 0x3001 5)
  let c := if cap < 0 then 0 else cap.toNat
  let t := ofUnits c
  let within := c % (16 * second)
  let err : Int := if 2 * within ≤ 16 * second then (within : Int) else (within : Int) - 16 * second
  let s := setReg 0x3001 1 (time80Nat t.sec t.ns) (setReg 0x3001 2 (t.sub / 2 ^ 24)
    (setReg 0x3001 9 (unsigned 32 err) (bump 0x3001 3 s)))
  if reg s 0x3000 8 ≠ 1 then s
  else if s.servo.first && !modeIn s [.m5, .m6] && (decide (16000 < err) || decide (err < -16000)) then
    let u := units s.time - within
    let s := step (ofUnits u) s
    { s with servo := { s.servo with first := false, good := 0, state := 1 } }
  else servoAct (judge err 320 10 393 s)

/-- The whole second, plus the offset, that Lydan time has reached (R139). -/
def ppsCount (s : State) : Int := ppsAt s (units s.time)

/-- PPS_OUT rises, for the high time of 0x3001.08 (R139). -/
def ppsRise (s : State) : State :=
  if reg s 0x3001 6 = 0 ∨ s.servo.ppsHigh ∨ ppsCount s ≤ s.servo.ppsSecond then s
  else
    let c := ppsCount s
    { s with servo := { s.servo with
      ppsHigh := true, ppsSecond := c
      ppsEnd := c * (16 * second) + signed 32 (reg s 0x3001 7) + 16000 * reg s 0x3001 8 } }

/-- PPS_OUT falls at the end of its high time, or while it is not enabled (R139). -/
def ppsFall (s : State) : State :=
  if s.servo.ppsHigh && (reg s 0x3001 6 == 0 || decide (s.servo.ppsEnd ≤ units s.time)) then
    { s with servo := { s.servo with ppsHigh := false } }
  else s

end Sys2Proof.Machine.Time
end

