-- ==== Sys2Proof/Machine/Engines.lean ====
section
/-!
DEFINITION. The Prism engines: fetch, the checks of an instruction, the shared shapes of execution, tagged requests, ports,
images, and migration (R232 to R274).
-/

namespace Sys2Proof.Machine.Engines

open Sys2Proof.Machine.Ops

/-- A logical engine. -/
def engine (s : State) (n : Nat) : Engine := Table.get (fun _ => {}) s.eng.engines n

/-- Store a logical engine. -/
def setEngine (n : Nat) (e : Engine) (s : State) : State :=
  { s with eng := { s.eng with engines := Table.put (fun _ => {}) s.eng.engines n e } }

/-- A general register; g0 reads 0 (R235). -/
def get (e : Engine) (g : Nat) : W32 := if g = 0 then 0 else Table.get (fun _ => 0) e.regs g

/-- Write a general register and drop its pending mark; a write to g0 is discarded (R235, R244). -/
def put (g : Nat) (v : W32) (e : Engine) : Engine :=
  if g = 0 then e
  else { e with regs := Table.put (fun _ => 0) e.regs g v, marks := e.marks.filter fun m => m.1.val != g }

/-- A pair as a source (R238). -/
def getPair (e : Engine) (g : Nat) : W64 := get e (g + 1) ++ get e g

/-- Write a pair (R238). -/
def putPair (g : Nat) (v : W64) (e : Engine) : Engine :=
  put (g + 1) (v.extractLsb' 32 32) (put g (v.extractLsb' 0 32) e)

/-- A register is pending (R243). -/
def pends (e : Engine) (g : Nat) : Bool := g != 0 && e.marks.any fun m => m.1.val == g

/-- An instruction word of the instruction scratchpad. -/
def imem (s : State) (n w : Nat) : W32 := Table.get (fun _ => 0) s.eng.imem (8192 * n + w)

/-- A byte of the data scratchpad. -/
def dmem (s : State) (n a : Nat) : Byte := Table.get (fun _ => 0) s.eng.dmem (65536 * n + a)

/-- Store a byte in the data scratchpad. -/
def setDmem (n a : Nat) (b : Byte) (s : State) : State :=
  { s with eng := { s.eng with dmem := Table.put (fun _ => 0) s.eng.dmem (65536 * n + a) b } }

/-! ### Instruction words (R239, R240) -/

/-- The fields of an instruction word. -/
def op (w : W32) : Nat := w.toNat / 2 ^ 26
def f1 (w : W32) : Nat := w.toNat / 2 ^ 22 % 16
def f2 (w : W32) : Nat := w.toNat / 2 ^ 18 % 16
def f3 (w : W32) : Nat := w.toNat / 2 ^ 14 % 16
def f4 (w : W32) : Nat := w.toNat / 2 ^ 10 % 16
def imm10 (w : W32) : Nat := w.toNat % 2 ^ 10
def imm18 (w : W32) : Nat := w.toNat % 2 ^ 18

/-- The 18-bit immediate, sign-extended to 32 bits. -/
def sext (w : W32) : W32 := (w.extractLsb' 0 18).signExtend 32

/-- The 18-bit immediate, zero-extended to 32 bits. -/
def zext (w : W32) : W32 := (w.extractLsb' 0 18).setWidth 32

/-- The word is an instruction: its OP is in the table, its fields that must be 0 are 0, and RDSPEC names a value that
exists (R241). -/
def fieldsGood (w : W32) : Bool :=
  let r := w.toNat % 2 ^ 14 == 0
  let o := op w
  if 0x01 ≤ o ∧ o ≤ 0x0B then r
  else if 0x10 ≤ o ∧ o ≤ 0x13 then true
  else if o = 0x14 then f2 w == 0
  else if 0x15 ≤ o ∧ o ≤ 0x17 then imm18 w / 32 == 0
  else if 0x18 ≤ o ∧ o ≤ 0x1D then true
  else if o = 0x1E then f2 w == 0
  else if o = 0x1F then true
  else if o = 0x20 ∨ o = 0x21 ∨ o = 0x22 ∨ o = 0x24 ∨ o = 0x25 ∨ o = 0x26 then true
  else if 0x28 ≤ o ∧ o ≤ 0x2B then f4 w == 0
  else if o = 0x2C then f2 w == 0 && f4 w == 0
  else if o = 0x2E ∨ o = 0x2F then imm10 w == 0
  else if o = 0x30 then f2 w == 0 && imm18 w == 0
  else if o = 0x31 then r && f3 w == 0
  else if o = 0x32 then f4 w == 0 && imm10 w == 0
  else if o = 0x33 then f2 w == 0 && imm10 w == 0
  else if o = 0x34 then f1 w == 0 && imm18 w / 4 == 0
  else if o = 0x35 then f2 w == 0 && imm18 w / 4 == 0
  else if o = 0x36 then f2 w == 0 && imm18 w == 0
  else if o = 0x38 then f1 w == 0 && f2 w == 0 && imm18 w / 65536 == 0
  else if o = 0x39 ∨ o = 0x3B then r && f1 w == 0 && f2 w == 0 && f3 w == 0
  else if o = 0x3A then f2 w == 0 && decide (imm18 w ≤ 5)
  else false

/-- The destination registers of an instruction, a pair counting as two (R240). -/
def destinations (w : W32) : List Nat :=
  let o := op w
  if (0x01 ≤ o ∧ o ≤ 0x17) ∨ o = 0x1E ∨ o = 0x1F ∨ o = 0x20 ∨ o = 0x21 ∨ o = 0x28 ∨ o = 0x29 ∨ o = 0x2C ∨ o = 0x31 ∨
      o = 0x32 ∨ o = 0x33 ∨ o = 0x36 ∨ o = 0x3A then [f1 w]
  else if o = 0x22 ∨ o = 0x30 ∨ o = 0x35 then [f1 w, f1 w + 1]
  else if o = 0x2A ∨ o = 0x2B then [f1 w, f1 w + 1, f2 w]
  else if o = 0x2E ∨ o = 0x2F then [f1 w, f2 w]
  else []

/-- The registers that an instruction names as pairs (R238, R240). -/
def pairs (w : W32) : List Nat :=
  match op w with
  | 0x22 | 0x26 | 0x2A | 0x2B | 0x30 | 0x35 => [f1 w]
  | 0x28 | 0x29 | 0x31 | 0x32 | 0x34 => [f2 w]
  | _ => []

/-- The registers that an instruction reads (R240, R243). -/
def sources (w : W32) : List Nat :=
  let o := op w
  if 0x01 ≤ o ∧ o ≤ 0x0B then [f2 w, f3 w]
  else if (0x10 ≤ o ∧ o ≤ 0x13) ∨ (0x15 ≤ o ∧ o ≤ 0x17) ∨ o = 0x1F ∨ (0x20 ≤ o ∧ o ≤ 0x22) then [f2 w]
  else if 0x18 ≤ o ∧ o ≤ 0x1D then [f1 w, f2 w]
  else if o = 0x24 ∨ o = 0x25 then [f1 w, f2 w]
  else if o = 0x26 then [f1 w, f1 w + 1, f2 w]
  else if o = 0x28 ∨ o = 0x29 then [f2 w, f2 w + 1, f3 w]
  else if 0x2A ≤ o ∧ o ≤ 0x2C then [f3 w]
  else if o = 0x2E ∨ o = 0x2F ∨ o = 0x33 then [f3 w, f4 w]
  else if o = 0x31 ∨ o = 0x34 then [f2 w, f2 w + 1]
  else if o = 0x32 then [f2 w, f2 w + 1, f3 w]
  else []

/-- The word names one register other than g0 twice among its destinations (R241). -/
def repeatsDestination (w : W32) : Bool := !decide ((destinations w).filter fun g => g != 0).Nodup

/-- The word is illegal: fault cause 1 (R241). -/
def illegal (w : W32) : Bool := !fieldsGood w || repeatsDestination w

/-- The word names an odd register as a pair: fault cause 5 (R238). -/
def oddPair (w : W32) : Bool := (pairs w).any fun g => g % 2 == 1

/-! ### Causes, faults and the shape of an instruction -/

/-- The engine's event source follows its enabled pending causes (R273). -/
def trackCauses (n : Nat) (s : State) : State :=
  track (128 + n) ((reg s (0x6100 + n) 7 &&& reg s (0x6100 + n) 8) != 0) s

/-- An engine gains causes (R272, R273). -/
def cause (n m : Nat) (s : State) : State :=
  trackCauses n (setReg (0x6100 + n) 7 (reg s (0x6100 + n) 7 ||| m) s)

/-- A fault: the instruction is not executed, and the engine stops (R262). -/
def fault (n c : Nat) (s : State) : State :=
  let e := engine s n
  cause n 1 (setEngine n { e with state := .fault, faultCause := c, faultPc := e.pc, twait := none } s)

/-- An instruction completes: the pc moves on and the count of instructions retired rises. -/
def retire (n : Nat) (pc : W32) (e : Engine) (s : State) : State :=
  setEngine n { e with pc := pc, retired := e.retired + 1, twait := none } s

/-- An engine runs: Running, in M5 (R32, R259). -/
def running (s : State) (n : Nat) : Bool := modeIn s [.m5] && (engine s n).state == .running

/-- The instruction at the pc of engine n, if the engine runs and the fetch is legal; a fetch or a word that faults does so
whichever instruction is commanded (R237, R241, R262). Of an instruction of another OP nothing happens, and an instruction
whose source is pending waits (R243). -/
def issue (o n : Nat) (body : Engine → W32 → State → State) (s : State) : State :=
  let e := engine s n
  if !running s n then s
  else if 0x7FFC < e.pc.toNat then fault n 7 s
  else
    let w := imem s n (e.pc.toNat / 4)
    if illegal w then fault n 1 s
    else if op w ≠ o then s
    else if (sources w).any fun g => pends e g then s
    else body e w s

/-- As `issue`, for an instruction with a pair operand: an odd register faults with cause 5, once no lower cause applies
(R238, R262). -/
def issuePair (o n : Nat) (body : Engine → W32 → State → State) (s : State) : State :=
  issue o n (fun e w s => if oddPair w then fault n 5 s else body e w s) s

/-- Format R: D := f A B. -/
def alu (o n : Nat) (f : W32 → W32 → W32) (s : State) : State :=
  issue o n (fun e w s => retire n (e.pc + 4) (put (f1 w) (f (get e (f2 w)) (get e (f3 w))) e) s) s

/-- Format I: D := f A IMM. -/
def aluImm (o n : Nat) (f : W32 → W32 → W32) (s : State) : State :=
  issue o n (fun e w s => retire n (e.pc + 4) (put (f1 w) (f (get e (f2 w)) w) e) s) s

/-- Format B: branch when the condition holds (R240). -/
def branch (o n : Nat) (c : W32 → W32 → Bool) (s : State) : State :=
  issue o n (fun e w s =>
    let next := if c (get e (f1 w)) (get e (f2 w)) then e.pc + 4 + 4 * sext w else e.pc + 4
    retire n next e s) s

/-- The address of a load or store. -/
def address (e : Engine) (w : W32) : Nat := (get e (f2 w) + sext w).toNat

/-- The fault of a data access of `k` bytes, lowest cause first (R237, R238, R262). -/
def accessFault (w : W32) (a k : Nat) (store : Bool) : Option Nat :=
  if a % k ≠ 0 then some 2
  else if 0x18000 ≤ a then some 3
  else if store ∧ 0x10000 ≤ a then some 4
  else if oddPair w then some 5
  else none

/-- Byte `a` of the data space: the data scratchpad, or the instruction window (R237). -/
def dataByte (s : State) (n a : Nat) : Byte :=
  if a < 0x10000 then dmem s n a
  else
    let v := imem s n ((a - 0x10000) / 4)
    BitVec.ofNat 8 (v.toNat / 2 ^ (8 * (a % 4)))

/-- `k` bytes from address `a`, little-endian. -/
def readData (s : State) (n a k : Nat) : Nat := le ((List.range k).map fun i => dataByte s n (a + i))

/-- Store `k` bytes from address `a`, little-endian. -/
def writeData (n a v : Nat) : Nat → State → State
  | 0, s => s
  | k + 1, s => setDmem n (a + k) (BitVec.ofNat 8 (v / 2 ^ (8 * k))) (writeData n a v k s)

/-- A load of `k` bytes (R237, R240). -/
def load (o n k : Nat) (f : Nat → Nat → Engine → Engine) (s : State) : State :=
  issue o n (fun e w s =>
    let a := address e w
    match accessFault w a k false with
    | some c => fault n c s
    | none => retire n (e.pc + 4) (f (f1 w) (readData s n a k) e) s) s

/-- A store of `k` bytes (R237, R240). -/
def store (o n k : Nat) (f : Engine → Nat → Nat) (s : State) : State :=
  issue o n (fun e w s =>
    let a := address e w
    match accessFault w a k true with
    | some c => fault n c s
    | none => retire n (e.pc + 4) e (writeData n a (f e (f1 w)) k s)) s

/-! ### Tagged requests -/

/-- The lowest free tag (R242). -/
def freeTag (e : Engine) : Option (Fin 8) :=
  (List.finRange 8).find? fun t => !e.tags.any fun x => x.tag == t

/-- Mark a destination register pending; g0 is never pending (R235, R244). -/
def mark (g : Nat) (t : Fin 8) (e : Engine) : Engine :=
  if g = 0 then e else { e with marks := (Fin.ofNat 16 g, t) :: e.marks.filter fun m => m.1.val != g }

/-- Issue a tagged request with the values its sources hold now (R242 to R244). With no tag free it waits. -/
def tagged (o n : Nat) (f : Engine → W32 → TagReq) (s : State) : State :=
  issuePair o n (fun e w s =>
    match freeTag e with
    | none => s
    | some t =>
      let e' := (destinations w).foldl (fun x g => mark g t x) e
      retire n (e.pc + 4) { e' with tags := e.tags ++ [{ tag := t, req := f e w }] } s) s

/-- What a request's target is, for the order of R245: a queue, a bank or a gate. -/
def targetOf : TagReq → Nat
  | .queue _ q _ _ _ => q.toNat
  | .bank _ a _ _ _ => 4096 + a.toNat / 8192 % 2048
  | .entry p _ _ => 8192 + p.toNat % 8192
  | .arm p _ _ => 8192 + p.toNat % 8192

/-- No earlier request of the engine to the same target is still in flight (R245). -/
def firstAtTarget (e : Engine) (x : Tag) : Bool :=
  match (e.tags.takeWhile fun y => y.tag != x.tag).find? fun y => targetOf y.req == targetOf x.req with
  | some _ => false
  | none => true

/-- Write a register at completion if it is still marked with the tag (R244). -/
def land (t : Fin 8) (g : Nat) (v : W32) (e : Engine) : Engine :=
  if e.marks.any fun m => m.1.val == g && m.2 == t then put g v e else e

/-- The status word of a queue response (R248). -/
def queueStatus (r : QResp) : W32 :=
  let b (v : Bool) (i : Nat) : Nat := if v then 2 ^ i else 0
  BitVec.ofNat 32 (b r.refused 11 + (if r.refused then r.data.toNat % 8 * 256 else 0) + b r.flushed 6 + b r.poison 5 +
    b r.eop 4 + b r.sop 3 + b r.valid 2)

/-- A status word with REFUSED and a reason. -/
def refusedStatus (reason : Nat) : W32 := BitVec.ofNat 32 (2048 + 256 * reason)

/-- The engine's attachment code (R209). -/
def attachment (n : Nat) : Nat := 0x800 + n

/-- Perform a tagged request at its target: the registers it writes, with their values, or none while it cannot complete
(R214, R247 to R250, R253). -/
def perform (n : Nat) (x : TagReq) (f : PoolFault) (s : State) : Option (List (Nat × W32)) × State :=
  match x with
  | .queue o q d pair st =>
    let r := Queues.operate (attachment n) { op := o, queue := q, data := d } f s
    match r.1 with
    | none => (none, r.2)
    | some a =>
      let l := match pair with
        | none => []
        | some p => [(p.val, a.data.extractLsb' 0 32), (p.val + 1, a.data.extractLsb' 32 32)]
      (some (l ++ [(st.val, queueStatus a)]), Queues.wakeConsumer q.toNat r.2)
  | .bank clear a m old st =>
    let b := a.toNat / 8192 % 2048
    let hi := bit a.toNat 24
    if a.toNat / 2 ^ 25 ≠ 0 then (some [(old.val, 0), (st.val, refusedStatus 2)], s)
    else if refuses s b then (some [(old.val, 0), (st.val, refusedStatus 0)], refuse raise b s)
    else if !Banks.entered (Banks.turn b s) b then (none, wakeBank b true (Banks.turn b s))
    else
      let s := Banks.turn b s
      let mask : W64 := if hi then m ++ (0 : W32) else (0 : W32) ++ m
      let r := bankAccess raise b { op := if clear then 3 else 2, addr := BitVec.ofNat 13 a.toNat, data := mask } 0 s
      let half := r.2.data.extractLsb' (if hi then 32 else 0) 32
      (some [(old.val, half),
        (st.val, BitVec.ofNat 32 ((if r.2.bad then 32 else 0) + (if r.2.corrected then 2 else 0)))], r.1)
  | .entry p e st =>
    let g := p.toNat % 8192
    let b := bit p.toNat 13
    if p.toNat / 2 ^ 20 ≠ 0 then (some [(st.val, refusedStatus 2)], s)
    else if (Time.sched (Time.gate s g) b).phase ≠ .free then (some [(st.val, refusedStatus 1)], s)
    else (some [(st.val, 0)], Time.putEntries g b (p.toNat / 2 ^ 14 % 64) [e] s)
  | .arm p e st =>
    if p.toNat / 2 ^ 20 ≠ 0 then (some [(st.val, refusedStatus 2)], s)
    else
      match Time.commit (p.toNat % 8192) (bit p.toNat 13) e.toNat s with
      | .inl err => (some [(st.val, refusedStatus (if err = 5 then 1 else 2))], s)
      | .inr s => (some [(st.val, 0)], s)

/-- A tagged request completes (R244 to R247): its target acts, its still-marked destinations are written, its tag is
freed. -/
def complete (n : Nat) (t : Fin 8) (f : PoolFault) (s : State) : State :=
  let e := engine s n
  if !modeIn s [.m5] then s
  else
    match e.tags.find? fun x => x.tag == t with
    | none => s
    | some x =>
      if !firstAtTarget e x then s
      else
        match perform n x.req f s with
        | (none, s) => s
        | (some l, s) =>
          let e := engine s n
          let e := l.foldl (fun e g => land t g.1 g.2 e) e
          setEngine n { e with
            tags := e.tags.filter fun y => y.tag != t
            marks := e.marks.filter fun m => m.2 != t } s

/-! ### Time, ports, and the rest -/

/-- The lateness of TWAIT, saturated (R252). -/
def lateness (d : Int) : W32 := if 0xFFFFFFFF ≤ d then 0xFFFFFFFF else BitVec.ofInt 32 d

/-- TWAIT completes once its target is reached (R252). -/
def twaitDone (n : Nat) (t : W64) (e : Engine) (w : W32) (s : State) : State :=
  let d := (launch s - t).toInt
  if 0 ≤ d then retire n (e.pc + 4) (put (f1 w) (lateness d) e) s
  else setEngine n { e with twait := some t } s

/-- The target of a waiting TWAIT is reached (R252). -/
def twaitReached (n : Nat) (s : State) : State :=
  let e := engine s n
  match e.twait with
  | none => s
  | some t => if running s n then twaitDone n t e (imem s n (e.pc.toNat / 4)) s else s

/-- A channel port: the engine port of region r, or the host's at 512 + r. -/
def port (s : State) (i : Nat) : ChanPort := Table.get (fun _ => {}) s.ports i

/-- Store a channel port. -/
def setPort (i : Nat) (p : ChanPort) (s : State) : State := { s with ports := Table.put (fun _ => {}) s.ports i p }

/-- Fill an empty send buffer and offer its word (R255). -/
def fillSend (i : Nat) (v : W64) (s : State) : State :=
  Fabric.pump (.port i) (setPort i { port s i with send := some v, last := v, offer := {} } s)

/-- An engine port's receive channels all have no selection, and no pin replaces one (R255, R447). -/
def recvOff (s : State) (n q : Nat) : Bool :=
  (Frames.inputs s.fab.frames (.enginePort (Fin.ofNat 512 (4 * n + q)))).isEmpty && (Pins.engineInputs s n q).isEmpty

/-- A port captures a word into its empty receive buffer when every selected receive channel is valid (R255). A channel that
an engine-owned pin replaces takes the pin's token instead (R447). -/
def capture (i : Nat) (s : State) : State :=
  let isEngine := decide (i < 512)
  let k := if isEngine then Taker.enginePort (Fin.ofNat 512 i) else Taker.hostPort (Fin.ofNat 512 (i - 512))
  let pins := if isEngine then Pins.engineInputs s (i / 4) (i % 4) else []
  let lost := isEngine && (engine s (i / 4)).state == .lost
  let ins := (Frames.inputs s.fab.frames k).filter fun e => !pins.any fun p => p.1 == e.1
  if (port s i).recv.isSome || lost || !Fabric.awake s || Fabric.ack s k || (ins.isEmpty && pins.isEmpty) then s
  else
    let vals := ins.foldr (fun e acc =>
      match Fabric.seen s k e, acc with
      | .valid v, some l => some ((e.1, v) :: l)
      | _, _ => none) (some [])
    let fromPins := pins.foldr (fun e acc =>
      match (Table.get (fun _ => ({} : WordOut)) s.pinIn e.2).word, Pins.onSlot s e.2, acc with
      | some w, false, some l => some ((e.1, w.getLsbD 0) :: l)
      | _, _, _ => none) (some [])
    match vals, fromPins with
    | some a, some b =>
      let s := if ins.isEmpty then s else Fabric.setAck k true s
      let s := setPort i { port s i with recv := some (BitVec.ofNat 64 (Fabric.gather (a ++ b))) } s
      Pins.takeEngine pins s
    | _, _ => s

/-- Every send channel that has been acknowledged returns to spacer; when all have, the buffer empties (R255). -/
def sendAcked (i : Nat) (s : State) : State :=
  (List.range 64).foldl (fun s b => Fabric.acknowledge (Fabric.chanOf (.port i) b) s) s

/-- The port status word (R256). -/
def pollWord (s : State) (n : Nat) : W32 :=
  BitVec.ofNat 32 ((List.range 4).foldl (fun a q =>
    let p := port s (4 * n + q)
    a + (if p.recv.isSome then 2 ^ q else 0) + (if p.send.isNone then 2 ^ (4 + q) else 0) +
      (if recvOff s n q then 2 ^ (8 + q) else 0)) 0)

/-- The physical engine that serves logical engine n (R232). -/
def physical (s : State) (n : Nat) : Nat := Table.get (fun n => 33 * (n / 32) + n % 32) s.eng.physical n

/-- Tags in flight as a mask. -/
def tagMask (e : Engine) : Nat := e.tags.foldl (fun a x => setBit a x.tag) 0

/-- The special values of RDSPEC (R240). -/
def special (s : State) (n v : Nat) : W32 :=
  let e := engine s n
  match v with
  | 0 => BitVec.ofNat 32 n
  | 1 => BitVec.ofNat 32 (physical s n)
  | 2 => e.version
  | 3 => BitVec.ofNat 32 (tagMask e)
  | 4 => e.retired.extractLsb' 0 32
  | _ => e.retired.extractLsb' 32 32

/-! ### Commands, images -/

/-- A migration of the engine, or an install to it, is in progress. -/
def busyWith (s : State) (n : Nat) : Bool :=
  (engine s n).state == .installing || s.eng.migrations.any fun m => m.2.engine == n

/-- A command (R260): the error, or the state after it. -/
def command (n v : Nat) (s : State) : Nat ⊕ State :=
  let e := engine s n
  if !modeIn s [.m5] then .inl 3
  else if (v = 1 ∧ e.tags ≠ []) ∨ busyWith s n then .inl 5
  else
    match v, e.state with
    | 1, .stopped | 1, .halted | 1, .fault =>
      .inr (setEngine n { e with state := .running, regs := [], marks := [], pc := e.entry, twait := none } s)
    | 2, .running => .inr (setEngine n { e with state := .stopped, twait := none } s)
    | 3, .stopped | 3, .halted => .inr (setEngine n { e with state := .running } s)
    | _, _ => .inl 4

/-- Write bytes into the staging buffer (R265). -/
def stage (off : Nat) : List Byte → Installer → Installer
  | [], i => i
  | b :: rest, i =>
    stage (off + 1) rest { i with
      staged := Table.put (fun _ => 0) i.staged off b, stagedLen := max i.stagedLen (off + 1) }

/-- Store the installer. -/
def setInstaller (i : Installer) (s : State) : State := { s with eng := { s.eng with installer := i } }

/-- An install is in progress. -/
def installing (s : State) : Bool := s.eng.installer.status == 1 || s.eng.installer.status == 2

/-- Bytes of the staging buffer. -/
def staged (i : Installer) (off n : Nat) : List Byte := (List.range n).map fun k => Table.get (fun _ => 0) i.staged (off + k)

/-- A 4-byte field of the image header. -/
def field (i : Installer) (off : Nat) : Nat := le (staged i off 4)

/-- A signer slot's public key hash as fused, and whether the slot is revoked (R288, R290): set by the security state. -/
structure Slot where
  hash : List Byte
  revoked : Bool
deriving DecidableEq, Repr

/-- The checks of R265 in order: the code of the first that fails. A Lost engine in the mask already fails check 0x09. -/
def installChecks (slot : Nat → Slot) (mask : BitVec 128) (s : State) : Option Nat :=
  let i := s.eng.installer
  let code := field i 20
  let data := field i 24
  let addr := field i 28
  let entry := field i 16
  let zero (off n : Nat) : Bool := (staged i off n).all fun b => b == 0
  let k := le (staged i 32 1)
  let targets := (List.range 128).filter fun n => mask.getLsbD n
  let idle (n : Nat) : Bool :=
    let e := engine s n
    (e.state == .unloaded || e.state == .stopped || e.state == .halted || e.state == .fault) && e.tags.isEmpty
  if field i 0 ≠ 0x31495250 ∨ le (staged i 4 2) ≠ 1 then some 0x01
  else if le (staged i 6 1) ≠ 0x51 ∨ le (staged i 8 2) ≠ 0x1624 ∨
      (le (staged i 7 1) ≠ 0 ∧ le (staged i 7 1) ≠ 0x21) then some 0x02
  else if i.stagedLen ≠ 1024 + code + data ∨ code % 4 ≠ 0 ∨ code < 4 ∨ 32768 < code ∨ data % 8 ≠ 0 ∨ 65536 < data ∨
      addr % 8 ≠ 0 ∨ 65536 < addr + data ∨ entry % 4 ≠ 0 ∨ code ≤ entry ∨
      !zero 10 2 ∨ !zero 33 31 ∨ !zero 516 124 then some 0x03
  else if field i 512 ≠ 65537 then some 0x04
  else if 3 < k ∨ (slot k).revoked ∨ Crypto.sha256 (staged i 128 388) ≠ (slot k).hash then some 0x05
  else if !Crypto.pssVerify (staged i 128 384) (staged i 0 640) (staged i 640 384) then some 0x06
  else if Crypto.sha256 (staged i 1024 code) ≠ staged i 64 32 then some 0x07
  else if Crypto.sha256 (staged i (1024 + code) data) ≠ staged i 96 32 then some 0x08
  else if !targets.all idle then some 0x09
  else if targets.isEmpty then some 0x0A
  else none

/-- Start an install: its checks, and on success the targets become Installing (R265). -/
def install (slot : Nat → Slot) (mask : BitVec 128) (s : State) : State :=
  let i := s.eng.installer
  let targets := (List.range 128).filter fun n => mask.getLsbD n
  match installChecks slot mask s with
  | some c =>
    targets.foldl (fun s n => cause n 16 s) (setInstaller { i with status := 4, result := c, mask := mask } s)
  | none =>
    targets.foldl (fun s n => setEngine n { engine s n with state := .installing } s)
      (setInstaller { i with status := 2, result := 0, mask := mask } s)

/-- The words of the code segment, from word `w` on. -/
def putCode (n : Nat) : Nat → Nat → List Byte → Table W32 → Table W32
  | 0, _, _, t => t
  | fuel + 1, w, d, t =>
    putCode n fuel (w + 1) (d.drop 4) (Table.put (fun _ => 0) t (8192 * n + w) (BitVec.ofNat 32 (le (d.take 4))))

/-- The bytes of the data segment, from address `a` on. -/
def putBytes (n : Nat) : Nat → List Byte → Table Byte → Table Byte
  | _, [], t => t
  | a, b :: rest, t => putBytes n (a + 1) rest (Table.put (fun _ => 0) t (65536 * n + a) b)

/-- Both scratchpads of an engine set to 0. -/
def clearPads (n : Nat) (s : State) : State :=
  { s with eng := { s.eng with
      imem := Table.clear (fun k => k / 8192 == n) s.eng.imem
      dmem := Table.clear (fun k => k / 65536 == n) s.eng.dmem } }

/-- Write the staged image into one engine (R265). -/
def load1 (n : Nat) (s : State) : State :=
  let i := s.eng.installer
  let code := field i 20
  let s := clearPads n s
  let s := { s with eng := { s.eng with
    imem := putCode n (code / 4) 0 (staged i 1024 code) s.eng.imem
    dmem := putBytes n (field i 28) (staged i (1024 + code) (field i 24)) s.eng.dmem } }
  setEngine n { engine s n with
    state := .stopped
    pc := BitVec.ofNat 32 (field i 16)
    entry := BitVec.ofNat 32 (field i 16)
    version := BitVec.ofNat 32 (field i 12)
    hash := BitVec.ofNat 256 (le (Crypto.sha256 (staged i 0 640)))
    twait := none } s

/-- An install completes; one whose target is being migrated waits for the migration (R265, R266). -/
def installComplete (s : State) : State :=
  let i := s.eng.installer
  let targets := (List.range 128).filter fun n => i.mask.getLsbD n
  if i.status ≠ 2 ∨ (s.eng.migrations.any fun m => targets.contains m.2.engine) then s
  else
    let s := targets.foldl (fun s n => load1 n s) s
    bump 0x6000 7 (setInstaller { s.eng.installer with status := 3, result := 0 } s)

/-! ### Rotation and migration -/

/-- A physical engine's code of 0x6200; at manufacture slot 32 of each group is the spare (R232, R274). -/
def physState (s : State) (p : Nat) : Nat := Table.get (fun p => if p % 33 = 32 then 1 else 0) s.eng.physState p

/-- Set a physical engine's code. -/
def setPhys (p v : Nat) (s : State) : State :=
  { s with eng := { s.eng with physState := Table.put (fun p => if p % 33 = 32 then 1 else 0) s.eng.physState p v } }

/-- The spare of a group: idle or under test. -/
def spareOf (s : State) (g : Nat) : Option Nat :=
  (List.range 33).map (fun k => 33 * g + k) |>.find? fun p => physState s p == 1 || physState s p == 2

/-- The logical engine that a physical one serves. -/
def servedBy (s : State) (p : Nat) : Option Nat :=
  ((List.range 32).map fun k => 32 * (p / 33) + k).find? fun n => physical s n == p && (engine s n).state != .lost

/-- A migration of the group is under way. -/
def migrating (s : State) (g : Nat) : Bool := s.eng.migrations.any fun m => m.1 == g

/-- Start a migration (R268 step 1). -/
def startMigration (g n target : Nat) (forced : Bool) (s : State) : State :=
  let s := setPhys target 3 s
  { s with eng := { s.eng with
      migrations := (g, { engine := n, target := target, forced := forced }) :: s.eng.migrations.filter fun m => m.1 != g } }

/-- The engine is held back from rotation (R269): its hold is set, or it waits in TWAIT for a target less than 2 µs ahead. -/
def heldBack (s : State) (n : Nat) : Bool :=
  reg s (0x6100 + n) 0x0B == 1 ||
    match (engine s n).twait with
    | some t => let d := (t - launch s).toInt; decide (0 < d) && decide (d < 32000)
    | none => false

/-- The next in-service slot of a group from slot `k` on. -/
def nextSlot (s : State) (g : Nat) : Nat → Nat → Option Nat
  | 0, _ => none
  | fuel + 1, k =>
    let p := 33 * g + k % 33
    if physState s p = 0 && (servedBy s p).isSome then some p else nextSlot s g fuel (k + 1)

/-- The next in-service slot's engine starts to migrate onto the spare (R267). -/
def rotateNext (g : Nat) (s : State) : State :=
  let k := Table.get (fun _ => 0) s.eng.rotSlot g
  match spareOf s g, nextSlot s g 33 k with
  | some sp, some p =>
    let s := { s with eng := { s.eng with rotSlot := Table.put (fun _ => 0) s.eng.rotSlot g ((p % 33 + 1) % 33) } }
    match servedBy s p with
    | some n => startMigration g n sp false s
    | none => s
  | _, _ => s

/-- The group's migration, if it is a rotation that R269 has held back. -/
def heldRotation (s : State) (g : Nat) : Option Migration :=
  match s.eng.migrations.find? fun m => m.1 == g with
  | some (_, m) => if !m.forced && heldBack s m.engine then some m else none
  | none => none

/-- A rotation of one group (R267). One that has been held back for the whole period passes to the next slot, and its target is
the spare again (R269). -/
def rotate (g : Nat) (s : State) : State :=
  match heldRotation s g with
  | some m =>
    let s := { s with eng := { s.eng with migrations := s.eng.migrations.filter fun x => x.1 != g } }
    rotateNext g (setPhys m.target 1 s)
  | none => if migrating s g then s else rotateNext g s

/-- The rotation period expires (R267); in M5 alone, and only while the period is not 0. -/
def rotation (s : State) : State :=
  if !modeIn s [.m5] ∨ reg s 0x6000 6 = 0 then s
  else (List.range 4).foldl (fun s g => rotate g s) s

/-- The scratchpad copy of a migration completes: the engine moves to its target (R268 steps 2 to 5). A rotation that R269
holds back waits. -/
def copyDone (g : Nat) (s : State) : State :=
  match s.eng.migrations.find? fun m => m.1 == g with
  | none => s
  | some (_, m) =>
    if !m.forced && heldBack s m.engine then s
    else
      let from' := physical s m.engine
      let s := { s with eng := { s.eng with
        migrations := s.eng.migrations.filter fun x => x.1 != g
        physical := Table.put (fun n => 33 * (n / 32) + n % 32) s.eng.physical m.engine m.target } }
      let s := setPhys m.target 0 s
      let s := if physState s from' = 4 then s else setPhys from' 1 s
      cause m.engine 8 s

/-- A logical engine becomes Lost (R270). -/
def lose (n : Nat) (s : State) : State :=
  cause n 4 (setEngine n { engine s n with state := .lost, twait := none } s)

/-- The rotation of a group is cancelled: its target is the spare again, and the engine stays where it is (R487). -/
def cancelRotation (g : Nat) (s : State) : State :=
  match s.eng.migrations.find? fun m => m.1 == g && !m.2.forced with
  | none => s
  | some m =>
    setPhys m.2.target 1 { s with eng := { s.eng with migrations := s.eng.migrations.filter fun x => x.1 != g } }

/-- A physical engine is retired (R270, R487). DESIGN CHOICE: the retirement of an engine in service cancels a rotation of its
group, whose target is the spare that the engine needs (log entry 86). -/
def retirePhysical (p : Nat) (s : State) : State :=
  let g := p / 33
  let n := servedBy s p
  let target := s.eng.migrations.find? fun m => m.2.target == p
  let s := setPhys p 4 s
  match target with
  | some m =>
    let s := { s with eng := { s.eng with migrations := s.eng.migrations.filter fun x => x.1 != m.1 } }
    if m.2.forced then lose m.2.engine s else s
  | none =>
    match n with
    | none => s
    | some n =>
      let s := cancelRotation g s
      match spareOf s g with
      | some sp => startMigration g n sp true s
      | none => lose n s

/-! ### Modes, resets, objects -/

/-- Change every listed engine. -/
def every (f : Engine → Engine) (s : State) : State :=
  { s with eng := { s.eng with engines := s.eng.engines.map fun e => (e.1, f e.2) } }

/-- Entry to M3 and M7: running engines stop, tags in flight are abandoned, port buffers are emptied (R247, R257, R263). -/
def onStop (s : State) : State :=
  every (fun e => { e with
    state := if e.state = .running ∨ e.state = .sentinel then .stopped else e.state
    tags := [], marks := [], twait := none }) { s with ports := s.ports.map fun p => (p.1, { last := p.2.last }) }

/-- Entry to M6: running engines enter Sentinel (R261, R263). -/
def onM6 (s : State) : State :=
  every (fun e => { e with state := if e.state = .running then .sentinel else e.state, twait := none }) s

/-- Exit from M6: they run again (R263). -/
def offM6 (s : State) : State :=
  every (fun e => { e with state := if e.state = .sentinel then .running else e.state }) s

/-- Entry to M1: every engine Unloaded, the scratchpads 0, the image object at its defaults (R263, R271). The registers keep the
values they held (R247). -/
def onM1 (s : State) : State :=
  let s := { s with
    ports := []
    eng := { s.eng with
      engines := (s.eng.engines.map fun e => (e.1, ({ regs := e.2.regs } : Engine))).filter fun e => e.2 != {}
      imem := [], dmem := [], migrations := [], rotSlot := [], installer := {} } }
  defaults 0x6000 0x6000 (fun k => k == 256 * 0x6000 + 7) s

/-- A region reset leaves the port buffers (R257); the start of a partial load empties both buffers of the region's
ports. -/
def emptyPorts (r : Nat) (s : State) : State := setPort (512 + r) {} (setPort r {} s)

/-- The states of R259 as codes. -/
def stateCode : EngState → Nat
  | .unloaded => 0 | .stopped => 1 | .running => 2 | .halted => 3 | .fault => 4 | .sentinel => 5 | .lost => 6
  | .installing => 7

/-- What a read of an engine sub returns where the stored value is not it. -/
def readSub (s : State) (index sub : Nat) : Option Nat :=
  if index = 0x6000 then
    match sub with
    | 2 => some s.eng.installer.stagedLen
    | 4 => some s.eng.installer.status
    | 5 => some s.eng.installer.result
    | _ => none
  else if 0x6100 ≤ index ∧ index < 0x6180 then
    let n := index - 0x6100
    let e := engine s n
    match sub with
    | 2 => some (stateCode e.state)
    | 3 => some e.pc.toNat
    | 4 => some e.faultCause
    | 5 => some e.faultPc.toNat
    | 6 => some (physical s n)
    | 9 => some e.retired.toNat
    | 0x0A => some (tagMask e)
    | 0x0C => some (le ((List.range 16).flatMap fun g => bytes 4 (get e g).toNat))
    | 0x0E => some (le ((List.range 64).map fun k => dmem s n ((reg s index 0x0D + k) % 65536)))
    | 0x0F => some (if e.state = .unloaded then 0 else e.hash.toNat)
    | _ => none
  else if index = 0x6200 ∧ 1 ≤ sub then some (physState s (sub - 1))
  else none

/-- A write of an engine sub that does more than store; the data bytes are given where the sub is a BLOB. -/
def writeSub (slot : Nat → Slot) (index sub : Nat) (d : List Byte) (s : State) : Option (Nat ⊕ State) :=
  let v := le d
  if index = 0x6000 then
    let i := s.eng.installer
    match sub with
    | 1 =>
      let off := le (d.take 4)
      some (if installing s then .inl 5
        else if d.length < 4 ∨ 99328 < off + (d.length - 4) then .inl 4
        else .inr (setInstaller (stage off (d.drop 4) i) s))
    | 2 =>
      some (if installing s then .inl 5
        else if v ≠ 0 then .inl 4
        else .inr (setInstaller { i with staged := [], stagedLen := 0 } s))
    | 3 =>
      some (if !modeIn s [.m5, .m7] then .inl 3
        else if installing s then .inl 5
        else if d.length ≠ 16 then .inl 4
        else .inr (install slot (BitVec.ofNat 128 v) s))
    | 6 => if v ≠ 0 ∧ (v < 100 ∨ 3600000 < v) then some (.inl 4) else none
    | _ => none
  else if 0x6100 ≤ index ∧ index < 0x6180 then
    let n := index - 0x6100
    match sub with
    | 1 => some (command n v s)
    | 7 => some (.inr (trackCauses n (setReg index 7 (clearBits (reg s index 7) v) s)))
    | 8 => some (.inr (trackCauses n (setReg index 8 (v &&& 0xFFFF001F) s)))
    | 0x0D => if v % 64 ≠ 0 then some (.inl 4) else none
    | _ => none
  else none

end Sys2Proof.Machine.Engines
end

