-- ==== Sys2Proof/Machine/Loader.lean ====
section
/-!
DEFINITION. The loader, the facets and the scrubbers (R275 to R286, R293 to R310).
-/

namespace Sys2Proof.Machine.Loader

open Sys2Proof.Machine.Ops

/-! ### Facets -/

/-- A facet. -/
def facet (s : State) (r : Nat) : Facet := Table.get (fun _ => s.facetBase) s.facets r

/-- Store a facet. -/
def setFacet (r : Nat) (x : Facet) (s : State) : State :=
  { s with facets := Table.put (fun _ => s.facetBase) s.facets r x }

/-- Change every facet that is not retired. -/
def everyFacet (x : Facet) (s : State) : State :=
  { s with
    facetBase := if s.facetBase.state = .retired then s.facetBase else x
    facets := s.facets.filter fun e => e.2.state == .retired }

/-- The code of a facet's state, with the reload-requested flag (R310). -/
def facetCode (x : Facet) : Nat :=
  (match x.state with | .empty => 0 | .loaded => 1 | .loading => 2 | .retired => 3) + (if x.reload then 128 else 0)

/-- Entry to M3: every facet that is not retired becomes loading, with no stream of its own (R310). -/
def facetsLoading (s : State) : State := everyFacet { state := .loading } s

/-- The frames of a facet. -/
def frameOf (r k : Nat) : Bool := decide (768 * r ≤ k) && decide (k < 768 * (r + 1))

/-- A facet's configuration set to its default, and its mirror entries empty (R300, R486). -/
def defaultFrames (r : Nat) (s : State) : State :=
  let mine := frameOf r
  let s := Fabric.reroute (Table.clear mine s.fab.frames) s
  { s with
    fab := { s.fab with incoming := Table.clear mine s.fab.incoming }
    scrub := { s.scrub with
      mirror := Table.clear mine s.scrub.mirror
      parity := Table.clear mine s.scrub.parity
      seen := Table.clear (fun k => k == r) s.scrub.seen } }

/-- Every facet's configuration invalid: entry to M1 (R34). -/
def invalidate (s : State) : State :=
  everyFacet {} { s with fab := { s.fab with frames := [] }, scrub := {} }

/-- A timed gate of the region. -/
def hasTimed (s : State) (r : Nat) : Bool := Time.anyTimed s r

/-! ### Region resets and the ladders of a partial load -/

/-- The scrubbers begin a pass (R306). -/
def startPass (s : State) : State :=
  { s with scrub := { s.scrub with seen := [], start := (launch s).toNat, held := none } }

/-- A region's reset or partial load holds the configuration memory of its die (R492 case 5). -/
def holdScrub (r : Nat) (s : State) : State := { s with scrub := { s.scrub with held := some r } }

/-- A region reset, from its trigger to step 6 (R72 to R74, R125): the array's stages, the tokens of the launch gates, the banks,
the queue ports and the trace ring of the region. -/
def regionReset (r : Nat) (s : State) : State :=
  let s := Time.loseTokens r (Fabric.resetStages r s)
  let s := Banks.resetRegion r s
  let s := Queues.resetRegion r false s
  let s := Bridges.resetHandshakes (fun b => Bridges.regionOf b == r) (Queues.resetRing r s)
  let sup := Table.modify (fun _ => s.sup.supplyBase) s.sup.supplies r fun x => { x with prefOk := 0 }
  let s := { s with sup := { s.sup with supplies := sup } }
  let s := holdScrub r (Fabric.setLens r { Fabric.lens s r with noProgress := false } s)
  bump 0x2400 3 (Fabric.restartWindow r s)

/-- Step 1 of a partial load (R301): the facet isolates and is emptied, and its blocks on B act. What it selects on B stays until
step 4. -/
def startPartial (r : Nat) (s : State) : State :=
  let s := setFacet r { facet s r with state := .loading } (holdScrub r s)
  let s := Fabric.isolate r 3 s
  let s := Time.loseTokens r (Fabric.dropTokens r (Fabric.resetStages r s))
  let s := Fabric.dropLinks r s
  let s := Banks.resetRegion r s
  let s := Queues.resetRegion r true s
  let s := Queues.clearRing r s
  let s := Bridges.resetHandshakes (fun b => Bridges.regionOf b == r) (Engines.emptyPorts r s)
  let s := Fabric.setLens r { windowStart := (Fabric.lens s r).windowStart } s
  { s with
    fab := { s.fab with frozen := s.fab.frozen ||| BitVec.twoPow 512 r, incoming := [] }
    sup := { s.sup with supplies := Table.modify (fun _ => s.sup.supplyBase) s.sup.supplies r fun x =>
      { x with prefOk := 0, tokens0 := 0, stall0 := 0, wait0 := 0 } } }

/-- The facet's region thaws (R301 steps 4 and 5, R300). -/
def thaw (r : Nat) (s : State) : State :=
  { s with fab := { s.fab with frozen := s.fab.frozen &&& ~~~(BitVec.twoPow 512 r) } }

/-- A bank goes Off, with its TARGET (R300, R188). -/
def bankOff (n : Nat) (s : State) : State :=
  if power s n = .retired then s
  else
    let s := setReg (0x4800 + n) 1 (reg s (0x4800 + n) 1 / 4 * 4 + 2) s
    Banks.applyTarget n 2 s

/-- What an aborted partial load leaves (R300): the facet empty and set to default, its collar holding cause 3 or a higher
one, and the banks that received frames Off. A facet that was retired stays retired. -/
def abortFacet (r : Nat) (banks : List Nat) (s : State) : State :=
  let s := thaw r (defaultFrames r (Fabric.isolate r 3 s))
  let s := Fabric.dropTokens r s
  let s := if (facet s r).state = .retired then s else setFacet r { reload := (facet s r).reload } s
  banks.foldl (fun s n => bankOff n s) s

/-- Step 4 of a partial load: the frames that it has brought take effect, with the facet's selections on B (R301). -/
def takeEffect (r : Nat) (s : State) : State :=
  let f := s.fab.incoming.foldl (fun f e => Table.put (fun _ => 0) f e.1 e.2) (Table.clear (frameOf r) s.fab.frames)
  let s := Fabric.reroute f s
  { s with fab := { s.fab with incoming := [], illegal := s.fab.illegal.filter (Fabric.legal r) } }

/-- Steps 4 to 6 of a partial load that passes (R301, R302, R307). -/
def finishPartial (l : Load) (hash : BitVec 256) (s : State) : State :=
  let r := l.header.facet
  let s := regionReset r (takeEffect r (thaw r s))
  let s := setFacet r { state := .loaded, hash := hash, version := l.header.version } s
  let s := { s with scrub := { s.scrub with seen := Table.clear (fun k => k == r) s.scrub.seen } }
  let opens := reg s (0x2800 + r) 3 = 1 && !l.keepIsolated
  let s := Fabric.removeCause r 3 opens s
  raise 352 (bump 0x2000 9 (bump (0x2800 + r) 9 s))

/-! ### Bytes from the sources -/

/-- A source is enabled (R275). -/
def enabled (s : State) (src : Source) : Bool :=
  match src with
  | .aperture => bit (reg s 0x2000 1) 0
  | .port => bit (reg s 0x2000 1) 1

/-- 0x1000.09 (R51): in M2 once Survey has completed, throughout M3, and in M7 once no failed load's source is waited
for. -/
def readyForStream (s : State) : Bool :=
  match s.modes.cur with
  | .m2 => s.modes.surveyStep == 4
  | .m3 => true
  | .m7 => s.loader.phase != .resync
  | _ => false

/-- Bytes reach the loader: in M5 always, elsewhere while 0x1000.09 is TRUE (R41). -/
def listening (s : State) : Bool := modeIn s [.m5] || readyForStream s

/-- Bytes are discarded under R41, R276 or R277: counted, and a new run raises source 355. -/
def discard (src : Source) (n : Nat) (s : State) : State :=
  if n = 0 then s
  else
    let s := add 0x2000 0x0B 32 n s
    match src with
    | .aperture =>
      if s.loader.apertureRun then s else raise 355 { s with loader := { s.loader with apertureRun := true } }
    | .port => if s.loader.portRun then s else raise 355 { s with loader := { s.loader with portRun := true } }

/-- The loader takes a byte from a source, which ends its run of discarded bytes (R276). -/
def endRun (src : Source) (s : State) : State :=
  match src with
  | .aperture => { s with loader := { s.loader with apertureRun := false } }
  | .port => { s with loader := { s.loader with portRun := false } }

/-- How many bytes the loader collects before it acts. -/
def wanted (p : LoadPhase) : Nat :=
  match p with
  | .header => 512
  | .frames | .resend => 524
  | _ => 0

/-- The loader takes the bytes that wait at the active source, up to a whole header or frame. -/
def refill (s : State) : State :=
  let l := s.loader
  let k := wanted l.phase - l.unit.length
  match l.src with
  | .aperture => { s with loader := { l with unit := l.unit ++ l.aperture.take k, aperture := l.aperture.drop k } }
  | .port => { s with loader := { l with unit := l.unit ++ l.port.take k, port := l.port.drop k } }

/-- A byte arrives at a source (R41, R275 to R277, R456). -/
def arrive (src : Source) (b : Byte) (s : State) : State :=
  if !enabled s src then s
  else if !listening s then discard src 1 s
  else
    match s.loader.phase with
    | .idle =>
      let s := endRun src { s with loader := { s.loader with phase := .header, src := src, unit := [b] } }
      if modeIn s [.m2] then { s with modes := { s.modes with loadDue := some 0x11 } } else s
    | .resync => discard src 1 s
    | _ =>
      if s.loader.src ≠ src then discard src 1 s
      else
        match src with
        | .aperture => refill (endRun src { s with loader := { s.loader with aperture := s.loader.aperture ++ [b] } })
        | .port =>
          if 512 ≤ s.loader.port.length then bump 0x9000 6 s
          else refill (endRun src { s with loader := { s.loader with port := s.loader.port ++ [b] } })

/-- CFG_RDY (R456, R457). -/
def cfgReady (s : State) : Bool :=
  enabled s .port && !modeIn s [.m0] && decide (s.loader.port.length + 128 ≤ 512)

/-- The loader stops taking bytes: those it holds of the active source are discarded, and it waits for 1 ms of silence
(R277). -/
def resynchronise (s : State) : State :=
  let l := s.loader
  let n := match l.src with
    | .aperture => l.aperture.length
    | .port => l.port.length
  discard l.src n { s with loader := { l with
    phase := .resync, unit := [], aperture := [], port := [], load := none } }

/-- A load ends well: the loader is idle, and bytes already received begin the next header. -/
def finish (s : State) : State :=
  let l := s.loader
  let rest := match l.src with
    | .aperture => l.aperture
    | .port => l.port
  if rest.isEmpty then { s with loader := { l with phase := .idle, unit := [], load := none } }
  else refill { s with loader := { l with phase := .header, unit := [], load := none } }

/-! ### Failures -/

/-- A load or header fails with a code (R299). -/
def fail (code addr : Nat) (s : State) : State :=
  let s := bump 0x2000 0x0A (setReg 0x2000 6 addr (setReg 0x2000 5 code s))
  let s :=
    match s.loader.load with
    | some l => if l.header.facetOnly then abortFacet l.header.facet l.banks s else s
    | none => s
  let due : Option Nat := match s.modes.cur with
    | .m3 => some 0x40
    | .m4 => some 0x41
    | _ => none
  let s := match due with
    | some c => { s with modes := { s.modes with failDue := some (if code = 0x0E then 0x21 else c) } }
    | none => s
  resynchronise (raise 353 s)

/-- A security event or a reset ends the load in progress with no failure recorded (R45, R304). -/
def cut (s : State) : State :=
  if s.loader.phase = .idle ∨ s.loader.phase = .resync then s
  else
    let s := match s.loader.load with
      | some l => if l.header.facetOnly then abortFacet l.header.facet l.banks s else s
      | none => s
    resynchronise s

/-- A partial load is in progress, and its facet. -/
def partialOf (s : State) : Option Nat :=
  match s.loader.load with
  | some l => if l.header.facetOnly then some l.header.facet else none
  | none => none

/-- A load is in progress. -/
def loading (s : State) : Bool := s.loader.load.isSome

/-- The load in progress names slot `k`. -/
def namesSlot (s : State) (k : Nat) : Bool := s.loader.load.any fun l => l.header.signer == k

/-- The load in progress uses the battery-backed key. -/
def usesBattery (s : State) : Bool := s.loader.load.any fun l => l.header.enc == 2

/-! ### The header -/

/-- The staged key of a slot: 388 bytes, or none (R287). -/
def stagedKey (s : State) (k : Nat) : List Byte :=
  match k with
  | 0 => s.sec.key0
  | 1 => s.sec.key1
  | 2 => s.sec.key2
  | _ => s.sec.key3

/-- Bytes `off` to `off + n - 1` as a number. -/
def field (h : List Byte) (off n : Nat) : Nat := le ((h.drop off).take n)

/-- Every byte is 0. -/
def zero (l : List Byte) : Bool := l.all fun b => b == 0

/-- A header is accepted in the present mode (R294). -/
def kindHere (s : State) (kind : Nat) : Bool :=
  if kind = 0 then modeIn s [.m3] else modeIn s [.m5]

/-- The header checks, in the order of R293: the code of the first that fails. -/
def headerChecks (h : List Byte) (s : State) : Option Nat :=
  let kind := field h 12 1
  let frames := field h 20 4
  let enc := field h 15 1
  let slot := field h 14 1
  if field h 0 4 ≠ 0x31535451 ∨ field h 4 2 ≠ 1 then some 0x01
  else if field h 124 4 ≠ (Crypto.crc32c (h.take 124)).toNat then some 0x03
  else if field h 6 1 ≠ 0x51 ∨ field h 8 2 ≠ 0x1624 ∨ !bit (field h 10 2) 5 then some 0x02
  else if !zero ((h.drop 7).take 1) ∨ !zero ((h.drop 18).take 2) ∨ !zero ((h.drop 60).take 64) ∨ 1 < kind ∨
      1 < field h 13 1 ∨ 2 < enc ∨ (kind = 0 ∧ field h 16 2 ≠ 0) ∨ !kindHere s kind then some 0x04
  else if kind = 1 ∧ (511 < field h 16 2 ∨ (facet s (field h 16 2)).state = .retired) then some 0x05
  else if (kind = 0 ∧ (frames < 393216 ∨ 688128 < frames)) ∨ (kind = 1 ∧ (frames < 768 ∨ 1344 < frames)) then some 0x06
  else if 3 < slot ∨ s.nv.revoked.getLsbD slot ∨ (stagedKey s slot).isEmpty then some 0x07
  else if (enc = 0 ∧ s.nv.encRequired) ∨ (enc = 1 ∧ s.nv.fusedKey.isNone) ∨ (enc = 2 ∧ s.nv.battery.isNone) ∨
      (enc = 0 ∧ !zero ((h.drop 24).take 28)) then some 0x08
  else none

/-- The header's fields (R278). -/
def parse (h : List Byte) : Header :=
  { facetOnly := field h 12 1 == 1
    perFrame := field h 13 1 == 1
    signer := field h 14 1
    enc := field h 15 1
    facet := field h 16 2
    frames := field h 20 4
    iv := (h.drop 24).take 12
    tag := (h.drop 36).take 16
    endCrc := field h 52 4
    version := field h 56 4
    head := h.take 128
    signature := (h.drop 128).take 384 }

/-- The key of a load (R285), as 32 bytes. -/
def keyOf (s : State) (enc : Nat) : List Byte :=
  bytes 32 ((if enc = 1 then s.nv.fusedKey else s.nv.battery).getD 0).toNat

/-- A header is accepted: the load begins (R295), a partial one with step 1 of its ladder (R301). -/
def accept (h : Header) (s : State) : State :=
  let y := if h.enc = 0 then 0 else Crypto.ghash (Crypto.gcmH (keyOf s h.enc)) 0 (h.head.take 36)
  let s := setReg 0x2000 0x0C (if h.facetOnly then h.facet else 0xFFFF) s
  let s := setReg 0x2000 4 h.frames (setReg 0x2000 3 0 s)
  let s := { s with loader := { s.loader with phase := .frames, unit := [], load := some { header := h, ghash := y } } }
  if h.facetOnly then startPartial h.facet s else clearWords (fun _ => true) s

/-- A complete stream header is checked (R293, R294). -/
def streamHeader (s : State) : State :=
  if s.loader.phase ≠ .header ∨ s.loader.unit.length < 512 then s
  else
    match headerChecks s.loader.unit s with
    | some code => fail code 0 (setReg 0x2000 4 (field s.loader.unit 20 4) s)
    | none => refill (accept (parse s.loader.unit) s)

/-! ### Frames -/

/-- The fields of a frame address (R280). -/
def typeOf (a : Nat) : Nat := a / 2 ^ 56
def dieOf (a : Nat) : Nat := a / 2 ^ 40 % 256
def localOf (a : Nat) : Nat := a / 2 ^ 32 % 256
def columnOf (a : Nat) : Nat := a / 65536 % 65536
def minorOf (a : Nat) : Nat := a % 65536
def regionOf (a : Nat) : Nat := 128 * dieOf a + localOf a

/-- The address of fabric frame `k` of a region: minor, then column (R284). -/
def fabricAddr (r k : Nat) : Nat :=
  2 ^ 56 + r / 128 * 2 ^ 40 + r % 128 * 2 ^ 32 + k / 24 * 65536 + k % 24

/-- The next legal fabric address of a load, while it has not had all its fabric frames (R284). -/
def nextFabric (l : Load) : Option Nat :=
  if l.header.facetOnly then (if l.accepted < 768 then some (fabricAddr l.header.facet l.accepted) else none)
  else if l.accepted < 393216 then some (fabricAddr (l.accepted / 768) (l.accepted % 768))
  else none

/-- A frame breaks the address rules (R284). -/
def badAddress (l : Load) (a : Nat) : Bool :=
  match nextFabric l with
  | some e => a != e
  | none =>
    typeOf a != 2 || a / 2 ^ 48 % 256 != 0 || decide (3 < dieOf a) || decide (127 < localOf a) ||
      decide (3 < columnOf a) || decide (143 < minorOf a) || l.lastBank.any fun b => decide (a ≤ b)

/-- The row and column parities of a payload (R305). -/
def parityOf (v : BitVec 4096) : BitVec 128 :=
  let rows := (List.range 64).foldl (fun (a : BitVec 128) i =>
    if Flags.parity (v.extractLsb' (64 * i) 64) then a ||| BitVec.twoPow 128 i else a) 0
  let cols := (List.range 64).foldl (fun (a : BitVec 64) i => a ^^^ v.extractLsb' (64 * i) 64) 0
  rows ||| (cols.setWidth 128 <<< 64)

/-- The frames that a load writes: those of a partial load take effect at its step 4 (R301). -/
def target (onlyFacet : Bool) (s : State) : Table (BitVec 4096) := if onlyFacet then s.fab.incoming else s.fab.frames

/-- Write a fabric frame: its payload with every invalid field at its default, its parity, and its mirror entry (R100,
R295, R305). -/
def writeFabric (onlyFacet : Bool) (a : Nat) (v : BitVec 4096) (crc : BitVec 32) (s : State) : State :=
  let r := regionOf a
  let c := columnOf a
  let m := minorOf a
  let f := Table.put (fun _ => 0) (target onlyFacet s) (Frames.key r c m) v
  let f := Frames.clearFields f r c m (Frames.badFields f r c m)
  let par (t : Table (BitVec 128)) (k : Nat) : Table (BitVec 128) :=
    Table.put (fun _ => 0) t k (parityOf (Table.get (fun _ => 0) f k))
  let k := Frames.key r c m
  let p := par s.scrub.parity k
  let p := if 0 < m ∧ m < 23 then par p (k - 1) else p
  { s with
    fab := if onlyFacet then { s.fab with incoming := f } else { s.fab with frames := f }
    scrub := { s.scrub with mirror := Table.put (fun _ => none) s.scrub.mirror k (some crc), parity := p } }

/-- A bank that receives a frame comes On (R304): a Retain or Off bank wakes, with TARGET On. -/
def bringUp (n : Nat) (s : State) : State :=
  match power s n with
  | .on | .retired => s
  | _ => Banks.applyTarget n 0 (setReg (0x4800 + n) 1 (reg s (0x4800 + n) 1 / 4 * 4) s)

/-- Write a bank initialisation frame through the maintenance requester (R184, R283, R304): after the wake, in the order in which
the requests reach the bank. A retired bank discards it and counts a refusal. -/
def writeBank (l : Load) (a : Nat) (v : BitVec 4096) (s : State) : State :=
  let n := 4 * regionOf a + columnOf a
  if power s n = .retired then
    let x := reg s (0x4800 + n) 8
    setReg (0x4800 + n) 8 (x / 2 ^ 32 * 2 ^ 32 + (x + 1) % 2 ^ 32) s
  else Banks.arrive n { kind := .image (!l.banks.contains n) (minorOf a) v } (bringUp n s)

/-- The frame's payload is invalid (R60, R99, R282). -/
def invalidFrame (onlyFacet : Bool) (a : Nat) (v : BitVec 4096) (s : State) : Bool :=
  if typeOf a = 1 then
    let r := regionOf a
    let c := columnOf a
    let m := minorOf a
    !(Frames.badFields (Table.put (fun _ => 0) (target onlyFacet s) (Frames.key r c m) v) r c m).isEmpty
  else false

/-- The load after a frame has been accepted and written (R295): the counts, the running CRC, tag and chain. -/
def advance (l : Load) (a : Nat) (frame plain cipher : List Byte) (s : State) : Load :=
  { l with
    accepted := l.accepted + 1
    tries := 0
    lastBank := if typeOf a = 2 then some a else l.lastBank
    crc := Crypto.crcUpdate l.crc (frame.take 8 ++ plain)
    ghash := if l.header.enc = 0 then l.ghash else Crypto.ghash (Crypto.gcmH (keyOf s l.header.enc)) l.ghash cipher
    chain := Crypto.sha256 (l.chain ++ frame)
    banks := if typeOf a = 2 then
        let n := 4 * regionOf a + columnOf a
        if l.banks.contains n then l.banks else n :: l.banks
      else l.banks }

/-- Store the load. -/
def setLoad (l : Load) (s : State) : State := { s with loader := { s.loader with load := some l } }

/-- A frame that has passed its checks is written and counted (R295); the last one starts the end checks. -/
def acceptFrame (l : Load) (a crc : Nat) (frame plain cipher : List Byte) (v : BitVec 4096) (s : State) : State :=
  let retired := (facet s (regionOf a)).state = .retired
  let s := if typeOf a = 1 then (if retired then s else writeFabric l.header.facetOnly a v (BitVec.ofNat 32 crc) s) else writeBank l a v s
  let l := advance l a frame plain cipher s
  let s := setReg 0x2000 3 l.accepted s
  if l.accepted = l.header.frames then
    let s := { s with loader := { s.loader with phase := .endChecks, unit := [], load := some l } }
    if modeIn s [.m3] then { s with modes := { s.modes with loadDue := some 0x12 } } else s
  else refill { s with loader := { s.loader with phase := .frames, unit := [], load := some l } }

/-- One frame, as the pseudocode of R295 handles it. -/
def frame (s : State) : State :=
  match s.loader.load with
  | none => s
  | some l =>
    let f := s.loader.unit
    let waiting := s.loader.phase == .resend
    if (s.loader.phase ≠ .frames ∧ !waiting) ∨ f.length < 524 then s
    else
      let a := le (f.take 8)
      if waiting && a != l.rejected then
        refill (add 0x2000 0x0B 32 524 { s with loader := { s.loader with unit := [] } })
      else if l.header.facetOnly && (typeOf a == 1 || typeOf a == 2) &&
          (dieOf a != l.header.facet / 128 || localOf a != l.header.facet % 128) then fail 0x0A a s
      else if badAddress l a then fail 0x09 a s
      else
        let cipher := (f.drop 8).take 512
        let plain := if l.header.enc = 0 then cipher
          else Crypto.gcmDecryptFrame (keyOf s l.header.enc) l.header.iv l.accepted cipher
        let crc := le (f.drop 520)
        let good := crc == (Crypto.crc32c (f.take 8 ++ plain)).toNat
        if !good && l.header.perFrame then
          if l.tries + 1 = 3 then fail 0x0B a s
          else
            let s := { s with loader := { s.loader with
              phase := .resend, unit := [], load := some { l with tries := l.tries + 1, rejected := a } } }
            refill (raise 354 (setReg 0x2000 7 a s))
        else
          let l := if good then l else { l with firstCrc := some (l.firstCrc.getD a) }
          let v := BitVec.ofNat 4096 (le plain)
          let bad := invalidFrame l.header.facetOnly a v s
          if bad && l.header.perFrame then fail 0x09 a s
          else
            let l := if bad then { l with firstInvalid := some (l.firstInvalid.getD a) } else l
            acceptFrame l a crc f plain cipher v s

/-- The active source has been silent for 50 ms (R293, R295). -/
def silence (s : State) : State :=
  match s.loader.phase with
  | .header | .frames | .resend => fail 0x0C 0 s
  | _ => s

/-- A source has been silent for 1 ms: its run of discarded bytes ends (R276). -/
def runEnd (src : Source) (s : State) : State := endRun src s

/-- The active source has been silent for 1 ms after a failure: the loader is idle (R277). -/
def resync (s : State) : State :=
  if s.loader.phase = .resync then endRun s.loader.src { s with loader := { s.loader with phase := .idle } } else s

/-! ### The end of a load -/

/-- The stream hash (R286). -/
def streamHash (l : Load) : List Byte := Crypto.sha256 (l.header.head ++ l.chain)

/-- The end checks in order: the code of the first that fails and the address recorded with it (R296). -/
def endChecks (l : Load) (s : State) : Option (Nat × Nat) :=
  let h := l.header
  if !h.perFrame && (l.firstCrc.isSome || (Crypto.crcFinal l.crc).toNat != h.endCrc) then some (0x10, l.firstCrc.getD 0)
  else if !h.perFrame && l.firstInvalid.isSome then some (0x11, l.firstInvalid.getD 0)
  else if h.enc ≠ 0 ∧ Crypto.gcmTag (keyOf s h.enc) h.iv l.ghash 36 (512 * h.frames) ≠ h.tag then some (0x12, 0)
  else if !Crypto.pssVerifyHash ((stagedKey s h.signer).take 384) (streamHash l) h.signature then some (0x13, 0)
  else none

/-- A full load passes: every facet that is not retired is loaded, and the release is due (R298, R310). -/
def passFull (l : Load) (s : State) : State :=
  let s := everyFacet { state := .loaded, hash := BitVec.ofNat 256 (le (streamHash l)), version := l.header.version } s
  let s := startPass s
  let s := raise 352 (bump 0x2000 9 s)
  finish { s with modes := { s.modes with loadDue := some 0x13 } }

/-- The end checks complete (R296, R298, R301). -/
def endChecksComplete (s : State) : State :=
  match s.loader.load with
  | none => s
  | some l =>
    if s.loader.phase ≠ .endChecks then s
    else
      match endChecks l s with
      | some e => fail e.1 e.2 s
      | none =>
        if l.header.facetOnly then finish (finishPartial l (BitVec.ofNat 256 (le (streamHash l))) s)
        else passFull l s

/-! ### Modes -/

/-- Entry to M1: the configuration is invalid and the loader is idle (R34, R304). -/
def onM1 (s : State) : State :=
  let s := invalidate s
  { s with loader := { phase := .idle } }

/-- Entry to M7: the facets of a full load that failed or was ended are empty (R310). -/
def onM7 (s : State) : State := if s.facetBase.state = .loading then everyFacet {} s else s

/-! ### The scrubbers -/

/-- The scrubbers read a facet's frames: it is neither loading nor empty (R306). -/
def scrubs (s : State) (r : Nat) : Bool := (facet s r).state == .loaded || (facet s r).state == .retired

/-- Every frame of every facet that the scrubbers read has been read back: a pass ends (R306, R308). -/
def passDone (s : State) : Bool :=
  (List.range 512).all fun r =>
    !scrubs s r || Table.get (fun _ => (0 : BitVec 768)) s.scrub.seen r == BitVec.allOnes 768

/-- A pass ends and the next begins: one of more than 20 ms, in which a partial load or a region reset held a configuration
memory, breaks guarantee 4 (R306, R308, R492 case 5). -/
def endPass (s : State) : State :=
  let s := bump 0x2001 1 s
  startPass (match s.scrub.held with
    | some r => if s.scrub.start + 20 * 16000000 < (launch s).toNat then broken 4 1 5 r s else s
    | none => s)

/-- A frame has been read back. -/
def readBack (f : Nat) (s : State) : State :=
  let r := f / 768
  let seen := Table.modify (fun _ => (0 : BitVec 768)) s.scrub.seen r fun v => v ||| BitVec.twoPow 768 (f % 768)
  let s := { s with scrub := { s.scrub with seen := seen } }
  if passDone s then endPass s else s

/-- The address of frame f, as stored (R280). -/
def addressOf (f : Nat) : Nat := fabricAddr (f / 768) (f % 768)

/-- The CRC of an address and a payload (R280). -/
def frameCrc (a : Nat) (v : BitVec 4096) : BitVec 32 := Crypto.crc32c (bytes 8 a ++ bytes 512 v.toNat)

/-- A multi-bit upset, or an uncorrectable mirror entry: the facet's policy acts (R307, R492). -/
def upset (f : Nat) (s : State) : State :=
  let r := f / 768
  let s := observe (channel 6 r 0) (bump 0x2001 3 (bump (0x2800 + r) 7 s))
  let s := raise 358 (setReg (0x2800 + r) 8 (addressOf f) s)
  let policy := reg s (0x2800 + r) 2
  if policy = 0 then s
  else
    let s := raise 359 (Fabric.isolate r 2 s)
    let s := if hasTimed s r then broken 2 1 1 r s else s
    if policy = 2 then raise 360 (setFacet r { facet s r with reload := true } s) else s

/-- The one bit at the crossing of one wrong row and one wrong column. -/
def crossing (d : BitVec 128) : Option Nat :=
  let rows := (List.range 64).filter fun i => d.getLsbD i
  let cols := (List.range 64).filter fun i => d.getLsbD (64 + i)
  match rows, cols with
  | [a], [b] => some (64 * a + b)
  | _, _ => none

/-- The golden value of frame f (R305). A retired facet has its frames at their default, and theirs with them (R486; log entry
48). -/
def golden (s : State) (f : Nat) : Option (BitVec 32) :=
  match (facet s (f / 768)).state, Table.get (fun _ => none) s.scrub.mirror f with
  | .retired, none => some (frameCrc (addressOf f) 0)
  | _, g => g

/-- The scrubber reads back one frame, some bits of which an upset has flipped (R306). -/
def scrubFrame (f : Nat) (flips : BitVec 4096) (mirrorGood : Bool) (s : State) : State :=
  let v := Table.get (fun _ => 0) s.fab.frames f ^^^ flips
  let put (x : BitVec 4096) (s : State) : State :=
    { s with fab := { s.fab with frames := Table.put (fun _ => 0) s.fab.frames f x } }
  if !modeIn s [.m5] || Fabric.draining s || !scrubs s (f / 768) then s
  else
    let s := readBack f (put v s)
    match mirrorGood, golden s f with
    | true, some gold =>
      let d := parityOf v ^^^ Table.get (fun _ => 0) s.scrub.parity f
      if d = 0 ∧ frameCrc (addressOf f) v = gold then s
      else
        match crossing d with
        | some b =>
          let fixed := v ^^^ BitVec.twoPow 4096 b
          if frameCrc (addressOf f) fixed = gold then
            raise 357 (bump 0x2001 2 (bump (0x2800 + f / 768) 6 (Fabric.rewritten (f / 768) (f / 24 % 32) (put fixed s))))
          else upset f s
        | none => upset f s
    | _, _ => upset f (raise 361 (bump 0x2001 4 s))

/-! ### Objects -/

/-- The code of 0x2000.02. -/
def phaseCode : LoadPhase → Nat
  | .idle => 0 | .header => 1 | .frames => 2 | .resend => 3 | .endChecks => 4 | .resync => 6

/-- What a read of a loader or facet object returns where the stored value is not it. -/
def readSub (s : State) (index sub : Nat) : Option Nat :=
  if index = 0x2000 then
    match sub with
    | 2 => some (phaseCode s.loader.phase)
    | _ => none
  else if 0x2800 ≤ index ∧ index < 0x2A00 then
    let x := facet s (index - 0x2800)
    match sub with
    | 1 => some (facetCode x)
    | 4 => some x.hash.toNat
    | 5 => some x.version
    | _ => none
  else none

/-- A write of a loader or facet sub that does more than store (R309, R310). -/
def writeSub (index sub v : Nat) (s : State) : Option (Nat ⊕ State) :=
  if index = 0x2000 then
    match sub with
    | 1 => if s.loader.phase = .idle then some (.inr (Bridges.follow (setReg 0x2000 1 v s))) else some (.inl 5)
    | 8 =>
      if v ≠ 1 then some (.inl 4)
      else if s.loader.load.isNone && s.loader.phase != .header then some (.inl 5)
      else some (.inr (fail 0x0D 0 s))
    | _ => none
  else if 0x2800 ≤ index ∧ index < 0x2A00 ∧ sub = 2 ∧ 2 < v then some (.inl 4)
  else none

end Sys2Proof.Machine.Loader
end

