-- ==== Sys2Proof/Machine/Security.lean ====
section
/-!
DEFINITION. The security processor: signer keys, fuses, the battery-backed key, security events and commands, and
attestation (R45, R287 to R292, R311, R312).
-/

namespace Sys2Proof.Machine.Security

open Sys2Proof.Machine.Ops

/-- The fused hash of a slot, as 32 octets. -/
def slotHash (s : State) (k : Nat) : List Byte := bytes 32 (Table.get (fun _ => 0) s.nv.hashes k).toNat

/-- A slot has a fused hash. -/
def programmed (s : State) (k : Nat) : Bool := Table.get (fun _ => (0 : BitVec 256)) s.nv.hashes k != 0

/-- A slot is revoked. -/
def revoked (s : State) (k : Nat) : Bool := s.nv.revoked.getLsbD k

/-- The slots as the engine installer checks them (R265, R290). -/
def slots (s : State) (k : Nat) : Engines.Slot := { hash := slotHash s k, revoked := revoked s k || !programmed s k }

/-- Stage a key, or none. -/
def stage (k : Nat) (v : List Byte) (s : State) : State :=
  { s with sec := match k with
    | 0 => { s.sec with key0 := v }
    | 1 => { s.sec with key1 := v }
    | 2 => { s.sec with key2 := v }
    | _ => { s.sec with key3 := v } }

/-- A write of a signer key (R288). -/
def writeKey (k : Nat) (d : List Byte) (s : State) : Nat ⊕ State :=
  if d.length ≠ 388 then .inl 4
  else if le (d.drop 384) ≠ 65537 ∨ revoked s k ∨ !programmed s k ∨ Crypto.sha256 d ≠ slotHash s k then .inl 4
  else if Loader.namesSlot s k then .inl 5
  else .inr (stage k d s)

/-- The slot is the last programmed one that is not revoked (R290). DESIGN CHOICE: one whose revocation fuse is being blown counts
as revoked (log entry 87). -/
def lastSlot (s : State) (k : Nat) : Bool :=
  (List.range 4).all fun j => j == k || !programmed s j || revoked s j || s.sec.revoking.any fun i => i.val == j

/-- A write of 0xC001.07 (R290): the blow starts, and the staged key is cleared. -/
def revoke (v : Nat) (s : State) : Nat ⊕ State :=
  if 3 < v ∨ lastSlot s v then .inl 4
  else if Loader.namesSlot s v || Engines.installing s then .inl 5
  else
    let s := stage v [] s
    .inr { s with sec := { s.sec with revoking := s.sec.revoking ++ [Fin.ofNat 4 v] } }

/-- The blow of the first write that waits for one completes (R290, R313): the slot is revoked, and source 362 is raised. -/
def revocationBlown (s : State) : State :=
  match s.sec.revoking with
  | [] => s
  | k :: rest =>
    raise 362 { s with
      sec := { s.sec with revoking := rest }
      nv := { s.nv with revoked := s.nv.revoked ||| BitVec.twoPow 4 k } }

/-- The battery-backed key changes, and with it the key state (R291, source 489). -/
def setBattery (k : Option (BitVec 256)) (s : State) : State :=
  let was := s.nv.battery.isSome
  let s := { s with nv := { s.nv with battery := k } }
  if was = k.isSome then s else raise 489 s

/-- A write of 0xC020.01 (R291). -/
def writeBattery (d : List Byte) (s : State) : Nat ⊕ State :=
  if d.length ≠ 32 ∨ !s.nv.batteryAllowed then .inl 4
  else if Loader.usesBattery s then .inl 5
  else .inr (setBattery (some (BitVec.ofNat 256 (le d))) s)

/-- A write of 0xC020.03 (R291). A write of FALSE erases nothing. -/
def eraseBattery (v : Nat) (s : State) : Nat ⊕ State :=
  if Loader.usesBattery s then .inl 5 else .inr (if v = 1 then setBattery none s else s)

/-- A security event (R45): source 488, its count and cause, and its effect on the mode, taken before the command ends. -/
def event (cause : Nat) (s : State) : State :=
  let s := setReg 0xC050 4 cause (bump 0xC050 3 s)
  let s := raise 488 s
  if modeIn s [.m7] then s else { s with modes := { s.modes with securityDue := true } }

/-- The integrity check (R45). -/
def integrityCheck (altered : Bool) (s : State) : State := if altered then event 1 s else s

/-- A write of 0xC050.02 (R292). -/
def quarantine (v : Nat) (s : State) : Nat ⊕ State := if v = 1 then .inr (event 2 s) else .inl 4

/-- A security command, a write of 0xC050.01 (R292, R527). -/
def command (v : Nat) (s : State) : Nat ⊕ State :=
  let r := v % 512
  if v / 512 % 64 ≠ 0 then .inl 4
  else if v / 32768 = 0 then .inr (Fabric.isolate r 5 s)
  else if !(Fabric.collar s r).isolate || (Fabric.collar s r).cause != 5 then .inl 4
  else .inr (Fabric.removeCause r 5 false s)

/-! ### Attestation -/

/-- The repairs in force: those of Survey and run-time, and the fused ones (R489). -/
def record (s : State) : List Nat := (s.sup.repairs ++ s.nv.repairs).insertionSort (· ≤ ·)

/-- The bytes of the repair record (R489). -/
def recordBytes (s : State) : List Byte :=
  bytes 4 (record s).length ++ (record s).flatMap fun e => bytes 8 e

/-- REPAIR_DIGEST (R489). -/
def repairDigest (s : State) : List Byte := Crypto.sha256 (recordBytes s)

/-- Entries of one KIND. -/
def kindCount (s : State) (k : Nat) : Nat := ((record s).filter fun e => e / 2 ^ 60 == k).length

/-- REPAIR_COUNTS (R312): columns steered, banks, engines and lanes retired. -/
def repairCounts (s : State) : List Byte :=
  bytes 2 (kindCount s 1) ++ bytes 2 (kindCount s 2) ++ bytes 2 (kindCount s 3) ++ bytes 2 (kindCount s 4)

/-- A facet's hash as the report gives it (R312). -/
def facetHash (s : State) (r : Nat) : List Byte :=
  let x := Loader.facet s r
  match x.state with
  | .retired => List.replicate 32 0xFF
  | .empty => List.replicate 32 0
  | _ => bytes 32 x.hash.toNat

/-- Bytes 0 to 21,247 of a report (R312), sampled now. -/
def reportBody (nonce : List Byte) (s : State) : List Byte :=
  bytes 4 0x31545441 ++ bytes 2 1 ++ bytes 1 0x51 ++ bytes 1 0x21 ++ bytes 2 0x1624 ++ bytes 2 0 ++ bytes 8 s.nv.serial ++
  bytes 1 (modeNo s.modes.cur) ++ bytes 3 0 ++ time80 s.time.sec s.time.ns ++ bytes 6 0 ++ nonce ++
  bytes 32 Config.firmwareHash.toNat ++ bytes 32 Config.selftestHash.toNat ++ repairDigest s ++ repairCounts s ++
  List.replicate 80 0 ++ (List.range 512).flatMap (fun r => facetHash s r) ++
  ((List.range 512).map fun r => BitVec.ofNat 8 (Loader.facetCode (Loader.facet s r))) ++
  (List.range 128).flatMap fun n => bytes 32 (Engines.engine s n).hash.toNat

/-- A write of 0xC030.01 (R312). -/
def attest (nonce : List Byte) (s : State) : Nat ⊕ State :=
  if nonce.length ≠ 32 then .inl 4
  else if s.sec.reportStatus = 1 || Loader.loading s then .inl 5
  else .inr { s with sec := { s.sec with reportStatus := 1, report := reportBody nonce s } }

/-- The report is signed and ready (R312). -/
def attestationReady (s : State) : State :=
  if s.sec.reportStatus ≠ 1 then s
  else
    let sig := bytes 384 (Config.attestationSignature s.sec.report).toNat
    raise 363 { s with sec := { s.sec with reportStatus := 2, report := s.sec.report ++ sig } }

/-! ### Objects -/

/-- What a read of a security object returns where the stored value is not it. -/
def readSub (s : State) (index sub : Nat) : Option Nat :=
  match index, sub with
  | 0xC000, 1 => some s.nv.serial
  | 0xC001, 5 => some s.nv.revoked.toNat
  | 0xC001, 6 => some ((if s.nv.encRequired then 1 else 0) + (if s.nv.batteryAllowed then 2 else 0) +
      (if s.nv.fusedKey.isSome then 4 else 0))
  | 0xC020, 2 => some (if s.nv.battery.isSome then 1 else 0)
  | 0xC030, 2 => some s.sec.reportStatus
  | _, _ => none

/-- What a read of a security BLOB returns. -/
def readBlob (s : State) (index sub : Nat) : Option (Nat ⊕ List Byte) :=
  match index with
  | 0xC000 => if sub = 2 then some (.inr Config.certificate) else if sub = 3 then some (.inr Config.deviceModulus) else none
  | 0xC001 => if 1 ≤ sub ∧ sub ≤ 4 then some (.inr (slotHash s (sub - 1))) else none
  | 0xC010 =>
    let k := Loader.stagedKey s (sub - 1)
    some (.inr (if k.isEmpty then List.replicate 388 0 else k))
  | 0xC030 => if sub = 3 then (if s.sec.reportStatus = 2 then some (.inr s.sec.report) else some (.inl 5)) else none
  | 0xC040 => if sub = 1 then some (.inr (bytes 16 s.sec.challenge.toNat)) else none
  | _ => none

/-- A write of a security sub, after the owner check (R288 to R292, R312). -/
def writeSub (index sub : Nat) (d : List Byte) (s : State) : Option (Nat ⊕ State) :=
  match index, sub with
  | 0xC001, 7 => some (revoke (le d) s)
  | 0xC010, k => some (writeKey (k - 1) d s)
  | 0xC020, 1 => some (writeBattery d s)
  | 0xC020, 3 => some (eraseBattery (le d) s)
  | 0xC030, 1 => some (attest d s)
  | 0xC050, 1 => some (command (le d) s)
  | 0xC050, 2 => some (quarantine (le d) s)
  | _, _ => none

/-- Entry to M1: staged keys return to 0 (R288). -/
def onM1 (s : State) : State := { s with sec := { s.sec with key0 := [], key1 := [], key2 := [], key3 := [] } }

end Sys2Proof.Machine.Security
end

