-- ==== Sys2Proof/Machine/Host.lean ====
section
/-!
DEFINITION. The host link: region ports, DMA channels, resets and MSI-X (R376 to R400, R503).
-/

namespace Sys2Proof.Machine.HostLink

open Sys2Proof.Machine.Ops

/-- The OWNER code of a function (R398); PF0 is 0. -/
def ownerCode : Fn → Nat
  | .pf0 => 0
  | .pf1 => 1
  | .vf v => 2 + v

/-- The function exists: a VF only below NumVFs. -/
def present (s : State) (f : Fn) : Bool :=
  match f with
  | .vf v => decide (v.val < s.events.numVfs)
  | _ => true

/-- The host can reach the endpoint. -/
def up (s : State) : Bool := !Bridges.linkDown s

/-- An access of the host, which needs the link; in M6 it brings the link back to L0 (R379, R396, R520). -/
def viaLink (f : State → State) (s : State) : State := if up s then f (toL0 raise s) else s

/-! ### Unmapped accesses and region ports -/

/-- An access to nothing that answers (R385). -/
def unmapped (isRead : Bool) (s : State) : State :=
  let s := bump 0x8000 7 s
  if isRead then emit (.readback (BitVec.allOnes 64)) s else s

/-- Byte r of 0x8200.01 (R399). -/
def portOwner (s : State) (r : Nat) : Nat := Table.get (fun _ => 1) s.host.owners r

/-- The region port of r is live for a function (R382, R383). -/
def portLive (s : State) (f : Fn) (r : Nat) : Bool := portOwner s r == ownerCode f && present s f

/-- A SEND that is discarded (R387). -/
def sendDiscarded (s : State) : State := raise 406 (bump 0x8000 6 s)

/-- A host write of SEND (R386, R387). -/
def portSend (f : Fn) (r : Nat) (d : W64) (s : State) : State :=
  if !portLive s f r then unmapped false s
  else if !modeIn s [.m5] || (Engines.port s (512 + r)).send.isSome then sendDiscarded s
  else Engines.fillSend (512 + r) d s

/-- The port's receive channels all have no selection: it is off for receiving (R255, R386). -/
def portOff (s : State) (r : Nat) : Bool := (Frames.inputs s.fab.frames (.hostPort (Fin.ofNat 512 r))).isEmpty

/-- A host read of RECV (R386, R387). -/
def portRecv (f : Fn) (r : Nat) (s : State) : State :=
  if !portLive s f r then unmapped true s
  else if !modeIn s [.m5] then emit (.readback (BitVec.allOnes 64)) s
  else
    let p := Engines.port s (512 + r)
    match p.recv, portOff s r with
    | some w, false => emit (.readback w) (Engines.setPort (512 + r) { p with recv := none } s)
    | _, _ => emit (.readback 0) s

/-! ### MSI-X -/

/-- The first and the number of the global vectors of a function (R384). -/
def vectors : Fn → Nat × Nat
  | .pf0 => (0, 64)
  | .pf1 => (64, 960)
  | .vf v => (1024 + 16 * v, 16)

/-- The bits of `n` vectors from `lo`. -/
def vectorMask (lo n : Nat) : BitVec 2048 := BitVec.ofNat 2048 ((2 ^ n - 1) * 2 ^ lo)

/-- How many bits are set. -/
def ones (v : BitVec 2048) : Nat := ((List.range 2048).filter fun i => v.getLsbD i).length

/-- A reset of a function clears its pending bits; each message lost is counted, and MSI-X is disabled (R503). -/
def resetVectors (lo n : Nat) (s : State) : State :=
  let m := vectorMask lo n
  let s := add 0xB000 6 32 (ones (s.events.msixPending &&& m)) s
  { s with events := { s.events with
      msixPending := s.events.msixPending &&& ~~~m
      msixBlocked := s.events.msixBlocked ||| m } }

/-- The vector has a table entry: a VF's only while the VF is present (R503). -/
def hasEntry (s : State) (v : Nat) : Bool := decide (v < 1024) || decide ((v - 1024) / 16 < s.events.numVfs)

/-- The OWNER codes that `p` picks lose what the host has set in their configuration (R379, R395). -/
def resetFns (p : Nat → Bool) (s : State) : State :=
  { s with host := { s.host with fns := Table.clear p s.host.fns, msix := Table.clear (fun v => p (ownerOf v)) s.host.msix } }

/-- Change a function's configuration. -/
def setFn (f : Fn) (g : FnConfig → FnConfig) (s : State) : State :=
  { s with host := { s.host with fns := Table.put (fun _ => {}) s.host.fns (ownerCode f) (g (fnConfig s (ownerCode f))) } }

/-- A pending message that nothing blocks any more is sent (R503). -/
def release (s : State) (v : Nat) : State :=
  if s.events.msixPending.getLsbD v && !msixBlocked s v then
    emit (message s v) { s with events := { s.events with
      msixPending := s.events.msixPending &&& ~~~BitVec.twoPow 2048 v } }
  else s

/-- A condition that keeps a function from sending holds, or is lifted (R503). -/
def withBlock (why : FnBlock) (v : Bool) (c : FnConfig) : FnConfig :=
  match why with
  | .mask => { c with msixMask := v }
  | .disabled => { c with msixEnable := !v }
  | .noBusMaster => { c with busMaster := !v }
  | .d3hot => { c with d3hot := v }

/-- A function's configuration changes: what may be sent now is sent, in the order of the vectors. -/
def configure (f : Fn) (g : FnConfig → FnConfig) (s : State) : State :=
  (List.range (vectors f).2).foldl (fun s i => release s ((vectors f).1 + i)) (setFn f g s)

/-- The block of a vector or of a function is lifted: pending messages are sent (R503). -/
def unblock (b : MsixBlock) (s : State) : State :=
  match b with
  | .entry v =>
    if !hasEntry s v.toNat then s
    else
      release { s with events := { s.events with
        msixBlocked := s.events.msixBlocked &&& ~~~BitVec.twoPow 2048 v.toNat } } v.toNat
  | .function f why => if present s f then configure f (withBlock why false) s else s

/-- A vector is masked, or its function can no longer send (R503). -/
def mask (b : MsixBlock) (s : State) : State :=
  match b with
  | .entry v =>
    if !hasEntry s v.toNat then s
    else { s with events := { s.events with msixBlocked := s.events.msixBlocked ||| BitVec.twoPow 2048 v.toNat } }
  | .function f why => if present s f then setFn f (withBlock why true) s else s

/-- VF Enable and NumVFs of PF1 change: vectors of VFs that are no longer present lose their pending bits (R503). -/
def vfEnable (n : Nat) (s : State) : State :=
  if 64 < n then s
  else
    let s := if n < s.events.numVfs then resetVectors (1024 + 16 * n) (16 * (s.events.numVfs - n)) s else s
    resetFns (fun o => decide (2 + n ≤ o)) { s with events := { s.events with numVfs := n } }

/-! ### DMA channels -/

/-- A channel. -/
def chan (s : State) (c : Nat) : Dma := Table.get (fun _ => {}) s.host.chans c

/-- Store a channel. -/
def setChan (c : Nat) (x : Dma) (s : State) : State :=
  { s with host := { s.host with chans := Table.put (fun _ => {}) s.host.chans c x } }

/-- The control word of a channel and its fields (R398). -/
def control (s : State) (c : Nat) : Nat := reg s (0x8100 + c) 1
def owner (s : State) (c : Nat) : Nat := control s c / 2 ^ 24 % 128
def ringSize (s : State) (c : Nat) : Nat := 2 ^ (control s c / 2 ^ 20 % 16)
def quota (s : State) (c : Nat) : Nat := control s c / 2 ^ 13 % 128
def vector (s : State) (c : Nat) : Nat := control s c % 1024

/-- The entries of an owner's MSI-X table, and its first global vector. -/
def tableOf (o : Nat) : Nat × Nat := if o = 0 then (0, 64) else if o = 1 then (64, 960) else (1024 + 16 * (o - 2), 16)

/-- The tags that a channel holds. -/
def tagsOf (s : State) (c : Nat) : List DmaTag := s.host.tags.filter fun t => t.chan == c

/-- Replace a tag's record. -/
def setTag (t : DmaTag) (s : State) : State :=
  { s with host := { s.host with tags := s.host.tags.map fun x => if x.tag = t.tag then t else x } }

/-- A channel halts (R389, R393). -/
def halt (c slot status : Nat) (s : State) : State :=
  raise 405 (setChan c { chan s c with state := .halted, halt := slot * 256 + status } s)

/-- A draining channel whose last tag has freed (R394). -/
def drained (c : Nat) (s : State) : State :=
  if (chan s c).state = .draining && (tagsOf s c).isEmpty then
    setChan c { state := if bit (control s c) 31 then .running else .disabled } s
  else s

/-- A write of a control word (R393, R394, R398): the error, or the state after it. -/
def writeControl (c v : Nat) (s : State) : Nat ⊕ State :=
  let v := v &&& 0xFFFFE3FF
  let o := v / 2 ^ 24 % 128
  let size := v / 2 ^ 20 % 16
  let q := v / 2 ^ 13 % 128
  let x := chan s c
  if 65 < o ∨ size < 4 ∨ 12 < size ∨ q < 1 ∨ 64 < q ∨ (tableOf o).2 ≤ v % 1024 then .inl 4
  else if v % 2 ^ 31 ≠ control s c % 2 ^ 31 ∧ x.state ≠ .disabled then .inl 5
  else
    let s := setReg (0x8100 + c) 1 v s
    match x.state with
    | .disabled => .inr (if bit v 31 then setChan c { x with state := .running } s else s)
    | .draining => .inr s
    | _ => .inr (if bit v 31 then s else drained c (setChan c { x with state := .draining } s))

/-- A doorbell page is live for the function that owns its channel (R381 to R383). -/
def pageLive (s : State) (f : Fn) (c : Nat) : Bool := owner s c == ownerCode f && present s f

/-- A doorbell write (R389): an index not below the ring's size halts the channel. DESIGN CHOICE: a disabled channel, whose indices
stay at 0 (R394), does not take it (log entry 92). -/
def doorbell (f : Fn) (c v : Nat) (put : Dma → Dma) (s : State) : State :=
  if !pageLive s f c then unmapped false s
  else
    let x := chan s c
    if x.state = .disabled then s
    else if ringSize s c ≤ v then halt c x.sqHead 3 s
    else setChan c (put x) s

/-- SQ_TAIL and CQ_HEAD (R388, R389). -/
def sqTail (f : Fn) (c v : Nat) (s : State) : State := doorbell f c v (fun x => { x with sqTail := v }) s
def cqHead (f : Fn) (c v : Nat) (s : State) : State := doorbell f c v (fun x => { x with cqHead := v }) s

/-- The fields of a descriptor (R389). -/
def parse (d : List Byte) : Descriptor :=
  { op := le (d.take 1), flags := le ((d.drop 1).take 1), cookie := le ((d.drop 2).take 2), len := le ((d.drop 4).take 4)
    host := le ((d.drop 8).take 8), target := le ((d.drop 16).take 8) }

/-- The descriptor is invalid (R389). A run of words that leaves the banks is invalid too. DESIGN CHOICE: so is one with a bit or byte
set that R389 gives as 0, FLAGS [7:3] and bytes 24 to 31, which R12 does not settle (log entry 91). -/
def invalid (d : Descriptor) (raw : List Byte) : Bool :=
  d.op == 0 || decide (5 < d.op) || decide (7 < d.flags) || d.len % 8 != 0 || decide (d.len < 8) ||
    decide (16777216 < d.len) || d.host % 8 != 0 || (raw.drop 24).any (fun b => b != 0) ||
    ((d.op == 3 || d.op == 4) && (d.target % 8 != 0 || decide (0x08000000 < d.target + d.len))) ||
    (d.op == 5 && d.target != 0)

/-- The owner may not use the operation (R390). -/
def notAllowed (d : Descriptor) (o : Nat) : Bool :=
  (d.op == 5 && o != 0) || ((d.op == 3 || d.op == 4) && decide (1 < o))

/-- The lowest free tag (R391). -/
def freeTag (s : State) : Option Nat := (List.range 256).find? fun t => !s.host.tags.any fun x => x.tag == t

/-- A channel may start a descriptor: it runs, has one posted, and holds fewer tags than its quota (R389, R391). -/
def mayStart (s : State) (c : Nat) : Bool :=
  (chan s c).state == .running && (chan s c).sqHead != (chan s c).sqTail && decide ((tagsOf s c).length < quota s c)

/-- The channel whose turn it is: the next in rotation after the one that started last (R391). -/
def turn (s : State) : Option Nat :=
  ((List.range 32).map fun i => (s.host.lastStart + 1 + i) % 32).find? fun c => mayStart s c

/-- A channel fetches and starts its next descriptor (R391, R393); none: its read of host memory failed. While channels wait for
tags, they are served in rotation. -/
def start (c : Nat) (fetched : Option (List Byte)) (s : State) : State :=
  let x := chan s c
  if !up s || modeIn s [.m6] || !mayStart s c || (s.host.short && turn s != some c) then s
  else
    match freeTag s with
    | none => s
    | some t =>
      let slot := x.sqHead
      let raw := fetched.getD []
      let d := parse raw
      let status : Option Nat :=
        if fetched.isNone then some 2 else if invalid d raw then some 3 else if notAllowed d (owner s c) then some 5
        else none
      let s := setChan c { x with sqHead := (slot + 1) % ringSize s c } s
      let s := { s with host := { s.host with
          tags := s.host.tags ++ [({ tag := t, chan := c, slot := slot, desc := d, status := status } : DmaTag)]
          ended := if status.isSome then s.host.ended ++ [t] else s.host.ended
          lastStart := c } }
      let s := { s with host := { s.host with short := s.host.short && (turn s).isSome } }
      let s := if status = some 2 then bump 0x8000 8 s else s
      match status with
      | some e => halt c slot e s
      | none => s

/-- The banks that an operation on banks moves words of. -/
def banksOf (d : Descriptor) : Nat × Nat := (d.target / 65536, (d.target + d.len - 1) / 65536)

/-- Two descriptors address the same queue, or the same bank (R391). -/
def sameTarget (a b : Descriptor) : Bool :=
  if a.op < 3 then decide (b.op < 3) && a.target % 4096 == b.target % 4096
  else if a.op < 5 then
    (b.op == 3 || b.op == 4) && decide ((banksOf a).1 ≤ (banksOf b).2) && decide ((banksOf b).1 ≤ (banksOf a).2)
  else b.op == 5

/-- A started descriptor that may go on: none before it in its channel's ring addresses the same target (R391). -/
def active (s : State) (tag op : Nat) : Option DmaTag :=
  match s.host.tags.find? fun t => t.tag == tag with
  | none => none
  | some t =>
    let before := s.host.tags.takeWhile fun x => x.tag != tag
    if t.status.isSome || t.desc.op != op ||
        before.any (fun x => x.chan == t.chan && x.status.isNone && sameTarget x.desc t.desc) then none
    else some t

/-- A descriptor ends with a status (R391). -/
def finish (t : DmaTag) (status : Nat) (s : State) : State :=
  let s := setTag { t with status := some status, holding := false } s
  { s with host := { s.host with ended := s.host.ended ++ [t.tag] } }

/-- A read of host memory fails (R393). -/
def readError (t : DmaTag) (s : State) : State := halt t.chan t.slot 2 (bump 0x8000 8 (finish t 2 s))

/-- Push words, the last with a close where CLOSE is 1 (R390). -/
def pushWords : Nat → DmaTag → List Byte → State → State
  | 0, t, _, s => setTag t s
  | fuel + 1, t, d, s =>
    if t.done = t.desc.len then finish t 0 s
    else if d.length < 8 then setTag t s
    else
      let q := t.desc.target % 4096
      let close := bit t.desc.flags 0 && t.done + 8 == t.desc.len
      let req : QReq :=
        { op := if close then .pushClose else .push, queue := BitVec.ofNat 12 q, data := BitVec.ofNat 64 (le (d.take 8)) }
      match Queues.operate (0xC00 + t.chan) req Queues.sound s with
      | (some x, s) =>
        if x.refused then Queues.wakeConsumer q (finish { t with reason := x.data.toNat } 1 s)
        else pushWords fuel { t with done := t.done + 8 } (d.drop 8) (Queues.wakeConsumer q s)
      | (none, s) => setTag t s

/-- Bytes of host memory reach a descriptor of OP 0x01 (R390, R393). -/
def toQueue (tag : Nat) (data : Option (List Byte)) (s : State) : State :=
  match active s tag 1 with
  | none => s
  | some t =>
    if modeIn s [.m6] then s
    else if !modeIn s [.m5] then finish t 4 s
    else
      match data with
      | none => readError t s
      | some d => pushWords (t.desc.len / 8 + 1) t d s

/-- The flags that a delivered word gives a record (R390, R391): SOP of the first word, EOP of the last. -/
def wordFlags (t : DmaTag) (x : QResp) : Nat :=
  let b (v : Bool) (i : Nat) : Nat := if v then 2 ^ i else 0
  t.flags ||| (b (x.sop && t.done == 0) 0 + b x.eop 1 + b x.poison 2 + b x.flushed 3 + b x.valid 4)

/-- Pop words until one with EOP, until LEN bytes, or until a pop is held (R390, R214). -/
def popWords : Nat → DmaTag → PoolFault → State → State
  | 0, t, _, s => setTag t s
  | fuel + 1, t, f, s =>
    let q := t.desc.target % 4096
    match Queues.operate (0xC00 + t.chan) { op := .pop, queue := BitVec.ofNat 12 q, data := 0 } f s with
    | (none, s) => setTag { t with holding := true } s
    | (some x, s) =>
      if x.refused then finish { t with reason := x.data.toNat } 1 s
      else if !x.valid then
        if bit t.desc.flags 1 then setTag { t with holding := true } s else finish t 0 s
      else
        let s := emit (.hostWrite (t.desc.host + t.done) (bytes 8 x.data.toNat)) s
        let t := { t with done := t.done + 8, flags := wordFlags t x, holding := false }
        if x.eop || t.done == t.desc.len then finish t 0 s else popWords fuel t Queues.sound s

/-- A descriptor of OP 0x02 pops (R390, R393). -/
def fromQueue (tag : Nat) (f : PoolFault) (s : State) : State :=
  match active s tag 2 with
  | none => s
  | some t =>
    if modeIn s [.m6] then s
    else if !modeIn s [.m5] then finish t 4 s
    else popWords (t.desc.len / 8 + 1) t f s

/-- Write bank words through the maintenance requester (R184 to R186, R390). -/
def bankWords : Nat → DmaTag → List Byte → State → State
  | 0, t, _, s => setTag t s
  | fuel + 1, t, d, s =>
    if t.done = t.desc.len then finish t 0 s
    else if d.length < 8 then setTag t s
    else
      let off := t.desc.target + t.done
      let n := off / 65536
      if refuses s n then finish t 6 (refuse raise n s)
      else if !Banks.entered (Banks.turn n s) n then setTag t (wakeBank n true (Banks.turn n s))
      else
        let s := Banks.turn n s
        let req : BankReq := { op := 1, addr := BitVec.ofNat 13 (off / 8), data := BitVec.ofNat 64 (le (d.take 8)) }
        bankWords fuel { t with done := t.done + 8 } (d.drop 8) (bankAccess raise n req 0 s).1

/-- Bytes of host memory reach a descriptor of OP 0x03 (R390, R393). -/
def toBank (tag : Nat) (data : Option (List Byte)) (s : State) : State :=
  match active s tag 3 with
  | none => s
  | some t =>
    if modeIn s [.m6] then s
    else if !modeIn s [.m5, .m7] then finish t 4 s
    else
      match data with
      | none => readError t s
      | some d => bankWords (t.desc.len / 8 + 1) t d s

/-- Read bank words through the maintenance requester (R184 to R186, R390). -/
def readWords : Nat → DmaTag → State → State
  | 0, t, s => setTag t s
  | fuel + 1, t, s =>
    if t.done = t.desc.len then finish t 0 s
    else
      let off := t.desc.target + t.done
      let n := off / 65536
      if refuses s n then finish t 6 (refuse raise n s)
      else if !Banks.entered (Banks.turn n s) n then setTag t (wakeBank n true (Banks.turn n s))
      else
        let s := Banks.turn n s
        let p := bankAccess raise n { op := 0, addr := BitVec.ofNat 13 (off / 8), data := 0 } 0 s
        let s := emit (.hostWrite (t.desc.host + t.done) (bytes 8 p.2.data.toNat)) p.1
        let fl := t.flags ||| ((if p.2.bad then 4 else 0) + if p.2.corrected then 32 else 0)
        readWords fuel { t with done := t.done + 8, flags := fl } s

/-- A descriptor of OP 0x04 reads (R390, R393). -/
def fromBank (tag : Nat) (s : State) : State :=
  match active s tag 4 with
  | none => s
  | some t =>
    if modeIn s [.m6] then s
    else if !modeIn s [.m5, .m7] then finish t 4 s
    else readWords (t.desc.len / 8 + 1) t s

/-- Bytes of host memory reach a descriptor of OP 0x05, which passes them to the stream aperture (R390). -/
def toStream (tag : Nat) (data : Option (List Byte)) (s : State) : State :=
  match active s tag 5 with
  | none => s
  | some t =>
    if modeIn s [.m6] then s
    else
    match data with
    | none => readError t s
    | some d =>
      let d := d.take (t.desc.len - t.done)
      let s := d.foldl (fun s b => Loader.arrive .aperture b s) s
      let t := { t with done := t.done + d.length }
      if t.done = t.desc.len then finish t 0 s else setTag t s

/-- The bytes of a completion record (R391). -/
def recordBytes (t : DmaTag) (status : Nat) (phase : Bool) : List Byte :=
  bytes 2 t.desc.cookie ++ bytes 1 t.tag ++ bytes 1 status ++ bytes 4 t.done ++
    bytes 1 (t.flags + if phase then 128 else 0) ++ bytes 1 t.reason ++ bytes 2 t.slot ++ bytes 4 0

/-- A descriptor of the tag's channel that ended before it still waits for its record (R391). -/
def behind (s : State) (t : DmaTag) : Bool :=
  (s.host.ended.takeWhile fun u => u != t.tag).any fun u => (tagsOf s t.chan).any fun y => y.tag == u

/-- A descriptor that has ended writes its record and frees its tag, unless the completion ring is full. Records are written in the
order in which descriptors end (R389, R391, R392). -/
def complete (tag : Nat) (s : State) : State :=
  match s.host.tags.find? fun t => t.tag == tag with
  | none => s
  | some t =>
    match t.status with
    | none => s
    | some status =>
      let c := t.chan
      let x := chan s c
      let n := ringSize s c
      if !up s || modeIn s [.m6] || behind s t || (x.cqTail + 1) % n = x.cqHead then s
      else
        let s := emit (.hostWrite (reg s (0x8100 + c) 3 + 16 * x.cqTail) (recordBytes t status x.phase)) s
        let s := setChan c { x with
          cqTail := (x.cqTail + 1) % n, phase := if x.cqTail + 1 = n then !x.phase else x.phase } s
        let s := add (0x8100 + c) 7 64 t.done (bump (0x8100 + c) 6 s)
        let s := { s with host := { s.host with
            tags := s.host.tags.filter fun y => y.tag != tag, ended := s.host.ended.erase tag
            short := s.host.short || (freeTag s).isNone } }
        let s := if bit t.desc.flags 2 then deliverMsix raise ((tableOf (owner s c)).1 + vector s c) s else s
        drained c s

/-- Channels are abandoned (R395): their descriptors end without a record, held pops stay held at the queue manager, and
each channel returns to its default. -/
def abandon (p : Nat → Bool) (s : State) : State :=
  let held := s.host.tags.filterMap fun t =>
    if p t.chan && t.holding && t.status.isNone then some (t.chan, t.desc.target % 4096) else none
  let s := { s with host := { s.host with
      tags := s.host.tags.filter fun t => !p t.chan
      ended := s.host.ended.filter fun u => !s.host.tags.any fun t => t.tag == u && p t.chan
      orphans := s.host.orphans ++ held
      chans := Table.clear p s.host.chans } }
  { s with regs := Table.clear (fun k =>
      decide (256 * 0x8100 ≤ k) && decide (k < 256 * 0x8120) && p (k / 256 - 0x8100)) s.regs }

/-! ### Resets and the link -/

/-- The mailbox loses its STATUS and its reply area; the reply of a request already captured is discarded (R416). -/
def resetMailbox (s : State) : State :=
  { s with mailbox := { s.mailbox with
      busy := false, overrun := false, lastSeq := 0, replyArea := [], dropReply := s.mailbox.request.isSome } }

/-- A function-level reset (R395, R400, R503). One of PF1 acts on every VF. -/
def flr (f : Fn) (s : State) : State :=
  match f with
  | .pf0 => raise 403 (resetFns (· == 0) (resetVectors 0 64 (resetMailbox (abandon (fun c => owner s c == 0) s))))
  | .pf1 =>
    let s := resetFns (· != 0) (resetVectors 64 1984 (abandon (fun c => owner s c != 0) s))
    raise 403 { s with events := { s.events with numVfs := 0 } }
  | .vf v =>
    if !present s f then s
    else raise 404 (resetFns (· == 2 + v.val) (resetVectors (1024 + 16 * v) 16 (abandon (fun c => owner s c == 2 + v) s)))

/-- The link's state, rate or width changes (R397, R400). -/
def linkChange (v : BitVec 13) (s : State) : State :=
  let power (v : BitVec 13) : Bool := decide (2 ≤ v.toNat / 512 % 8) && decide (v.toNat / 512 % 8 ≤ 4)
  let old := s.host.link
  if v = old then s
  else
    let s := { s with host := { s.host with link := v } }
    let reset := if Bridges.linkDown s then s.host.reset.orElse fun _ => some .linkDown else none
    let s := raise 400 (Bridges.follow { s with host := { s.host with reset := reset } })
    if power v != power old then raise 407 s else s

/-- Which of the three a HOST_LINK_RESET is: the command does not say, and the value is free (log entry 95). -/
def resetKind (s : State) : LinkReset :=
  match Config.linkReset s.fresh with
  | 0 => .perst
  | 1 => .hot
  | _ => .linkDown

/-- PERST#, a hot reset or a link-down reset (R379, R395, R416, R503), in progress until the link is up again (R314). -/
def linkReset (kind : LinkReset) (s : State) : State :=
  let s := resetFns (fun _ => true) (resetVectors 0 2048 (resetMailbox (abandon (fun _ => true) s)))
  let s := { s with events := { s.events with numVfs := 0 } }
  let s := Bridges.follow { s with host := { s.host with reset := some kind } }
  linkChange 0x0A00 (raise 403 s)

/-- In M6 the endpoint requests L1 under ASPM, which the host has enabled for PF0 and PF1 or the link stays in L0 (R396). -/
def requestL1 (s : State) : State :=
  if (fnConfig s 0).aspmL1 && (fnConfig s 1).aspmL1 && s.host.link.toNat / 512 % 8 ≤ 1 then
    linkChange (s.host.link &&& 0x11FF ||| 0x400) s
  else s

/-- An AER error (R400). -/
def aer (correctable : Bool) (s : State) : State := raise (if correctable then 401 else 402) s

/-- Entry to M1: every channel returns to its default (R395). -/
def onM1 (s : State) : State := { (abandon (fun _ => true) s) with host := { s.host with
  tags := [], ended := [], short := false, chans := [], orphans := [] } }

/-! ### Objects -/

/-- The code of a channel's state. -/
def stateCode : DmaState → Nat
  | .disabled => 0 | .running => 1 | .halted => 2 | .draining => 3

/-- What a read of a host-link object returns where the stored value is not it. -/
def readSub (s : State) (index sub : Nat) : Option Nat :=
  if index = 0x8000 then
    match sub with
    | 1 => some s.host.link.toNat
    | 2 => some Config.vendorId.toNat
    | 5 => some s.host.tags.length
    | _ => none
  else if 0x8100 ≤ index ∧ index < 0x8120 then
    match sub with
    | 4 => some (stateCode (chan s (index - 0x8100)).state)
    | 5 => some (chan s (index - 0x8100)).halt
    | _ => none
  else none

/-- The bytes of 0x8200.01. -/
def ownerBytes (s : State) : List Byte := (List.range 512).map fun r => BitVec.ofNat 8 (portOwner s r)

/-- A write of a host-link sub (R397 to R399). -/
def writeSub (index sub : Nat) (d : List Byte) (s : State) : Option (Nat ⊕ State) :=
  let v := le d
  if index = 0x8000 then
    match sub with
    | 3 => if v < 1 ∨ 7 < v then some (.inl 4) else none
    | 4 => if [1, 2, 4, 8, 16].contains v then none else some (.inl 4)
    | _ => none
  else if 0x8100 ≤ index ∧ index < 0x8120 then
    let c := index - 0x8100
    match sub with
    | 1 => some (writeControl c v s)
    | 2 | 3 =>
      if v % 4096 ≠ 0 then some (.inl 4)
      else if (chan s c).state ≠ .disabled then some (.inl 5)
      else none
    | _ => none
  else if index = 0x8200 then
    let ok := d.length = 512 ∧ d.all fun b => decide (1 ≤ b.toNat) && decide (b.toNat ≤ 65)
    if ok then
      some (.inr { s with host := { s.host with owners :=
        (d.mapIdx fun r b => (r, b.toNat)).filter fun e => e.2 != 1 } })
    else some (.inl 4)
  else none

end Sys2Proof.Machine.HostLink
end

