-- ==== Sys2Proof/Machine/Line.lean ====
section
/-!
DEFINITION. What a lane's line carries: scrambling, FEC, test patterns and the frame check sequence (R140, R335 to R337, R341,
R355, R359).
-/

namespace Sys2Proof.Machine.Line

/-- 1 for a set bit. -/
def one (b : Bool) : Nat := if b then 1 else 0

/-! ### The scrambler (R336) -/

/-- The register after a line bit: the latest is bit 0. -/
def shift (r : BitVec 58) (b : Bool) : BitVec 58 := (r <<< 1) ||| if b then 1 else 0

/-- What the scrambler 1 + x^39 + x^58 adds to the next bit. -/
def mask (r : BitVec 58) : Bool := r.getLsbD 38 ^^ r.getLsbD 57

/-- The low `k` bits of `v`, the lowest first, as the line carries them, and the register after them. -/
def scramble : Nat → BitVec 58 → Nat → Nat × BitVec 58
  | 0, r, _ => (0, r)
  | k + 1, r, v =>
    let b := v.testBit 0 ^^ mask r
    let p := scramble k (shift r b) (v / 2)
    (2 * p.1 + one b, p.2)

/-- The low `k` bits of `v`, received, as they were before scrambling. -/
def descramble : Nat → BitVec 58 → Nat → Nat × BitVec 58
  | 0, r, _ => (0, r)
  | k + 1, r, v =>
    let b := v.testBit 0
    let p := descramble k (shift r b) (v / 2)
    (2 * p.1 + one (b ^^ mask r), p.2)

/-- The payloads of blocks go through `f`; their headers do not. -/
def payloads (f : Nat → BitVec 58 → Nat → Nat × BitVec 58) :
    List (BitVec 2 × W64) → BitVec 58 → List (BitVec 2 × W64) × BitVec 58
  | [], r => ([], r)
  | b :: rest, r =>
    let p := f 64 r b.2.toNat
    let q := payloads f rest p.2
    ((b.1, BitVec.ofNat 64 p.1) :: q.1, q.2)

/-! ### FEC (R337)

PRESUMED: what the rule takes from IEEE 802.3 by name is as that standard gives it (log entry 89). -/

/-- Four blocks in 257 bits, the first bit lowest (256b/257b). A group with a control block has a flag for each block, 1 for data,
and leaves out bits 7 to 4 of its first control block. -/
def transcode (l : List (BitVec 2 × W64)) : Nat :=
  let data (b : BitVec 2 × W64) : Bool := b.1 == 0b10
  if l.all data then 1 + 2 * l.foldr (fun b n => b.2.toNat + 2 ^ 64 * n) 0
  else
    let flags := l.foldr (fun b n => one (data b) + 2 * n) 0
    let first := l.findIdx fun b => !data b
    let body := (l.mapIdx fun i b =>
      if i = first then (b.2.toNat % 16 + b.2.toNat / 256 * 16, 60) else (b.2.toNat, 64)).foldr (fun e n => e.1 + 2 ^ e.2 * n) 0
    2 * (flags + 16 * body)

/-- A product of two symbols, of 10 bits, modulo x^10 + x^3 + 1. -/
def times : Nat → Nat → Nat → Nat
  | 0, _, _ => 0
  | k + 1, a, b => (if b % 2 = 1 then a else 0) ^^^ times k (if 512 ≤ a then (2 * a) ^^^ 1033 else 2 * a) (b / 2)

/-- The generator's coefficients below x^30, the highest first: the product of x - α^j for j from 0 to 29. -/
def generator : List Nat :=
  ((List.range 30).foldl (fun (g, a) _ =>
    (List.zipWith (fun x y => x ^^^ times 10 a y) (g ++ [0]) (0 :: g), times 10 2 a)) ([1], 1)).1.drop 1

/-- The 30 parity symbols of 514 symbols. -/
def parity (message : List Nat) : List Nat :=
  message.foldl (fun p m =>
    let f := m ^^^ p.headD 0
    List.zipWith (fun x g => x ^^^ times 10 f g) (p.drop 1 ++ [0]) generator) (List.replicate 30 0)

/-- `k` symbols of a row of bits, the first bit lowest. -/
def symbols (k v : Nat) : List Nat := (List.range k).map fun i => v / 2 ^ (10 * i) % 1024

/-- The codeword RS(544,514) of twenty 257-bit blocks. -/
def codeword (l : List (BitVec 257)) : List (BitVec 10) :=
  let m := symbols 514 (l.foldr (fun b n => b.toNat + 2 ^ 257 * n) 0)
  (m ++ parity m).map (BitVec.ofNat 10)

/-- How many symbols in error a codeword is corrected from: 7 of RS(528,514), 15 of RS(544,514) (R337, R367). -/
def correctable (short : Bool) : Nat := if short then 7 else 15

/-! ### Test patterns (R359) -/

/-- The taps of a pattern: PRBS7, PRBS15 or PRBS31. -/
def taps (p : Nat) : Nat × Nat := if p = 1 then (7, 6) else if p = 2 then (15, 14) else (31, 28)

/-- The bit that follows a register's last bits, the latest being bit 0. -/
def following (p : Nat) (r : BitVec 31) : Bool := r.getLsbD ((taps p).1 - 1) ^^ r.getLsbD ((taps p).2 - 1)

/-- The register after a bit. -/
def push (r : BitVec 31) (b : Bool) : BitVec 31 := (r <<< 1) ||| if b then 1 else 0

/-- `k` more bits of a pattern, the first lowest, and the register. -/
def bits (p : Nat) : Nat → BitVec 31 → Nat × BitVec 31
  | 0, r => (0, r)
  | k + 1, r =>
    let b := following p r
    let q := bits p k (push r b)
    (2 * q.1 + one b, q.2)

/-- `k` data blocks whose payloads PRBS31 runs through, bit 0 first (R335, R349), and the register. -/
def dataBlocks : Nat → BitVec 31 → List (BitVec 2 × W64) × BitVec 31
  | 0, r => ([], r)
  | k + 1, r =>
    let p := bits 3 64 r
    let q := dataBlocks k p.2
    ((0b10#2, BitVec.ofNat 64 p.1) :: q.1, q.2)

/-- `k` times 66 raw bits of a pattern, as the bits of blocks, and the register. -/
def raw (p : Nat) : Nat → BitVec 31 → List (BitVec 2 × W64) × BitVec 31
  | 0, r => ([], r)
  | k + 1, r =>
    let b := bits p 66 r
    let q := raw p k b.2
    ((BitVec.ofNat 2 b.1, BitVec.ofNat 64 (b.1 / 4)) :: q.1, q.2)

/-- The checker takes a bit, and whether it counts an error. Unlocked, it follows the received bits; locked, its own (log
entry 90). -/
def check (p : Nat) (c : Checker) (b : Bool) : Checker × Bool :=
  let want := following p c.reg
  if c.locked then
    let wrong := b != want
    let e := c.errors + one wrong
    if 1000 ≤ e then ({}, wrong)
    else if c.seen = 4095 then ({ c with reg := push c.reg want, seen := 0, errors := 0 }, wrong)
    else ({ c with reg := push c.reg want, seen := c.seen + 1, errors := e }, wrong)
  else if c.seen < (taps p).1 then ({ c with reg := push c.reg b, seen := c.seen + 1 }, false)
  else if b != want then ({ c with reg := push c.reg b, run := 0 }, false)
  else if c.run = 63 then ({ reg := push c.reg b, locked := true }, false)
  else ({ c with reg := push c.reg b, run := c.run + 1 }, false)

/-- The checker takes the low `k` bits of `v`, the lowest first, and how many errors it counts. -/
def checkBits (p : Nat) : Nat → Nat → Checker → Checker × Nat
  | 0, _, c => (c, 0)
  | k + 1, v, c =>
    let x := check p c (v.testBit 0)
    let y := checkBits p k (v / 2) x.1
    (y.1, y.2 + one x.2)

/-- The bits of a block in the order of the line (R335). -/
def lineBits (b : BitVec 2 × W64) : Nat := b.1.toNat + 4 * b.2.toNat

/-- The checker takes blocks. -/
def checkBlocks (p : Nat) (l : List (BitVec 2 × W64)) (c : Checker) : Checker × Nat :=
  l.foldl (fun (c, n) b => let x := checkBits p 66 (lineBits b) c; (x.1, n + x.2)) (c, 0)

/-! ### One-step timestamps (R140) -/

/-- The frame check sequence's register after a byte of a difference. -/
def crcByte (c : Nat) (b : Byte) : Nat :=
  (List.range 8).foldl (fun c _ => if c % 2 = 1 then (c / 2) ^^^ 0xEDB88320 else c / 2) (c ^^^ b.toNat)

/-- A byte of the frame goes out. The last four bytes so far may be the frame check sequence, which does not cover itself. -/
def frameByte (f : OneStep) (b : Byte) : OneStep × Byte :=
  let w : OneStep × Byte := match f.skip, f.left with
    | 0, t :: rest => ({ f with left := rest }, t)
    | k + 1, _ => ({ f with skip := k }, b)
    | 0, [] => (f, b)
  let lag := f.lag ++ [w.2 ^^^ b]
  if lag.length ≤ 4 then ({ w.1 with lag := lag }, w.2)
  else ({ w.1 with lag := lag.drop 1, crc := crcByte f.crc (lag.headD 0) }, w.2)

/-- The low bytes of a payload from byte `i` on go out. -/
def frameBytes : Nat → Nat → OneStep → Nat → OneStep × Nat
  | 0, _, f, v => (f, v)
  | k + 1, i, f, v =>
    let b := BitVec.ofNat 8 (v / 2 ^ (8 * i))
    let x := frameByte f b
    frameBytes k (i + 1) x.1 (v ^^^ ((x.2 ^^^ b).toNat * 2 ^ (8 * i)))

/-- How many bytes of the frame a terminate block carries. -/
def tail (ty : Nat) : Option Nat := [0x87, 0x99, 0xAA, 0xB4, 0xCC, 0xD2, 0xE1, 0xFF].findIdx? fun t => t == ty

/-- The frame goes on through blocks, after those in `done`: what is left of it, and all the blocks. Its check sequence, the last four
bytes before the terminate, is corrected by what the change of the bytes before them makes of it. -/
def rewrite (f : OneStep) : List (BitVec 2 × W64) → List (BitVec 2 × W64) → Option OneStep × List (BitVec 2 × W64)
  | done, [] => (some f, done)
  | done, b :: rest =>
    if b.1 = 0b10 then
      let x := frameBytes 8 0 f b.2.toNat
      rewrite x.1 (done ++ [(b.1, BitVec.ofNat 64 x.2)]) rest
    else
      match tail (b.2.toNat % 256) with
      | none => (none, done ++ b :: rest)
      | some d =>
        let x := frameBytes d 1 f b.2.toNat
        let here := min d 4
        let before := x.1.crc % 2 ^ (8 * (4 - here)) * 2 ^ (8 * (4 + here))
        let last : W64 := BitVec.ofNat 64 (x.2 ^^^ (x.1.crc / 2 ^ (8 * (4 - here)) * 2 ^ (8 * (1 + d - here))))
        let done := match done.getLast? with
          | some y => done.dropLast ++ [(y.1, y.2 ^^^ BitVec.ofNat 64 before)]
          | none => done
        (none, done ++ (b.1, last) :: rest)

end Sys2Proof.Machine.Line
end

