-- ==== Sys2Proof/Machine/Lanes.lean ====
section
/-!
DEFINITION. Streller lanes, bonds, Ethernet ports and time messages (R164, R332 to R375).
-/

namespace Sys2Proof.Machine.Lanes

open Sys2Proof.Machine.Ops

/-- A lane. -/
def lane (s : State) (n : Nat) : Lane := Table.get (fun _ => {}) s.lanes n

/-- Store a lane. -/
def setLane (n : Nat) (x : Lane) (s : State) : State := { s with lanes := Table.put (fun _ => {}) s.lanes n x }

/-- A bond. -/
def bond (s : State) (b : Nat) : Bond := Table.get (fun _ => {}) s.bonds b

/-- Store a bond. -/
def setBond (b : Nat) (x : Bond) (s : State) : State := { s with bonds := Table.put (fun _ => {}) s.bonds b x }

/-- The control word of a lane and its fields (R372). -/
def control (s : State) (n : Nat) : Nat := reg s (0x7100 + n) 1
def enabled (s : State) (n : Nat) : Bool := bit (control s n) 31
def lp (s : State) (n : Nat) : Nat := control s n / 2 ^ 27 % 4
def maxRate (s : State) (n : Nat) : Nat := control s n / 2 ^ 24 % 8
def fecReq (s : State) (n : Nat) : Bool := bit (control s n) 23
def loopOf (s : State) (n : Nat) : Nat := control s n / 2 ^ 21 % 4
def pattern (s : State) (n : Nat) : Nat := control s n / 2 ^ 19 % 4
def txIdle (s : State) (n : Nat) : Bool := bit (control s n) 18

/-- The lane has been retired (R354, R485). -/
def retired (s : State) (n : Nat) : Bool := s.sup.retiredLanes.getLsbD n

/-- The cap in effect: the lower of MAXRATE and the failure cap (R347, R371). -/
def cap (s : State) (n : Nat) : Nat := min (maxRate s n) (lane s n).cap

/-! ### Causes and events (R374) -/

/-- The bits of a half of the causes: half 0 is [7:0], half 1 is [15:8]. -/
def halfMask (h : Nat) : Nat := if h = 0 then 0xFF else 0xFF00

/-- The source of a half follows its causes: raised by an enabled cause, re-armed when none is pending. -/
def trackHalf (n h : Nat) (s : State) : State :=
  let p := reg s (0x7100 + n) 0x10 &&& halfMask h
  if p &&& reg s (0x7100 + n) 0x11 ≠ 0 then track (2 * n + h) true s
  else if p = 0 then track (2 * n + h) false s else s

/-- A lane gains a cause. -/
def cause (n b : Nat) (s : State) : State :=
  trackHalf n (b / 8) (setReg (0x7100 + n) 0x10 (setBit (reg s (0x7100 + n) 0x10) b) s)

/-! ### Bonds: members and live sets (R363 to R366) -/

/-- The configured members of a bond, in ascending order. -/
def members (s : State) (b : Nat) : List Nat :=
  (List.range 64).filter fun n => bit (reg s (0x7200 + b) 1) n

/-- The bond of a lane. -/
def bondOf (s : State) (n : Nat) : Option Nat := (List.range 16).find? fun b => bit (reg s (0x7200 + b) 1) n

/-- The positions of a mask. -/
def positions (m : Nat) : List Nat := (List.range 16).filter fun i => bit m i

/-- The bond is up: at least MINW members are live (R365). -/
def bondUp (s : State) (b : Nat) : Bool :=
  let l := (positions (bond s b).txLive).length
  decide (0 < l) && decide (reg s (0x7200 + b) 2 ≤ l)

/-- A Bond block waits on every member in T7. -/
def queueBond (b : Nat) (blk : LinkBlock) (s : State) : State :=
  (members s b).foldl (fun s n =>
    let x := lane s n
    if x.st = .t7 then setLane n { x with queue := x.queue ++ [blk] } s else s) s

/-- A change of a live set, or between up and down, sets the BOND cause on the lowest member (R365). -/
def bondCause (b : Nat) (s : State) : State :=
  match members s b with
  | n :: _ => cause n 14 s
  | [] => s

/-- The transmit live set becomes `m`. -/
def applyTx (b m : Nat) (s : State) : State :=
  let x := bond s b
  let s := setBond b { x with txLive := m, txSwitch := none } s
  if x.txLive = m then s else bondCause b (bump (0x7200 + b) 7 s)

/-- The live set that the receiver applies becomes `m`. -/
def applyRx (b m : Nat) (s : State) : State :=
  let x := bond s b
  let s := setBond b { x with rxLive := m, rxSwitch := none } s
  if x.rxLive = m then s else bondCause b (bump (0x7200 + b) 7 s)

/-- The members that a test picks, as a mask of positions. -/
def maskOf (s : State) (b : Nat) (p : Lane → Bool) : Nat :=
  ((members s b).mapIdx fun i n => if p (lane s n) then 2 ^ i else 0).sum

/-- The members whose receivers are in T7: the receive live mask (R365). -/
def upMask (s : State) (b : Nat) : Nat := maskOf s b fun x => x.st == .t7

/-- The rate and FEC of the live set. While it is empty, the first member to reach T7 sets them (R365). -/
def liveRate (s : State) (b : Nat) : Option (Nat × Bool) :=
  let x := bond s b
  let up := (members s b).filter fun n => (lane s n).st == .t7
  let keep := x.txLive != 0 || x.txSwitch.isSome || up.any fun n => x.rate == some ((lane s n).rate, (lane s n).fec)
  if keep then x.rate else up.head?.map fun n => ((lane s n).rate, (lane s n).fec)

/-- The members that may be live at this end: those in T7 at the live set's rate and FEC. -/
def fitMask (s : State) (b : Nat) : Nat :=
  maskOf s b fun x => x.st == .t7 && liveRate s b == some (x.rate, x.fec)

/-- After a change of a member, or of the partner's receive live mask: a Bond block tells the partner, and a new transmit
live set is switched to at its next BSEQ plus 256, or at once while the bond is down (R365). -/
def updateBond (b : Nat) (s : State) : State :=
  let m := upMask s b
  let x := bond s b
  let want := fitMask s b &&& x.partnerRx
  let now := (x.txSwitch.map (·.2)).getD x.txLive
  let s := setBond b { x with rxMask := m, rate := liveRate s b } s
  if want = now then
    if m = x.rxMask then s else queueBond b (.bond (x.txNext % 65536) x.txLive m) s
  else if bondUp s b then
    let k := x.txNext + 256
    queueBond b (.bond (k % 65536) want m) (setBond b { bond s b with txSwitch := some (k, want) } s)
  else queueBond b (.bond (x.txNext % 65536) want m) (applyTx b want s)

/-! ### Ethernet ports (R367 to R370) -/

/-- The lanes of a port code, and its rate. -/
def portWidth (c : Nat) : Nat := [0, 4, 2, 1, 4, 2, 1, 8, 4, 2, 8, 4].getD c 0
def portRate (c : Nat) : Nat := [0, 1, 2, 3, 2, 3, 4, 2, 3, 4, 3, 4].getD c 0

/-- The code of the port that starts at lane n. -/
def portCode (s : State) (n : Nat) : Nat := reg s (0x7300 + n / 8) 1 / 16 ^ (n % 8) % 16

/-- The first lane of the port that covers lane n. -/
def portOf (s : State) (n : Nat) : Option Nat :=
  (List.range 8).findSome? fun p =>
    let f := 8 * (n / 8) + p
    if f ≤ n ∧ n < f + portWidth (portCode s f) then some f else none

/-- The lanes of the port that starts at lane f. -/
def portLanes (s : State) (f : Nat) : List Nat := (List.range (portWidth (portCode s f))).map fun i => f + i

/-- The port runs: every one of its lanes has ENABLE 1, is not retired and is not in the test state (R369, R370). -/
def portRuns (s : State) (f : Nat) : Bool :=
  (portLanes s f).all fun n => enabled s n && !retired s n && (lane s n).st != .test

/-- An Ethernet port's transfer counters. -/
def ethPort (s : State) (f : Nat) : EthPort := Table.get (fun _ => {}) s.ethPorts f

/-- Store them. -/
def setEthPort (f : Nat) (x : EthPort) (s : State) : State :=
  { s with ethPorts := Table.put (fun _ => {}) s.ethPorts f x }

/-! ### Changes of state -/

/-- In service: T7, or a low-power state entered from it. -/
def inService (st : LaneSt) : Bool := st == .t7 || st == .lp1 || st == .lp2

/-- Where a pattern starts: its phase is open (log entry 23), but it is not the register of zeros, which no bit of the pattern
follows. -/
def prbsSeed (p : Nat) (s : State) : BitVec 31 :=
  let v := (Config.freeWord s.fresh).toNat % 2 ^ (Line.taps p).1
  if v = 0 then 1 else BitVec.ofNat 31 v

/-- What the change into a state makes of a lane's own fields (R336, R347, R352, R354 to R357, R362, R371). -/
def entered (n : Nat) (st : LaneSt) (s : State) : Lane :=
  let old := lane s n
  let held := inService st && st != .lp2 && inService old.st && old.st != .lp2
  { old with
    st := st, changed := time80Nat s.time.sec s.time.ns, run := 0
    absent := if old.st = .t0 then false else old.absent
    locked := if st = .t2 then false else old.locked
    marked := if st = .t2 then false else old.marked
    fromLoss := st == .t2 && old.st == .t7
    validRun := if st = .t2 then 0 else old.validRun
    invalid := if st = .t2 then [] else old.invalid
    goodWords := if st = .t2 then 0 else old.goodWords
    badWords := if st = .t2 then 0 else old.badWords
    offer := if st = .t3 then cap s n else old.offer
    offerFec := if st = .t3 then fecReq s n else old.offerFec
    refDue := if st = .t0 then false else old.refDue || st == .t2 && old.st == .lp2
    measured := if st = .t2 ∨ st = .t6 then none else old.measured
    low := 0, retraining := false, idle := 0, slow := false
    queue := if st = .t7 then (if lp s n = 0 then [] else [.lowPower (lp s n)]) else []
    bseq := if held then old.bseq else none
    partnerLp := if st = .t0 ∨ st = .off then 0 else old.partnerLp
    fecLine := match st with | .off | .retired | .lp1 | .lp2 => [] | _ => old.fecLine
    ackSent := false, ackSeen := false, sent := 0, converged := false, ownPass := none, partnerPass := none
    prbs := if st = .t6 then prbsSeed 3 s else old.prbs }

/-- The margin measured in the T6 or the retrain that has just ended is the reference. Where no sample was taken in it, what it
measured is open (R357; log entry 53). -/
def setReference (n : Nat) (s : State) : State :=
  let x := lane s n
  match x.measured with
  | some m => setLane n { x with reference := m, refDue := false, measured := none } s
  | none => tickFresh (setLane n { x with reference := (Config.freeWord s.fresh).toNat % 65536, refDue := false } s)

/-- What the change into a state sets: the lane's fields, the causes, the counters, the domains that hang on it, and what its bond
makes of it (R314, R352, R355, R362, R365, R371, R374). -/
def enter (n : Nat) (st : LaneSt) (s : State) : State :=
  let old := lane s n
  if old.st = st then s
  else
    let s := setLane n (entered n st s) s
    let s := if st = .t6 then tickFresh s else s
    let s := if st = .t7 then
        let s := cause n 0 (bump (0x7100 + n) 0x0F (if old.refDue then setReference n s else s))
        if old.st = .lp1 then cause n 4 s else s
      else s
    let s := if old.st = .t7 && st != .lp1 && st != .lp2 then cause n 1 s else s
    let s := if st = .lp1 ∨ st = .lp2 ∨ old.st = .lp2 ∨ (old.st = .lp1 ∧ st ≠ .t7) then cause n 4 s else s
    let s := if old.st = .t7 && reg s 0x3000 8 = 2 && reg s 0x3003 1 = n then Time.holdover 2 396 s else s
    let s := Bridges.follow s
    match bondOf s n with
    | some b => updateBond b s
    | none => s

/-- The rate and FEC in use change. A codeword that is not full yet is cut off (log entry 89). -/
def setRate (n r : Nat) (fec : Bool) (s : State) : State :=
  setLane n { lane s n with rate := r, fec := fec, fecLine := [] } s

/-- Every other lane of an Ethernet port goes back to T0: the port is down (R369). -/
def portDown (n : Nat) (s : State) : State :=
  match portOf s n with
  | none => s
  | some f => (portLanes s f).foldl (fun s m => if m ≠ n ∧ (lane s m).st ≠ .off ∧ (lane s m).st ≠ .retired ∧
      (lane s m).st ≠ .test then enter m .t0 s else s) s

/-- The lanes of a port start together once every one of them runs (R369, R370). -/
def portStart (f : Nat) (s : State) : State :=
  if portRuns s f then
    setEthPort f {} ((portLanes s f).foldl (fun s n =>
      if (lane s n).st = .t0 then enter n .t1 (setRate n (portRate (portCode s f)) true s) else s) s)
  else s

/-- A lane goes to T0 (R353, R354, R369). -/
def toT0 (n : Nat) (s : State) : State :=
  match portOf s n with
  | some f => portStart f (enter n .t0 s)
  | none => enter n .t0 (setRate n 0 false s)

/-- A lane goes into the test state, or stays there with other loops or patterns, at MAXRATE and with FEC off (R358 to
R360). -/
def toTest (n : Nat) (s : State) : State :=
  let s := portDown n (enter n .test (setRate n (maxRate s n) false s))
  tickFresh (setLane n { lane s n with checker := {}, prbs := prbsSeed (pattern s n) s } s)

/-- LOOP or PATTERN asks for the test state (R358, R360). -/
def wantsTest (s : State) (n : Nat) : Bool := loopOf s n != 0 || pattern s n != 0

/-- A lane that is enabled starts (R353, R358, R369). -/
def begin (n : Nat) (s : State) : State :=
  let s := if (lane s n).restart then setLane n { lane s n with restart := false } s else s
  if !modeIn s [.m5] || retired s n || s.sup.phyOut then s
  else if !enabled s n then s
  else if wantsTest s n then toTest n s
  else toT0 n s

/-- A lane goes off. -/
def off (n : Nat) (s : State) : State :=
  if (lane s n).st = .retired then s else portDown n (enter n .off s)

/-- A lane is retired (R354, R365, R369). -/
def retire (n : Nat) (s : State) : State :=
  let s := { s with sup := { s.sup with retiredLanes := s.sup.retiredLanes ||| BitVec.twoPow 64 n } }
  portDown n (enter n .retired s)

/-! ### Training (R346 to R352) -/

/-- The lane trains as a Streller lane. -/
def streller (s : State) (n : Nat) : Bool := (portOf s n).isNone

/-- The common cap: the lower of the two rates offered (R348). -/
def common (x : Lane) : Nat := min x.offer (x.partner.toNat % 8)

/-- T4 is entered: at the common cap the lane is Up (R348). -/
def toT4 (n : Nat) (s : State) : State :=
  if (lane s n).rate = common (lane s n) then enter n .t7 s else enter n .t4 s

/-- The rate and FEC that this end proposes in T4 (R348). -/
def proposal (s : State) (n : Nat) : Nat × Bool :=
  let x := lane s n
  let p := x.partner.toNat
  let r := if common x < x.rate then common x else x.rate + 1
  (r, decide (2 ≤ r) && bit p 8 && (x.offerFec || bit p 9))

/-- T2 completes with block lock and a Mark (R346); after a loss of lock in T7, block lock is enough (R355). -/
def tryT2 (n : Nat) (s : State) : State :=
  let x := lane s n
  if x.st ≠ .t2 ∨ !x.locked then s
  else if x.fromLoss then enter n .t7 s
  else if x.marked then enter n .t3 s else s

/-- T3 completes when ACK has been set and a block with ACK received (R347). -/
def tryT3 (n : Nat) (s : State) : State :=
  let x := lane s n
  if x.st = .t3 && x.ackSent && x.ackSeen then toT4 n s else s

/-- T4 completes: the lane switches to the agreed rate and enters T5 (R348). -/
def tryT4 (n : Nat) (s : State) : State :=
  let x := lane s n
  if x.st = .t4 ∧ 16 ≤ x.sent ∧ 4 ≤ x.run then
    let p := proposal s n
    enter n .t5 (setRate n p.1 p.2 s)
  else s

/-- T5 completes: T6 starts (R346, R349). -/
def tryT5 (n : Nat) (s : State) : State :=
  let x := lane s n
  if x.st = .t5 ∧ x.converged ∧ 8 ≤ x.run then enter n .t6 s else s

/-- A failure at the rate in use (R350). -/
def failure (n : Nat) (s : State) : State :=
  let x := lane s n
  let r := x.rate
  if r = 0 then observe (channel 4 n 0) (enter n .t0 s)
  else
    let c := x.failures / 2 ^ (8 * (r - 1)) % 256
    let f := if c < 3 then x.failures + 2 ^ (8 * (r - 1)) else x.failures
    let capped := decide (3 ≤ c + 1)
    let s := setLane n { x with
      failures := f, cap := if capped then min x.cap (r - 1) else x.cap
      rate := r - 1, fec := bit x.passedFec (r - 1), fecLine := [] } s
    let s := enter n .t2 s
    if capped then cause n 3 s else s

/-- T6 has passed at both ends: the FEC that the rate has passed with and the reference margin are kept (R349, R350, R357). -/
def passed (n : Nat) (s : State) : State :=
  let x := lane s n
  let fec := if x.fec then setBit x.passedFec x.rate else clearBits x.passedFec (2 ^ x.rate)
  toT4 n (setReference n (setLane n { x with passedFec := fec } s))

/-- T6 ends when both results are known (R349). -/
def tryT6 (n : Nat) (s : State) : State :=
  let x := lane s n
  match x.st, x.ownPass, x.partnerPass with
  | .t6, some a, some b => if a && b then passed n s else failure n s
  | _, _, _ => s

/-- Signal has been present for 1 µs (R346, R362). -/
def signalDetect (n : Nat) (s : State) : State :=
  let x := lane s n
  if !modeIn s [.m5] then s
  else if x.partnerLp ≠ 0 ∧ (x.st = .t7 ∨ x.st = .lp1) then
    let s := setLane n { x with partnerLp := 0 } s
    if x.partnerLp = 2 then
      let s := enter n .t2 s
      setLane n { lane s n with fromLoss := false, refDue := true } s
    else s
  else if x.st = .t0 && streller s n then enter n .t1 s else s

/-- CDR lock in T1 (R346). -/
def cdrLock (n : Nat) (s : State) : State :=
  if (lane s n).st = .t1 && streller s n then enter n .t2 s else s

/-- Block lock (R346, R355). -/
def blockLock (n : Nat) (s : State) : State :=
  if (lane s n).st = .t2 && streller s n then tryT2 n (setLane n { lane s n with locked := true } s) else s

/-- Loss of lock in T7 (R355, R369), but for one that the partner's notice explains (R362). -/
def lossOfLock (n : Nat) (s : State) : State :=
  if (lane s n).st ≠ .t7 ∨ (lane s n).partnerLp ≠ 0 then s
  else
    let s := observe (channel 4 n 0) (cause n 9 (bump (0x7100 + n) 8 s))
    match portOf s n with
    | some f => (portLanes s f).foldl (fun s m => if (lane s m).st = .t7 then enter m .t2 s else s) s
    | none => enter n .t2 s

/-- Loss of signal (R351, R362). -/
def lossOfSignal (n : Nat) (s : State) : State :=
  match (lane s n).st with
  | .t1 | .t2 | .t3 | .t4 | .t5 | .t6 | .t7 =>
    if streller s n && (lane s n).partnerLp = 0 then enter n .t0 (setRate n 0 false s) else s
  | _ => s

/-- A stage's timeout (R346, R350, R355). -/
def timeout (n : Nat) (s : State) : State :=
  if !streller s n then s
  else
    match (lane s n).st with
    | .t1 | .t2 | .t3 | .t4 => enter n .t0 (setRate n 0 false s)
    | .t5 | .t6 => failure n s
    | _ => s

/-- 100 ms in T0 (R352). -/
def absentTimeout (n : Nat) (s : State) : State :=
  let x := lane s n
  if x.st = .t0 && streller s n && !x.absent then cause n 2 (setLane n { x with absent := true } s) else s

/-- The receiver has converged with block lock in T5 (R346). -/
def converged (n : Nat) (s : State) : State :=
  if (lane s n).st = .t5 then tryT5 n (setLane n { lane s n with converged := true } s) else s

/-- How many errors a check of 4 ms passes with: 10^-5 of the bits of the six data blocks of each transfer (R349). -/
def allowed (rate : Nat) (fec : Bool) : Nat := if !fec then 0 else [0, 0, 1500, 3000, 6000].getD rate 0

/-- A test pattern's checker counts errors; the cause is set at most once in 1 ms (R359). -/
def patternErrors (n errors : Nat) (s : State) : State :=
  let x := lane s n
  if errors = 0 then s
  else
    let s := setReg (0x7100 + n) 0x0C (min (reg s (0x7100 + n) 0x0C + errors) 0xFFFFFFFF) s
    let now := (launch s).toNat
    if x.patternAt.any fun t => decide (now < t + 16000000) && decide (t ≤ now) then s
    else cause n 15 (setLane n { x with patternAt := some now } s)

/-- A PRBS check ends with a count of errors (R349, R359). -/
def prbsEnd (n errors : Nat) (s : State) : State :=
  let x := lane s n
  match x.st with
  | .t6 =>
    let s := setReg (0x7100 + n) 0x0C (min errors 0xFFFFFFFF) s
    tryT6 n (setLane n { x with ownPass := some (decide (errors ≤ allowed x.rate x.fec)) } s)
  | .test => if pattern s n = 0 then s else patternErrors n errors s
  | _ => s

/-! ### Link blocks received (R338, R347 to R349, R362, R365) -/

/-- A lane takes link blocks: Streller, from T2 to T7 and in the low-power states. -/
def listens (s : State) (n : Nat) : Bool :=
  streller s n && (match (lane s n).st with
    | .t2 | .t3 | .t4 | .t5 | .t6 | .t7 | .lp1 => true
    | _ => false)

/-- The number k that a BSEQ stands for, nearest to the one awaited. -/
def fullSeq (near q : Nat) : Nat :=
  let base := near / 65536 * 65536 + q
  if base + 32768 < near then base + 65536 else if near + 32768 < base ∧ 65536 ≤ base then base - 65536 else base

/-- A Capability block (R347). -/
def capability (n : Nat) (content : BitVec 56) (s : State) : State :=
  let x := lane s n
  if !listens s n then s
  else
    let run := if x.partner = content ∧ 0 < x.run then x.run + 1 else 1
    let x := { x with partner := content }
    if x.st = .t3 then
      tryT3 n (setLane n { x with
        run := run, ackSent := x.ackSent || decide (4 ≤ run), ackSeen := x.ackSeen || content.getLsbD 23 } s)
    else setLane n x s

/-- A Rate block (R348). -/
def rate (n proposed : Nat) (fec : Bool) (s : State) : State :=
  let x := lane s n
  if x.st ≠ .t4 then s
  else tryT4 n (setLane n { x with run := if (proposed, fec) = proposal s n then x.run + 1 else 0 } s)

/-- A Verify block (R346, R349). -/
def verify (n v : Nat) (s : State) : State :=
  let x := lane s n
  match x.st with
  | .t5 => tryT5 n (setLane n { x with run := if v = 1 then x.run + 1 else 0 } s)
  | .t6 =>
    if v = 2 ∨ v = 3 then tryT6 n (setLane n { x with partnerPass := some (v == 2) } s) else s
  | _ => s

/-- A Low power block: the partner's notice (R362). -/
def lowPower (n st : Nat) (s : State) : State :=
  let x := lane s n
  if listens s n ∧ (x.st = .t7 ∨ x.st = .lp1) ∧ (st = 1 ∨ st = 2) then setLane n { x with partnerLp := st, bseq := none } s else s

/-- A Bond block (R365). -/
def bondBlock (n k tx rx : Nat) (s : State) : State :=
  if !listens s n then s
  else
    match bondOf s n with
    | none => s
    | some b =>
      let x := bond s b
      let s := setBond b { x with partnerRx := rx } s
      let now := (x.rxSwitch.map (·.2)).getD x.rxLive
      let s := if tx = now then s
        else
          let k := fullSeq x.rxNext k
          if x.rxLive = 0 ∨ k ≤ x.rxNext then applyRx b tx s
          else setBond b { bond s b with rxSwitch := some (k, tx) } s
      updateBond b s

/-- A link type of the table of R338. -/
def knownLink (t : Nat) : Bool := [0x80, 0x81, 0x82, 0x84, 0x85, 0x86, 0x87, 0x88].contains t

/-- A link block of an unknown type (R338). -/
def unknownLink (n ty : Nat) (s : State) : State :=
  if !listens s n ∨ ty < 0x80 ∨ knownLink ty then s else cause n 13 (bump (0x7100 + n) 0x13 s)

/-! ### The fabric interface (R341 to R344) -/

/-- Idle on a Streller lane and on an Ethernet lane. -/
def idle (eth : Bool) : BitVec 2 × W64 := (0b01, if eth then 0x1E else 0)

/-- Eight of them (R340, R369). -/
def idles (eth : Bool) : List (BitVec 2 × W64) := List.replicate 8 (idle eth)

/-- The data crossing of a transmit slice, and of a receive slice (R342, R343). Its number is the model's (log entry 88). -/
def txCrossing (n k : Nat) : BridgeId :=
  { kind := .data, src := none, dst := some (Fin.ofNat 108 (64 + n / 4)), slot := Fin.ofNat 4096 (8 * (8 * n + k)) }
def rxCrossing (n k : Nat) : BridgeId :=
  { kind := .data, src := some (Fin.ofNat 108 n), dst := none, slot := Fin.ofNat 4096 (8 * (8 * n + k) + 1) }

/-- The word that a slice offers for a transfer (R342). -/
def sliceWord (x : RxTransfer) (k : Nat) : BitVec 256 :=
  let b (i : Nat) : RxBlock := x.blocks.getD (2 * k + i) { ctrl := false, err := false, payload := 0 }
  let bits (v : Bool) (i : Nat) : Nat := if v then 2 ^ i else 0
  let low := (b 0).payload.toNat + (b 1).payload.toNat * 2 ^ 64 + bits (b 0).ctrl 128 + bits (b 1).ctrl 129 +
    bits (b 0).err 130 + bits (b 1).err 131
  BitVec.ofNat 256 (if k = 0 then low + bits x.tsf 132 + x.time.toNat * 2 ^ 136 + x.bseq.toNat * 2 ^ 200 else low)

/-- The receive buffer of a slice. -/
def rxOf (x : Lane) (k : Nat) : List RxTransfer := match k with | 0 => x.rx0 | 1 => x.rx1 | 2 => x.rx2 | _ => x.rx3

/-- Replace it. -/
def setRx (x : Lane) (k : Nat) (l : List RxTransfer) : Lane :=
  match k with
  | 0 => { x with rx0 := l }
  | 1 => { x with rx1 := l }
  | 2 => { x with rx2 := l }
  | _ => { x with rx3 := l }

/-- The receive crossing of a slice takes the next transfer of the buffer (R343). -/
def cross (n k : Nat) (s : State) : State :=
  match rxOf (lane s n) k with
  | t :: rest =>
    if Bridges.room s (rxCrossing n k) then
      Bridges.capture (rxCrossing n k) (sliceWord t k).toNat (setLane n (setRx (lane s n) k rest) s)
    else s
  | [] => s

/-- A slice whose last word has been taken offers the next of its crossing (R343). -/
def feed (n k : Nat) (s : State) : State :=
  let s := cross n k s
  let w := Table.get (fun _ => ({} : WordOut)) s.laneOut (4 * n + k)
  let x := Bridges.find s (rxCrossing n k)
  match w.word, Bridges.ready x, x.line with
  | none, true, v :: _ =>
    let s := Bridges.free (rxCrossing n k) (Bridges.deliver (rxCrossing n k) s)
    let w : WordOut := { word := some (BitVec.ofNat 256 v) }
    Fabric.pump (.lane (4 * n + k)) (cross n k { s with laneOut := Table.put (fun _ => {}) s.laneOut (4 * n + k) w })
  | _, _, _ => s

/-- Every slice of a lane offers what it can. -/
def feedAll (n : Nat) (s : State) : State := [0, 1, 2, 3].foldl (fun s k => feed n k s) s

/-- A transfer reaches the lane's receive interface: discarded on all four slices when the buffer is full (R343). -/
def deliver (n : Nat) (t : RxTransfer) (s : State) : State :=
  let x := lane s n
  if [0, 1, 2, 3].any fun k => decide (32 ≤ (rxOf x k).length) then cause n 11 (bump (0x7100 + n) 0x0D s)
  else feedAll n (setLane n { x with
    rx0 := x.rx0 ++ [t], rx1 := x.rx1 ++ [t], rx2 := x.rx2 ++ [t], rx3 := x.rx3 ++ [t] } s)

/-- A transfer lost with its lane: all eight blocks in error (R364). -/
def lostTransfer (k : Nat) (s : State) : RxTransfer :=
  { blocks := List.replicate 8 { ctrl := false, err := true, payload := 0 }, time := launch s, tsf := false
    bseq := BitVec.ofNat 16 k }

/-- The live set that transfer `k` of a stream is dealt over: what applies now, or what a switch names (R365). -/
def liveAt (now : Nat) (switch : Option (Nat × Nat)) (k : Nat) : Nat :=
  match switch with
  | some (from', m) => if from' ≤ k then m else now
  | none => now

/-- The position that carries transfer `k`: live position k mod L (R363). -/
def positionAt (now : Nat) (switch : Option (Nat × Nat)) (k : Nat) : Option Nat :=
  let live := positions (liveAt now switch k)
  live[k % live.length]?

/-- The next transfer, from `k` on, that position `i` carries (R363, R365). -/
def nextAt (now : Nat) (switch : Option (Nat × Nat)) (i k : Nat) : Option Nat :=
  ((List.range 16).map (k + ·) ++ switch.toList.flatMap fun e => (List.range 16).map (e.1 + ·)).find? fun j =>
    decide (k ≤ j) && positionAt now switch j == some i

/-- The lane that carries transfer k of a bond's receive stream. -/
def carrier (s : State) (b k : Nat) : Option Nat :=
  (positionAt (bond s b).rxLive (bond s b).rxSwitch k).bind fun i => (members s b)[i]?

/-- A transfer that has not come is lost: its lane's next transfer is a later one, or its lane hears nothing while later ones have
come (R364). -/
def lost (s : State) (b k n : Nat) : Bool :=
  let x := lane s n
  match x.bseq with
  | some q => decide (k < q)
  | none => ((x.st != .t7 && x.st != .lp1) || x.partnerLp != 0) && !(bond s b).waiting.isEmpty

/-- Deliver a bond's transfers in order; a lost one is delivered in error (R363, R364). Delivery stops at a switch of the receive
live set. -/
def drainBond : Nat → Nat → State → State
  | 0, _, s => s
  | fuel + 1, b, s =>
    let x := bond s b
    let ms := members s b
    let k := x.rxNext
    if ms.isEmpty ∨ x.rxSwitch.any (fun e => decide (e.1 ≤ k)) then s
    else
      let dest := ms.getD (k % ms.length) 0
      match x.waiting.find? fun e => e.1 == k with
      | some e =>
        let s := setBond b { x with rxNext := k + 1, waiting := x.waiting.filter fun y => y.1 != k } s
        drainBond fuel b (deliver dest { e.2.2 with bseq := BitVec.ofNat 16 k } s)
      | none =>
        if (carrier s b k).any (lost s b k) then
          let s := setBond b { x with rxNext := k + 1 } s
          drainBond fuel b (deliver dest (lostTransfer k s) (bump (0x7200 + b) 6 s))
        else s

/-- A bond delivers what it can. -/
def drain (b : Nat) (s : State) : State := drainBond ((bond s b).waiting.length + 129) b s

/-- A bond transfer arrives on a member: it waits for its turn; a skew beyond 128 transfers takes the bond down (R364). -/
def bondReceive (b n : Nat) (t : RxTransfer) (s : State) : State :=
  match (lane s n).bseq with
  | none => s
  | some k =>
    let x := bond s b
    let next := ((members s b).idxOf? n).bind fun i => nextAt x.rxLive x.rxSwitch i (k + 1)
    let s := setLane n { lane s n with bseq := next } s
    if k < x.rxNext then s
    else
      let w := x.waiting ++ [(k, n, t)]
      if 128 < (w.filter fun e => e.2.1 == n).length then applyTx b 0 (applyRx b 0 (setBond b { x with waiting := [] } s))
      else drain b (setBond b { x with waiting := w } s)

/-- A Mark (R338, R339, R346, R363). In a bond, the transfers of the lane before the one it names that have not come are lost
(R364). -/
def mark (n bseq : Nat) (live : Bool) (s : State) : State :=
  if !listens s n then s
  else
    let x := { lane s n with marked := true }
    match bondOf s n with
    | some b =>
      let x := { x with bseq := if live then some (fullSeq (bond s b).rxNext bseq) else none }
      tryT2 n (drain b (setLane n x s))
    | none => tryT2 n (setLane n x s)

/-- A block is in error (R341). -/
def inError (b : Block) : Bool := b.fecBad || b.hdr == 0b00 || b.hdr == 0b11

/-- The TYPE of a control block that is not in error (R338). -/
def controlType (b : Block) : Option Nat := if !inError b && b.hdr == 0b01 then some (b.payload.toNat % 256) else none

/-- A block that carries nothing for the fabric: Idle, or a link block (R338, R341, R369). -/
def empty (eth : Bool) (b : Block) : Bool :=
  match controlType b with
  | some t => if eth then b.payload == 0x1E else t == 0 || decide (0x80 ≤ t)
  | none => false

/-- A block as the fabric gets it: link blocks become Idle (R341). -/
def received (eth : Bool) (b : Block) : RxBlock :=
  if inError b then { ctrl := false, err := true, payload := b.payload }
  else if b.hdr == 0b10 then { ctrl := false, err := false, payload := b.payload }
  else if !eth && decide (0x80 ≤ b.payload.toNat % 256) then { ctrl := true, err := false, payload := 0 }
  else { ctrl := true, err := false, payload := b.payload }

/-- The start block of an Ethernet frame (R344). -/
def isStart (hdr : BitVec 2) (payload : W64) : Bool := hdr == 0b01 && payload.toNat % 256 == 0x78

/-- A maintenance transfer: block 0 is a Mark (R339). -/
def isMaintenance (blocks : List Block) : Bool := blocks.head?.any fun b => controlType b == some 0x80

/-- The blocks of a transfer, eight of them. -/
def eight (eth : Bool) (blocks : List Block) : List Block :=
  let pad : Block := { hdr := (idle eth).1, payload := (idle eth).2, fecBad := false }
  (blocks ++ List.replicate 8 pad).take 8

/-- A Streller lane without FEC descrambles the payloads it receives (R336). Those of a lane with FEC, and of an Ethernet lane, are as
its decoder gives them (R337, R369; log entry 89). -/
def unscramble (n : Nat) (blocks : List Block) (s : State) : List Block × State :=
  let x := lane s n
  if x.fec || !streller s n then (blocks, s)
  else
    let p := Line.payloads Line.descramble (blocks.map fun b => (b.hdr, b.payload)) x.descrambler
    (List.zipWith (fun b c => { b with payload := c.2 }) blocks p.1, setLane n { x with descrambler := p.2 } s)

/-- A block's header is judged: 24 invalid ones of any 256 lose the lock (R355). -/
def header (x : Lane) (b : Block) : Lane :=
  if !b.fecBad && inError b then
    { x with blocks := x.blocks + 1, validRun := 0, invalid := (x.blocks :: x.invalid).filter fun i => decide (x.blocks < i + 256) }
  else { x with blocks := x.blocks + 1, validRun := x.validRun + 1 }

/-- A codeword is decoded, with a count of symbols in error (R337, R355, R367, R371). -/
def word (n w : Nat) (s : State) : State :=
  let x := lane s n
  let port := portOf s n
  let group (sub : Nat) (s : State) : State := if port.isSome then bump (0x7300 + n / 8) sub s else s
  if w ≤ Line.correctable (port.any fun f => portCode s f == 1) then
    let s := setLane n { x with goodWords := x.goodWords + 1, badWords := 0 } s
    if w = 0 then s else group 3 (bump (0x7100 + n) 0x0A s)
  else
    cause n 10 (group 4 (bump (0x7100 + n) 0x0B (setLane n { x with goodWords := 0, badWords := x.badWords + 1 } s)))

/-- What a transfer does to lock and to the counts: of a Streller lane, block lock is gained after 128 valid headers, with FEC
after codeword lock, and lost (R355). An Ethernet port's lock is its PCS's (R369). -/
def judge (n : Nat) (blocks : List Block) (words : List Nat) (s : State) : State :=
  let s := add (0x7100 + n) 9 32 (blocks.filter fun b => !b.fecBad && inError b).length s
  let s := words.foldl (fun s w => word n w s) (setLane n (blocks.foldl header (lane s n)) s)
  let x := lane s n
  let held := decide (x.badWords < 8) || !x.fec
  if !streller s n then s
  else if x.st = .t7 ∧ (!held ∨ 24 ≤ x.invalid.length) then lossOfLock n s
  else if x.st = .t2 ∧ !x.locked ∧ 128 ≤ x.validRun ∧ (!x.fec ∨ 3 ≤ x.goodWords) then blockLock n s
  else s

/-- 2^16 consecutive Idle or link blocks halve the tracking rate; the first other block restores it, and a short retrain has the
full rate (R356, R357). -/
def tracked (eth : Bool) (blocks : List Block) (x : Lane) : Lane :=
  let run := blocks.foldl (fun c b => if empty eth b then c + 1 else 0) x.idle
  { x with
    idle := run
    slow := (blocks.all fun b => empty eth b) && !x.retraining && (x.slow || decide (65536 ≤ run)) }

/-- Link blocks of unknown types are counted (R338). -/
def unknowns (n : Nat) (blocks : List Block) (s : State) : State :=
  let odd := (blocks.filter fun b => (controlType b).any fun t => decide (0x80 ≤ t) && !knownLink t).length
  if streller s n = false ∨ odd = 0 then s else cause n 13 (add (0x7100 + n) 0x13 32 odd s)

/-- A transfer goes to the fabric interface, whole, or its bond takes it, or there is nothing in it for the fabric (R341, R343, R344,
R363, R369). -/
def accept (n : Nat) (blocks : List Block) (s : State) : State :=
  let eth := (portOf s n).isSome
  let s := unknowns n blocks (setLane n (tracked eth blocks (lane s n)) s)
  let nothing := (!eth && isMaintenance blocks) || blocks.all fun b => empty eth b
  let t : RxTransfer :=
    { blocks := blocks.map (received eth), time := launch s
      tsf := eth && blocks.any (fun b => !inError b && isStart b.hdr b.payload), bseq := 0 }
  match portOf s n with
  | some f =>
    let e := ethPort s f
    if e.rx % portWidth (portCode s f) ≠ n - f then s
    else
      let s := setEthPort f { e with rx := e.rx + 1 } s
      if nothing then s else deliver n t s
  | none =>
    if nothing then s
    else
      match bondOf s n, (lane s n).st with
      | some b, .t7 | some b, .lp1 => bondReceive b n t s
      | _, _ => deliver n t s

/-- The transmitter drives the ball. -/
def drives (s : State) (n : Nat) : Bool := !txIdle s n

/-- Blocks as the ball carries them. -/
def onLine (n : Nat) (blocks : List (BitVec 2 × W64)) (s : State) : State :=
  if drives s n then emit (.lane n blocks) s else s

/-- The checker of a test pattern takes what the receiver gets (R359). -/
def checkPattern (n : Nat) (blocks : List (BitVec 2 × W64)) (s : State) : State :=
  let x := lane s n
  let r := Line.checkBlocks (pattern s n) blocks x.checker
  patternErrors n r.2 (setLane n { x with checker := r.1 } s)

/-- What a lane in the test state receives from its partner: nothing under LOOP 1 and 2; under LOOP 3 it is sent back as it came
(R358, R359). -/
def testReceive (n : Nat) (blocks : List Block) (s : State) : State :=
  let l := blocks.map fun b => (b.hdr, b.payload)
  let loop := loopOf s n
  if loop = 1 ∨ loop = 2 then s
  else
    let s := if loop = 3 then onLine n l s else s
    if pattern s n ≠ 0 then checkPattern n l s
    else
      let p := unscramble n blocks s
      accept n p.1 p.2

/-- A transfer is received (R336, R341, R343, R344, R355, R356, R363, R369). -/
def receive (n : Nat) (blocks : List Block) (words : List Nat) (s : State) : State :=
  let st := (lane s n).st
  let blocks := eight (portOf s n).isSome blocks
  match st with
  | .test => testReceive n blocks s
  | .t2 | .t3 | .t4 | .t5 | .t6 | .t7 | .lp1 =>
    let p := unscramble n blocks s
    let s := judge n p.1 words p.2
    if (st = .t7 ∨ st = .lp1) ∧ (lane s n).st = st then accept n p.1 s else s
  | _ => s

/-! ### Transmit (R339, R340, R343) -/

/-- A slice is off: none of its DATA and CTRL inputs has a selection (R343). -/
def sliceOff (s : State) (n k : Nat) : Bool :=
  (Frames.inputs s.fab.frames (.laneSlice (Fin.ofNat 64 n) (Fin.ofNat 4 k))).all fun e => decide (130 ≤ e.1)

/-- What a slice has captured of the next transfer: what its crossing brings next (R322, R343). -/
def txOf (s : State) (n k : Nat) : Option SliceWord :=
  let x := Bridges.find s (txCrossing n k)
  if Bridges.ready x then (x.line.head?).map (BitVec.ofNat 156) else none

/-- A slice that is not off captures what its channels hold, when its crossing has room (R171, R322, R343). -/
def captureSlice (n k : Nat) (s : State) : State :=
  let t := Taker.laneSlice (Fin.ofNat 64 n) (Fin.ofNat 4 k)
  if sliceOff s n k || !Bridges.room s (txCrossing n k) then s
  else
    match Fabric.captured s t with
    | none => s
    | some v => Bridges.capture (txCrossing n k) (BitVec.ofNat 156 v).toNat (Fabric.setAck t true s)

/-- The slices capture. -/
def captureSlices (n : Nat) (s : State) : State := [0, 1, 2, 3].foldl (fun s k => captureSlice n k s) s

/-- BRIDGE_CAPTURE on a transmit slice's crossing captures what the slice's channels hold (R343). -/
def bridgeCapture (b : BridgeId) (v : W64) (s : State) : State :=
  let i := b.slot.val / 8
  if b = txCrossing (i / 8) (i % 8) ∧ i % 8 < 4 then captureSlice (i / 8) (i % 8) s else Bridges.capture b v.toNat s

/-- The transfer that a lane's slices have ready (R343): its blocks, and slice 0's sideband. -/
def readyTransfer (s : State) (n : Nat) (eth : Bool) : Option (List (BitVec 2 × W64) × Nat) :=
  let on := [0, 1, 2, 3].filter fun k => !sliceOff s n k
  if on.isEmpty ∨ on.any (fun k => (txOf s n k).isNone) then none
  else
    let blocks := [0, 1, 2, 3].flatMap fun k =>
      if sliceOff s n k then [idle eth, idle eth]
      else
        let w := (txOf s n k).getD 0
        [(if w.getLsbD 128 then 0b01#2 else 0b10#2, w.extractLsb' 0 64),
         (if w.getLsbD 129 then 0b01#2 else 0b10#2, w.extractLsb' 64 64)]
    some (blocks, if sliceOff s n 0 then 0 else ((txOf s n 0).getD 0).toNat / 2 ^ 130)

/-- A transfer has been taken from the interface: each slice's part has crossed. -/
def clearTx (n : Nat) (s : State) : State :=
  ([0, 1, 2, 3].filter fun k => !sliceOff s n k).foldl (fun s k =>
    Bridges.free (txCrossing n k) (Bridges.deliver (txCrossing n k) s)) s

/-- Link types from the fabric are sent as Idle (R340). -/
def replaceLinks (n : Nat) (blocks : List (BitVec 2 × W64)) (s : State) : List (BitVec 2 × W64) × State :=
  let bad (b : BitVec 2 × W64) : Bool := b.1 == 0b01 && decide (0x80 ≤ b.2.toNat % 256)
  let k := (blocks.filter bad).length
  (blocks.map fun b => if bad b then idle false else b,
    if k = 0 then s else cause n 12 (add (0x7100 + n) 0x13 32 k s))

/-- Two 257-bit blocks are scrambled and wait for their codeword; the codeword goes out when it is full (R337). -/
def sendFec (n : Nat) (blocks : List (BitVec 2 × W64)) (s : State) : State :=
  let x := lane s n
  let a := Line.scramble 257 x.scrambler (Line.transcode (blocks.take 4))
  let b := Line.scramble 257 a.2 (Line.transcode (blocks.drop 4))
  let l := x.fecLine ++ [BitVec.ofNat 257 a.1, BitVec.ofNat 257 b.1]
  if l.length < 20 then setLane n { x with scrambler := b.2, fecLine := l } s
  else emit (.codeword n (Line.codeword l)) (setLane n { x with scrambler := b.2, fecLine := [] } s)

/-- Put eight blocks on the line: scrambled, or coded, or as an Ethernet port deals them to its PCS (R336, R337, R369). -/
def send (n : Nat) (blocks : List (BitVec 2 × W64)) (s : State) : State :=
  let x := lane s n
  if !drives s n then s
  else if !streller s n then emit (.lane n blocks) s
  else if x.fec then sendFec n blocks s
  else
    let p := Line.payloads Line.scramble blocks x.scrambler
    emit (.lane n p.1) (setLane n { x with scrambler := p.2 } s)

/-- A transfer of an Ethernet port, with slice 0's sideband, goes out. A timestamped frame that starts in it is queued or takes its time
(R140, R141, R344); the last transfer of a frame that takes its time waits for the next one. -/
def portSend (f n : Nat) (blocks : List (BitVec 2 × W64)) (side : Nat) (s : State) : State :=
  let e := ethPort s f
  let before := (e.held.map (·.2)).getD []
  let r := match e.frame with
    | some x => Line.rewrite x before blocks
    | none => (none, before ++ blocks)
  let s := match e.held with
    | some h => send h.1 (r.2.take before.length) s
    | none => s
  let blocks := r.2.drop before.length
  let start := blocks.findIdx? fun b => isStart b.1 b.2
  let s := if start.isSome && side % 4 == 1 then Time.queueTwoStep n (side / 4 % 65536) s else s
  let q := match start, side % 4 with
    | some i, 2 =>
      let x : OneStep := { skip := side / 2 ^ 18 % 256, left := Time.timestamp s.time.sec s.time.ns }
      Line.rewrite x (blocks.take (i + 1)) (blocks.drop (i + 1))
    | _, _ => (r.1, blocks)
  let s := setEthPort f { e with tx := e.tx + 1, frame := q.1, held := if q.1.isSome then some (n, q.2) else none } s
  if q.1.isSome then s else send n q.2 s

/-- Count a transfer slot. -/
def countSlot (n : Nat) (s : State) : State := setLane n { lane s n with since := (lane s n).since + 1 } s

/-- A transfer slot of a bonded lane: transfer k leaves on live position k mod L, from member k mod w (R363). -/
def bondTransmit (b n : Nat) (s : State) : State :=
  let x := bond s b
  let ms := members s b
  let k := x.txNext
  let mine := (positionAt x.txLive none k).bind fun i => ms[i]?
  let from' := ms.getD (k % ms.length) 0
  let put (l : List (BitVec 2 × W64)) (s : State) : State := if (lane s n).st = .t7 then send n l s else s
  if !bondUp s b then put (idles false) s
  else
    let s := captureSlices from' s
    match mine == some n && !x.txSwitch.any (fun e => decide (e.1 ≤ k)), readyTransfer s from' false with
    | true, some t =>
      let r := replaceLinks from' t.1 (clearTx from' s)
      put r.1 (setBond b { x with txNext := k + 1 } r.2)
    | _, _ => put (idles false) s

/-- A loop returns the lane's own transfers (R358). -/
def loopBack (n : Nat) (blocks : List (BitVec 2 × W64)) (s : State) : State :=
  if blocks.all fun b => b == idle false then s
  else
    let bs : List RxBlock := blocks.map fun b => { ctrl := b.1 == 0b01#2, err := false, payload := b.2 }
    deliver n { blocks := bs, time := launch s, tsf := false, bseq := 0 } s

/-- What a lane sends at a slot: what its slices have ready, with link types replaced, or Idle; and slice 0's sideband (R340,
R343, R369). -/
def slot (n : Nat) (s : State) : List (BitVec 2 × W64) × Nat × State :=
  let eth := (portOf s n).isSome
  let s := captureSlices n s
  match readyTransfer s n eth with
  | none => (idles eth, 0, s)
  | some t =>
    let s := clearTx n s
    if eth then (t.1, t.2, s)
    else
      let r := replaceLinks n t.1 s
      (r.1, t.2, r.2)

/-- A slot of a lane in the test state: raw bits of its pattern, or its transfers, to the ball and round its loop. Under LOOP 3 the
ball carries what comes back (R358, R359). -/
def testSlot (n : Nat) (s : State) : State :=
  let x := lane s n
  if pattern s n ≠ 0 then
    let p := Line.raw (pattern s n) 8 x.prbs
    let s := setLane n { x with prbs := p.2 } s
    match loopOf s n with
    | 0 => onLine n p.1 s
    | 1 => if drives s n then checkPattern n p.1 (onLine n p.1 s) else s
    | 2 => checkPattern n p.1 s
    | _ => s
  else
    let r := slot n s
    match loopOf s n with
    | 1 => if drives s n then loopBack n r.1 (send n r.1 r.2.2) else r.2.2
    | 2 => loopBack n r.1 r.2.2
    | 3 => r.2.2
    | _ => send n r.1 r.2.2

/-- A maintenance transfer is due: the 1,024th, or a Bond block waits (R339). -/
def isBond (b : LinkBlock) : Bool := match b with | .bond _ _ _ => true | _ => false
def due (x : Lane) : Bool := decide (1023 ≤ x.since) || x.queue.any isBond

/-- A transfer slot (R339, R340, R343, R358, R363, R369). A slot at which a maintenance transfer is due is not this one. -/
def transmit (n : Nat) (s : State) : State :=
  let x := lane s n
  match x.st, portOf s n, bondOf s n with
  | .test, _, _ => testSlot n s
  | .t7, some f, _ =>
    if (ethPort s f).tx % portWidth (portCode s f) ≠ n - f then s
    else
      let r := slot n s
      portSend f n r.1 r.2.1 r.2.2
  | .t0, some _, _ | .t1, some _, _ | .t2, some _, _ => send n (idles true) s
  | _, some _, _ => s
  | .t7, none, some b => if due x then s else countSlot n (bondTransmit b n s)
  | .t7, none, none =>
    if due x then s
    else
      let r := slot n (countSlot n s)
      send n r.1 r.2.2
  | _, none, some b => bondTransmit b n s
  | _, none, none => s

/-- A control block of a link type with its content, bytes 1 to 7 (R338). -/
def linkBlock (ty content : Nat) : BitVec 2 × W64 := (0b01, BitVec.ofNat 64 (ty + content * 256))

/-- The BSEQ of a lane's next bond transfer, and whether it is live (R338, R363). -/
def nextBseq (s : State) (n : Nat) : Nat × Bool :=
  match bondOf s n with
  | none => (0, false)
  | some b =>
    let x := bond s b
    match (members s b).idxOf? n with
    | none => (0, false)
    | some i => (((nextAt x.txLive x.txSwitch i x.txNext).getD 0) % 65536, bit x.txLive i)

/-- A pending link block as the blocks that carry it (R338, R339). -/
def spell (s : State) (b : LinkBlock) : List (BitVec 2 × W64) :=
  match b with
  | .time kind at' =>
    let t := at'.getD (s.time.sec, s.time.ns, fraction s)
    [linkBlock 0x85 (t.1 % 2 ^ 48 + kind * 2 ^ 48), linkBlock 0x86 (t.2.1 + t.2.2 * 2 ^ 32)]
  | .bond k tx rx => [linkBlock 0x88 (k + tx * 2 ^ 16 + rx * 2 ^ 32)]
  | .lowPower st => [linkBlock 0x87 st]

/-- The order in which pending link blocks are sent (R339): time messages, Bond, Low power. -/
def priority (l : List LinkBlock) : List LinkBlock :=
  (l.filter fun b => match b with | .time _ _ => true | _ => false) ++
  (l.filter isBond) ++
  (l.filter fun b => match b with | .lowPower _ => true | _ => false)

/-- The pending link blocks that fit into `room` blocks, and the rest. -/
def fit : Nat → List LinkBlock → List LinkBlock × List LinkBlock
  | _, [] => ([], [])
  | room, b :: rest =>
    let w := match b with | .time _ _ => 2 | _ => 1
    if w ≤ room then
      let p := fit (room - w) rest
      (b :: p.1, p.2)
    else ([], b :: rest)

/-- The content of this end's Capability block (R338, R347). -/
def ownCapability (s : State) (n : Nat) : Nat :=
  (lane s n).offer + 2 ^ 8 + (if (lane s n).offerFec then 2 ^ 9 else 0) + (if (lane s n).ackSent then 2 ^ 23 else 0) + n * 2 ^ 24 +
    s.modes.ndId.toNat * 2 ^ 32

/-- The Mark that opens a lane's next maintenance transfer (R338, R339, R363). -/
def markBlock (s : State) (n : Nat) : BitVec 2 × W64 :=
  let q := nextBseq s n
  linkBlock 0x80 (((lane s n).maintenance + 1) % 256 + q.1 * 2 ^ 8 + if q.2 then 2 ^ 24 else 0)

/-- What fills blocks 1 to 7 of a maintenance transfer in training (R346 to R349). -/
def stageBlocks (s : State) (n : Nat) : List (BitVec 2 × W64) :=
  let x := lane s n
  match x.st with
  | .t3 => List.replicate 7 (linkBlock 0x81 (ownCapability s n))
  | .t4 =>
    let p := proposal s n
    List.replicate 7 (linkBlock 0x82 (p.1 + if p.2 then 256 else 0))
  | .t5 => List.replicate 6 (idle false) ++ [linkBlock 0x84 (if x.converged then 1 else 0)]
  | .t6 =>
    (Line.dataBlocks 6 x.prbs).1 ++ [linkBlock 0x84 (match x.ownPass with | none => 1 | some true => 2 | some false => 3)]
  | _ => List.replicate 7 (idle false)

/-- A maintenance transfer (R339, R346, R348, R362). -/
def maintenance (n : Nat) (s : State) : State :=
  let x := lane s n
  if !streller s n then s
  else
    match x.st with
    | .t1 | .t2 | .t3 | .t4 | .t5 | .t6 =>
      let s := send n (markBlock s n :: stageBlocks s n) s
      let s := setLane n { lane s n with
        maintenance := x.maintenance + 1, sent := if x.st = .t4 then x.sent + 7 else x.sent
        prbs := if x.st = .t6 then (Line.dataBlocks 6 x.prbs).2 else x.prbs } s
      tryT4 n s
    | .t7 =>
      let l := priority x.queue
      if !due x then s
      else
        let p := fit 7 l
        let body := p.1.flatMap (spell s)
        let s := send n ((markBlock s n :: body ++ List.replicate 7 (idle false)).take 8) s
        let s := setLane n { lane s n with since := 0, maintenance := x.maintenance + 1, queue := p.2 } s
        let asked := p.1.any fun b => match b with | .time 1 _ => true | _ => false
        let s := if asked && s.servo.exchange.length = 2 then
            { s with servo := { s.servo with exchange := s.servo.exchange ++ [Time.units s.time] } }
          else s
        match p.1.findSome? fun b => match b with | .lowPower st => some st | _ => none with
        | some 1 => enter n .lp1 s
        | some 2 => enter n .lp2 s
        | _ => s
    | _ => s

/-- A burst of S0 Idle blocks in T0 (R346). -/
def burst (n : Nat) (s : State) : State :=
  if (lane s n).st = .t0 && streller s n then send n (idles false) s else s

/-! ### Margin (R356, R357) -/

/-- The level below which a short retrain runs. -/
def weak (x : Lane) (m : Nat) : Bool := decide (1000 * m < 850 * x.reference)

/-- A sample of the margin (R357): in T7 it is the monitor's; in T6 and in a retrain from LP2, what the reference is taken from. -/
def marginSample (n m : Nat) (s : State) : State :=
  let x := { lane s n with margin := m }
  if x.st = .t6 ∨ (x.refDue ∧ x.st ≠ .t7) then setLane n { x with measured := some m } s
  else if x.st ≠ .t7 then s
  else
    let low := if weak x m then x.low + 1 else 0
    let go := decide (3 ≤ low) && !x.retraining && decide (x.pauseUntil ≤ (launch s).toNat)
    setLane n { x with low := if go then 0 else low, retraining := x.retraining || go, slow := x.slow && !go } s

/-- A short retrain ends (R357). -/
def retrainEnd (n m : Nat) (s : State) : State :=
  let x := lane s n
  if x.st ≠ .t7 ∨ !x.retraining then s
  else
    let x := { x with
      margin := m, retraining := false, low := 0
      pauseUntil := if weak x m then (launch s).toNat + 1600000000 else x.pauseUntil }
    cause n 8 (bump (0x7100 + n) 0x0E (setLane n x s))

/-- 2^16 consecutive Idle or link blocks have halved the tracking rate (R356). -/
def slowDown (n : Nat) (s : State) : State :=
  if (lane s n).st = .t7 && !(lane s n).retraining then setLane n { lane s n with slow := true } s else s

/-- A bond's switch point (R365): the new live set applies from its transfer on. -/
def switchPoint (b : Nat) (receive : Bool) (s : State) : State :=
  let x := bond s b
  if receive then
    match x.rxSwitch with
    | some e => if e.1 ≤ x.rxNext then drain b (applyRx b e.2 s) else s
    | none => s
  else
    match x.txSwitch with
    | some e => if e.1 ≤ x.txNext then applyTx b e.2 s else s
    | none => s

/-- An Ethernet lane's lock or timeout (R369). -/
def ethernet (n : Nat) (ev : EthEvent) (s : State) : State :=
  match portOf s n with
  | none => s
  | some f =>
    match ev, (lane s n).st with
    | .cdrLocked, .t1 => enter n .t2 s
    | .cdrTimeout, .t1 => s
    | .fecLocked, .t2 =>
      let s := setLane n { lane s n with locked := true } s
      if (portLanes s f).all fun m => (lane s m).st == .t2 && (lane s m).locked then
        (portLanes s f).foldl (fun s m => enter m .t7 s) s
      else s
    | .lockTimeout, .t2 => enter n .t1 s
    | _, _ => s

/-! ### Time messages (R164) -/

/-- The master's time messages: one in every 1 ms of Lydan time on each lane that is Up (R164). -/
def timeSend (s : State) : State :=
  let ms := Time.units s.time / 16000000
  if reg s 0x3003 2 ≠ 1 ∨ ms = s.servo.sentMs then s
  else
    let s := { s with servo := { s.servo with sentMs := ms } }
    (List.range 64).foldl (fun s n =>
      if bit (reg s 0x3003 3) n ∧ (lane s n).st = .t7 ∧ streller s n then
        setLane n { lane s n with queue := (lane s n).queue ++ [.time 0 none] } s
      else s) s

/-- The follower has an exchange complete (R164): the path delay, the offset, and what the servo does with it. -/
def follow (t1 t2 t3 t4 : Int) (s : State) : State :=
  let delay := (t2 - t1) + (t4 - t3)
  let offset := (t2 - t1) - Int.tdiv (delay + signed 32 (reg s 0x3003 4)) 2
  let s := setReg 0x3003 5 (unsigned 32 delay) (setReg 0x3003 6 (unsigned 32 offset) s)
  if modeIn s [.m1, .m2, .m3, .m4, .m7] && (decide (16000 < offset) || decide (offset < -16000)) then
    let s := Time.step (Time.ofUnits ((Time.units s.time : Int) - offset).toNat) s
    { s with servo := { s.servo with first := false, good := 0, state := 1 } }
  else Time.servoAct (Time.judge offset 80 16 396 s)

/-- A time message arrives (R164, R338): sync and delay response at the follower, delay request at the master. -/
def timeMessage (n kind sec ns frac : Nat) (s : State) : State :=
  let now := Time.units s.time
  let sent := 16 * (Time.second * sec + ns) + frac / 4096
  let reply (b : LinkBlock) (s : State) : State := setLane n { lane s n with queue := (lane s n).queue ++ [b] } s
  if (lane s n).st ≠ .t7 ∨ !streller s n then s
  else if kind = 1 then
    if reg s 0x3003 2 = 1 ∧ bit (reg s 0x3003 3) n then reply (.time 2 (some (s.time.sec, s.time.ns, fraction s))) s else s
  else if reg s 0x3000 8 ≠ 2 ∨ reg s 0x3003 1 ≠ n then s
  else if kind = 0 then
    reply (.time 1 none) { s with servo := { s.servo with exchange := [sent, now] } }
  else if kind = 2 then
    match s.servo.exchange with
    | [t1, t2, t3] => follow t1 t2 t3 sent { s with servo := { s.servo with exchange := [] } }
    | _ => s
  else s

/-! ### Objects -/

/-- The state code of R371. -/
def stateCode : LaneSt → Nat
  | .off => 0 | .t0 => 1 | .t1 => 2 | .t2 => 3 | .t3 => 4 | .t4 => 5 | .t5 => 6 | .t6 => 7 | .t7 => 8
  | .lp1 => 9 | .lp2 => 10 | .test => 11 | .retired => 12

/-- A mask of lanes. -/
def laneMask (s : State) (p : Lane → Bool) : Nat :=
  ((List.range 64).map fun n => if p (lane s n) then 2 ^ n else 0).sum

/-- What a read of a lane, bond or Ethernet object returns where the stored value is not it. -/
def readSub (s : State) (index sub : Nat) : Option Nat :=
  if index = 0x7000 then
    match sub with
    | 1 => some (laneMask s fun x => x.st == .t7)
    | 2 => some s.sup.retiredLanes.toNat
    | 3 => some (laneMask s fun x => x.absent)
    | _ => none
  else if 0x7100 ≤ index ∧ index < 0x7140 then
    let n := index - 0x7100
    let x := lane s n
    match sub with
    | 2 => some (stateCode x.st)
    | 3 => some (x.rate + if x.fec then 128 else 0)
    | 4 => some (cap s n)
    | 5 => some x.failures
    | 6 => some x.partner.toNat
    | 7 => some (x.reference % 65536 * 65536 + x.margin % 65536)
    | 0x12 => some x.changed
    | _ => none
  else if 0x7200 ≤ index ∧ index < 0x7210 then
    let b := index - 0x7200
    match sub with
    | 3 => some (bond s b).txLive
    | 4 => some (bond s b).rxMask
    | 5 => some (if reg s index 1 = 0 then 0 else if bondUp s b then 2 else 1)
    | _ => none
  else if 0x7300 ≤ index ∧ index < 0x7308 ∧ sub = 2 then
    some (((List.range 8).map fun p =>
      let l := portLanes s (8 * (index - 0x7300) + p)
      if !l.isEmpty && l.all fun n => (lane s n).st == .t7 then 2 ^ p else 0).sum)
  else none

/-- A lane whose control word has been written acts on it in M5 (R353, R354, R358 to R361, R373). DESIGN CHOICE: every write of the
word writes PATTERN, and clears the count of errors (R359; log entry 90). -/
def apply (n old new : Nat) (s : State) : State :=
  let restart := bit new 30
  let s := setReg (0x7100 + n) 1 (clearBits new 0x60030FFF) s
  let s := if bit new 29 then setLane n { lane s n with cap := 4, failures := 0 } s else s
  let s := setReg (0x7100 + n) 0x0C 0 s
  let x := lane s n
  if !modeIn s [.m5] then (if restart then setLane n { x with restart := true } s else s)
  else if !enabled s n then (if x.st = .off then s else off n s)
  else if x.st = .off then begin n s
  else if restart then toT0 n (portDown n s)
  else if wantsTest s n then toTest n s
  else if x.st = .test then toT0 n s
  else if streller s n ∧ maxRate s n < old / 2 ^ 24 % 8 ∧ maxRate s n < x.rate ∧ x.st ≠ .t0 ∧ x.st ≠ .lp1 ∧ x.st ≠ .lp2 then
    enter n .t0 (setRate n 0 false s)
  else
    match x.st with
    | .t7 =>
      if old / 2 ^ 27 % 4 ≠ lp s n then
        let q := x.queue.filter fun b => match b with | .lowPower _ => false | _ => true
        setLane n { x with queue := if lp s n = 0 then q else q ++ [.lowPower (lp s n)] } s
      else s
    | .lp1 => if lp s n = 0 then enter n .t7 s else s
    | .lp2 => if lp s n = 0 then enter n .t2 s else s
    | _ => s

/-- A write of a lane's control word (R373). -/
def writeControl (n v : Nat) (s : State) : Nat ⊕ State :=
  if 4 < v / 2 ^ 24 % 8 ∨ 7 < v / 2 ^ 12 % 16 ∨ v / 2 ^ 27 % 4 = 3 ∨ retired s n then .inl 4
  else .inr (apply n (control s n) v s)

/-- A write of a bond's members (R366). -/
def writeMembers (b v : Nat) (s : State) : Nat ⊕ State :=
  let l := (List.range 64).filter fun n => bit v n
  let old := reg s (0x7200 + b) 1
  if 16 < l.length ∨ l.any (fun n => retired s n || (portOf s n).isSome || (bondOf s n).any fun c => c != b) then .inl 4
  else if (List.range 64).any fun n => (bit v n != bit old n) && enabled s n then .inl 5
  else
    let s := setReg (0x7200 + b) 1 v s
    if v = old then .inr s
    else
      let x := bond s b
      let s := if x.txLive = 0 ∧ x.rxLive = 0 then s else bondCause b (bump (0x7200 + b) 7 s)
      .inr (updateBond b (setBond b {} s))

/-- A write of MINW (R365, R366): it can take the bond up or down. -/
def writeMinw (b v : Nat) (s : State) : Nat ⊕ State :=
  if v < 1 ∨ 16 < v then .inl 4
  else
    let t := setReg (0x7200 + b) 2 v s
    .inr (if bondUp t b = bondUp s b then t else bondCause b t)

/-- A port map is refused (R370). -/
def badMap (e v : Nat) (s : State) : Bool :=
  let c (p : Nat) : Nat := v / 16 ^ p % 16
  (List.range 8).any fun p =>
    let w := portWidth (c p)
    decide (11 < c p) || (c p != 0 && (p % w != 0 || decide (8 < p + w) ||
      (List.range w).any fun i => (decide (0 < i) && c (p + i) != 0) ||
        retired s (8 * e + p + i) || (bondOf s (8 * e + p + i)).isSome))

/-- The positions that a port map covers. -/
def covers (v p : Nat) : Option Nat :=
  (List.range 8).findSome? fun q =>
    let c := v / 16 ^ q % 16
    if q ≤ p ∧ p < q + portWidth c then some (16 * q + c) else none

/-- A write of an Ethernet group's port map (R370). -/
def writeMap (e v : Nat) (s : State) : Nat ⊕ State :=
  let old := reg s (0x7300 + e) 1
  if badMap e v s then .inl 4
  else if (List.range 8).any fun p => covers v p != covers old p && enabled s (8 * e + p) then .inl 5
  else .inr (Bridges.follow (setReg (0x7300 + e) 1 v s))

/-- A write of a lane, bond or Ethernet sub that does more than store. -/
def writeSub (index sub v : Nat) (s : State) : Option (Nat ⊕ State) :=
  if 0x7100 ≤ index ∧ index < 0x7140 then
    let n := index - 0x7100
    match sub with
    | 1 => some (writeControl n v s)
    | 0x10 =>
      let s := setReg index 0x10 (clearBits (reg s index 0x10) v) s
      some (.inr (trackHalf n 1 (trackHalf n 0 s)))
    | 0x11 => some (.inr (trackHalf n 1 (trackHalf n 0 (setReg index 0x11 (v &&& 0xFF1F) s))))
    | _ => none
  else if 0x7200 ≤ index ∧ index < 0x7210 then
    match sub with
    | 1 => some (writeMembers (index - 0x7200) v s)
    | 2 => some (writeMinw (index - 0x7200) v s)
    | _ => none
  else if 0x7300 ≤ index ∧ index < 0x7308 ∧ sub = 1 then some (writeMap (index - 0x7300) v s)
  else none

/-! ### Modes -/

/-- Entry to M5 by the release (R298 step 4, R353). -/
def onM5 (s : State) : State := (List.range 64).foldl (fun s n => begin n s) s

/-- Entry to M6 (R353). -/
def onM6 (s : State) : State :=
  (List.range 64).foldl (fun s n =>
    match (lane s n).st with
    | .t7 =>
      if streller s n then
        let s := send n (markBlock s n :: linkBlock 0x87 2 :: List.replicate 6 (idle false)) s
        enter n .lp2 (setLane n { lane s n with maintenance := (lane s n).maintenance + 1 } s)
      else enter n .lp2 s
    | .off | .retired => s
    | _ => enter n .off s) s

/-- Exit from M6 (R39, R353). What was written to the control word in M6 takes effect (R373). -/
def offM6 (s : State) : State :=
  (List.range 64).foldl (fun s n =>
    let x := lane s n
    if x.st ≠ .lp2 then begin n s
    else if !enabled s n then off n s
    else if x.restart then toT0 n (portDown n (setLane n { x with restart := false } s))
    else if wantsTest s n then toTest n s
    else enter n .t2 s) s

/-- Every lane off: M1 to M4 and M7 (R353). -/
def allOff (s : State) : State :=
  (List.range 64).foldl (fun s n => if (lane s n).st = .off ∨ (lane s n).st = .retired then s else enter n .off s) s

/-- Entry to M1: every lane object at its defaults, retirements ended (R350, R371, R485). -/
def onM1 (s : State) : State :=
  let s := defaults 0x7100 0x713F (fun _ => false) s
  let s := { s with
    lanes := [], bonds := [], ethPorts := [], laneOut := []
    sup := { s.sup with retiredLanes := 0 } }
  { s with events := { s.events with raw := s.events.raw &&& ~~~(BitVec.ofNat 640 (2 ^ 128 - 1)) } }

/-- VPHY or VPHYH leaves operating conditions (R520). -/
def phyOut (s : State) : State := Bridges.follow (allOff { s with sup := { s.sup with phyOut := true } })

/-- Both rails have been back for 1 ms. -/
def phyBack (s : State) : State := onM5 (Bridges.follow { s with sup := { s.sup with phyOut := false } })

end Sys2Proof.Machine.Lanes
end

