-- ==== Sys2Proof/Machine/Supervisor.lean ====
section
/-!
DEFINITION. The supervisor: rails and sag, temperature, adaptive voltage, Survey, background self-test, faults, retirement,
and the repair record (R460 to R494, R520).
-/

namespace Sys2Proof.Machine.Super

open Sys2Proof.Machine.Ops

/-! ### Self-test: slices and results (R478 to R481) -/

/-- A code of a test's kind, TEST[15:12] of R482. -/
def kindCode : TestKind → Nat
  | .bank => 1 | .engine => 2 | .lane => 3 | .pll => 4 | .monitor => 5 | .sensor => 6

/-- A test in progress. -/
def sameTest (k : TestKind) (u : Nat) (t : TestRun) : Bool := t.kind == k && t.target.toNat == u

/-- Replace the list of tests. -/
def setTests (l : List TestRun) (s : State) : State := { s with sup := { s.sup with tests := l } }

/-- A block under test goes back to service: a borrowed bank is On again, and serves what it held (R480). -/
def giveBack (k : TestKind) (u : Nat) (s : State) : State :=
  match k with
  | .bank => if (bank s u).borrowed then Banks.afterCycle u (setBank u { bank s u with borrowed := false } s) else s
  | _ => s

/-- The channel of R483 that a test observes, if any. -/
def testChannel (k : TestKind) (u position : Nat) : Option Nat :=
  match k with
  | .bank => some (channel 1 u position)
  | .engine => some (channel 3 u 0)
  | .lane => some (channel 4 u 0)
  | _ => none

/-- Write a result record and count it (R479, R482): outcome 0 pass, 1 fail, 2 incomplete. -/
def result (k : TestKind) (u outcome slices coverage misr expected : Nat) (s : State) : State :=
  let r := bytes 2 (kindCode k * 4096 + u) ++ bytes 1 outcome ++ bytes 1 0 ++ bytes 4 slices ++ bytes 4 coverage ++
    bytes 4 0 ++ bytes 8 misr ++ bytes 8 expected
  let s := bump 0xA000 (5 + outcome) { s with sup := { s.sup with lastResult := r } }
  match outcome with
  | 1 => raise 369 s
  | 2 => raise 370 s
  | _ => s

/-- A test is cut short (R479): its result is incomplete. What its slices had found is open (log entry 22). -/
def cutTest (t : TestRun) (s : State) : State :=
  let s := giveBack t.kind t.target.toNat (setTests (s.sup.tests.filter fun x => !sameTest t.kind t.target.toNat x) s)
  let s := if t.kind = .engine ∧ Engines.physState s t.target.toNat = 2 then Engines.setPhys t.target.toNat 1 s else s
  let m := Config.freeWord s.fresh
  let e := Config.freeWord (s.fresh + 1)
  let c := (Config.freeWord (s.fresh + 2)).toNat % 2 ^ 32
  result t.kind t.target.toNat 2 t.slices c m.toNat e.toNat (tickFresh (tickFresh (tickFresh s)))

/-- Every test is cut short by a change of mode (R479, R481). -/
def cutAll (s : State) : State := s.sup.tests.foldl (fun s t => cutTest t s) s

/-- A running slice is abandoned and will be run again (R480). -/
def abandonSlice (t : TestRun) (s : State) : State :=
  let s := setTests (s.sup.tests.map fun x => if sameTest t.kind t.target.toNat x then { x with running := false } else x) s
  bump 0xA000 9 (giveBack t.kind t.target.toNat s)

/-- Tests whose block service has taken: a lane that is enabled ends its slice; an engine that is no longer the spare under
test ends its test (R267, R480, R492). -/
def reap (s : State) : State :=
  s.sup.tests.foldl (fun s t =>
    match t.kind with
    | .lane =>
      if t.running && Lanes.enabled s t.target.toNat then broken 4 3 4 t.target.toNat (abandonSlice t s) else s
    | .engine =>
      if Engines.physState s t.target.toNat ≠ 2 ∨ reg s 0x6000 6 = 0 then broken 4 3 4 (t.target.toNat / 33) (cutTest t s) else s
    | _ => s) s

/-- A warning of R463 is asserted. -/
def warned (s : State) : Bool := s.sup.coreWarn || s.sup.auxWarn

/-- 0xA000.04, bit n. -/
def lendable (s : State) (n : Nat) : Bool := s.sup.lendable.getLsbD n

/-- A slice may start: in M5, its kind enabled, with no sag under way, on a block that R478 allows. -/
def mayStart (s : State) (k : TestKind) (u : Nat) : Bool :=
  let e := reg s 0xA000 1
  modeIn s [.m5] && !s.sup.frozen && !Fabric.draining s &&
    match k with
    | .bank => bit e 1 && decide (u < 2048) && lendable s u && ready s u && Banks.quiet (bank s u) &&
        (bank s u).leaving.isNone && (bank s u).rebuild.isNone
    | .engine => bit e 2 && decide (u < 132) && reg s 0x6000 6 != 0 && (Engines.physState s u == 1 || Engines.physState s u == 2)
    | .lane => bit e 0 && decide (u < 64) && !Lanes.enabled s u && !Lanes.retired s u
    | _ => bit e 0

/-- A slice starts: its block is borrowed. -/
def sliceStart (k : TestKind) (u : BitVec 12) (s : State) : State :=
  let n := u.toNat
  if !mayStart s k n || s.sup.tests.any (fun t => sameTest k n t && t.running) then s
  else
    let s := match k with
      | .bank => setBank n { bank s n with borrowed := true } s
      | .engine => Engines.setPhys n 2 s
      | _ => s
    if s.sup.tests.any (sameTest k n) then
      setTests (s.sup.tests.map fun t => if sameTest k n t then { t with running := true } else t) s
    else setTests (s.sup.tests ++ [{ kind := k, target := u, slices := 0, running := true }]) s

/-- A slice ends, and with the last one its test (R479, R481). -/
def sliceEnd (sl : Slice) (s : State) : State :=
  let n := sl.target.toNat
  match s.sup.tests.find? fun t => sameTest sl.kind n t && t.running with
  | none => s
  | some t =>
    let k := t.slices + 1
    let s := giveBack sl.kind n s
    if !sl.last then
      setTests (s.sup.tests.map fun x => if sameTest sl.kind n x then { x with running := false, slices := k } else x) s
    else
      let s := setTests (s.sup.tests.filter fun x => !sameTest sl.kind n x) s
      let s := if sl.kind = .engine then Engines.setPhys n 1 s else s
      let whole := k == sl.wantSlices.toNat && sl.coverage == sl.wantCoverage
      let outcome := if !whole then 2 else if sl.misr = sl.wantMisr then 0 else 1
      let s := result sl.kind n outcome k sl.coverage.toNat sl.misr.toNat sl.wantMisr.toNat s
      match outcome, testChannel sl.kind n sl.position with
      | 1, some c => observe c s
      | _, _ => s

/-- SELFTEST_SLICE. -/
def slice (sl : Slice) (s : State) : State := if sl.starts then sliceStart sl.kind sl.target s else sliceEnd sl s

/-- A write of 0xA000.04 (R481, R482): a bank that leaves lendable during its test is restored, and its test is cut. -/
def writeLendable (d : List Byte) (s : State) : Nat ⊕ State :=
  if d.length ≠ 256 then .inl 4
  else
    let m := BitVec.ofNat 2048 (le d)
    let s := { s with sup := { s.sup with lendable := m } }
    .inr (s.sup.tests.foldl (fun s t =>
      if t.kind = .bank ∧ !m.getLsbD t.target.toNat then broken 4 3 4 t.target.toNat (cutTest t s) else s) s)

/-! ### Faults and retirement (R483 to R488) -/

/-- The fields of a repair entry (R489). -/
def kind (e : Nat) : Nat := e / 2 ^ 60
def origin (e : Nat) : Nat := e / 2 ^ 58 % 4
def unit (e : Nat) : Nat := e / 2 ^ 32 % 65536
def position (e : Nat) : Nat := e % 256

/-- An entry with another ORIGIN. -/
def withOrigin (e o : Nat) : Nat := e - origin e * 2 ^ 58 + o * 2 ^ 58

/-- The steerings of a bank, soft and fused. -/
def steerings (s : State) (n : Nat) : List (Nat × Nat) :=
  spares (reg s (0x4800 + n) 9) ++ spares (fusedWord s n)

/-- The lowest free spare of a bank. -/
def freeSpare (s : State) (n : Nat) : Option Nat :=
  (List.range 4).find? fun k => !(steerings s n).any fun e => e.1 == k

/-- The channel of an entry is retired already. -/
def gone (s : State) (e : Nat) : Bool :=
  let u := unit e
  match kind e with
  | 1 => power s u == .retired || (steerings s u).any fun x => x.2 == position e
  | 2 => power s u == .retired
  | 3 => Engines.physState s u == 4
  | 4 => Lanes.retired s u
  | 5 => s.pool.retired.getLsbD u
  | _ => (Loader.facet s u).state == .retired

/-- Put an entry into the repair record. -/
def enter (e : Nat) (s : State) : State := { s with sup := { s.sup with repairs := s.sup.repairs ++ [e] } }

/-- The regulator of a region. -/
def supply (s : State) (r : Nat) : Supply := Table.get (fun _ => s.sup.supplyBase) s.sup.supplies r

/-- Store it. -/
def setSupply (r : Nat) (x : Supply) (s : State) : State :=
  { s with sup := { s.sup with supplies := Table.put (fun _ => s.sup.supplyBase) s.sup.supplies r x } }

/-- Retirement of facet r (R486, R487, R492). -/
def retireFacet (r : Nat) (s : State) : State :=
  let timed := Loader.hasTimed s r
  let target := reg s (0x1400 + r) 1 != 0
  let s := Fabric.isolate r 4 s
  let s := Loader.defaultFrames r s
  let s := Loader.setFacet r { state := .retired } s
  let s := if Loader.partialOf s = some r then Loader.fail 0x0F 0 s else s
  let s := setSupply r { supply s r with v := 550, short := false, good := 0 } s
  let s := if timed then broken 2 1 1 r s else s
  if target then broken 3 1 2 r s else s

/-- Retirement of a lane (R354, R365, R369, R492). -/
def retireLane (n : Nat) (s : State) : State :=
  let bonded := (Lanes.bondOf s n).isSome
  let port := (Lanes.portOf s n).any fun f => Lanes.portRuns s f
  let s := Lanes.retire n s
  if bonded || port then broken 3 1 2 n s else s

/-- Steer a spare into a bank column, or retire the bank when no spare is free; the entry made (R196, R483, R484). -/
def retireColumn (n b o : Nat) (s : State) : State :=
  match freeSpare s n with
  | some k =>
    let v := reg s (0x4800 + n) 9
    let v := clearBits v (0xFF * 2 ^ (8 * k)) + (128 + b) * 2 ^ (8 * k)
    enter (2 ^ 60 + o * 2 ^ 58 + n * 2 ^ 32 + k * 256 + b) (Banks.applyRepair n v s)
  | none => enter (2 * 2 ^ 60 + o * 2 ^ 58 + n * 2 ^ 32) (Banks.retire n s)

/-- Retire the channel of an entry (R485, R486). A bank column waits while a rebuild of its bank runs (R487). -/
def retire (e o : Nat) (s : State) : State :=
  let u := unit e
  let mine := kind e * 2 ^ 60 + o * 2 ^ 58 + u * 2 ^ 32
  match kind e with
  | 1 =>
    if (bank s u).rebuild.isSome then { s with sup := { s.sup with waiting := s.sup.waiting ++ [withOrigin e o] } }
    else retireColumn u (position e) o s
  | 2 => enter mine (Banks.retire u s)
  | 3 => enter mine (Engines.retirePhysical u s)
  | 4 => enter mine (retireLane u s)
  | 5 => enter mine (Queues.retireSubBank u s)
  | _ => enter mine (retireFacet u s)

/-- A rebuild has ended: a column that waited for it is steered (R487). -/
def afterRebuild (n : Nat) (s : State) : State :=
  if (bank s n).rebuild.isSome then s
  else
    match s.sup.waiting.find? fun e => unit e == n with
    | none => s
    | some e =>
      let s := { s with sup := { s.sup with waiting := s.sup.waiting.erase e } }
      if gone s e then s else retireColumn n (position e) (origin e) s

/-- The last fault: its channel, the time, its class and the retries made (R488). -/
def recordFault (e class' retries : Nat) (s : State) : State :=
  let l := bytes 8 e ++ time80 s.time.sec s.time.ns ++ bytes 1 class' ++ bytes 1 retries ++ bytes 4 0
  { s with sup := { s.sup with lastFault := l } }

/-- A fault is permanent: its channel is retired (R484). -/
def permanent (e retries : Nat) (s : State) : State :=
  let s := { s with sup := { s.sup with watches := s.sup.watches.filter fun w => w.entry != e } }
  let s := recordFault e 1 retries (bump 0xA010 3 s)
  raise 372 (retire e 1 s)

/-- One observation (R483, R484): the first opens a window, a second one makes the fault permanent. A corrected error of a
fifth position is the bank's. -/
def observed (e : Nat) (s : State) : State :=
  let e := if kind e = 1 ∧ (freeSpare s (unit e)).isNone then channel 2 (unit e) 0 else e
  if gone s e then s
  else
    match s.sup.watches.find? fun w => w.entry == e with
    | some w => permanent e w.retries s
    | none =>
      let w : Watch := { entry := e, opened := (launch s).toNat, retries := 0 }
      { s with sup := { s.sup with watches := s.sup.watches ++ [w] } }

/-- Act on what the command observed, on tests that service has ended, and on columns that waited for a rebuild. -/
def drain (s : State) : State :=
  let l := s.sup.observed
  let s := if l.isEmpty && s.sup.tests.isEmpty then s
    else reap (l.foldl (fun s e => observed e s) { s with sup := { s.sup with observed := [] } })
  s.sup.waiting.foldl (fun s e => afterRebuild (unit e) s) s

/-- The entry of a channel (R489). -/
def entryOf : FaultChannel → Nat
  | .column n b => channel 1 n b
  | .bank n => channel 2 n 0
  | .engine p => channel 3 p 0
  | .lane n => channel 4 n 0
  | .subBank b => channel 5 b 0
  | .facet r => channel 6 r 0

/-- The launch counts of a ms (R132). -/
def ms : Nat := 16000000

/-- A retry at 1, 4 or 16 ms (R484). -/
def retry (ch : FaultChannel) (again : Bool) (s : State) : State :=
  let e := entryOf ch
  match s.sup.watches.find? fun w => w.entry == e with
  | none => s
  | some w =>
    let at' := [1, 4, 16].getD w.retries 0
    if at' = 0 ∨ (launch s).toNat < w.opened + at' * ms then s
    else if again then permanent e (w.retries + 1) s
    else
      let l := s.sup.watches.map fun (x : Watch) => if x.entry = e then { x with retries := x.retries + 1 } else x
      { s with sup := { s.sup with watches := l } }

/-- A fault window closes with no further observation (R484). -/
def windowClose (ch : FaultChannel) (s : State) : State :=
  let e := entryOf ch
  match s.sup.watches.find? fun w => w.entry == e with
  | none => s
  | some w =>
    if (launch s).toNat < w.opened + reg s 0xA010 1 * ms then s
    else
      let s := { s with sup := { s.sup with watches := s.sup.watches.filter fun x => x.entry != e } }
      raise 371 (recordFault e 0 w.retries (bump 0xA010 2 s))

/-- KIND, UNIT or POSITION is out of range (R488, R489). -/
def outOfRange (e : Nat) : Bool :=
  let u := unit e
  match kind e with
  | 1 => decide (2048 ≤ u) || decide (72 ≤ position e)
  | 2 => decide (2048 ≤ u)
  | 3 => decide (132 ≤ u)
  | 4 => decide (64 ≤ u)
  | 5 => decide (128 ≤ u)
  | 6 => decide (512 ≤ u)
  | _ => true

/-- The physical engine is the last one in service of its group (R488). -/
def lastEngine (s : State) (p : Nat) : Bool :=
  ((List.range 33).filter fun k => Engines.physState s (33 * (p / 33) + k) ≠ 4).length ≤ 1

/-- A retire request (R488). -/
def retireRequest (e : Nat) (s : State) : Nat ⊕ State :=
  let c := channel (kind e) (unit e) (if kind e = 1 then position e else 0)
  if outOfRange e || gone s c || (kind e == 3 && lastEngine s (unit e)) then .inl 4 else .inr (permanent c 0 s)

/-! ### The repair record and its fuses (R489 to R491) -/

/-- Fuse rows not yet used. -/
def freeRows (s : State) : Nat := 4096 - s.nv.repairs.length - s.nv.wasted

/-- The record's entry that matches one in every field but ORIGIN. -/
def matching (s : State) (e : Nat) : Option Nat :=
  (Security.record s).find? fun x => withOrigin x 0 == withOrigin e 0

/-- The checks of a fuse repair and the start of the blow (R490). -/
def fuse (t : Transport) (e : Nat) (s : State) : Nat ⊕ State :=
  match matching s e with
  | none => .inl 4
  | some x =>
    if origin x = 2 ∨ kind e = 6 ∨ freeRows s = 0 then .inl 4
    else if warned s || s.sup.blowing.isSome || !s.sec.revoking.isEmpty ||
        (kind e == 1 && (bank s (unit e)).rebuild.isSome) then .inl 5
    else .inr { s with sup := { s.sup with blowing := some (x, t) } }

/-- The blow completes (R490): ORIGIN becomes 2, and a soft steering becomes a fused one with the same spare. -/
def blown (x : Nat) (s : State) : State :=
  let n := unit x
  let s := { s with
    sup := { s.sup with blowing := none, repairs := s.sup.repairs.erase x }
    nv := { s.nv with repairs := s.nv.repairs ++ [withOrigin x 2] } }
  let s := if kind x = 1 then
      let m := 0xFF * 2 ^ (8 * (x / 256 % 4))
      setBank n { bank s n with steer := clearBits (bank s n).steer m }
        (setReg (0x4800 + n) 9 (clearBits (reg s (0x4800 + n) 9) m) s)
    else s
  raise 374 s

/-- A warning ends a blow before its commit bit: the row is spent (R491). -/
def spoil (s : State) : State :=
  { s with
    sup := { s.sup with blowing := none }
    nv := { s.nv with wasted := s.nv.wasted + 1 } }

/-- What fused repairs retire at every entry to M1 (R485). -/
def applyFuses (s : State) : State :=
  s.nv.repairs.foldl (fun s e =>
    let u := unit e
    match kind e with
    | 3 => Engines.setPhys u 4 s
    | 4 =>
      let x : Lane := { Lanes.lane s u with st := .retired }
      Lanes.setLane u x { s with sup := { s.sup with retiredLanes := s.sup.retiredLanes ||| BitVec.twoPow 64 u } }
    | 5 => { s with pool := { s.pool with retired := s.pool.retired ||| BitVec.twoPow 128 u } }
    | _ => s) s

/-- The engines of group g mapped afresh (R232, R274): the logical engines in ascending order onto the engines that are not
retired, the spare the highest of them; those that find none are Lost. -/
def mapGroup (g : Nat) (s : State) : State :=
  let good := (List.range 33).filter fun k => Engines.physState s (33 * g + k) ≠ 4
  let s := (good.zipIdx).foldl (fun s e => Engines.setPhys (33 * g + e.1) (if e.2 < 32 then 0 else 1) s) s
  (List.range 32).foldl (fun s i =>
    let n := 32 * g + i
    match good[i]? with
    | some k => { s with eng := { s.eng with
        physical := Table.put (fun n => 33 * (n / 32) + n % 32) s.eng.physical n (33 * g + k) } }
    | none => Engines.lose n s) s

/-- The mapping of the M0 to M1 transition (R274). -/
def mapEngines (s : State) : State := (List.range 4).foldl (fun s g => mapGroup g s) s

/-- At a warm entry to M1 the retirements of the run end (R485): a physical engine that was retired is again in service, or
the spare; a logical engine without one of its own takes the spare, or is Lost. -/
def unretireGroup (g : Nat) (s : State) : State :=
  let fused (p : Nat) : Bool := s.nv.repairs.any fun e => kind e == 3 && unit e == p
  let s := (List.range 33).foldl (fun s k =>
    let p := 33 * g + k
    if fused p then Engines.setPhys p 4 s
    else Engines.setPhys p (if (Engines.servedBy s p).isSome then 0 else 1) s) s
  (List.range 32).foldl (fun s i =>
    let n := 32 * g + i
    let p := Engines.physical s n
    if Engines.physState s p ≠ 4 ∧ !((List.range i).any fun j => Engines.physical s (32 * g + j) == p) then s
    else
      match Engines.spareOf s g with
      | some p => Engines.setPhys p 0 { s with eng := { s.eng with
          physical := Table.put (fun n => 33 * (n / 32) + n % 32) s.eng.physical n p } }
      | none => Engines.lose n s) s

/-- Entry to M1: every retirement of the run ends, and the fused ones hold (R485). Faults under observation, tests and a
blow in progress end. -/
def endRetirements (s : State) : State :=
  let s := { s with
    facets := [], facetBase := {}
    pool := { s.pool with retired := 0 }
    sup := { s.sup with repairs := [], watches := [], tests := [], waiting := [], observed := [] } }
  applyFuses ((List.range 4).foldl (fun s g => unretireGroup g s) s)

/-! ### Rails (R463 to R466, R520) -/

/-- The thresholds of R463 in mV. -/
def warnBelow : Rail → Nat | .vcore => 720 | .vaux => 1710
def warnClears : Rail → Nat | .vcore => 740 | .vaux => 1730
def resetBelow : Rail → Nat | .vcore => 660 | .vaux => 1620
def resetClears : Rail → Nat | .vcore => 680 | .vaux => 1640

/-- A rail is measured. -/
def measure (r : Rail) (mv : Nat) (s : State) : State :=
  match r with
  | .vcore => { s with sup := { s.sup with vcore := mv } }
  | .vaux => { s with sup := { s.sup with vaux := mv } }

/-- The warning comparator of a rail. -/
def railWarned (s : State) : Rail → Bool
  | .vcore => s.sup.coreWarn
  | .vaux => s.sup.auxWarn

/-- The reset comparator of a rail. -/
def railReset (s : State) : Rail → Bool
  | .vcore => s.sup.coreReset
  | .vaux => s.sup.auxReset

/-- Set a rail's comparators. -/
def setWarn (r : Rail) (b : Bool) (s : State) : State :=
  match r with
  | .vcore => { s with sup := { s.sup with coreWarn := b, coreLatched := s.sup.coreLatched || b } }
  | .vaux => { s with sup := { s.sup with auxWarn := b, auxLatched := s.sup.auxLatched || b } }
def setReset (r : Rail) (b : Bool) (s : State) : State :=
  match r with
  | .vcore => { s with sup := { s.sup with coreReset := b } }
  | .vaux => { s with sup := { s.sup with auxReset := b } }

/-- The event source of a rail's warning (R494). -/
def warnSource : Rail → Nat | .vcore => 384 | .vaux => 386

/-- A rail has stayed below its warning level (R464 step 1): the reply that a fuse blow ends with is the caller's. -/
def warning (r : Rail) (mv : Nat) (s : State) : State :=
  let s := measure r mv s
  if warnBelow r ≤ mv then s
  else if railWarned s r then s
  else
    let s := setWarn r true { s with sup := { s.sup with frozen := true } }
    let s := track (warnSource r) true s
    let s := s.sup.tests.foldl (fun s t => if t.running then abandonSlice t s else s) s
    Pins.alarmPins s

/-- A rail has stayed below its reset level (R37, R463, R466): the reset trigger's cause is 4 or 5. The ladder of the sag is
left. -/
def belowReset (r : Rail) (mv : Nat) (s : State) : State :=
  if resetBelow r ≤ mv then measure r mv s
  else
    let s := setReset r true (warning r mv s)
    { s with modes := { s.modes with resetDue := some (match r with | .vcore => 4 | .vaux => 5) } }

/-- A rail has stayed at or above its warning-clear level (R464 steps 3 to 5). A dip that reached the reset level has left the
ladder: nothing is counted (R466). -/
def recovered (r : Rail) (mv : Nat) (s : State) : State :=
  let s := measure r mv s
  let was := railReset s r
  let s := if resetClears r ≤ mv then setReset r false s else s
  if mv < warnClears r ∨ !railWarned s r then s
  else
    let s := track (warnSource r) false (setWarn r false s)
    let v := reg s 0x1010 7
    let s := if was then s
      else match r with
        | .vcore => setReg 0x1010 7 (v / 65536 * 65536 + (v % 65536 + 1) % 65536) s
        | .vaux => setReg 0x1010 7 ((v / 65536 + 1) % 65536 * 65536 + v % 65536) s
    if warned s then s
    else
      let s := if was then s else raise 385 s
      { s with sup := { s.sup with frozen := false } }

/-- VPHY and VPHYH within R513. -/
def phyGood (vphy vphyh : Nat) : Bool :=
  decide (870 ≤ vphy) && decide (vphy ≤ 930) && decide (1160 ≤ vphyh) && decide (vphyh ≤ 1240)

/-- VBAT leaves its range: the battery-backed key is lost (R291). -/
def vbatLoss (mv : Nat) (s : State) : State :=
  let s := { s with sup := { s.sup with vbat := mv } }
  if 2000 ≤ mv ∧ mv ≤ 3600 then s else Security.setBattery none s

/-! ### Temperature (R467) -/

/-- The greatest reading of a sweep and the first sensor that gave it. -/
def hottest : Nat → List Int → Option (Int × Nat)
  | _, [] => none
  | i, v :: rest =>
    match hottest (i + 1) rest with
    | some (w, j) => if v < w then some (w, j) else some (v, i)
    | none => some (v, i)

/-- The code of 0x1010.09: 16 sensors on each fabric die, then those of B. -/
def sensorCode (i : Nat) : Nat := if i < 64 then i / 16 * 256 + i % 16 else 4 * 256 + (i - 64)

/-- A sweep of all sensors (R467). -/
def sweep (l : List Int) (s : State) : State :=
  match hottest 0 l with
  | none => s
  | some (v, i) =>
    let t : Int := 10 * reg s 0x1010 0x0A
    let s := { s with sup := { s.sup with hottest := v, sensor := sensorCode i } }
    let s := if t ≤ v ∧ s.sup.warnArmed then raise 388 { s with sup := { s.sup with warnArmed := false } }
      else if v ≤ t - 50 then { s with sup := { s.sup with warnArmed := true } } else s
    Pins.alarmPins s

/-- The junction is below 95 °C (R37, R40). -/
def cool (s : State) : Bool := !s.modes.tripped && decide (s.sup.hottest < 950)

/-- A thermal trip (R40, R467): its event and count; what it does to the mode is taken before the command ends. -/
def trip (s : State) : State :=
  let s := raise 387 (bump 0x1010 0x0B { s with modes := { s.modes with tripped := true } })
  if modeIn s [.m3, .m4, .m5] then { s with modes := { s.modes with tripDue := true } } else s

/-- Every sensor reads below 95 °C (R467). -/
def tripClear (s : State) : State :=
  if s.sup.hottest < 950 then { s with modes := { s.modes with tripped := false } } else s

/-! ### Adaptive voltage (R469 to R475) -/

/-- Pmax of R82 in ps, by the row of the highest listed voltage that does not exceed the argument. -/
def pmax (v : Nat) : Nat :=
  if 850 ≤ v then 420 else if 800 ≤ v then 470 else if 750 ≤ v then 530 else if 700 ≤ v then 620
  else if 650 ≤ v then 740 else if 600 ≤ v then 900 else 1100

/-- A supply's headroom (R472): mV in bits 31 to 16, per mille in bits 15 to 0. -/
def headroom (v ceiling : Nat) : Nat := (ceiling - v) * 65536 + (1000 * pmax v / pmax ceiling - 1000)

/-- The token count of a region for its rate (R124). -/
def tokens (s : State) (r : Nat) : Nat :=
  let x := Fabric.lens s r
  if (Frames.probes s.fab.frames r).isEmpty then (x.tokensIn + x.tokensOut).toNat else x.probeTokens.toNat

/-- What a region's regulator notes at the start of a window: the counters, and the target and limits that apply (R470,
R474). -/
def note (s : State) (r : Nat) (x : Supply) : Supply :=
  { x with
    tokens0 := tokens s r
    stall0 := (Fabric.lens s r).stallSamples.toNat
    wait0 := (Fabric.lens s r).waitSamples.toNat
    target := reg s (0x1400 + r) 1
    fixed := reg s (0x1400 + r) 2
    floor := reg s (0x1400 + r) 3
    ceiling := reg s (0x1400 + r) 4 }

/-- A new window begins (R470). -/
def startWindow (s : State) : State :=
  let s := { s with sup := { s.sup with windowStart := (launch s).toNat } }
  let s := (List.range 512).foldl (fun s r => setSupply r (note s r (supply s r)) s) s
  (List.range 4).foldl (fun s g =>
    let t := Table.modify (fun _ => ({} : GroupSupply)) s.sup.groups g fun x =>
      { x with target := reg s (0x1600 + g) 1, fixed := reg s (0x1600 + g) 2 }
    { s with sup := { s.sup with groups := t } }) s

/-- One region's window (the pseudocode of R471). -/
def step (s : State) (r : Nat) (x : Supply) : Supply :=
  let guard := reg s 0x1300 3
  let hold := reg s 0x1300 4
  let drift := reg s 0x1300 5
  let thr := reg s 0x1300 2
  let busy := decide (thr ≤ x.wait) && !decide (thr ≤ x.stall)
  let idle := !decide (thr ≤ x.stall) && !decide (thr ≤ x.wait)
  if s.sup.frozen || (Fabric.collar s r).isolate || (Loader.facet s r).state == .retired then x
  else if x.ceiling < x.v then { x with v := x.v - 5, good := 0 }
  else if x.v < x.floor then { x with v := x.v + 5, good := 0 }
  else if x.target = 0 then
    let want := max x.floor (min x.ceiling x.fixed)
    { x with short := false, good := 0, v := if x.v < want then x.v + 5 else if want < x.v then x.v - 5 else x.v }
  else
    let x :=
      if busy ∧ x.rate < x.target then
        if x.v < x.ceiling then { x with v := x.v + 5, good := 0 } else { x with good := 0, short := true }
      else if busy ∧ x.target * (1000 + guard) ≤ 1000 * x.rate then
        if hold ≤ x.good + 1 ∧ x.floor < x.v then { x with v := x.v - 5, good := 0 } else { x with good := x.good + 1 }
      else if busy then { x with good := 0, prefOk := x.pref }
      else if idle ∧ x.prefOk * (1000 + drift) < 1000 * x.pref ∧ x.v < x.ceiling then
        { x with v := x.v + 5, prefOk := x.pref }
      else x
    if x.v < x.ceiling ∨ (busy ∧ x.target ≤ x.rate) then { x with short := false } else x

/-- The counts of steps up and down follow a change of a set value. -/
def countSteps (r old new : Nat) (s : State) : State :=
  if old < new then bump (0x1400 + r) 0x11 s else if new < old then bump (0x1400 + r) 0x12 s else s

/-- A region's window ends (R470 to R472, R492). -/
def regionWindow (r : Nat) (pref : Option Nat) (s : State) : State :=
  let x := supply s r
  let w := reg s 0x1300 1
  let d (now before bits : Nat) : Nat := (now + 2 ^ bits - before) % 2 ^ bits
  let x := { x with
    rate := d (tokens s r) x.tokens0 48 / (1000 * w)
    stall := 1000 * d (Fabric.lens s r).stallSamples.toNat x.stall0 48 / (100000 * w)
    wait := 1000 * d (Fabric.lens s r).waitSamples.toNat x.wait0 48 / (100000 * w)
    pref := pref.getD x.pref }
  let y := step s r x
  let s := countSteps r x.v y.v (setSupply r y s)
  if y.short && !x.short then broken 3 0 6 r (raise 375 s) else s

/-- One engine group's window (R473). -/
def groupStep (s : State) (x : GroupSupply) : GroupSupply :=
  let guard := reg s 0x1300 3
  let hold := reg s 0x1300 4
  if s.sup.frozen then x
  else if x.target = 0 then
    { x with short := false, good := 0, v := if x.v < x.fixed then x.v + 5 else if x.fixed < x.v then x.v - 5 else x.v }
  else if x.target < x.pref then
    if x.v < 850 then { x with v := x.v + 5, good := 0, short := false } else { x with good := 0, short := true }
  else if 1000 * x.pref < x.target * (1000 - guard) then
    if hold ≤ x.good + 1 ∧ 550 < x.v then { x with v := x.v - 5, good := 0, short := false }
    else { x with good := x.good + 1, short := false }
  else { x with good := 0, short := false }

/-- A group's regulator. -/
def group (s : State) (g : Nat) : GroupSupply := Table.get (fun _ => {}) s.sup.groups g

/-- An engine group's window ends (R473, R492). -/
def groupWindow (g : Nat) (pref : Option Nat) (s : State) : State :=
  let x := { group s g with pref := pref.getD (group s g).pref }
  let y := groupStep s x
  let s := { s with sup := { s.sup with groups := Table.put (fun _ => {}) s.sup.groups g y } }
  if y.short && !x.short then broken 3 0 6 g (raise 376 s) else s

/-- A window of the grid ends, and the next begins (R470). -/
def windowEnd (pref : List (Fin 512 × W16)) (groupPref : List W16) (s : State) : State :=
  if !modeIn s [.m5] || decide ((launch s).toNat < s.sup.windowStart + reg s 0x1300 1 * ms) then s
  else
    let s := (List.range 512).foldl (fun s r =>
      regionWindow r ((pref.find? fun e => e.1.val == r).map fun e => e.2.toNat) s) s
    let s := (List.range 4).foldl (fun s g => groupWindow g (groupPref[g]?.map fun v => v.toNat) s) s
    startWindow s

/-- Every set value, but for those of retired facets. -/
def everySupply (f : Supply → Supply) (h : GroupSupply → GroupSupply) (s : State) : State :=
  let base := s.sup.supplyBase
  let retired (r : Nat) : Bool := (Loader.facet s r).state == .retired
  let listed := s.sup.supplies.map fun (e : Nat × Supply) => (e.1, if retired e.1 then e.2 else f e.2)
  let groups := (List.range 4).foldl (fun t g => Table.modify (fun _ => ({} : GroupSupply)) t g h) s.sup.groups
  { s with sup := { s.sup with
      supplyBase := f base, supplies := listed.filter fun e => e.2 != f base, groups := groups } }

/-- Outside M5 and M6 every set value is 0.75 V (R469). -/
def nominal (s : State) : State :=
  everySupply (fun x => { x with v := 750, short := false, good := 0, prefOk := 0, target := 0 })
    (fun x => { x with v := 750, short := false, good := 0, target := 0 }) s

/-- Entry to M6: every set value is the retention level (R38, R469). -/
def retention (s : State) : State := everySupply (fun x => { x with kept := x.v, v := 550 }) (fun x => { x with
    kept := x.v, v := 550 }) s

/-- Exit from M6: each returns to its value before entry (R39). -/
def restore (s : State) : State := everySupply (fun x => { x with v := x.kept }) (fun x => { x with v := x.kept }) s

/-- The state code of R475. -/
def supplyState (s : State) (r : Nat) : Nat :=
  let x := supply s r
  if (Loader.facet s r).state = .retired then 6
  else if modeIn s [.m6] then 5
  else if x.target = 0 then 0
  else if s.sup.frozen then 4
  else if x.short then 2
  else if x.v = x.floor then 3 else 1

/-- The state code of an engine group. -/
def groupState (s : State) (g : Nat) : Nat :=
  let x := group s g
  if modeIn s [.m6] then 5
  else if x.target = 0 then 0
  else if s.sup.frozen then 4
  else if x.short then 2
  else if x.v = 550 then 3 else 1

/-! ### Survey (R476, R477) -/

/-- Survey's results for the banks: each failing position takes the lowest free spare; a bank with more than four failing
positions, fused ones included, is retired. -/
def surveyColumns (l : List (Fin 2048 × Fin 72)) (s : State) : State :=
  let banks := (l.map fun e => e.1.val).eraseDups
  banks.foldl (fun s n =>
    let fused := (spares (fusedWord s n)).map fun e => e.2
    let bad := ((l.filterMap fun e => if e.1.val = n then some e.2.val else none).eraseDups).filter
      fun b => !fused.contains b
    if power s n = .retired then s
    else if 4 < bad.length + fused.length then enter (2 * 2 ^ 60 + n * 2 ^ 32) (Banks.retire n s)
    else bad.foldl (fun s b => retireColumn n b 0 s) s) s

/-- Results applied (R477). -/
def surveyResults (r : SurveyResult) (s : State) : State :=
  let apply (e : Nat) (s : State) : State := if gone s e then s else retire e 0 s
  let s := surveyColumns r.columns s
  let s := (r.subBanks.map (·.val)).foldl (fun s b => apply (channel 5 b 0) s) s
  let s := (r.engines.map (·.val)).foldl (fun s p => apply (channel 3 p 0) s) s
  (r.lanes.map (·.val)).foldl (fun s n => apply (channel 4 n 0) s) s

/-- A step of Survey completes (R476). Survey is suspended by a thermal trip (R40), and a step that ran while a warning was
asserted is run again (R466). -/
def surveyStep (r : SurveyResult) (s : State) : State :=
  let k := s.modes.surveyStep
  let failed (s : State) : State := { s with modes := { s.modes with fuseDue := true } }
  if !modeIn s [.m2] || s.modes.tripped || warned s || decide (4 ≤ k) then s
  else if k = 0 ∧ !r.fuseGood then failed s
  else if k < 3 then { s with modes := { s.modes with surveyStep := k + 1 } }
  else if !r.mirrorGood then failed s
  else
    let s := Banks.onSurvey (surveyResults r s)
    raise 368 { s with modes := { s.modes with surveyStep := 4 } }

/-! ### Objects -/

/-- What a read of a supervisor object returns where the stored value is not it. -/
def readSub (s : State) (c : Context) (index sub : Nat) : Option Nat :=
  let b (v : Bool) (i : Nat) : Nat := if v then 2 ^ i else 0
  if index = 0x1010 then
    match sub with
    | 1 => some s.sup.vcore
    | 2 => some s.sup.vphy
    | 3 => some s.sup.vphyh
    | 4 => some s.sup.vaux
    | 5 => some s.sup.vbat
    | 6 => some (b s.sup.auxWarn 3 + b s.sup.coreWarn 2 + b s.sup.auxLatched 1 + b s.sup.coreLatched 0)
    | 8 => some (unsigned 32 s.sup.hottest)
    | 9 => some s.sup.sensor
    | 0x0D => some s.sup.drainRegion
    | _ => none
  else if index = 0x1020 then
    match sub with
    | 1 => some Config.firmwareVersion.toNat
    | 2 => some Config.firmwareHash.toNat
    | 3 => some Config.selftestVersion.toNat
    | 4 => some Config.selftestHash.toNat
    | _ => none
  else if 0x1400 ≤ index ∧ index < 0x1600 then
    let r := index - 0x1400
    let x := supply s r
    let y := Fabric.lens s r
    match sub with
    | 5 => some x.v
    | 6 => some (supplyState s r)
    | 7 => some (if modeIn s [.m5] then headroom x.v (reg s index 4) else 0)
    | 8 => some (x.rate % 2 ^ 32)
    | 9 => some (x.wait * 65536 + x.stall)
    | 0x0A => some (x.pref % 65536)
    | 0x0B => some y.tokensIn.toNat
    | 0x0C => some y.tokensOut.toNat
    | 0x0D => some y.probeTokens.toNat
    | 0x0E => some y.stallSamples.toNat
    | 0x0F => some y.waitSamples.toNat
    | 0x10 => some y.codeErrors.toNat
    | _ => none
  else if 0x1600 ≤ index ∧ index < 0x1604 then
    let g := index - 0x1600
    match sub with
    | 3 => some (group s g).v
    | 4 => some (group s g).pref
    | 5 => some (groupState s g)
    | _ => none
  else if index = 0xA000 then
    match sub with
    | 4 => some s.sup.lendable.toNat
    | 8 => some (le s.sup.lastResult)
    | _ => none
  else if index = 0xA010 ∧ sub = 4 then some (le s.sup.lastFault)
  else if index = 0xA030 then
    match sub with
    | 1 => some c.repairSelect
    | 3 => some (Security.record s).length
    | 4 => some (le (Security.repairDigest s))
    | 6 => some (le (Security.repairCounts s))
    | 7 => some (freeRows s)
    | _ => none
  else none

/-- 0xA030.02: the count, then up to 512 entries from the select (R491). -/
def readEntries (s : State) (c : Context) : List Byte :=
  let l := Security.record s
  bytes 4 l.length ++ ((l.drop c.repairSelect).take 512).flatMap fun e => bytes 8 e

/-- A voltage that a regulator cannot give (R469, R474). -/
def badVoltage (v : Nat) : Bool := v % 5 != 0 || decide (v < 550) || decide (850 < v)

/-- A write of a supervisor sub that does more than store. -/
def writeSub (index sub : Nat) (d : List Byte) (s : State) : Option (Nat ⊕ State) :=
  let v := le d
  let ranged (lo hi : Nat) : Option (Nat ⊕ State) := if v < lo ∨ hi < v then some (.inl 4) else none
  if index = 0x1010 then
    match sub with
    | 6 => some (.inr (Pins.alarmPins { s with sup := { s.sup with
        coreLatched := s.sup.coreLatched && !bit v 0, auxLatched := s.sup.auxLatched && !bit v 1 } }))
    | 0x0A => some (if v < 60 ∨ 104 < v then .inl 4 else .inr (Pins.alarmPins (setReg index sub v s)))
    | _ => none
  else if index = 0x1020 then (if sub = 5 then some (Pins.releaseSupervisor v s) else none)
  else if index = 0x1300 then
    match sub with
    | 1 => some (if v < 1 ∨ 1000 < v then .inl 4
        else .inr (if modeIn s [.m5] then startWindow (setReg index sub v s) else setReg index sub v s))
    | 2 => ranged 1 500
    | 3 => ranged 0 500
    | 4 => ranged 1 1000
    | 5 => ranged 1 100
    | _ => none
  else if 0x1400 ≤ index ∧ index < 0x1600 then
    let f := if sub = 3 then v else reg s index 3
    let c := if sub = 4 then v else reg s index 4
    let x := if sub = 2 then v else reg s index 2
    if 2 ≤ sub ∧ sub ≤ 4 ∧ (badVoltage v ∨ c < f ∨ x < f ∨ c < x) then some (.inl 4) else none
  else if 0x1600 ≤ index ∧ index < 0x1604 then (if sub = 2 ∧ badVoltage v then some (.inl 4) else none)
  else if index = 0xA000 then
    match sub with
    | 2 => ranged 60 86400
    | 3 => ranged 100 60000
    | 4 => some (writeLendable d s)
    | _ => none
  else if index = 0xA010 then
    match sub with
    | 1 => ranged 1000 600000
    | 5 => some (retireRequest v s)
    | _ => none
  else none

end Sys2Proof.Machine.Super
end

