-- ==== Sys2Proof/Machine/Transports.lean ====
section
/-!
DEFINITION. The transports of the dictionary: contexts, the mailbox, the CAN ports, and how a reply reaches its client
(R411 to R424, R427).
-/

namespace Sys2Proof.Machine.Transports

open Sys2Proof.Machine.Ops

/-- What a transport keeps for itself (R413). -/
def context (s : State) : Transport → Context
  | .mailbox => s.ctxMailbox
  | .can0 => s.ctxCan0
  | .can1 => s.ctxCan1

/-- Store it. -/
def setContext (t : Transport) (c : Context) (s : State) : State :=
  match t with
  | .mailbox => { s with ctxMailbox := c }
  | .can0 => { s with ctxCan0 := c }
  | .can1 => { s with ctxCan1 := c }

/-- The CAN port of a transport. -/
def portOf : Transport → Option Nat
  | .mailbox => none
  | .can0 => some 0
  | .can1 => some 1

/-- The transport of a CAN port. -/
def ofPort (p : Nat) : Transport := if p = 0 then .can0 else .can1

/-! ### CAN ports -/

/-- A port is enabled, 0x1101 + p sub 0x01. -/
def enabled (s : State) (p : Nat) : Bool := reg s (0x1101 + p) 1 == 1

/-- The node ID puts both ports in listen-only mode (R419). -/
def listenOnly (s : State) : Bool := s.modes.ndId == 0

/-- The state code of 0x1101 + p sub 0x02 (R427). -/
def canState (s : State) (p : Nat) : Nat :=
  let c := can s p
  if !enabled s p then 0
  else if c.busOff then 3
  else if listenOnly s then 4
  else if 128 ≤ c.txErr ∨ 128 ≤ c.rxErr then 2 else 1

/-- The port takes requests and sends frames. -/
def canLive (s : State) (p : Nat) : Bool := canState s p == 1 || canState s p == 2

/-- A change of a port, with its event where its state changes (R432). -/
def change (p : Nat) (f : State → State) (s : State) : State :=
  let t := f s
  if canState t p = canState s p then t else raise (417 + p) t

/-- The smallest CAN FD data length that holds `n` bytes (R421). -/
def dataLength (n : Nat) : Nat := (([0, 1, 2, 3, 4, 5, 6, 7, 8, 12, 16, 20, 24, 32, 48, 64].find? fun k => decide (n ≤ k))).getD 64

/-- The bytes of a frame filled up to its data length. -/
def padded (d : List Byte) : List Byte := d ++ List.replicate (dataLength d.length - d.length) 0

/-- A 29-bit identifier (R420). -/
def identifier (func target source : Nat) : Nat := func * 2 ^ 24 + target * 2 ^ 17 + source * 2 ^ 10

/-- Send one frame and count it. -/
def sendFrame (p ident : Nat) (d : List Byte) (s : State) : State := bump (0x1101 + p) 5 (emit (.can p ident (padded d)) s)

/-- The segments after the first frame: 62 bytes each, the last of KIND 3 (R421). -/
def segments : Nat → Nat → Nat → List Byte → List (List Byte)
  | 0, _, _, _ => []
  | fuel + 1, seg, tid, d =>
    let last := decide (d.length ≤ 62)
    let ctl := (if last then 0xC0 else 0x80) + seg % 64
    (bytes 1 ctl ++ bytes 1 tid ++ d.take 62) :: (if last then [] else segments fuel (seg + 1) tid (d.drop 62))

/-- The frames of a reply (R421). -/
def replyFrames (tid : Nat) (r : Reply) : List (List Byte) :=
  let single := decide (r.data.length ≤ 52)
  let head := bytes 1 (if single then 0 else 0x40) ++ bytes 1 tid ++ bytes 1 r.op ++ bytes 1 r.err ++ bytes 2 r.index ++
    bytes 1 r.sub ++ bytes 1 0 ++ bytes 4 r.data.length
  (head ++ r.data.take 52) :: (if single then [] else segments r.data.length 1 tid (r.data.drop 52))

/-- Send a reply to a client of port p, unless the port cannot send (R421, R427). -/
def sendReply (p client tid : Nat) (r : Reply) (s : State) : State :=
  if !canLive s p then s
  else (replyFrames tid r).foldl (fun s f => sendFrame p (identifier 2 client s.modes.ndId.toNat) f s) s

/-- The oldest queued notice is sent (R424). -/
def sendNotice (p : Nat) (s : State) : State :=
  let c := can s p
  match c.notices with
  | [] => s
  | n :: rest =>
    if !canLive s p then s
    else
      let d := bytes 2 0 ++ bytes 1 0x10 ++ bytes 1 0 ++ bytes 2 n.source ++ bytes 2 0 ++ time80 n.sec n.ns ++ bytes 2 0
      sendFrame p (identifier 3 0 s.modes.ndId.toNat) d (setCan p { c with notices := rest } s)

/-! ### The mailbox -/

/-- The bytes of a reply in the mailbox (R415). -/
def replyArea (seq : Nat) (r : Reply) : List Byte :=
  bytes 2 seq ++ bytes 1 r.op ++ bytes 1 r.err ++ bytes 2 r.index ++ bytes 1 r.sub ++ bytes 1 0 ++ bytes 4 r.data.length ++
    bytes 4 0 ++ r.data

/-- The mailbox's reply is written, LAST_SEQ set, BUSY cleared and source 416 raised (R416). A reply whose request a reset
of the link has overtaken is discarded. -/
def mailboxReply (seq : Nat) (r : Reply) (s : State) : State :=
  if s.mailbox.dropReply then { s with mailbox := { s.mailbox with request := none, dropReply := false } }
  else
    raise 416 { s with mailbox := { s.mailbox with
      request := none, replyArea := replyArea seq r, lastSeq := seq, busy := false } }

/-! ### Requests and replies -/

/-- The transport can take requests (R415, R419, R427). -/
def live (s : State) (t : Transport) : Bool :=
  match portOf t with
  | none => HostLink.up s
  | some p => canLive s p

/-- A captured request is the one named. -/
def names (op index sub : Nat) (d : List Byte) (r : Request) : Bool :=
  r.op == op && r.index == index && r.sub == sub && r.data == d

/-- The captured request of a transport that `p` picks. -/
def captured (s : State) (t : Transport) (p : Request → Bool) : Option Request :=
  match portOf t with
  | none => s.mailbox.request.filter p
  | some k => (can s k).waiting.find? p

/-- A reply is given: kept as the transport's last one, and sent to the client whose captured request it answers, if there is
one (R411, R416, R421). -/
def answer (t : Transport) (q : Option Request) (r : Reply) (s : State) : State :=
  let s := setContext t { context s t with reply := some r } s
  match q with
  | none => s
  | some q =>
    match portOf t with
    | none => mailboxReply q.tag r s
    | some p =>
      let c := can s p
      sendReply p q.client q.tag r (setCan p { c with waiting := c.waiting.erase q } s)

/-! ### A repair that is being fused -/

/-- The reply of a FUSE_REPAIR, which waits for the end of its blow (R411, R491). -/
def fuseReply (t : Transport) (err : Nat) (s : State) : State :=
  let q := captured s t fun r => r.op == 2 && r.index == 0xC040 && r.sub == 2
  answer t q { op := 2, index := 0xC040, sub := 2, err := err, data := [] } s

/-- A blow ends with its commit bit (R490). -/
def fuseDone (s : State) : State :=
  match s.sup.blowing with
  | none => s
  | some (x, t) => fuseReply t 0 (setReg 0xC040 3 1 (Super.blown x s))

/-- A warning or a reset ends a blow before its commit bit: the write fails with the busy error (R414, R491). -/
def fuseCut (s : State) : State :=
  match s.sup.blowing with
  | none => s
  | some (_, t) => fuseReply t 5 (raise 421 (setReg 0xC040 3 8 (Super.spoil s)))

end Sys2Proof.Machine.Transports
end

