-- ==== Sys2Proof/Machine/Modes.lean ====
section
/-!
DEFINITION. The operating modes: every transition with what it does to each block, the triggers and their precedence, the
mode requests, and the frame of every command (R32 to R53, R298, R299, R353, R439).
-/

namespace Sys2Proof.Machine.Modes

open Sys2Proof.Machine.Ops

/-- Change the mode record. -/
def setModes (f : ModeState → ModeState) (s : State) : State := { s with modes := f s.modes }

/-! ### What each transition does -/

/-- RAW of every source in a list of ranges falls (R509). -/
def dropRaw (l : List (Nat × Nat)) (s : State) : State :=
  let m := l.foldl (fun (m : BitVec 640) (e : Nat × Nat) => m ||| BitVec.ofNat 640 ((2 ^ e.2 - 1) * 2 ^ e.1)) 0
  { s with events := { s.events with raw := s.events.raw &&& ~~~m } }

/-- What the array holds is lost: every stage empty, every port of a block on B empty, every lane off, the engines stopped, and
the supplies at their level outside M5 (R32, R41). -/
def stopArray (s : State) : State :=
  Super.nominal (Time.loseAll (Fabric.emptyAll (Lanes.allOff (Engines.onStop (Queues.empty s)))))

/-- Entry to M1 (R32, R34 to R36, R395, R452, R485, R509). -/
def enterM1 (s : State) : State :=
  let s := Transports.fuseCut s
  let s := Time.onM1 (Engines.onM1 (Banks.onM1 (Queues.onM1 (Lanes.onM1 (HostLink.onM1 s)))))
  let s := Super.endRetirements (Security.onM1 (Loader.onM1 s))
  let s := Super.nominal (Fabric.emptyAll s)
  let s := { s with fab := { s.fab with lenses := [] } }
  dropRaw [(256, 32), (424, 64)] (setModes (fun m => { m with errorN := false, surveyStep := 0 }) s)

/-- Entry to M2: the pads at their reset defaults, the banks brought up, Survey begins; a stored image that failed its check is
a fuse integrity failure (R32, R35, R188, R476). -/
def enterM2 (s : State) : State :=
  let s := Banks.onM2 (Pins.resetAll s)
  setModes (fun m => { m with surveyStep := 0, fuseDue := m.fuseDue || !m.imagesGood, imagesGood := true }) s

/-- Entry to M3 (R32, R41, R188, R310). -/
def enterM3 (reload : Bool) (s : State) : State :=
  let s := if reload then Pins.resetAll (stopArray s) else s
  Loader.facetsLoading (Banks.onM3 reload s)

/-- The initial tokens of every region (R63, R298 step 2). -/
def initialTokens (s : State) : State :=
  (List.range 512).foldl (fun s r =>
    (Frames.initialTokens s.fab.frames r).foldl (fun s e =>
      Fabric.setStage (.unit (Fin.ofNat 16777216 e.1)) { held := some e.2 } s) s) s

/-- The Verify-to-Run release (R298): the blocks of B and the array start empty, the initial tokens are set, the collars take the
state that 0x2600 gives, and pins and lanes follow their objects. -/
def release (s : State) : State :=
  let s := Fabric.emptyAll { s with
    qports := []
    ports := s.ports.map fun (e : Nat × ChanPort) => (e.1, { last := e.2.last }) }
  let s := initialTokens s
  let s := { s with fab := { s.fab with collars := s.fab.collars.map fun (e : Nat × Collar) =>
    (e.1, { e.2 with isolating := false }) } }
  let s := (List.range 512).foldl (fun s r => Fabric.restartWindow r s) s
  Super.startWindow (Lanes.onM5 (Pins.release (setModes (fun m => { m with errorN := false }) s)))

/-- Exit from M6 (R39, R119, R125, R159, R188, R263, R298): the collars open again, and every no-progress window starts anew. -/
def wake (s : State) : State :=
  let s := Fabric.endOverride s
  let s := (List.range 512).foldl (fun s r => Fabric.restartWindow r s) s
  let s := Banks.offM6 (Time.offM6 (Super.restore s))
  Super.startWindow (Lanes.offM6 (Pins.offM6 (Engines.offM6 { s with scrub := { s.scrub with start := (launch s).toNat } })))

/-- Entry to M6 (R32, R38, R188, R261, R353). -/
def enterM6 (s : State) : State := HostLink.requestL1 (Super.retention (Lanes.onM6 (Engines.onM6 (Banks.onM6 s))))

/-- Entry to M7 (R32, R36, R41, R310). A bank that the machine was bringing up, or had put into Retain for M6, takes its own
state. -/
def enterM7 (from' : Mode) (s : State) : State :=
  let s := Banks.onM7 (if from' = .m6 then Banks.offM6 (Time.offM6 s) else if from' = .m2 then Banks.onSurvey s else s)
  let s := stopArray (Loader.onM7 s)
  let f (_ : Nat) (x : Pin) : Pin := { x with latch := none, srcA := {}, srcB := {}, delivered := none }
  let s := Pins.every f { s.pinBase with latch := none } { s with pinIn := [] }
  setModes (fun m => { m with errorN := true }) s

/-- What is done before the mode changes: background tests are cut short (R481), the pads latch what they drive (R32, R449),
and M7 ends a load in progress (R45, R304). -/
def leave (to' : Mode) (s : State) : State :=
  let s := Super.cutAll s
  match to' with
  | .m1 => if s.modes.cur = .m1 then defaults 0x9100 0x927F (fun _ => false) s else Pins.onM1 s
  | .m6 => Pins.latchAll s
  | .m7 => Loader.cut s
  | _ => s

/-- What is done in the new mode. The entries of R34, R38 and R41 act on the handshake sides of the bridges (R328). -/
def enter (from' to' : Mode) (cause : Nat) (s : State) : State :=
  match to' with
  | .m0 => s
  | .m1 => enterM1 (Bridges.resetHandshakes (fun _ => true) s)
  | .m2 => enterM2 s
  | .m3 => enterM3 (cause == 0x30) (Bridges.resetHandshakes (fun _ => true) s)
  | .m4 => s
  | .m5 => if from' = .m6 then wake s else release s
  | .m6 => enterM6 (Bridges.resetHandshakes (fun _ => true) s)
  | .m7 => enterM7 from' s

/-- The mode record after a transition (R46, R52): what was due has been taken or is discarded (R42), but for a security event
held in M1, a wake event that waits for M6 (R43), and a trip that still holds. -/
def record (to' : Mode) (cause : Nat) (s : State) : State :=
  setModes (fun m => { m with
    cur := to', prev := m.cur, cause := cause, count := (m.count + 1) % 2 ^ 32
    lastSec := s.time.sec, lastNs := s.time.ns
    trans := none, resetDue := none, failDue := none, loadDue := none, runDue := false
    securityDue := m.securityDue && to' != .m7
    wakeDue := m.wakeDue && to' == .m6
    tripDue := m.tripped && (to' == .m3 || to' == .m4 || to' == .m5) }) s

/-- A transition: the objects are updated before source 391 is raised (R53). -/
def goto (to' : Mode) (cause : Nat) (s : State) : State :=
  let from' := s.modes.cur
  raise 391 (Bridges.follow (enter from' to' cause (record to' cause (leave to' s))))

/-! ### Triggers and their precedence -/

/-- M1 is left: RESET_N and PWRGD high, both rails above their reset levels, no hold, no trip (R37, R40, R50). -/
def released (s : State) : Bool :=
  modeIn s [.m1] && s.modes.resetN && s.modes.pwrgd && !s.sup.coreReset && !s.sup.auxReset && reg s 0x1000 8 == 0 &&
    !s.modes.tripped

/-- A thermal trip in M3 or M4 fails the load in progress, if there is one, and leads to M7 (R40, R51, R299). -/
def tripLoad (s : State) : State :=
  let s := setModes (fun m => { m with tripDue := false, failDue := some 0x21 }) s
  if s.loader.phase = .idle ∨ s.loader.phase = .resync then s else Loader.fail 0x0E 0 s

/-- A thermal trip in M5 begins the entry to M6; a partial load is aborted (R38, R40, R44). -/
def tripRun (s : State) : State :=
  let s := if Loader.loading s then Loader.fail 0x0E 0 s else s
  setModes (fun m => { m with tripDue := false, trans := some (.draining 0x21) }) (Fabric.holdInbound s)

/-- The entry to M6 drains (R38). -/
def drains (s : State) : Bool :=
  match s.modes.trans with
  | some (.draining _) => true
  | _ => false

/-- The next thing to do, in the precedence of R42; none when nothing is due. -/
def advance (s : State) : Option State :=
  let m := s.modes
  match m.cur with
  | .m0 => none
  | .m1 => if released s then some (goto .m2 0x10 s) else none
  | .m2 =>
    if m.securityDue then some (goto .m7 0x42 s)
    else if m.fuseDue then some (goto .m7 0x43 (setModes (fun m => { m with fuseDue := false }) s))
    else m.loadDue.map fun c => goto .m3 c s
  | .m3 =>
    if m.securityDue then some (goto .m7 0x42 s)
    else
      match m.failDue with
      | some c => some (goto .m7 c s)
      | none => if m.tripDue then some (tripLoad s) else m.loadDue.map fun c => goto .m4 c s
  | .m4 =>
    if m.securityDue then some (goto .m7 0x42 s)
    else
      match m.failDue with
      | some c => some (goto .m7 c s)
      | none => if m.tripDue then some (tripLoad s) else m.loadDue.map fun c => goto .m5 c s
  | .m5 =>
    if m.securityDue then some (goto .m7 0x42 s)
    else if m.tripDue && !drains s then some (tripRun s)
    else
      match m.loadDue with
      | some c => some (goto .m3 c s)
      | none =>
        if m.trans == some .sentinelWait && !Loader.loading s then
          some (setModes (fun m => { m with trans := some (.draining 0x20) }) (Fabric.holdInbound s))
        else none
  | .m6 =>
    if m.securityDue then some (goto .m7 0x42 s)
    else if m.runDue && Super.cool s then some (goto .m5 0x22 s)
    else if m.wakeDue && Super.cool s then some (goto .m5 0x23 s)
    else none
  | .m7 => m.loadDue.map fun c => goto .m3 c s

/-- Take what is due, one after another. -/
def advanceAll : Nat → State → State
  | 0, s => s
  | fuel + 1, s =>
    match advance s with
    | some t => advanceAll fuel t
    | none => s

/-- No run of transitions is longer: from M1 the longest goes through M2 to M7. -/
def longest : Nat := 8

/-- What a command has set off, taken before it ends: observed faults, then a reset trigger, which stops there, or whatever else
is due (R42, R43, R484). -/
def settle (s : State) : State :=
  let s := Queues.relax (Super.drain s)
  match s.modes.resetDue with
  | some c => goto .m1 c s
  | none => advanceAll longest s

/-- The start of a command: what the last one sent out is gone, and a release of M1 that was due comes first. -/
def begin' (s : State) : State :=
  let s := begin s
  if released s then advanceAll longest s else s

/-! ### Commands of this chapter -/

/-- A write of 0x1000.04, in the order of R48. -/
def request (v : Nat) (s : State) : Nat ⊕ State :=
  let m := s.modes
  if v ≠ 1 ∧ v ≠ 3 ∧ v ≠ 5 ∧ v ≠ 6 then .inl 4
  else if m.trans.isSome && v != 1 then .inl 5
  else if v = 1 then .inr (setModes (fun m => { m with resetDue := some 3 }) s)
  else if v = 3 then
    if modeIn s [.m7] then
      if Loader.readyForStream s then .inr (setModes (fun m => { m with loadDue := some 0x30 }) s) else .inl 5
    else if modeIn s [.m5] then
      if (Loader.partialOf s).isSome then .inl 5 else .inr (setModes (fun m => { m with loadDue := some 0x30 }) s)
    else .inl 3
  else if v = 5 then
    if modeIn s [.m6] then .inr (setModes (fun m => { m with runDue := true }) s) else .inl 3
  else if modeIn s [.m5] then
    .inr (if (Loader.partialOf s).isSome then setModes (fun m => { m with trans := some .sentinelWait }) s
      else setModes (fun m => { m with trans := some (.draining 0x20) }) (Fabric.holdInbound s))
  else .inl 3

/-- Supplies come within operating conditions with PWRGD high: from M0 the cold reset (R33, R37, R406, R425). -/
def powerUp (ndId : BitVec 7) (pstrap : BitVec 8) (imagesGood : Bool) (s : State) : State :=
  if s.modes.cur ≠ .m0 then setModes (fun m => { m with pwrgd := true }) s
  else
    let m : ModeState := { resetN := s.modes.resetN, ndId := ndId, pstrap := pstrap, imagesGood := imagesGood }
    let c : SecurityState := { challenge := Config.challenge s.fresh }
    let s : State := { modes := m, sec := c, nv := s.nv, fresh := s.fresh + 1, pending := s.pending }
    raise 391 (Super.mapEngines (Super.applyFuses s))

/-- The supplies are removed (R37, R406, R521): only the fuses, a battery-backed key and the level of RESET_N remain. A fuse
row whose blow was under way is spent (R491). -/
def supplyRemoval (s : State) : State :=
  let nv := if s.sup.blowing.isSome then { s.nv with wasted := s.nv.wasted + 1 } else s.nv
  let m : ModeState := { cur := .m0, cause := 0, resetN := s.modes.resetN, pwrgd := false }
  { modes := m, nv := nv, fresh := s.fresh, pending := s.pending }

/-- PWRGD goes low (R37). -/
def pwrgdLow (s : State) : State := setModes (fun m => { m with pwrgd := false, resetDue := some 6 }) s

/-- RESET_N falls (R37). -/
def resetNLow (s : State) : State :=
  if !s.modes.resetN then s
  else if s.modes.cur = .m0 then setModes (fun m => { m with resetN := false }) s
  else setModes (fun m => { m with resetN := false, resetDue := some 2 }) s

/-- RESET_N rises: the straps are sampled (R37, R419, R436). -/
def resetNHigh (ndId : BitVec 7) (pstrap : BitVec 8) (s : State) : State :=
  if s.modes.resetN then s
  else if s.modes.cur = .m0 then setModes (fun m => { m with resetN := true }) s
  else
    let t := setModes (fun m => { m with resetN := true, ndId := ndId, pstrap := pstrap }) s
    [0, 1].foldl (fun t p => if Transports.canState t p = Transports.canState s p then t else raise (417 + p) t) t

/-- Every region has been quiet: the network freezes and M6 is entered (R38). -/
def drainQuiet (s : State) : State :=
  match s.modes.trans with
  | some (.draining c) => goto .m6 c s
  | _ => s

/-- The drain limit expires with some regions active (R38). -/
def drainLimit (active : List (Fin 512)) (s : State) : State :=
  match s.modes.trans with
  | some (.draining c) =>
    let low := active.foldl (fun a r => min a r.val) 0xFFFF
    let s := { s with sup := { s.sup with drainRegion := low } }
    goto .m6 c (if active.isEmpty then s else raise 389 s)
  | _ => s

/-- What a read of 0x1000 returns where the stored value is not it. -/
def readSub (s : State) (index sub : Nat) : Option Nat :=
  let m := s.modes
  if index ≠ 0x1000 then none
  else
    match sub with
    | 1 => some (modeNo m.cur)
    | 2 => some (modeNo m.prev)
    | 3 => some m.cause
    | 6 => some m.count
    | 7 => some (time80Nat m.lastSec m.lastNs)
    | 9 => some (if Loader.readyForStream s then 1 else 0)
    | _ => none

/-- A write of 0x1000 that does more than store. -/
def writeSub (index sub v : Nat) (s : State) : Option (Nat ⊕ State) :=
  if index ≠ 0x1000 then none
  else if sub = 4 then some (request v s)
  else if sub = 5 ∧ (v < 10 ∨ 1000000 < v) then some (.inl 4)
  else none

end Sys2Proof.Machine.Modes
end

