-- ==== Sys2Proof/Machine/Regions.lean ====
section
/-!
DEFINITION. The objects of the array: region reset, the no-progress watch, and the collars (R72, R76, R77, R114 to R121, R126,
R127, R302).
-/

namespace Sys2Proof.Machine.Regions

open Sys2Proof.Machine.Ops

/-- A region reset, from its trigger to step 6 (R72 to R74, R125). -/
def reset (r : Nat) (s : State) : State := Loader.regionReset r s

/-- A write of 0x2400.01 (R77). -/
def writeReset (v : Nat) (s : State) : Nat ⊕ State :=
  if 511 < v then .inl 4
  else if !modeIn s [.m5] then .inl 3
  else if s.modes.trans.isSome || Loader.partialOf s == some v then .inl 5
  else .inr (reset v s)

/-- A write of TRUE to 0x2600.01 + r (R116, R302). -/
def isolate (r : Nat) (s : State) : State :=
  let s := Fabric.isolate r 1 s
  match s.loader.load with
  | some l =>
    if l.header.facetOnly && l.header.facet == r then
      { s with loader := { s.loader with load := some { l with keepIsolated := true } } }
    else s
  | none => s

/-- A write of FALSE to 0x2600.01 + r (R117, R121). -/
def opening (r : Nat) (s : State) : Nat ⊕ State :=
  let f := (Loader.facet s r).state
  let k := Fabric.collar s r
  if f = .retired ∨ f = .empty ∨ (k.isolate ∧ (k.cause = 3 ∨ k.cause = 5)) ∨ Loader.partialOf s = some r then .inl 4
  else .inr (if k.isolate then Fabric.openCollar r s else s)

/-- An isolated draining collar acknowledges an inbound token, discards it and counts it (R114, R118), as does the collar for an
input pin of a region whose selections are unset (R303). A channel from B stalls during entry to M6 (R119). A token that was
already offered and stalled when the policy became drain is discarded too (log entry 76). -/
def drain (r : Nat) (c : Chan) (s : State) : State :=
  let held := (Fabric.legs s c).any fun p =>
    p.1 == .collar (Fin.ofNat 512 r) c || Fabric.stopAt s c p.2 == some (r, false)
  let stalled := (Frames.homeOf c).isNone && Fabric.draining s
  if !Fabric.awake s || !Fabric.acts (Fabric.collar s r) || Fabric.policy s r != 1 || stalled || !held ||
      Fabric.ack s (.collar (Fin.ofNat 512 r) c) then s
  else
    match Fabric.rails s c with
    | .valid _ => bump (0x2600 + r) 5 (Fabric.setAck (.collar (Fin.ofNat 512 r) c) true s)
    | _ => s

/-- A write of 0x2600.02: during an entry to M6 and in M6 the policy in effect stays as it was (R119). -/
def writePolicy (r v : Nat) (s : State) : Nat ⊕ State :=
  if 1 < v then .inl 4
  else
    let s' := setReg (0x2600 + r) 2 v s
    .inr (if Fabric.draining s then
      Fabric.setCollar r { Fabric.collar s r with linePolicy := some (Fabric.policy s r) } s' else s')

/-- The regions in the no-progress state. -/
def still (s : State) : List Nat := s.fab.lenses.filterMap fun (e : Nat × Lens) => if e.2.noProgress then some e.1 else none

/-- What a read of an array object returns where the stored value is not it (R76, R120, R126). 0x2500.03 counts a collar from
the trigger of its isolation (log entry 77). -/
def readSub (s : State) (index sub : Nat) : Option Nat :=
  if index = 0x2500 then
    match sub with
    | 2 => some (still s).length
    | 3 => some ((s.fab.collars.filter fun (e : Nat × Collar) => e.2.isolate).length)
    | 4 => some ((still s).foldl min 0xFFFF)
    | _ => none
  else if 0x2600 ≤ index ∧ index < 0x2800 then
    let r := index - 0x2600
    match sub with
    | 1 => some (if (Fabric.collar s r).isolate then 1 else 0)
    | 3 => some (Fabric.collarState s r)
    | 4 => some (Fabric.collarCause s r)
    | 6 => some (if (Fabric.lens s r).noProgress then 1 else 0)
    | _ => none
  else none

/-- A write of an array object that does more than store. -/
def writeSub (index sub v : Nat) (s : State) : Option (Nat ⊕ State) :=
  if index = 0x2400 then some (writeReset v s)
  else if index = 0x2500 then
    some (if v < 1 ∨ 60000 < v then .inl 4
      else .inr ((List.range 512).foldl (fun s r => Fabric.restartWindow r s) (setReg index sub v s)))
  else if 0x2600 ≤ index ∧ index < 0x2800 then
    let r := index - 0x2600
    if sub = 1 then some (if v = 1 then .inr (isolate r s) else opening r s)
    else if sub = 2 then some (writePolicy r v s) else none
  else none

end Sys2Proof.Machine.Regions
end

