-- ==== Sys2Proof/Machine/Dict.lean ====
section
/-!
DEFINITION. The dictionary server: the checks of a request, reads and writes of every object, sealed commands, published
objects, and the requests that the mailbox and the CAN ports capture (R401 to R433).
-/

namespace Sys2Proof.Machine.Dict

open Sys2Proof.Machine.Ops
open Sys2Proof.Machine.Transports

/-! ### Published objects (R428 to R431) -/

/-- An entry of the publication table. -/
def entry (s : State) (e : Nat) : Nat := reg s 0x1103 (1 + e)

/-- The fields of an entry (R428). -/
def valid (v : Nat) : Bool := bit v 63
def typeCode (v : Nat) : Nat := v / 2 ^ 59 % 16
def access (v : Nat) : Nat := v / 2 ^ 57 % 4
def notify (v : Nat) : Bool := bit v 56
def indexOf (v : Nat) : Nat := 0xF000 + v / 2 ^ 44 % 4096
def subOf (v : Nat) : Nat := v / 2 ^ 36 % 256
def bankOf (v : Nat) : Nat := v / 2 ^ 25 % 2048
def wordOf (v : Nat) : Nat := v / 2 ^ 12 % 8192
def maxLen (v : Nat) : Nat := v % 4096

/-- A type by its code (R402). -/
def typeOf (c : Nat) : Ty :=
  match c with
  | 1 => .bool | 2 => .u8 | 3 => .u16 | 4 => .u32 | 5 => .u64 | 6 => .i32 | 7 => .time80 | 8 => .str | _ => .blob

/-- The code of a type (R402). -/
def codeOf : Ty → Nat
  | .bool => 1 | .u8 => 2 | .u16 => 3 | .u32 => 4 | .u64 => 5 | .i32 => 6 | .time80 => 7 | .str => 8 | .blob => 9

/-- The entries that publish subs of an index. -/
def published (s : State) (index : Nat) : List Nat :=
  (List.range 128).filter fun e => valid (entry s e) && indexOf (entry s e) == index

/-- The entry that publishes a sub. -/
def entryFor (s : State) (index sub : Nat) : Option Nat := (published s index).find? fun e => subOf (entry s e) == sub

/-- The words that a published sub occupies (R429, R430). -/
def wordCount (v : Nat) : Nat :=
  match Objects.sizeOf (typeOf (typeCode v)) with
  | some n => (n + 7) / 8
  | none => 1 + (maxLen v + 7) / 8

/-- An entry with VALID is refused (R429). -/
def badEntry (s : State) (e v : Nat) : Bool :=
  let fixed := decide (typeCode v < 8)
  typeCode v == 0 || decide (9 < typeCode v) || access v == 3 || subOf v == 0 ||
    (if fixed then maxLen v != 0 else decide (4088 < maxLen v)) || decide (8192 < wordOf v + wordCount v) ||
    (List.range 128).any fun k =>
      k != e && valid (entry s k) && indexOf (entry s k) == indexOf v && subOf (entry s k) == subOf v

/-- A write of the publication object (R428, R429). -/
def writePublication (sub v : Nat) (s : State) : Nat ⊕ State :=
  if sub ≤ 0x80 then (if valid v && badEntry s (sub - 1) v then .inl 4 else .inr (setReg 0x1103 sub v s))
  else if 8190 < v % 8192 then .inl 4
  else .inr (setReg 0x1103 sub (v &&& 0xFFFFFF) s)

/-- The row of a published sub (R430). -/
def publishedRow (s : State) (index sub : Nat) : Option Row :=
  let mk (ty : Ty) (a : Acc) (l : Nat) : Row := Objects.inModes 0x20 (Objects.len l (Objects.r sub sub ty a))
  if sub = 0 then (if (published s index).isEmpty then none else some (mk .u8 .ro 0))
  else
    (entryFor s index sub).map fun e =>
      let v := entry s e
      mk (typeOf (typeCode v)) (match access v with | 0 => .ro | 1 => .rw | _ => .wo) (maxLen v)

/-- The server's word access has to wait, or has failed. -/
inductive Trouble
  | data | wait
deriving DecidableEq, Repr

/-- One word access of the server (R184, R431). A bank that wakes is waited for. -/
def wordAccess (n w : Nat) (op : BitVec 2) (d : W64) (s : State) : (Trouble ⊕ W64) × State :=
  if refuses s n then (.inl .data, refuse raise n s)
  else
    let s := Banks.turn n s
    let s := Banks.turn n (Banks.wakeComplete n (wakeBank n true s))
    if !Banks.entered s n then (.inl .wait, s)
    else
      let p := bankAccess raise n { op := op, addr := BitVec.ofNat 13 w, data := d } 0 s
      (if p.2.bad then .inl .data else .inr p.2.data, p.1)

/-- Read `k` words from word w on. -/
def readWords (n : Nat) : Nat → Nat → List Byte → State → (Trouble ⊕ List Byte) × State
  | 0, _, acc, s => (.inr acc, s)
  | k + 1, w, acc, s =>
    match wordAccess n w 0 0 s with
    | (.inl t, s) => (.inl t, s)
    | (.inr v, s) => readWords n k (w + 1) (acc ++ bytes 8 v.toNat) s

/-- Write words from word w on. -/
def writeWords (n : Nat) : Nat → Nat → List Byte → State → Option Trouble × State
  | 0, _, _, s => (none, s)
  | k + 1, w, d, s =>
    match wordAccess n w 1 (BitVec.ofNat 64 (le (d.take 8))) s with
    | (.inl t, s) => (some t, s)
    | (.inr _, s) => writeWords n k (w + 1) (d.drop 8) s

/-- A failure of a word access: the data error, counted, with source 422 (R431); or busy, while the bank sleeps. -/
def failed (t : Trouble) (s : State) : Nat × State :=
  match t with
  | .data => (0x0B, raise 422 (bump 0x1100 6 s))
  | .wait => (5, s)

/-- A read of a published sub (R430, R431). -/
def readPublished (index sub : Nat) (s : State) : (Nat ⊕ List Byte) × State :=
  if sub = 0 then (.inr (bytes 1 ((published s index).foldl (fun a e => max a (subOf (entry s e))) 0)), s)
  else
    match entryFor s index sub with
    | none => (.inl 1, s)
    | some e =>
      let v := entry s e
      let n := bankOf v
      let r : (Trouble ⊕ List Byte) × State :=
        match Objects.sizeOf (typeOf (typeCode v)) with
        | some k =>
          let p := readWords n ((k + 7) / 8) (wordOf v) [] s
          (match p.1 with | .inl t => .inl t | .inr d => .inr (d.take k), p.2)
        | none =>
          match wordAccess n (wordOf v) 0 0 s with
          | (.inl t, s) => (.inl t, s)
          | (.inr h, s) =>
            let l := min (h.toNat % 65536) (maxLen v)
            let p := readWords n ((l + 7) / 8) (wordOf v + 1) [] s
            (match p.1 with | .inl t => .inl t | .inr d => .inr (d.take l), p.2)
      match r with
      | (.inr d, s) => (.inr d, bump 0x1103 0x82 s)
      | (.inl t, s) => let f := failed t s; (.inl f.1, bump 0x1103 0x82 f.2)

/-- A write of a published sub, with its notice (R430, R431). -/
def writePublished (index sub : Nat) (d : List Byte) (s : State) : Nat × State :=
  match entryFor s index sub with
  | none => (1, s)
  | some e =>
    let v := entry s e
    let n := bankOf v
    let fixed := decide (typeCode v < 8)
    if typeCode v = 1 ∧ 1 < le d ∨ typeCode v = 7 ∧ 999999999 < le (d.take 4) then (4, s)
    else if !fixed && decide (maxLen v < d.length) then (4, s)
    else
      let d := if fixed then d else bytes 8 d.length ++ d
      let p := writeWords n ((d.length + 7) / 8) (wordOf v) d s
      let p : Option Trouble × State :=
        match p with
        | (none, s) =>
          if notify v then
            let w := reg s 0x1103 0x81
            match wordAccess (w / 8192 % 2048) (w % 8192 + e / 64) 2 (BitVec.twoPow 64 (e % 64)) s with
            | (.inl t, s) => (some t, s)
            | (.inr _, s) => (none, s)
          else (none, s)
        | p => p
      match p with
      | (none, s) => (0, bump 0x1103 0x82 s)
      | (some t, s) => let f := failed t s; (f.1, bump 0x1103 0x82 f.2)

/-! ### Reads -/

/-- The row of a sub, in the tables or published (R401, R430, R433). -/
def row (s : State) (index sub : Nat) : Option Row :=
  if 0xF000 ≤ index then publishedRow s index sub else Objects.row index sub

/-- What a read of a transport object returns where the stored value is not it (R427). -/
def transportSub (s : State) (index sub : Nat) : Option Nat :=
  if index = 0x1100 ∧ sub = 1 then some s.modes.ndId.toNat
  else if index = 0x1101 ∨ index = 0x1102 then
    let p := index - 0x1101
    match sub with
    | 2 => some (canState s p)
    | 3 => some ((can s p).txErr % 65536 * 65536 + (can s p).rxErr % 65536)
    | _ => none
  else none

/-- The value of a sub that an owning chapter computes. -/
def chapterValue (s : State) (c : Context) (index sub : Nat) : Option Nat :=
  if index < 0x1010 then Modes.readSub s index sub
  else if 0x1100 ≤ index ∧ index < 0x1200 then transportSub s index sub
  else if index = 0x1200 ∨ index = 0x1201 then Bridges.readSub s index sub
  else if index < 0x2000 then Super.readSub s c index sub
  else if 0x2400 ≤ index ∧ index < 0x2800 then Regions.readSub s index sub
  else if index < 0x3000 then Loader.readSub s index sub
  else if index < 0x4000 then Time.readSub s c index sub
  else if index < 0x5000 then Banks.readSub s index sub
  else if index < 0x6000 then Queues.readSub s index sub
  else if index < 0x7000 then Engines.readSub s index sub
  else if index < 0x8000 then Lanes.readSub s index sub
  else if index < 0x9000 then HostLink.readSub s index sub
  else if index < 0xA000 then Pins.readSub s index sub
  else if index < 0xB000 then Super.readSub s c index sub
  else if index < 0xC000 then EventBlock.readSub s index sub
  else Security.readSub s index sub

/-- The value of a sub as a number. -/
def value (s : State) (c : Context) (index sub : Nat) : Nat :=
  if sub = 0 then ((Objects.find index).map Obj.count).getD 0
  else (chapterValue s c index sub).getD (reg s index sub)

/-- The BLOBs that are not kept as numbers: the bytes, or the error. -/
def blob (s : State) (c : Context) (index sub : Nat) : Option (Nat ⊕ List Byte) :=
  if 0xC000 ≤ index then Security.readBlob s index sub
  else if index = 0x3002 then some (.inr (Time.twoStepBytes s))
  else if index = 0x3010 then some (.inr (Time.bankRead s c.readSelect))
  else if 0x5300 ≤ index ∧ index < 0x5500 then some (.inr (Queues.hostPop (index - 0x5300) s).1)
  else if 0x6100 ≤ index ∧ index < 0x6180 ∧ sub = 0x0C ∧ (Engines.engine s (index - 0x6100)).state = .running then some (.inl 5)
  else if index = 0x8200 then some (.inr (HostLink.ownerBytes s))
  else if index = 0xA030 ∧ sub = 2 then some (.inr (Super.readEntries s c))
  else none

/-- What a read leaves behind it: the sample of 0x3000.01, an entry popped, DEPARTED cleared (R141, R142, R231, R329). -/
def afterRead (t : Transport) (index sub : Nat) (s : State) : State :=
  if index = 0x3000 ∧ sub = 1 then
    setContext t { context s t with fraction := fraction s, launch := (launch s).toNat } s
  else if index = 0x3002 ∧ sub = 2 then { s with servo := { s.servo with twoStep := s.servo.twoStep.drop 1 } }
  else if 0x5300 ≤ index ∧ index < 0x5500 ∧ sub = 6 then (Queues.hostPop (index - 0x5300) s).2
  else if index = 0x1200 then Bridges.afterRead index sub s
  else s

/-- The bytes of a value (R402). -/
def valueBytes (x : Row) (v : Nat) : List Byte := bytes ((Objects.sizeOf x.ty).getD x.len) v

/-- The owner class of a sub (R404, R440). -/
def ownerOf (s : State) (x : Row) (index sub : Nat) : Own :=
  if 0x9100 ≤ index ∧ index < 0x9280 ∧ sub = 2 ∧ Pins.sealedOnly s (index - 0x9100) (Pins.stored s (index - 0x9100)) then
    .security
  else x.own

/-- The row is reachable in the present mode (R405). -/
def reachable (s : State) (x : Row) : Bool := bit x.modes (modeNo s.modes.cur)

/-- A READ after step 1 of R410: its error, or its bytes, and the state after it. -/
def read (t : Transport) (index sub : Nat) (s : State) : (Nat ⊕ List Byte) × State :=
  match row s index sub with
  | none => (.inl 1, s)
  | some x =>
    if x.acc = .wo then (.inl 2, s)
    else if !reachable s x then (.inl 3, s)
    else if 0xF000 ≤ index then readPublished index sub s
    else
      match (if sub = 0 then none else if Objects.sizeOf x.ty = none then blob s (context s t) index sub else none) with
      | some (.inl e) => (.inl e, s)
      | some (.inr d) => (.inr d, afterRead t index sub s)
      | none => (.inr (valueBytes x (value s (context s t) index sub)), afterRead t index sub s)

/-- The 8 bytes of a DESCRIBE (R408). -/
def description (s : State) (x : Row) (index sub : Nat) : List Byte :=
  let a := match x.acc with | .ro => 0 | .rw => 1 | .wo => 2 | .rwh => 3
  let o := match ownerOf s x index sub with | .host => 0 | .security => 1 | .field => 2
  bytes 1 (codeOf x.ty) ++ bytes 1 a ++ bytes 1 o ++ bytes 1 x.modes ++ bytes 4 ((Objects.sizeOf x.ty).getD x.len)

/-- A DESCRIBE. -/
def describe (index sub : Nat) (s : State) : Nat ⊕ List Byte :=
  match row s index sub with
  | none => .inl 1
  | some x => .inr (description s x index sub)

/-! ### Writes -/

/-- CAN port p goes off: its reassembly and its notices are discarded (R427). -/
def disablePort (p : Nat) (s : State) : State :=
  change p (fun s => setReg (0x1101 + p) 1 0 (setCan p { can s p with reassembly := none, notices := [] } s)) s

/-- A write of a transport object that does more than store (R427). A port cannot switch itself off. -/
def writeTransport (t : Transport) (index sub v : Nat) (s : State) : Option (Nat ⊕ State) :=
  if index = 0x1103 then some (writePublication sub v s)
  else if (index = 0x1101 ∨ index = 0x1102) ∧ sub = 1 then
    let p := index - 0x1101
    some (if v = 1 then .inr (Bridges.follow (change p (setReg index 1 1) s))
      else if portOf t = some p then .inl 4
      else .inr (Bridges.follow (disablePort p s)))
  else none

/-- The owning chapter's checks and effect of a write; none where it only stores. -/
def chapterWrite (t : Transport) (index sub : Nat) (d : List Byte) (s : State) : Option (Nat ⊕ State) :=
  let v := le d
  if index < 0x1010 then Modes.writeSub index sub v s
  else if 0x1100 ≤ index ∧ index < 0x1200 then writeTransport t index sub v s
  else if index < 0x2000 then Super.writeSub index sub d s
  else if 0x2400 ≤ index ∧ index < 0x2800 then Regions.writeSub index sub v s
  else if index < 0x3000 then Loader.writeSub index sub v s
  else if index = 0x3010 ∧ sub = 3 then
    some (.inr (setContext t { context s t with readSelect := v % 2 ^ 14 } s))
  else if index < 0x4000 then Time.writeSub index sub d s
  else if index < 0x5000 then Banks.writeSub index sub v s
  else if index < 0x6000 then Queues.writeSub index sub v s
  else if index < 0x7000 then Engines.writeSub (Security.slots s) index sub d s
  else if index < 0x8000 then Lanes.writeSub index sub v s
  else if index < 0x9000 then HostLink.writeSub index sub d s
  else if index < 0xA000 then Pins.writeSub index sub v s
  else if index = 0xA030 then
    match sub with
    | 1 => some (.inr (setContext t { context s t with repairSelect := v } s))
    | 5 => some (Super.fuse t v s)
    | _ => none
  else if index < 0xB000 then Super.writeSub index sub d s
  else if index < 0xC000 then EventBlock.writeSub index sub d s
  else Security.writeSub index sub d s

/-- The length check, step 3 of R410. -/
def badLength (x : Row) (d : List Byte) : Bool :=
  decide (28656 < d.length) ||
    match x.ty, Objects.sizeOf x.ty with
    | _, some n => d.length != n
    | .str, none => decide (255 < d.length)
    | _, none => false

/-- The mode check, step 6 of R410, with that of an RWH sub (R403, R405). -/
def wrongMode (s : State) (x : Row) : Bool := !reachable s x || (x.acc == .rwh && !modeIn s [.m1, .m3])

/-- Step 7 of R410 and the effect: a BOOL is 0 or 1, a BLOB fits its sub, and the owning chapter accepts the value; a reserved
bit is not stored (R12). The install request checks the length of its own BLOB third (R266). -/
def effect (t : Transport) (x : Row) (index sub : Nat) (d : List Byte) (s : State) : Nat ⊕ State :=
  if x.ty = .bool ∧ 1 < le d then .inl 4
  else if x.ty = .blob ∧ x.len < d.length ∧ ¬(index = 0x6000 ∧ sub = 3) then .inl 4
  else
    match chapterWrite t index sub d s with
    | some r => r
    | none => .inr (setReg index sub (le d &&& x.bits) s)

/-- A write of the wrong owner class (R404, R432). -/
def refuseOwner (s : State) : State := raise 420 (bump 0x1100 5 s)

/-- Only a sealed command may make this write (R404, R440). -/
def needsSeal (s : State) (x : Row) (index sub v : Nat) : Bool :=
  if 0x9100 ≤ index ∧ index < 0x9280 ∧ sub = 2 then Pins.sealedOnly s (index - 0x9100) v else x.own == .security

/-- The field lock, 0x1100.02. -/
def fieldLocked (s : State) : Bool := reg s 0x1100 2 == 1

/-! ### Sealed commands (R425, R426) -/

/-- Bytes `off` to `off + n - 1` as a number. -/
def field (b : List Byte) (off n : Nat) : Nat := le ((b.drop off).take n)

/-- The challenge is drawn again (R425). -/
def newChallenge (s : State) : State :=
  tickFresh { s with sec := { s.sec with challenge := Config.challenge s.fresh } }

/-- The checks 2 to 7 of R426: the number of the first that fails. -/
def sealChecks (b : List Byte) (s : State) : Option Nat :=
  let slot := field b 6 1
  let v := field b 36 4
  let index := field b 32 2
  let sub := field b 34 1
  let key := if slot ≤ 3 then Loader.stagedKey s slot else []
  let target := (Objects.row index sub).any fun x =>
    x.acc != .ro && needsSeal s x index sub (le ((b.drop 40).take v))
  if field b 0 4 ≠ 0x31444E43 ∨ field b 4 2 ≠ 1 ∨ field b 7 1 ≠ 0 ∨ field b 35 1 ≠ 0 then some 2
  else if field b 8 8 ≠ s.nv.serial then some 3
  else if field b 16 16 ≠ s.sec.challenge.toNat then some 4
  else if 3 < slot ∨ s.nv.revoked.getLsbD slot ∨ key.isEmpty then some 5
  else if !Crypto.pssVerifyHash (key.take 384) (Crypto.sha256 (b.take (40 + v))) ((b.drop (40 + v)).take 384) then some 6
  else if !target then some 7
  else none

/-- What a request answers: an error code and data, or nothing yet. -/
abbrev Result := Option (Nat × List Byte) × State

/-- A sealed command fails with a result code and an error (R426, R432). -/
def sealFailed (code err : Nat) (s : State) : Result := (some (err, []), raise 421 (setReg 0xC040 3 code s))

/-- The inner write of a sealed command, check 8 of R426. -/
def innerWrite (t : Transport) (index sub : Nat) (d : List Byte) (s : State) : Nat ⊕ State :=
  match Objects.row index sub with
  | none => .inl 1
  | some x => if badLength x d then .inl 6 else if wrongMode s x then .inl 3 else effect t x index sub d s

/-- A write of 0xC040.02 (R425, R426). The reply of a fuse repair waits for its blow (R411, R491). -/
def sealedWrite (t : Transport) (b : List Byte) (s : State) : Result :=
  let v := field b 36 4
  let old := s
  let s := newChallenge s
  if b.length ≠ 424 + v ∨ 1024 < v then (some (4, []), s)
  else if s.sup.blowing.isSome then (some (5, []), s)
  else
    match sealChecks b old with
    | some k => sealFailed k 8 s
    | none =>
      match innerWrite t (field b 32 2) (field b 34 1) ((b.drop 40).take v) s with
      | .inl e => sealFailed 8 e s
      | .inr s => if s.sup.blowing.isSome then (none, s) else (some (0, []), setReg 0xC040 3 1 s)

/-- A WRITE after step 1 of R410. -/
def write (t : Transport) (index sub : Nat) (d : List Byte) (s : State) : Result :=
  match row s index sub with
  | none => (some (1, []), s)
  | some x =>
    if badLength x d then (some (6, []), s)
    else if x.acc = .ro then (some (2, []), s)
    else if needsSeal s x index sub (le d) || (x.own == .field && fieldLocked s) then (some (7, []), refuseOwner s)
    else if wrongMode s x then (some (3, []), s)
    else if 0xF000 ≤ index then let p := writePublished index sub d s; (some (p.1, []), p.2)
    else if index = 0xC040 then sealedWrite t d s
    else
      match effect t x index sub d s with
      | .inl e => (some (e, []), s)
      | .inr s => (some (0, []), s)

/-! ### The server (R407, R410, R411) -/

/-- Execute a request whose step 1 is passed. -/
def execute (t : Transport) (op index sub : Nat) (d : List Byte) (s : State) : Result :=
  if op = 1 then
    match read t index sub s with
    | (.inl e, s) => (some (e, []), s)
    | (.inr r, s) => (some (0, r), s)
  else if op = 2 then write t index sub d s
  else
    match describe index sub s with
    | .inl e => (some (e, []), s)
    | .inr r => (some (0, r), s)

/-- The server takes a request and answers it: the one that a transport has captured, where it is the one named, or one that
the transport delivers now (R411, R415, R427). -/
def serve (t : Transport) (op index sub : Nat) (d : List Byte) (s : State) : State :=
  let q := captured s t (names op index sub d)
  if q.isNone && !live s t then s
  else
    let r := execute t op index sub d (bump 0x1100 3 s)
    match r.1 with
    | some (err, data) => answer t q { op := op, index := index, sub := sub, err := err, data := data } r.2
    | none => r.2

/-- A write of a number to a sub. -/
def put (t : Transport) (index sub n v : Nat) (s : State) : State := serve t 2 index sub (bytes n v) s

/-- The bytes of a sealed command for a write of `v` (R425). -/
def sealedBlob (s : State) (slot index sub : Nat) (v sig : List Byte) : List Byte :=
  bytes 4 0x31444E43 ++ bytes 2 1 ++ bytes 1 slot ++ bytes 1 0 ++ bytes 8 s.nv.serial ++ bytes 16 s.sec.challenge.toNat ++
    bytes 2 index ++ bytes 1 sub ++ bytes 1 0 ++ bytes 4 v.length ++ v ++ sig

/-- A sealed write made with the present challenge and a signature. -/
def sealedPut (t : Transport) (slot : Nat) (sig : List Byte) (index sub n v : Nat) (s : State) : State :=
  serve t 2 0xC040 2 (sealedBlob s slot index sub (bytes n v) sig) s

/-! ### Capture at the mailbox (R415, R416) -/

/-- The first steps of R410 that a captured request fails by itself: an unknown OP or a reserved byte that is not 0, an absent
sub, and a LEN that no request of its kind has. -/
def early (s : State) (op index sub len : Nat) (reserved : Bool) : Option Nat :=
  if op < 1 ∨ 3 < op ∨ reserved then some 0x0A
  else if 28656 < len ∨ (op ≠ 2 ∧ len ≠ 0) then (if (row s index sub).isNone then some 1 else some 6)
  else none

/-- A write of DOORBELL, with the bytes of the request area (R415, R416). -/
def doorbell (v : Nat) (area : List Byte) (s : State) : State :=
  if s.mailbox.busy then bump 0x1100 4 { s with mailbox := { s.mailbox with overrun := true } }
  else
    let seq := v % 65536
    let op := field area 2 1
    let index := field area 4 2
    let sub := field area 6 1
    let len := field area 8 4
    let reserved := field area 3 1 != 0 || field area 7 1 != 0 || field area 12 4 != 0
    let q : Request := { client := 0, tag := seq, op := op, index := index, sub := sub, data := (area.drop 16).take len }
    let s := { s with mailbox := { s.mailbox with busy := true, request := some q } }
    let wrong : Option Nat := if v / 65536 ≠ 0 ∨ field area 0 2 ≠ seq then some 0x0A else early s op index sub len reserved
    match wrong with
    | some e => answer .mailbox (some q) { op := op, index := index, sub := sub, err := e, data := [] } (bump 0x1100 3 s)
    | none => s

/-! ### Capture at a CAN port (R420 to R423) -/

/-- A complete request joins the server's queue, or is answered at once where it fails by itself. -/
def complete (p : Nat) (r : Reassembly) (s : State) : State :=
  let q : Request :=
    { client := r.client, tag := r.tid, op := r.op, index := r.index, sub := r.sub, data := r.data.take r.len }
  match early s r.op r.index r.sub r.len r.bad with
  | some e => answer (ofPort p) (some q) { op := r.op, index := r.index, sub := r.sub, err := e, data := [] } (bump 0x1100 3 s)
  | none => setCan p { can s p with waiting := (can s p).waiting ++ [q] } s

/-- A reply to a frame that makes no request. -/
def frameError (p : Nat) (r : Reassembly) (err : Nat) (s : State) : State :=
  sendReply p r.client r.tid { op := r.op, index := r.index, sub := r.sub, err := err, data := [] } s

/-- An abandoned transfer (R422). -/
def abandon (p : Nat) (r : Reassembly) (s : State) : State := bump (0x1101 + p) 6 (frameError p r 9 s)

/-- The header of a single or first frame (R421). -/
def header (client : Nat) (d : List Byte) : Reassembly :=
  { client := client, tid := field d 1 1, op := field d 2 1, index := field d 4 2, sub := field d 6 1, len := field d 8 4
    nextSegment := 1, bad := field d 3 1 != 0 || field d 7 1 != 0, data := (d.drop 12).take 52 }

/-- A first frame (R421 to R423). -/
def firstFrame (p : Nat) (r : Reassembly) (s : State) : State :=
  let c := can s p
  if c.reassembly.isSome then bump (0x1101 + p) 7 (frameError p r 5 s)
  else if 28656 < r.len then
    frameError p r 6 (setCan p { c with ignored := r.client :: c.ignored.filter fun x => x != r.client } s)
  else
    let s := setCan p { c with ignored := c.ignored.filter fun x => x != r.client } s
    if r.len ≤ 52 ∨ r.data.length < 52 then abandon p r s
    else setCan p { can s p with reassembly := some r } s

/-- A middle or last frame (R421, R422). -/
def nextFrame (p client : Nat) (last : Bool) (d : List Byte) (s : State) : State :=
  let c := can s p
  if c.ignored.contains client then s
  else
    match c.reassembly.filter fun r => r.client == client with
    | none =>
      abandon p { client := client, tid := field d 1 1, op := 0, index := 0, sub := 0, len := 0, nextSegment := 0
                  bad := false, data := [] } s
    | some r =>
      let have' := r.data.length
      let part := (d.drop 2).take (min 62 (r.len - have'))
      let whole := decide (r.len ≤ have' + 62)
      if field d 1 1 ≠ r.tid ∨ field d 0 1 % 64 ≠ r.nextSegment % 64 ∨ whole ≠ last ∨ part.length < min 62 (r.len - have') then
        abandon p r (setCan p { c with reassembly := none } s)
      else
        let r := { r with data := r.data ++ part, nextSegment := r.nextSegment + 1 }
        if last then complete p r (setCan p { c with reassembly := none } s)
        else setCan p { c with reassembly := some r } s

/-- A frame arrives (R420 to R423). -/
def canFrame (p : Nat) (f : CanFrame) (s : State) : State :=
  let i := f.ident.toNat
  let client := i / 1024 % 128
  if !canLive s p || i / 2 ^ 24 != 1 || i / 2 ^ 17 % 128 != s.modes.ndId.toNat || i % 1024 != 0 then s
  else
    let s := bump (0x1101 + p) 4 s
    match field f.data 0 1 / 64 with
    | 0 =>
      let r := header client f.data
      if r.data.length < r.len then frameError p r 6 s else complete p r s
    | 1 => firstFrame p (header client f.data) s
    | k => nextFrame p client (k == 3) f.data s

/-- 100 ms pass between two segments (R422). -/
def segmentTimeout (p : Nat) (s : State) : State :=
  match (can s p).reassembly with
  | none => s
  | some r => abandon p r (setCan p { can s p with reassembly := none } s)

/-- The error counters of a port change (R418): above 127 it is error passive, above 255 bus off. -/
def busError (p tec rec' : Nat) (s : State) : State :=
  if !enabled s p || (can s p).busOff then s
  else
    let off := decide (255 < tec)
    let s := if off then bump (0x1101 + p) 0x0A s else s
    change p (fun s => setCan p { can s p with
      txErr := if off then 256 else tec, rxErr := rec', busOff := off } s) s

/-- A bus-off port recovers (R418). -/
def busOffRecovery (p : Nat) (s : State) : State :=
  if !(can s p).busOff then s
  else change p (fun s => setCan p { can s p with txErr := 0, rxErr := 0, busOff := false } s) s

end Sys2Proof.Machine.Dict
end

