-- ==== Sys2Proof/Machine/Run.lean ====
section
/-!
DEFINITION. The frame of every command: what comes before its effect and after it, and what it leaves alone whatever it does
(R33, R37, R42, R43, R129, R405, R484).
-/

namespace Sys2Proof.Machine.Run

open Sys2Proof.Machine.Ops

/-- A time of Lydan: 48 bits of seconds, nanoseconds below a second, and what lies below the nanosecond (R129, R131, R133). -/
def legalTime (t : TimeState) : TimeState :=
  { sec := t.sec % 2 ^ 48, ns := t.ns % 1000000000, sub := t.sub % 2 ^ 40 }

/-- Keep Lydan time and the queue of commands: only the timebase, a step of time and a change of supplies move time (R129,
R134, R138, R164), and a command's effect is on everything but the queue. -/
def commit (s t : State) : State := { t with time := s.time, pending := s.pending }

/-- Keep the queue of commands, for a command that moves Lydan time. -/
def commitTime (s t : State) : State := { t with time := legalTime t.time, pending := s.pending }

/-- A command's effect with what it sets off; none in M0 (R405). -/
def effect (f : State → State) (s : State) : State := Modes.settle (f (Modes.begin' s))

/-- A command that leaves Lydan time alone. -/
def run (f : State → State) (s : State) : Out :=
  if s.modes.cur = .m0 then .next s else .next (commit s (effect f s))

/-- A command that can step Lydan time. -/
def runTime (f : State → State) (s : State) : Out :=
  if s.modes.cur = .m0 then .next s else .next (commitTime s (effect f s))

/-- A command of the supplies and of RESET_N, which acts in M0 too (R33, R37, R521). -/
def runSupply (f : State → State) (s : State) : Out :=
  if s.modes.cur = .m0 then .next (commitTime s (f (begin s))) else .next (commitTime s (effect f s))

/-- What an empty queue gives: one period of the 1 GHz timebase clock (R133), and a release of M1 that is due (R37). Log entry
4. -/
def idle (s : State) : Out :=
  if s.modes.cur = .m0 then .next s else .next (commitTime s (effect Time.period s))

end Sys2Proof.Machine.Run
end

