-- ==== Sys2Proof/Machine/Operands.lean ====
section
/-!
DEFINITION. The operand forms of the commands that are requests to the dictionary: which sub each writes, and how its operands
spell the value (R48, R155, R198, R265, R373, R398, R426).
-/

namespace Sys2Proof.Machine.Operands

open Sys2Proof.Machine.Ops

/-- The bytes of a sub of fixed size. -/
def size (index sub : Nat) : Nat := ((Objects.row index sub).bind fun x => Objects.sizeOf x.ty).getD 0

/-- A WRITE of a number to a sub of fixed size. -/
def write (t : Transport) (index sub v : Nat) (s : State) : State := Dict.put t index sub (size index sub) v s

/-- A WRITE of bytes. -/
def writeBytes (t : Transport) (index sub : Nat) (d : List Byte) (s : State) : State := Dict.serve t 2 index sub d s

/-- A sealed WRITE of a number to a sub of fixed size. -/
def sealed (t : Transport) (slot : Fin 4) (sig : List Byte) (index sub v : Nat) (s : State) : State :=
  Dict.sealedPut t slot.val sig index sub (size index sub) v s

/-- Replace `w` bits of a word from bit `lo` on. -/
def replace (word lo w v : Nat) : Nat := word - word / 2 ^ lo % 2 ^ w * 2 ^ lo + v % 2 ^ w * 2 ^ lo

/-- A WRITE of a stored word with one field replaced. -/
def writeField (t : Transport) (index sub lo w v : Nat) (s : State) : State :=
  write t index sub (replace (reg s index sub) lo w v) s

/-- A write of TARGET, bits [1:0] of a bank's control word (R198). -/
def target (t : Transport) (n : Fin 2048) (v : Nat) (s : State) : State := writeField t (0x4800 + n) 1 0 2 v s

/-- A write of a field of a lane's control word (R373). -/
def laneField (t : Transport) (n : Fin 64) (lo w v : Nat) (s : State) : State := writeField t (0x7100 + n) 1 lo w v s

/-- A write of ENABLE, bit 31 of a DMA channel's control word (R398). -/
def dmaEnable (t : Transport) (c : Fin 32) (v : Nat) (s : State) : State := writeField t (0x8100 + c) 1 31 1 v s

/-- The BLOB of 0x3010.02: gate, bank, a zero, epoch (R155). -/
def commitBlob (g : W16) (bank : Byte) (epoch : Nat) : List Byte :=
  bytes 2 g.toNat ++ bytes 1 bank.toNat ++ bytes 1 0 ++ bytes 4 epoch

/-- The BLOB of 0x6000.01: the offset, then the bytes (R265). -/
def stagingBlob (off : W32) (d : List Byte) : List Byte := bytes 4 off.toNat ++ d

/-- A Boolean as a number. -/
def ofBool (b : Bool) : Nat := if b then 1 else 0

/-- The operation code of a request (R407). -/
def opCode : ReqOp → Nat
  | .read => 1 | .write => 2 | .describe => 3

/-- The data that a request carries: a WRITE alone carries any (R407). -/
def dataOf (op : ReqOp) (d : List Byte) : List Byte := if op = .write then d else []

/-- A channel port by its number in the state: an engine's port of region r, or the host's. -/
def portNo : PortRef → Nat
  | .engine r => r.val
  | .host r => 512 + r.val

end Sys2Proof.Machine.Operands
end

