-- ==== Sys2Proof/Machine/CmdBanks.lean ====
section
/-!
DEFINITION. The commands of the memory banks (R166 to R201).
-/

namespace Sys2Proof.Machine

open Sys2Proof.Machine.Run

/-- BANK_REQUEST (R171). -/
def execBankRequest (n : Fin 2048) (portB : Bool) (s : State) : Out := run (Banks.request n portB) s

/-- BANK_GRANT (R174 to R178). -/
def execBankGrant (n : Fin 2048) (s : State) : Out := run (Banks.grant n) s

/-- DUAL_PORT_CYCLE (R180 to R182). -/
def execDualPortCycle (n : Fin 2048) (s : State) : Out := run (Banks.cycle n) s

/-- BANK_ACCESS_COMPLETE (R172, R173, R191 to R194). -/
def execBankAccessComplete (n : Fin 2048) (flips : BitVec 72) (s : State) : Out := run (Banks.complete n flips) s

/-- HOST_BANK_READ (R183 to R186). -/
def execHostBankRead (off : BitVec 29) (len : W16) (s : State) : Out :=
  run (HostLink.viaLink (Banks.apertureRead off.toNat len.toNat)) s

/-- HOST_BANK_WRITE (R183 to R186). -/
def execHostBankWrite (off : BitVec 27) (data : List Byte) (s : State) : Out :=
  run (HostLink.viaLink (Banks.apertureWrite 1 off.toNat data)) s

/-- HOST_BANK_SET (R183). -/
def execHostBankSet (off : BitVec 27) (data : List Byte) (s : State) : Out :=
  run (HostLink.viaLink (Banks.apertureWrite 2 off.toNat data)) s

/-- HOST_BANK_CLEAR (R183). -/
def execHostBankClear (off : BitVec 27) (data : List Byte) (s : State) : Out :=
  run (HostLink.viaLink (Banks.apertureWrite 3 off.toNat data)) s

/-- TARGET_ON (R188, R198, R199). -/
def execTargetOn (t : Transport) (n : Fin 2048) (s : State) : Out := run (Operands.target t n 0) s

/-- TARGET_RETAIN (R188, R198, R199). -/
def execTargetRetain (t : Transport) (n : Fin 2048) (s : State) : Out := run (Operands.target t n 1) s

/-- TARGET_OFF (R188, R198, R199). -/
def execTargetOff (t : Transport) (n : Fin 2048) (s : State) : Out := run (Operands.target t n 2) s

/-- TARGET_DEEP_RETAIN (R188, R198, R199). -/
def execTargetDeepRetain (t : Transport) (n : Fin 2048) (s : State) : Out := run (Operands.target t n 3) s

/-- BANK_IDLE_EXPIRY (R188). -/
def execBankIdleExpiry (n : Fin 2048) (s : State) : Out := run (Banks.idleExpiry n) s

/-- BANK_WAKE_COMPLETE (R188). -/
def execBankWakeComplete (n : Fin 2048) (s : State) : Out := run (Banks.wakeComplete n) s

/-- SOFT_REPAIR_WRITE (R195, R196, R200). -/
def execSoftRepairWrite (t : Transport) (n : Fin 2048) (v : W32) (s : State) : Out :=
  run (Operands.write t (0x4800 + n) 9 v.toNat) s

/-- COLUMN_REBUILD_ACCESS (R196). -/
def execColumnRebuildAccess (n : Fin 2048) (s : State) : Out := run (Banks.rebuild n) s

/-- BANK_CAUSE_ENABLE_WRITE (R201). -/
def execBankCauseEnableWrite (t : Transport) (v : Byte) (s : State) : Out := run (Operands.write t 0x4000 3 v.toNat) s

end Sys2Proof.Machine
end

