-- ==== Sys2Proof/Machine/CmdBridges.lean ====
section
/-!
DEFINITION. The commands of the bridges and clock domains (R313 to R330).
-/

namespace Sys2Proof.Machine

open Sys2Proof.Machine.Run

/-- BRIDGE_CAPTURE (R318 to R321). -/
def execBridgeCapture (b : BridgeId) (v : W64) (s : State) : Out := run (Lanes.bridgeCapture b v) s

/-- BRIDGE_DELIVER (R318, R323, R324, R496). -/
def execBridgeDeliver (b : BridgeId) (s : State) : Out := run (EventBlock.deliver b) s

/-- BRIDGE_FREE (R318, R321, R323). -/
def execBridgeFree (b : BridgeId) (s : State) : Out := run (Bridges.free b) s

/-- SOURCE_PULSE (R323). -/
def execSourcePulse (b : BridgeId) (s : State) : Out := run (Bridges.pulse b) s

/-- BRIDGE_RESET (R325). -/
def execBridgeReset (b : BridgeId) (source release : Bool) (s : State) : Out := run (Bridges.reset b source release) s

/-- CLOCK_DEPARTURE (R316). -/
def execClockDeparture (d : Fin 108) (s : State) : Out := run (Bridges.depart d) s

/-- CLOCK_RECOVERY (R316). -/
def execClockRecovery (d : Fin 108) (khz : BitVec 21) (s : State) : Out := run (Bridges.recover d khz.toNat) s

end Sys2Proof.Machine
end

