-- ==== Sys2Proof/Machine/CmdDict.lean ====
section
/-!
DEFINITION. The commands of the dictionary and its transports (R401 to R433).
-/

namespace Sys2Proof.Machine

open Sys2Proof.Machine.Run

/-- READ (R407, R410). -/
def execRead (t : Transport) (index : W16) (sub : Byte) (s : State) : Out := run (Dict.serve t 1 index.toNat sub.toNat []) s

/-- WRITE (R407, R410); a WRITE of 0x3000.03 steps Lydan time. -/
def execWrite (t : Transport) (index : W16) (sub : Byte) (data : List Byte) (s : State) : Out :=
  runTime (Operands.writeBytes t index.toNat sub.toNat data) s

/-- DESCRIBE (R407, R408, R410). -/
def execDescribe (t : Transport) (index : W16) (sub : Byte) (s : State) : Out :=
  run (Dict.serve t 3 index.toNat sub.toNat []) s

/-- DOORBELL (R415, R416). -/
def execDoorbell (v : W32) (area : List Byte) (s : State) : Out := 
  run (HostLink.viaLink (Dict.doorbell v.toNat area)) s

/-- CAN_REQUEST_FRAME (R420 to R423). -/
def execCanRequestFrame (p : Fin 2) (f : CanFrame) (s : State) : Out := run (Dict.canFrame p f) s

/-- CAN_SEGMENT_TIMEOUT (R422). -/
def execCanSegmentTimeout (p : Fin 2) (s : State) : Out := run (Dict.segmentTimeout p) s

/-- NOTICE (R424). -/
def execNotice (p : Fin 2) (s : State) : Out := run (Transports.sendNotice p) s

/-- CAN_PORT_DISABLE (R427). -/
def execCanPortDisable (t : Transport) (p : Fin 2) (s : State) : Out := run (Operands.write t (0x1101 + p) 1 0) s

/-- BUS_OFF_RECOVERY (R418). -/
def execBusOffRecovery (p : Fin 2) (s : State) : Out := run (Dict.busOffRecovery p) s

/-- SEALED_COMMAND (R425, R426). -/
def execSealedCommand (t : Transport) (blob : List Byte) (s : State) : Out := run (Operands.writeBytes t 0xC040 2 blob) s

/-- PUBLISHED_ACCESS (R430, R431). -/
def execPublishedAccess (t : Transport) (op : ReqOp) (index : BitVec 12) (sub : Byte) (data : List Byte) (s : State) : Out :=
  run (Dict.serve t (Operands.opCode op) (0xF000 + index.toNat) sub.toNat (Operands.dataOf op data)) s

/-- PUBLICATION_ENTRY_WRITE (R428, R429). -/
def execPublicationEntryWrite (t : Transport) (e : Fin 128) (v : W64) (s : State) : Out :=
  run (Operands.write t 0x1103 (1 + e) v.toNat) s

/-- BUS_ERROR (R418, R432). -/
def execBusError (p : Fin 2) (tec rxe : W16) (s : State) : Out := run (Dict.busError p tec.toNat rxe.toNat) s

end Sys2Proof.Machine
end

