-- ==== Sys2Proof/Machine/CmdEvents.lean ====
section
/-!
DEFINITION. The commands of the event block (R495 to R511).
-/

namespace Sys2Proof.Machine

open Sys2Proof.Machine.Run

/-- FABRIC_USER_EVENT (R496). -/
def execFabricUserEvent (u : Fin 128) (s : State) : Out := run (EventBlock.token u) s

/-- PULSE_RAW_END (R497). -/
def execPulseRawEnd (src : Fin 640) (s : State) : Out := run (EventBlock.pulseEnd src) s

/-- STATUS_CLEAR (R500). -/
def execStatusClear (t : Transport) (mask : List Byte) (s : State) : Out := run (Operands.writeBytes t 0xB000 2 mask) s

/-- EVENT_CONTROL_WRITE (R498, R501, R502). -/
def execEventControlWrite (t : Transport) (src : Fin 640) (v : W32) (s : State) : Out :=
  run (Operands.write t (0xB100 + src.val / 128) (1 + src.val % 128) v.toNat) s

end Sys2Proof.Machine
end

