-- ==== Sys2Proof/Machine/CmdFabric.lean ====
section
/-!
DEFINITION. The commands of the array: stages, lenses, region resets and collars (R54 to R128, R255).
-/

namespace Sys2Proof.Machine

open Sys2Proof.Machine.Run

/-- A stage captures; a bypass gate also offers at once (R64, R149). -/
def captureStage (u : StageRef) (s : State) : State :=
  match u with
  | .gate g => Time.capture g s
  | u => Fabric.capture u s

/-- STAGE_CAPTURE (R64). -/
def execStageCapture (u : StageRef) (s : State) : Out := run (captureStage u) s

/-- STAGE_INPUTS_SPACER (R64). -/
def execStageInputsSpacer (k : Taker) (s : State) : Out := run (Fabric.lower k) s

/-- A stage offers; a gate does so by itself only in bypass mode (R64, R149). -/
def offerStage (u : StageRef) (s : State) : State :=
  match u with
  | .gate g => if Time.modeOf (Time.config s g) = 2 then Fabric.offer u s else s
  | u => Fabric.offer u s

/-- STAGE_OFFER (R64). -/
def execStageOffer (u : StageRef) (s : State) : Out := run (offerStage u) s

/-- What a block does once a word of its own has left its buffer: a queue port serves its next request (R211), a lane slice
takes its next transfer (R343), a pin offers its latest value (R446). -/
def afterTaken (c : Chan) (s : State) : State :=
  match Fabric.locate c with
  | some (.queue p, _) => Queues.serveNext p s
  | some (.lane j, _) => Lanes.feed (j / 4) (j % 4) s
  | some (.pin p, _) => Pins.taken p s
  | _ => s

/-- STAGE_ACKNOWLEDGED (R55, R64). -/
def execStageAcknowledged (c : Chan) (s : State) : Out := run (fun s => afterTaken c (Fabric.acknowledge c s)) s

/-- TRANSPARENT_EVALUATE (R65). -/
def execTransparentEvaluate (u : Fin 16777216) (s : State) : Out := run (Fabric.evaluate u) s

/-- ILLEGAL_CODE (R58). -/
def execIllegalCode (c : Chan) (r : Fin 512) (s : State) : Out := run (Fabric.enterIllegal c r) s

/-- REGION_RESET (R72, R77). -/
def execRegionReset (t : Transport) (v : W16) (s : State) : Out := run (Operands.write t 0x2400 1 v.toNat) s

/-- LENS_SAMPLE (R123). -/
def execLensSample (r : Fin 512) (s : State) : Out := run (Fabric.sample r) s

/-- NO_PROGRESS_WINDOW_END (R125). -/
def execNoProgressWindowEnd (r : Fin 512) (s : State) : Out := run (Fabric.windowEnd r) s

/-- NO_PROGRESS_WINDOW_WRITE (R127). -/
def execNoProgressWindowWrite (t : Transport) (v : W32) (s : State) : Out := run (Operands.write t 0x2500 1 v.toNat) s

/-- COLLAR_ISOLATE (R116). -/
def execCollarIsolate (t : Transport) (r : Fin 512) (s : State) : Out := run (Operands.write t (0x2600 + r) 1 1) s

/-- COLLAR_ISOLATION_COMPLETE (R116 step 3). -/
def execCollarIsolationComplete (r : Fin 512) (s : State) : Out := run (Fabric.isolated r) s

/-- COLLAR_OPEN (R117, R121). -/
def execCollarOpen (t : Transport) (r : Fin 512) (s : State) : Out := run (Operands.write t (0x2600 + r) 1 0) s

/-- COLLAR_POLICY_WRITE (R118). -/
def execCollarPolicyWrite (t : Transport) (r : Fin 512) (v : Byte) (s : State) : Out :=
  run (Operands.write t (0x2600 + r) 2 v.toNat) s

/-- INBOUND_DRAIN (R114). -/
def execInboundDrain (r : Fin 512) (c : Chan) (s : State) : Out := run (Regions.drain r c) s

end Sys2Proof.Machine
end

