-- ==== Sys2Proof/Machine/CmdLoad.lean ====
section
/-!
DEFINITION. The commands of the loader, the keys, scrubbing and attestation (R275 to R312, R456, R457).
-/

namespace Sys2Proof.Machine

open Sys2Proof.Machine.Run

/-- Bytes written to the stream aperture reach the loader one by one (R275). -/
def apertureBytes (d : List Byte) (s : State) : State := d.foldl (fun s b => Loader.arrive .aperture b s) s

/-- STREAM_APERTURE_WRITE (R275 to R277). -/
def execStreamApertureWrite (data : List Byte) (s : State) : Out := run (HostLink.viaLink (apertureBytes data)) s

/-- A byte strobed at the configuration port; one strobed with its data changing is unspecified (R456, R457). -/
def strobe (b : Option Byte) (s : State) : State :=
  match b with
  | some b => Loader.arrive .port b s
  | none => Loader.arrive .port (Config.strobedByte s.fresh) (Ops.tickFresh s)

/-- CFG_PORT_BYTE (R456, R457). -/
def execCfgPortByte (b : Option Byte) (s : State) : Out := run (strobe b) s

/-- DISCARD_RUN_END (R276). -/
def execDiscardRunEnd (src : Source) (s : State) : Out := run (Loader.runEnd src) s

/-- A byte that finds the loader idle (R37, R276). -/
def firstByte (src : Source) (b : Byte) (s : State) : State :=
  if s.loader.phase = .idle then Loader.arrive src b s else s

/-- HEADER_FIRST_BYTE (R37, R275, R276). -/
def execHeaderFirstByte (src : Source) (b : Byte) (s : State) : Out := run (firstByte src b) s

/-- STREAM_HEADER (R293, R294). -/
def execStreamHeader (s : State) : Out := run Loader.streamHeader s

/-- FRAME (R295). -/
def execFrame (s : State) : Out := run Loader.frame s

/-- LOAD_SILENCE (R293, R295). -/
def execLoadSilence (s : State) : Out := run Loader.silence s

/-- LOADER_RESYNC (R277). -/
def execLoaderResync (s : State) : Out := run Loader.resync s

/-- LOAD_ABORT (R299). -/
def execLoadAbort (t : Transport) (s : State) : Out := run (Operands.write t 0x2000 8 1) s

/-- END_CHECKS_COMPLETE (R296 to R300). -/
def execEndChecksComplete (s : State) : Out := run Loader.endChecksComplete s

/-- SIGNER_KEY_WRITE (R287, R288). -/
def execSignerKeyWrite (t : Transport) (slot : Fin 4) (key : List Byte) (s : State) : Out :=
  run (Operands.writeBytes t 0xC010 (slot + 1) key) s

/-- REVOKE_SLOT (R290). -/
def execRevokeSlot (t : Transport) (slot : Fin 4) (sig : List Byte) (target : Byte) (s : State) : Out :=
  run (Operands.sealed t slot sig 0xC001 7 target.toNat) s

/-- REVOCATION_BLOWN (R290). -/
def execRevocationBlown (s : State) : Out := run Security.revocationBlown s

/-- BATTERY_KEY_WRITE (R291). -/
def execBatteryKeyWrite (t : Transport) (slot : Fin 4) (sig : List Byte) (key : BitVec 256) (s : State) : Out :=
  run (Dict.sealedPut t slot sig 0xC020 1 32 key.toNat) s

/-- BATTERY_KEY_ERASE (R291). -/
def execBatteryKeyErase (t : Transport) (slot : Fin 4) (sig : List Byte) (s : State) : Out :=
  run (Operands.sealed t slot sig 0xC020 3 1) s

/-- SCRUB_FRAME (R306, R307). -/
def execScrubFrame (f : Fin 393216) (flips : BitVec 4096) (mirrorGood : Bool) (s : State) : Out :=
  run (Loader.scrubFrame f flips mirrorGood) s

/-- ATTESTATION_START (R312). -/
def execAttestationStart (t : Transport) (nonce : List Byte) (s : State) : Out := run (Operands.writeBytes t 0xC030 1 nonce) s

/-- ATTESTATION_READY (R312). -/
def execAttestationReady (s : State) : Out := run Security.attestationReady s

end Sys2Proof.Machine
end

