-- ==== Sys2Proof/Machine/CmdPrism.lean ====
section
/-!
DEFINITION. The instructions of the Prism engines, the completion of their tagged requests, their ports, images and rotation
(R232 to R274).
-/

namespace Sys2Proof.Machine

open Sys2Proof.Machine.Run
open Sys2Proof.Machine.Engines

/-! ### Arithmetic, comparisons and shifts (R236, R240) -/

/-- The three-valued comparison of CMPS and CMPU. -/
def compare (less : W32 → W32 → Bool) (a b : W32) : W32 := if less a b then 0xFFFFFFFF else if a = b then 0 else 1

/-- The amount of a shift: bits [4:0] of a register or an immediate (R236, R240). -/
def amount (b : W32) : Nat := b.toNat % 32

/-- A shift right with sign fill. -/
def shiftSigned (a : W32) (k : Nat) : W32 := a.sshiftRight k

/-- ADD: D := A + B (R240). -/
def execAdd (n : Fin 128) (s : State) : Out := run (alu 0x01 n (fun a b => a + b)) s

/-- SUB: D := A − B (R240). -/
def execSub (n : Fin 128) (s : State) : Out := run (alu 0x02 n (fun a b => a - b)) s

/-- AND (R240). -/
def execAnd (n : Fin 128) (s : State) : Out := run (alu 0x03 n (fun a b => a &&& b)) s

/-- IOR (R240). -/
def execIor (n : Fin 128) (s : State) : Out := run (alu 0x04 n (fun a b => a ||| b)) s

/-- EOR (R240). -/
def execEor (n : Fin 128) (s : State) : Out := run (alu 0x05 n (fun a b => a ^^^ b)) s

/-- MLO: the low 32 bits of A × B (R240). -/
def execMlo (n : Fin 128) (s : State) : Out := run (alu 0x06 n (fun a b => a * b)) s

/-- CMPS (R240). -/
def execCmps (n : Fin 128) (s : State) : Out := run (alu 0x07 n (compare BitVec.slt)) s

/-- CMPU (R240). -/
def execCmpu (n : Fin 128) (s : State) : Out := run (alu 0x08 n (compare BitVec.ult)) s

/-- SHL (R240). -/
def execShl (n : Fin 128) (s : State) : Out := run (alu 0x09 n (fun a b => a <<< amount b)) s

/-- SHR (R240). -/
def execShr (n : Fin 128) (s : State) : Out := run (alu 0x0A n (fun a b => a >>> amount b)) s

/-- SHA (R240). -/
def execSha (n : Fin 128) (s : State) : Out := run (alu 0x0B n (fun a b => shiftSigned a (amount b))) s

/-- ADDK (R240). -/
def execAddk (n : Fin 128) (s : State) : Out := run (aluImm 0x10 n (fun a w => a + sext w)) s

/-- ANDK (R240). -/
def execAndk (n : Fin 128) (s : State) : Out := run (aluImm 0x11 n (fun a w => a &&& zext w)) s

/-- IORK (R240). -/
def execIork (n : Fin 128) (s : State) : Out := run (aluImm 0x12 n (fun a w => a ||| zext w)) s

/-- EORK (R240). -/
def execEork (n : Fin 128) (s : State) : Out := run (aluImm 0x13 n (fun a w => a ^^^ zext w)) s

/-- HIGH: D := IMM × 2^14 (R240). -/
def execHigh (n : Fin 128) (s : State) : Out := run (aluImm 0x14 n (fun _ w => zext w <<< 14)) s

/-- SHLK (R240). -/
def execShlk (n : Fin 128) (s : State) : Out := run (aluImm 0x15 n (fun a w => a <<< amount w)) s

/-- SHRK (R240). -/
def execShrk (n : Fin 128) (s : State) : Out := run (aluImm 0x16 n (fun a w => a >>> amount w)) s

/-- SHAK (R240). -/
def execShak (n : Fin 128) (s : State) : Out := run (aluImm 0x17 n (fun a w => shiftSigned a (amount w))) s

/-! ### Program flow (R240) -/

/-- JEQ (R240). -/
def execJeq (n : Fin 128) (s : State) : Out := run (branch 0x18 n (fun a b => a == b)) s

/-- JNE (R240). -/
def execJne (n : Fin 128) (s : State) : Out := run (branch 0x19 n (fun a b => a != b)) s

/-- JLS (R240). -/
def execJls (n : Fin 128) (s : State) : Out := run (branch 0x1A n (BitVec.slt)) s

/-- JGS (R240). -/
def execJgs (n : Fin 128) (s : State) : Out := run (branch 0x1B n (fun a b => !a.slt b)) s

/-- JLU (R240). -/
def execJlu (n : Fin 128) (s : State) : Out := run (branch 0x1C n (BitVec.ult)) s

/-- JGU (R240). -/
def execJgu (n : Fin 128) (s : State) : Out := run (branch 0x1D n (fun a b => !a.ult b)) s

/-- CALL: D := pc + 4, and the branch (R240). -/
def callBody (n : Nat) (e : Engine) (w : W32) (s : State) : State :=
  retire n (e.pc + 4 + 4 * sext w) (put (f1 w) (e.pc + 4) e) s

/-- JUMPR: the target is taken from A before D is written (R240). -/
def jumprBody (n : Nat) (e : Engine) (w : W32) (s : State) : State :=
  retire n ((get e (f2 w) + 4 * sext w) &&& 0xFFFFFFFC) (put (f1 w) (e.pc + 4) e) s

/-- CALL (R240). -/
def execCall (n : Fin 128) (s : State) : Out := run (issue 0x1E n (callBody n)) s

/-- JUMPR (R240). -/
def execJumpr (n : Fin 128) (s : State) : Out := run (issue 0x1F n (jumprBody n)) s

/-! ### Loads and stores (R237, R238, R240) -/

/-- LDW (R237). -/
def execLdw (n : Fin 128) (s : State) : Out := run (load 0x20 n 4 (fun d v e => put d (BitVec.ofNat 32 v) e)) s

/-- LDB (R237). -/
def execLdb (n : Fin 128) (s : State) : Out := run (load 0x21 n 1 (fun d v e => put d (BitVec.ofNat 32 v) e)) s

/-- LDP (R237, R238). -/
def execLdp (n : Fin 128) (s : State) : Out := run (load 0x22 n 8 (fun d v e => putPair d (BitVec.ofNat 64 v) e)) s

/-- STW (R237). -/
def execStw (n : Fin 128) (s : State) : Out := run (store 0x24 n 4 (fun e d => (get e d).toNat)) s

/-- STB (R237). -/
def execStb (n : Fin 128) (s : State) : Out := run (store 0x25 n 1 (fun e d => (get e d).toNat)) s

/-- STP (R237, R238). -/
def execStp (n : Fin 128) (s : State) : Out := run (store 0x26 n 8 (fun e d => (getPair e d).toNat)) s

/-! ### Tagged requests (R242 to R250, R253) -/

/-- The queue that A and IMM10 name (R240). -/
def queueOf (e : Engine) (w : W32) : BitVec 12 := BitVec.ofNat 12 ((get e (f3 w)).toNat + imm10 w)

/-- A register field. -/
def field4 (g : Nat) : Fin 16 := Fin.ofNat 16 g

/-- A push: S:S+1 to the queue, the status to D. -/
def pushReq (op : QOp) (e : Engine) (w : W32) : TagReq :=
  .queue op (queueOf e w) (getPair e (f2 w)) none (field4 (f1 w))

/-- A pop or peek: into D:D+1, the status to S. -/
def popReq (op : QOp) (e : Engine) (w : W32) : TagReq :=
  .queue op (queueOf e w) 0 (some (field4 (f1 w))) (field4 (f2 w))

/-- A bit-set or bit-clear of a half-word: address A, mask B, the old half to S, the status to D. -/
def bitReq (clear : Bool) (e : Engine) (w : W32) : TagReq :=
  .bank clear (get e (f3 w)) (get e (f4 w)) (field4 (f2 w)) (field4 (f1 w))

/-- QPUSH (R249). -/
def execQpush (n : Fin 128) (s : State) : Out := run (tagged 0x28 n (pushReq .push)) s

/-- QPUSHC (R249). -/
def execQpushc (n : Fin 128) (s : State) : Out := run (tagged 0x29 n (pushReq .pushClose)) s

/-- QPOP (R249). -/
def execQpop (n : Fin 128) (s : State) : Out := run (tagged 0x2A n (popReq .pop)) s

/-- QPEEK (R249). -/
def execQpeek (n : Fin 128) (s : State) : Out := run (tagged 0x2B n (popReq .peek)) s

/-- QABORT (R249). -/
def execQabort (n : Fin 128) (s : State) : Out := run (tagged 0x2C n (fun e w => .queue .abort (queueOf e w) 0 none (field4 (f1 w)))) s

/-- BSET (R250). -/
def execBset (n : Fin 128) (s : State) : Out := run (tagged 0x2E n (bitReq false)) s

/-- BCLR (R250). -/
def execBclr (n : Fin 128) (s : State) : Out := run (tagged 0x2F n (bitReq true)) s

/-- TRD: the launch count into D:D+1 (R251). -/
def trdBody (n : Nat) (e : Engine) (w : W32) (s : State) : State :=
  retire n (e.pc + 4) (putPair (f1 w) (Ops.launch s) e) s

/-- TWAIT waits for the launch count of A:A+1 as it was at issue (R252). -/
def twaitBody (n : Nat) (e : Engine) (w : W32) (s : State) : State :=
  twaitDone n (e.twait.getD (getPair e (f2 w))) e w s

/-- TRD (R251). -/
def execTrd (n : Fin 128) (s : State) : Out := run (issuePair 0x30 n (trdBody n)) s

/-- TWAIT (R252). -/
def execTwait (n : Fin 128) (s : State) : Out := run (issuePair 0x31 n (twaitBody n)) s

/-- TWAIT_TARGET_REACHED (R252). -/
def execTwaitTargetReached (n : Fin 128) (s : State) : Out := run (twaitReached n) s

/-- GENT (R253). -/
def execGent (n : Fin 128) (s : State) : Out := run (tagged 0x32 n (fun e w => .entry (get e (f3 w)) (getPair e (f2 w)) (field4 (f1 w)))) s

/-- GARM (R253). -/
def execGarm (n : Fin 128) (s : State) : Out := run (tagged 0x33 n (fun e w => .arm (get e (f3 w)) (get e (f4 w)) (field4 (f1 w)))) s

/-! ### Ports, causes and the rest (R240, R246, R254 to R256, R272) -/

/-- SEND waits for an empty send buffer, then fills it from A:A+1, which also drives the pins that the port owns (R255,
R445). -/
def sendBody (n : Nat) (e : Engine) (w : W32) (s : State) : State :=
  let q := imm18 w % 4
  if (port s (4 * n + q)).send.isSome then s
  else
    let v := getPair e (f2 w)
    retire n (e.pc + 4) e (Pins.engineSend n q v (fillSend (4 * n + q) v s))

/-- RECV faults on a port that is off, and else waits for a full receive buffer and empties it into D:D+1 (R255). -/
def recvBody (n : Nat) (e : Engine) (w : W32) (s : State) : State :=
  let q := imm18 w % 4
  let p := port s (4 * n + q)
  if recvOff s n q then fault n 6 s
  else
    match p.recv with
    | none => s
    | some v => retire n (e.pc + 4) (putPair (f1 w) v e) (setPort (4 * n + q) { p with recv := none } s)

/-- POLL (R256). -/
def pollBody (n : Nat) (e : Engine) (w : W32) (s : State) : State := retire n (e.pc + 4) (put (f1 w) (pollWord s n) e) s

/-- EVR raises the software causes of IMM[15:0] (R240, R272). -/
def evrBody (n : Nat) (e : Engine) (w : W32) (s : State) : State :=
  cause n (imm18 w % 65536 * 65536) (retire n (e.pc + 4) e s)

/-- FENCE waits for the last tag (R246). -/
def fenceBody (n : Nat) (e : Engine) (_ : W32) (s : State) : State :=
  if e.tags.isEmpty then retire n (e.pc + 4) e s else s

/-- RDSPEC (R240). -/
def rdspecBody (n : Nat) (e : Engine) (w : W32) (s : State) : State :=
  retire n (e.pc + 4) (put (f1 w) (special s n (imm18 w)) e) s

/-- HALT: Halted, with pc at the next instruction (R240, R259, R273). -/
def haltBody (n : Nat) (e : Engine) (_ : W32) (s : State) : State :=
  cause n 2 (retire n (e.pc + 4) { e with state := .halted } s)

/-- SEND (R255). -/
def execSend (n : Fin 128) (s : State) : Out := run (issuePair 0x34 n (sendBody n)) s

/-- RECV (R255). -/
def execRecv (n : Fin 128) (s : State) : Out := run (issuePair 0x35 n (recvBody n)) s

/-- POLL (R256). -/
def execPoll (n : Fin 128) (s : State) : Out := run (issue 0x36 n (pollBody n)) s

/-- EVR (R272). -/
def execEvr (n : Fin 128) (s : State) : Out := run (issue 0x38 n (evrBody n)) s

/-- FENCE (R246). -/
def execFence (n : Fin 128) (s : State) : Out := run (issue 0x39 n (fenceBody n)) s

/-- RDSPEC (R240). -/
def execRdspec (n : Fin 128) (s : State) : Out := run (issue 0x3A n (rdspecBody n)) s

/-- HALT (R240). -/
def execHalt (n : Fin 128) (s : State) : Out := run (issue 0x3B n (haltBody n)) s

/-- TAG_COMPLETION (R242 to R248). -/
def execTagCompletion (n : Fin 128) (tag : Fin 8) (f : PoolFault) (s : State) : Out := run (complete n tag f) s

/-- PORT_RECEIVE_CAPTURE (R255, R386). -/
def execPortReceiveCapture (p : PortRef) (s : State) : Out := run (capture (Operands.portNo p)) s

/-- PORT_SEND_ACKNOWLEDGED (R255, R386). -/
def execPortSendAcknowledged (p : PortRef) (s : State) : Out := run (sendAcked (Operands.portNo p)) s

/-! ### Commands, images and rotation (R260, R265 to R269) -/

/-- START (R260). -/
def execStart (t : Transport) (n : Fin 128) (s : State) : Out := run (Operands.write t (0x6100 + n) 1 1) s

/-- STOP (R260). -/
def execStop (t : Transport) (n : Fin 128) (s : State) : Out := run (Operands.write t (0x6100 + n) 1 2) s

/-- RESUME (R260). -/
def execResume (t : Transport) (n : Fin 128) (s : State) : Out := run (Operands.write t (0x6100 + n) 1 3) s

/-- STAGING_WRITE (R265, R266). -/
def execStagingWrite (t : Transport) (off : W32) (data : List Byte) (s : State) : Out :=
  run (Operands.writeBytes t 0x6000 1 (Operands.stagingBlob off data)) s

/-- A write of the engine-image window: discarded and counted during an install (R266); beyond the window nothing is mapped
(R381, R385). -/
def windowWrite (off : Nat) (d : List Byte) (s : State) : State :=
  if 99328 < off + d.length then HostLink.unmapped false s
  else if installing s then Ops.bump 0x6000 8 s
  else setInstaller (stage off d s.eng.installer) s

/-- IMAGE_WINDOW_WRITE (R265, R266). -/
def execImageWindowWrite (off : BitVec 17) (data : List Byte) (s : State) : Out := 
  run (HostLink.viaLink (windowWrite off.toNat data)) s

/-- STAGING_CLEAR (R265). -/
def execStagingClear (t : Transport) (s : State) : Out := run (Operands.write t 0x6000 2 0) s

/-- INSTALL (R265, R266). -/
def execInstall (t : Transport) (mask : BitVec 128) (s : State) : Out :=
  run (Operands.writeBytes t 0x6000 3 (Ops.bytes 16 mask.toNat)) s

/-- INSTALL_COMPLETE (R265). -/
def execInstallComplete (s : State) : Out := run Engines.installComplete s

/-- The rotation of group g that this one passes over was held back by TWAIT (R269). -/
def passedOver (s : State) (g : Nat) : Bool :=
  (heldRotation s g).any fun m => Ops.reg s (0x6100 + m.engine) 0x0B != 1

/-- A rotation, and the guarantee that each group passed over breaks (R267, R269, R492 case 3). -/
def rotationStep (s : State) : State :=
  let l := if Ops.modeIn s [.m5] && Ops.reg s 0x6000 6 != 0 then (List.range 4).filter (passedOver s) else []
  l.foldl (fun s g => Ops.broken 4 2 3 g s) (Engines.rotation s)

/-- ROTATION (R267, R269). -/
def execRotation (s : State) : Out := run rotationStep s

/-- MIGRATION_COPY_DONE (R268). -/
def execMigrationCopyDone (g : Fin 4) (s : State) : Out := run (copyDone g) s

end Sys2Proof.Machine
end

