-- ==== Sys2Proof/Machine/HostMap.lean ====
section
/-!
DEFINITION. The endpoint as the host sees it: the functions' configuration registers, and what stands at each offset of each BAR
(R376, R380 to R388, R396, R415, R511).
-/

namespace Sys2Proof.Machine.HostMap

open Sys2Proof.Machine.Ops

/-! ### Configuration space -/

/-- Device IDs (R380). -/
def deviceId : Fn → Nat
  | .pf0 => 0x1624
  | .pf1 => 0x1625
  | .vf _ => 0x1626

/-- Class codes (R380). -/
def classCode : Fn → Nat
  | .pf0 => 0x088000
  | _ => 0x118000

/-- The sizes of BAR0, BAR2 and BAR4 in bytes, 0 where there is none (R380). -/
def barSize : Fn → Fin 3 → Nat
  | .pf0, 0 => 0x4000000
  | .pf0, _ => 0
  | .pf1, 0 => 0x20000
  | .pf1, 1 => 0x100000000
  | .pf1, 2 => 0x10000
  | .vf _, 0 => 0x20000
  | .vf _, 1 => 0x200000
  | .vf _, 2 => 0x4000

/-- A register of the configuration space as the host reads it. PRESUMED: the places of its bits are those of PCI Express (log entry
93). -/
def cfgRead (s : State) (f : Fn) (r : CfgReg) : Nat :=
  let c := fnConfig s (HostLink.ownerCode f)
  let b (v : Bool) (i : Nat) : Nat := if v then 2 ^ i else 0
  match r with
  | .ids => Config.vendorId.toNat + deviceId f * 2 ^ 16
  | .classCode => classCode f
  | .bar i => if barSize f i = 0 then 0 else (Table.get (fun _ => 0) c.bars i.val : W64).toNat + 4
  | .command => b c.memory 1 + b c.busMaster 2
  | .power => if c.d3hot then 3 else 0
  | .msix => (HostLink.vectors f).2 - 1 + b c.msixMask 14 + b c.msixEnable 15
  | .link => b c.aspmL1 1
  | .ecrc => b c.ecrcGenerate 6 + b c.ecrcCheck 8

/-- What a write of it makes of the function's configuration. A BAR keeps the address bits above its size. -/
def cfgWritten (f : Fn) (r : CfgReg) (v : Nat) (c : FnConfig) : FnConfig :=
  match r with
  | .ids | .classCode => c
  | .bar i =>
    let n := barSize f i
    if n = 0 then c else { c with bars := Table.put (fun _ => 0) c.bars i.val (BitVec.ofNat 64 (v / n * n)) }
  | .command => { c with memory := bit v 1, busMaster := bit v 2 }
  | .power => if v % 4 = 0 then { c with d3hot := false } else if v % 4 = 3 then { c with d3hot := true } else c
  | .msix => { c with msixMask := bit v 14, msixEnable := bit v 15 }
  | .link => { c with aspmL1 := bit v 1 }
  | .ecrc => { c with ecrcGenerate := bit v 6, ecrcCheck := bit v 8 }

/-! ### What a place answers -/

/-- A read answers with the low `size` bytes of a value. -/
def answer (size v : Nat) (s : State) : State := emit (.readback (BitVec.ofNat 64 (v % 2 ^ (8 * size)))) s

/-- A register of a few bytes: a read answers with `v`, a write does `put`. -/
def register (size v : Nat) (put : Nat → State → State) (data : Option Nat) (s : State) : State :=
  match data with
  | none => answer size v s
  | some d => put d s

/-- A place that only answers reads: a write of it is discarded. -/
def readOnly (size v : Nat) (data : Option Nat) (s : State) : State := register size v (fun _ s => s) data s

/-- A place that only takes writes: a read of it is an access to nothing (R385). -/
def writeOnly (put : Nat → State → State) (data : Option Nat) (s : State) : State :=
  match data with
  | none => HostLink.unmapped true s
  | some d => put d s

/-- Nothing answers (R385). -/
def nothing (data : Option Nat) (s : State) : State := HostLink.unmapped data.isNone s

/-- An aligned access of four or eight bytes. -/
def regular (off size : Nat) : Bool := (size == 4 || size == 8) && off % size == 0

/-! ### Doorbell pages and region ports -/

/-- A doorbell page (R381 to R383, R388). -/
def doorbellPage (f : Fn) (c off size : Nat) (data : Option Nat) (s : State) : State :=
  let x := HostLink.chan s c
  if !HostLink.pageLive s f c || size != 4 then nothing data s
  else
    match off with
    | 0x000 => writeOnly (fun v => HostLink.sqTail f c v) data s
    | 0x004 => writeOnly (fun v => HostLink.cqHead f c v) data s
    | 0x008 => readOnly 4 x.sqHead data s
    | 0x00C => readOnly 4 x.cqTail data s
    | 0x010 => readOnly 4 (HostLink.stateCode x.state) data s
    | _ => nothing data s

/-- STATUS of a region port (R386). -/
def portStatus (s : State) (r : Nat) : Nat :=
  let p := Engines.port s (512 + r)
  (if p.recv.isSome then 1 else 0) + (if p.send.isNone then 2 else 0) + if HostLink.portOff s r then 4 else 0

/-- A region port's window (R386, R387). -/
def portWindow (f : Fn) (r off size : Nat) (data : Option Nat) (s : State) : State :=
  if !HostLink.portLive s f r || 24 ≤ off then nothing data s
  else if !modeIn s [.m5] || size != 8 || off % 8 != 0 then
    match data with
    | none => emit (.readback (BitVec.allOnes 64)) s
    | some _ => if off < 8 then HostLink.sendDiscarded s else s
  else if off = 0 then writeOnly (fun v => HostLink.portSend f r (BitVec.ofNat 64 v)) data s
  else if off = 8 then
    match data with
    | none => HostLink.portRecv f r s
    | some _ => s
  else readOnly 8 (portStatus s r) data s

/-! ### MSI-X tables and the event tables -/

/-- An MSI-X table entry: its address, its data, and its mask bit (R381 to R383, R503). -/
def entryWord (s : State) (v : Nat) : Nat :=
  let e : MsixEntry := Table.get (fun _ => {}) s.host.msix v
  e.addr.toNat + e.data.toNat * 2 ^ 64 + if s.events.msixBlocked.getLsbD v then 2 ^ 96 else 0

/-- A table entry is written. -/
def setEntry (v w : Nat) (s : State) : State :=
  let e : MsixEntry := { addr := BitVec.ofNat 64 w, data := BitVec.ofNat 32 (w / 2 ^ 64) }
  let s := { s with host := { s.host with msix := Table.put (fun _ => {}) s.host.msix v e } }
  let b : MsixBlock := .entry (BitVec.ofNat 11 v)
  if bit w 96 then HostLink.mask b s else HostLink.unblock b s

/-- An MSI-X table, of 16 bytes an entry. -/
def msixTable (f : Fn) (off size : Nat) (data : Option Nat) (s : State) : State :=
  let v := (HostLink.vectors f).1 + off / 16
  let w := entryWord s v
  let lo := 8 * (off % 16)
  if !regular off size || (HostLink.vectors f).2 ≤ off / 16 then nothing data s
  else
    register size (w / 2 ^ lo) (fun d => setEntry v (w - w / 2 ^ lo % 2 ^ (8 * size) * 2 ^ lo + d % 2 ^ (8 * size) * 2 ^ lo)) data s

/-- A pending-bit array. -/
def pendingArray (f : Fn) (off size : Nat) (data : Option Nat) (s : State) : State :=
  let bits := s.events.msixPending.toNat / 2 ^ (HostLink.vectors f).1 % 2 ^ (HostLink.vectors f).2
  if !regular off size || (HostLink.vectors f).2 ≤ 8 * off then nothing data s
  else readOnly size (bits / 2 ^ (8 * off)) data s

/-- The event tables (R511). -/
def eventTable (off size : Nat) (data : Option Nat) (s : State) : State :=
  if !regular off size then nothing data s
  else if off < 0x50 then readOnly size (s.events.raw.toNat / 2 ^ (8 * off)) data s
  else if 0x100 ≤ off ∧ off < 0x150 then
    let lo := 8 * (off - 0x100)
    register size (s.events.status.toNat / 2 ^ lo) (fun d => EventBlock.clear (BitVec.ofNat 640 (d % 2 ^ (8 * size) * 2 ^ lo))) data s
  else if 0x1000 ≤ off ∧ off < 0x1A00 then
    let n := (off - 0x1000) / 4
    let put (n d : Nat) (s : State) : State := EventBlock.writeControl (0xB100 + n / 128) (1 + n % 128) (d % 2 ^ 32) s
    register size (control s n + control s (n + 1) * 2 ^ 32)
      (fun d s => if size = 8 then put (n + 1) (d / 2 ^ 32) (put n d s) else put n d s) data s
  else nothing data s

/-! ### The mailbox -/

/-- The request area as the host has written it, up to the data that its header names (R415). -/
def requestArea (s : State) : List Byte :=
  let at' (i : Nat) : Byte := Table.get (fun _ => 0) s.mailbox.area i
  let len := le ((List.range 4).map fun i => at' (8 + i))
  (List.range (16 + min len 28656)).map at'

/-- Bytes are written to the request area. -/
def setArea (off size d : Nat) (s : State) : State :=
  { s with mailbox := { s.mailbox with
      area := (List.range size).foldl (fun t i => Table.put (fun _ => 0) t (off + i) (BitVec.ofNat 8 (d / 2 ^ (8 * i)))) s.mailbox.area } }

/-- STATUS of the mailbox (R415). -/
def mailboxStatus (s : State) : Nat :=
  s.mailbox.lastSeq + (if s.mailbox.overrun then 2 ^ 30 else 0) + if s.mailbox.busy then 2 ^ 31 else 0

/-- The mailbox (R415). A read of STATUS clears OVERRUN. -/
def mailbox (off size : Nat) (data : Option Nat) (s : State) : State :=
  if 0x8000 ≤ off then readOnly size (le ((s.mailbox.replyArea.drop (off - 0x8000)).take size)) data s
  else if 0x1000 ≤ off then
    register size (le ((List.range size).map fun i => Table.get (fun _ => 0) s.mailbox.area (off - 0x1000 + i)))
      (setArea (off - 0x1000) size) data s
  else if off = 0 ∧ size = 4 then writeOnly (fun v s => Dict.doorbell v (requestArea s) s) data s
  else if off = 4 ∧ size = 4 then
    let t := readOnly 4 (mailboxStatus s) data s
    if data.isNone then { t with mailbox := { t.mailbox with overrun := false } } else t
  else nothing data s

/-! ### The BARs -/

/-- PF0 BAR0 (R381). -/
def managementBar (off size : Nat) (data : Option Nat) (s : State) : State :=
  let put (f : List Byte → State → State) : State := writeOnly (fun d => f (bytes size d)) data s
  if off < 0x01000000 then put apertureBytes
  else if off < 0x01010000 then mailbox (off - 0x01000000) size data s
  else if 0x02000000 ≤ off ∧ off < 0x02008000 then eventTable (off - 0x02000000) size data s
  else if 0x02010000 ≤ off ∧ off < 0x02010400 then msixTable .pf0 (off - 0x02010000) size data s
  else if 0x02011000 ≤ off ∧ off < 0x02011008 then pendingArray .pf0 (off - 0x02011000) size data s
  else if 0x03000000 ≤ off ∧ off < 0x03018400 then put (windowWrite (off - 0x03000000))
  else if 0x03800000 ≤ off ∧ off < 0x03820000 then
    doorbellPage .pf0 ((off - 0x03800000) / 4096) (off % 4096) size data s
  else nothing data s

/-- The bank part of PF1 BAR2 (R183). -/
def bankPart (off size : Nat) (data : Option Nat) (s : State) : State :=
  match data with
  | none => Banks.apertureRead off size s
  | some d => Banks.apertureWrite (BitVec.ofNat 2 (1 + off / 0x08000000)) (off % 0x08000000) (bytes size d) s

/-- An access of a function's memory space; a VF has no bank aperture (R382, R383). -/
def memory (f : Fn) (bar : Fin 3) (off size : Nat) (data : Option Nat) (s : State) : State :=
  match f, bar with
  | .pf0, 0 => managementBar off size data s
  | _, 0 => doorbellPage f (off / 4096) (off % 4096) size data s
  | .pf1, 1 =>
    if off < 0x18000000 then bankPart off size data s
    else if off < 0x18200000 then portWindow f ((off - 0x18000000) / 4096) (off % 4096) size data s
    else nothing data s
  | _, 1 => portWindow f (off / 4096) (off % 4096) size data s
  | .pf1, 2 =>
    if off < 0x8000 then msixTable f off size data s else pendingArray f (off - 0x8000) size data s
  | _, 2 => if off < 0x2000 then msixTable f off size data s else pendingArray f (off - 0x2000) size data s

/-- An access of the host. A function that is not present, and an offset past the end of a BAR, are not the endpoint's. -/
def access (f : Fn) (p : HostPlace) (data : Option W64) (s : State) : State :=
  if !HostLink.present s f then s
  else
    match p with
    | .config r => register 8 (cfgRead s f r) (fun d => HostLink.configure f (cfgWritten f r d)) (data.map (·.toNat)) s
    | .memory bar off more =>
      if off.toNat + more.val + 1 ≤ barSize f bar then memory f bar off.toNat (more.val + 1) (data.map (·.toNat)) s else s

end Sys2Proof.Machine.HostMap
end

