-- ==== Sys2Proof/Machine/CmdHost.lean ====
section
/-!
DEFINITION. The commands of the host link, its DMA channels and MSI-X (R376 to R400, R503).
-/

namespace Sys2Proof.Machine

open Sys2Proof.Machine.Run
open Sys2Proof.Machine.Ops (tickFresh)

/-- HOST_LINK_RESET (R379). -/
def execHostLinkReset (s : State) : Out := run (fun s => HostLink.linkReset (HostLink.resetKind s) (tickFresh s)) s

/-- FLR (R379, R395). -/
def execFlr (f : Fn) (s : State) : Out := run (HostLink.flr f) s

/-- LINK_STATE_CHANGE (R379, R400). -/
def execLinkStateChange (v : BitVec 13) (s : State) : Out := run (HostLink.linkChange v) s

/-- REGION_PORT_SEND (R386, R387). -/
def execRegionPortSend (f : Fn) (r : Fin 512) (d : W64) (s : State) : Out := 
  run (HostLink.viaLink (HostLink.portSend f r d)) s

/-- REGION_PORT_RECV (R386, R387). -/
def execRegionPortRecv (f : Fn) (r : Fin 512) (s : State) : Out := 
  run (HostLink.viaLink (HostLink.portRecv f r)) s

/-- UNMAPPED_ACCESS (R380 to R388, R415, R511). -/
def execUnmappedAccess (x : HostAccess) (s : State) : Out :=
  run (HostLink.viaLink (HostMap.access x.fn x.place x.data)) s

/-- SQ_TAIL (R388, R389). -/
def execSqTail (f : Fn) (c : Fin 32) (v : W32) (s : State) : Out := 
  run (HostLink.viaLink (HostLink.sqTail f c v.toNat)) s

/-- CQ_HEAD (R388, R389). -/
def execCqHead (f : Fn) (c : Fin 32) (v : W32) (s : State) : Out := 
  run (HostLink.viaLink (HostLink.cqHead f c v.toNat)) s

/-- DESCRIPTOR_START (R389, R391). -/
def execDescriptorStart (c : Fin 32) (fetched : Option (List Byte)) (s : State) : Out := run (HostLink.start c fetched) s

/-- HOST_TO_QUEUE (R390). -/
def execHostToQueue (tag : Byte) (data : Option (List Byte)) (s : State) : Out := run (HostLink.toQueue tag.toNat data) s

/-- QUEUE_TO_HOST (R390). -/
def execQueueToHost (tag : Byte) (f : PoolFault) (s : State) : Out := run (HostLink.fromQueue tag.toNat f) s

/-- HOST_TO_BANK (R390). -/
def execHostToBank (tag : Byte) (data : Option (List Byte)) (s : State) : Out := run (HostLink.toBank tag.toNat data) s

/-- BANK_TO_HOST (R390). -/
def execBankToHost (tag : Byte) (s : State) : Out := run (HostLink.fromBank tag.toNat) s

/-- HOST_TO_STREAM (R275, R390). -/
def execHostToStream (tag : Byte) (data : Option (List Byte)) (s : State) : Out := run (HostLink.toStream tag.toNat data) s

/-- DESCRIPTOR_FINISH (R389, R392). -/
def execDescriptorFinish (tag : Byte) (s : State) : Out := run (HostLink.complete tag.toNat) s

/-- DMA_ENABLE (R393, R398). -/
def execDmaEnable (t : Transport) (c : Fin 32) (s : State) : Out := run (Operands.dmaEnable t c 1) s

/-- DMA_DISABLE (R394, R398). -/
def execDmaDisable (t : Transport) (c : Fin 32) (s : State) : Out := run (Operands.dmaEnable t c 0) s

/-- MSIX_UNBLOCK (R503). -/
def execMsixUnblock (b : MsixBlock) (s : State) : Out := run (HostLink.unblock b) s

/-- MSIX_MASK (R503). -/
def execMsixMask (b : MsixBlock) (s : State) : Out := run (HostLink.mask b) s

/-- VF_ENABLE (R503). -/
def execVfEnable (numVfs : BitVec 7) (s : State) : Out := run (HostLink.vfEnable numVfs.toNat) s

/-- AER_ERROR (R400). -/
def execAerError (correctable : Bool) (s : State) : Out := run (HostLink.aer correctable) s

end Sys2Proof.Machine
end

