-- ==== Sys2Proof/Machine/CmdLanes.lean ====
section
/-!
DEFINITION. The commands of the Streller lanes, the bonds and the Ethernet ports (R331 to R375, R513, R520).
-/

namespace Sys2Proof.Machine

open Sys2Proof.Machine.Run

/-- T0_BURST (R346). -/
def execT0Burst (n : Fin 64) (s : State) : Out := run (Lanes.burst n) s

/-- SIGNAL_DETECT (R346). -/
def execSignalDetect (n : Fin 64) (s : State) : Out := run (Lanes.signalDetect n) s

/-- CDR_LOCK (R346). -/
def execCdrLock (n : Fin 64) (s : State) : Out := run (Lanes.cdrLock n) s

/-- BLOCK_LOCK (R346, R355). -/
def execBlockLock (n : Fin 64) (s : State) : Out := run (Lanes.blockLock n) s

/-- LOSS_OF_LOCK (R351, R355). -/
def execLossOfLock (n : Fin 64) (s : State) : Out := run (Lanes.lossOfLock n) s

/-- LOSS_OF_SIGNAL (R351). -/
def execLossOfSignal (n : Fin 64) (s : State) : Out := run (Lanes.lossOfSignal n) s

/-- TRAINING_TIMEOUT (R346, R350). -/
def execTrainingTimeout (n : Fin 64) (s : State) : Out := run (Lanes.timeout n) s

/-- ABSENT_TIMEOUT (R352). -/
def execAbsentTimeout (n : Fin 64) (s : State) : Out := run (Lanes.absentTimeout n) s

/-- EQUALISER_CONVERGED (R346, R349). -/
def execEqualiserConverged (n : Fin 64) (s : State) : Out := run (Lanes.converged n) s

/-- PRBS_CHECK_END (R349). -/
def execPrbsCheckEnd (n : Fin 64) (errors : W32) (s : State) : Out := run (Lanes.prbsEnd n errors.toNat) s

/-- MARK (R339). The alignment that the count of a Mark gives is the receiver's own timing. -/
def execMark (n : Fin 64) (_count : Byte) (bseq : W16) (live : Bool) (s : State) : Out := run (Lanes.mark n bseq.toNat live) s

/-- CAPABILITY (R347). -/
def execCapability (n : Fin 64) (content : BitVec 56) (s : State) : Out := run (Lanes.capability n content) s

/-- RATE (R348). -/
def execRate (n : Fin 64) (proposed : Byte) (fec : Bool) (s : State) : Out := run (Lanes.rate n proposed.toNat fec) s

/-- VERIFY (R349). -/
def execVerify (n : Fin 64) (v : Byte) (s : State) : Out := run (Lanes.verify n v.toNat) s

/-- LOW_POWER (R351, R362). -/
def execLowPower (n : Fin 64) (state : Byte) (s : State) : Out := run (Lanes.lowPower n state.toNat) s

/-- BOND (R365). -/
def execBond (n : Fin 64) (k tx rx : W16) (s : State) : Out := run (Lanes.bondBlock n k.toNat tx.toNat rx.toNat) s

/-- UNKNOWN_LINK_BLOCK (R338). -/
def execUnknownLinkBlock (n : Fin 64) (ty : Byte) (s : State) : Out := run (Lanes.unknownLink n ty.toNat) s

/-- MAINTENANCE_TRANSFER (R338, R339). -/
def execMaintenanceTransfer (n : Fin 64) (s : State) : Out := run (Lanes.maintenance n) s

/-- LANE_TX_TRANSFER (R140, R340, R343). -/
def execLaneTxTransfer (n : Fin 64) (s : State) : Out := run (Lanes.transmit n) s

/-- LANE_RX_TRANSFER (R140, R341, R343). -/
def execLaneRxTransfer (n : Fin 64) (x : RxLine) (s : State) : Out := run (Lanes.receive n x.blocks x.words) s

/-- MARGIN_SAMPLE (R357). -/
def execMarginSample (n : Fin 64) (m : W16) (s : State) : Out := run (Lanes.marginSample n m.toNat) s

/-- SHORT_RETRAIN_END (R357). -/
def execShortRetrainEnd (n : Fin 64) (m : W16) (s : State) : Out := run (Lanes.retrainEnd n m.toNat) s

/-- ADAPTATION_SLOWDOWN (R356). -/
def execAdaptationSlowdown (n : Fin 64) (s : State) : Out := run (Lanes.slowDown n) s

/-- BOND_SWITCH_POINT (R365). -/
def execBondSwitchPoint (b : Fin 16) (receive : Bool) (s : State) : Out := run (Lanes.switchPoint b receive) s

/-- ENABLE (R373). -/
def execEnable (t : Transport) (n : Fin 64) (v : Bool) (s : State) : Out :=
  run (Operands.laneField t n 31 1 (Operands.ofBool v)) s

/-- RESTART (R354, R373). -/
def execRestart (t : Transport) (n : Fin 64) (s : State) : Out := run (Operands.laneField t n 30 1 1) s

/-- CLEARCAP (R350, R373). -/
def execClearcap (t : Transport) (n : Fin 64) (s : State) : Out := run (Operands.laneField t n 29 1 1) s

/-- LP (R361, R373). -/
def execLp (t : Transport) (n : Fin 64) (v : BitVec 2) (s : State) : Out := run (Operands.laneField t n 27 2 v.toNat) s

/-- MAXRATE (R354, R373). -/
def execMaxrate (t : Transport) (n : Fin 64) (v : BitVec 3) (s : State) : Out := run (Operands.laneField t n 24 3 v.toNat) s

/-- FEC_REQ (R354, R373). -/
def execFecReq (t : Transport) (n : Fin 64) (v : Bool) (s : State) : Out :=
  run (Operands.laneField t n 23 1 (Operands.ofBool v)) s

/-- TXEQ (R354, R373). -/
def execTxeq (t : Transport) (n : Fin 64) (v : BitVec 4) (s : State) : Out := run (Operands.laneField t n 12 4 v.toNat) s

/-- LOOP (R358, R373). -/
def execLoop (t : Transport) (n : Fin 64) (v : BitVec 2) (s : State) : Out := run (Operands.laneField t n 21 2 v.toNat) s

/-- PATTERN (R359, R373). -/
def execPattern (t : Transport) (n : Fin 64) (v : BitVec 2) (s : State) : Out := run (Operands.laneField t n 19 2 v.toNat) s

/-- TX_IDLE (R373). -/
def execTxIdle (t : Transport) (n : Fin 64) (v : Bool) (s : State) : Out :=
  run (Operands.laneField t n 18 1 (Operands.ofBool v)) s

/-- BOND_MEMBERS_WRITE (R366). -/
def execBondMembersWrite (t : Transport) (b : Fin 16) (v : W64) (s : State) : Out :=
  run (Operands.write t (0x7200 + b) 1 v.toNat) s

/-- PORT_MAP_WRITE (R370). -/
def execPortMapWrite (t : Transport) (e : Fin 8) (v : W32) (s : State) : Out :=
  run (Operands.write t (0x7300 + e) 1 v.toNat) s

/-- ETHERNET_LOCK (R369). -/
def execEthernetLock (n : Fin 64) (ev : EthEvent) (s : State) : Out := run (Lanes.ethernet n ev) s

/-- The PHY supplies as measured (R461). -/
def measurePhy (vphy vphyh : W16) (s : State) : State :=
  { s with sup := { s.sup with vphy := vphy.toNat, vphyh := vphyh.toNat } }

/-- The PHY supplies leave operating conditions: the lanes go off and the PCIe link goes down (R379, R520). -/
def phySupplyOut (vphy vphyh : W16) (s : State) : State :=
  let s := measurePhy vphy vphyh s
  if Super.phyGood vphy.toNat vphyh.toNat then s else HostLink.linkReset .linkDown (Lanes.phyOut s)

/-- PHY_SUPPLY_OUT_OF_RANGE (R520). -/
def execPhySupplyOutOfRange (vphy vphyh : W16) (s : State) : Out := run (phySupplyOut vphy vphyh) s

/-- The PHY supplies have both been back for 1 ms (R520). -/
def phySupplyBack (vphy vphyh : W16) (s : State) : State :=
  let s := measurePhy vphy vphyh s
  if Super.phyGood vphy.toNat vphyh.toNat && s.sup.phyOut then Lanes.phyBack s else s

/-- PHY_SUPPLY_RETURN (R520). -/
def execPhySupplyReturn (vphy vphyh : W16) (s : State) : Out := run (phySupplyBack vphy vphyh) s

end Sys2Proof.Machine
end

