-- ==== Sys2Proof/Machine/CmdModes.lean ====
section
/-!
DEFINITION. The commands of the supplies, the operating modes, temperature and security events (R32 to R53, R292, R462 to
R467, R476).
-/

namespace Sys2Proof.Machine

open Sys2Proof.Machine.Run

/-- POWER_UP (R33, R37, R425, R462). -/
def execPowerUp (ndId : BitVec 7) (pstrap : BitVec 8) (imagesGood : Bool) (s : State) : Out :=
  runSupply (Modes.powerUp ndId pstrap imagesGood) s

/-- SUPPLY_REMOVAL (R37, R491, R521). -/
def execSupplyRemoval (s : State) : Out := runTime Modes.supplyRemoval s

/-- PWRGD_LOW (R37). -/
def execPwrgdLow (s : State) : Out := run Modes.pwrgdLow s

/-- RESET_N_LOW (R37). -/
def execResetNLow (s : State) : Out := runSupply Modes.resetNLow s

/-- RESET_N_HIGH (R37, R419, R436). -/
def execResetNHigh (ndId : BitVec 7) (pstrap : BitVec 8) (s : State) : Out := runSupply (Modes.resetNHigh ndId pstrap) s

/-- A warning that comes about while a fuse row is blown ends the blow (R491). -/
def afterWarning (f : State → State) (s : State) : State :=
  let t := f s
  if Super.warned t && !Super.warned s then Transports.fuseCut t else t

/-- RAIL_BELOW_RESET (R463, R466). -/
def execRailBelowReset (rail : Rail) (mv : W16) (s : State) : Out := run (afterWarning (Super.belowReset rail mv.toNat)) s

/-- VCORE_WARNING (R463, R464). -/
def execVcoreWarning (rail : Rail) (mv : W16) (s : State) : Out := run (afterWarning (Super.warning rail mv.toNat)) s

/-- SAG_RECOVERED (R464). -/
def execSagRecovered (rail : Rail) (mv : W16) (s : State) : Out := run (Super.recovered rail mv.toNat) s

/-- RESET_REQUEST (R43, R48). -/
def execResetRequest (t : Transport) (s : State) : Out := run (Operands.write t 0x1000 4 1) s

/-- FULL_RELOAD_REQUEST (R41, R48). -/
def execFullReloadRequest (t : Transport) (s : State) : Out := run (Operands.write t 0x1000 4 3) s

/-- RUN_REQUEST (R39, R40, R48). -/
def execRunRequest (t : Transport) (s : State) : Out := run (Operands.write t 0x1000 4 5) s

/-- SENTINEL_REQUEST (R38, R44, R48). -/
def execSentinelRequest (t : Transport) (s : State) : Out := run (Operands.write t 0x1000 4 6) s

/-- HOLD_LATCH_WRITE (R50). -/
def execHoldLatchWrite (t : Transport) (v : Byte) (s : State) : Out := run (Operands.write t 0x1000 8 v.toNat) s

/-- SENTINEL_DRAIN_QUIET (R38 step 3). -/
def execSentinelDrainQuiet (s : State) : Out := run Modes.drainQuiet s

/-- DRAIN_LIMIT_EXPIRY (R38). -/
def execDrainLimitExpiry (active : List (Fin 512)) (s : State) : Out := run (Modes.drainLimit active) s

/-- TEMPERATURE_SWEEP (R462, R467). -/
def execTemperatureSweep (readings : List Int) (s : State) : Out := run (Super.sweep readings) s

/-- THERMAL_TRIP (R40, R467). -/
def execThermalTrip (s : State) : Out := run Super.trip s

/-- THERMAL_TRIP_CLEAR (R40, R467). -/
def execThermalTripClear (s : State) : Out := run Super.tripClear s

/-- INTEGRITY_CHECK (R45). -/
def execIntegrityCheck (altered : Bool) (s : State) : Out := run (Security.integrityCheck altered) s

/-- QUARANTINE (R45, R292). -/
def execQuarantine (t : Transport) (slot : Fin 4) (sig : List Byte) (s : State) : Out :=
  run (Operands.sealed t slot sig 0xC050 2 1) s

/-- SECURITY_ISOLATE (R292). -/
def execSecurityIsolate (t : Transport) (slot : Fin 4) (sig : List Byte) (r : Fin 512) (s : State) : Out :=
  run (Operands.sealed t slot sig 0xC050 1 r) s

/-- SECURITY_RELEASE (R292). -/
def execSecurityRelease (t : Transport) (slot : Fin 4) (sig : List Byte) (r : Fin 512) (s : State) : Out :=
  run (Operands.sealed t slot sig 0xC050 1 (0x8000 + r)) s

/-- SURVEY_STEP_DONE (R37, R476, R477). -/
def execSurveyStepDone (res : SurveyResult) (s : State) : Out := run (Super.surveyStep res) s

end Sys2Proof.Machine
end

