-- ==== Sys2Proof/Machine/CmdPins.lean ====
section
/-!
DEFINITION. The commands of the pins (R434 to R459, R462).
-/

namespace Sys2Proof.Machine

open Sys2Proof.Machine.Run

/-- PIN_CONFIG_WRITE (R440 to R443, R448). -/
def execPinConfigWrite (t : Transport) (p : Fin 384) (v : W64) (s : State) : Out :=
  run (Operands.write t (0x9100 + p) 2 v.toNat) s

/-- LATCH_RELEASE (R448). -/
def execLatchRelease (p : Fin 384) (s : State) : Out := run (Pins.latchRelease p) s

/-- LATCH_TIMEOUT (R448). -/
def execLatchTimeout (p : Fin 384) (s : State) : Out := run (Pins.latchTimeout p) s

/-- PIN_OUTPUT_TOKEN (R445). -/
def execPinOutputToken (p : Fin 384) (oe : Bool) (s : State) : Out := run (Pins.outputToken p oe) s

/-- PIN_INPUT_CHANGE (R446, R451). -/
def execPinInputChange (p : Fin 384) (level : Bool) (s : State) : Out := run (Pins.inputChange p level) s

/-- PIN_SAMPLE (R446). -/
def execPinSample (p : Fin 384) (s : State) : Out := run (Pins.sampleTick p) s

/-- VIO_CLASS_CHANGE (R435). -/
def execVioClassChange (k : Fin 8) (c : VioClass) (s : State) : Out := run (Pins.classChange k c) s

/-- SUPERVISOR_PIN_RELEASE (R462). -/
def execSupervisorPinRelease (t : Transport) (slot : Fin 4) (sig : List Byte) (p : W16) (s : State) : Out :=
  run (Operands.sealed t slot sig 0x1020 5 p.toNat) s

end Sys2Proof.Machine
end

