-- ==== Sys2Proof/Machine/CmdQueues.lean ====
section
/-!
DEFINITION. The commands of the queues and the trace rings (R202 to R231).
-/

namespace Sys2Proof.Machine

open Sys2Proof.Machine.Run

/-- The request of an operation on a queue (R210). -/
def queueRequest (op : QOp) (q : BitVec 12) (d : W64) : QReq := { op := op, queue := q, data := d }

/-- PUSH (R213, R215, R217). -/
def execPush (a q : BitVec 12) (d : W64) (s : State) : Out :=
  run (Queues.command a.toNat (queueRequest .push q d) Queues.sound) s

/-- PUSH_AND_CLOSE (R213). -/
def execPushAndClose (a q : BitVec 12) (d : W64) (s : State) : Out :=
  run (Queues.command a.toNat (queueRequest .pushClose q d) Queues.sound) s

/-- POP (R206, R213, R214). -/
def execPop (a q : BitVec 12) (f : PoolFault) (s : State) : Out := run (Queues.command a.toNat (queueRequest .pop q 0) f) s

/-- PEEK (R206, R213, R214). -/
def execPeek (a q : BitVec 12) (f : PoolFault) (s : State) : Out := run (Queues.command a.toNat (queueRequest .peek q 0) f) s

/-- ABORT (R218). -/
def execAbort (a q : BitVec 12) (s : State) : Out :=
  run (Queues.command a.toNat (queueRequest .abort q 0) Queues.sound) s

/-- QUEUE_FLUSH (R219): a write of FLUSH, bit 62 of the control word (R225). -/
def execQueueFlush (t : Transport) (q : BitVec 12) (s : State) : Out :=
  run (Operands.writeField t (0x5100 + q.toNat / 16) (1 + 8 * (q.toNat % 16)) 62 1 1) s

/-- QUEUE_CONTROL_WRITE (R225). -/
def execQueueControlWrite (t : Transport) (q : BitVec 12) (v : W64) (s : State) : Out :=
  run (Operands.write t (0x5100 + q.toNat / 16) (1 + 8 * (q.toNat % 16)) v.toNat) s

/-- LIMITS_WRITE (R223). -/
def execLimitsWrite (t : Transport) (q : BitVec 12) (v : W64) (s : State) : Out :=
  run (Operands.write t (0x5100 + q.toNat / 16) (2 + 8 * (q.toNat % 16)) v.toNat) s

/-- LINK_SWEEP (R206). -/
def execLinkSweep (s : State) : Out := run Queues.sweep s

/-- TRACE_WRITE (R228, R229). -/
def execTraceWrite (r : Fin 512) (s : State) : Out := run (Queues.traceWrite r) s

/-- TRACE_POP (R229). -/
def execTracePop (r : Fin 512) (s : State) : Out := run (Queues.traceRead r true) s

/-- TRACE_PEEK (R229). -/
def execTracePeek (r : Fin 512) (s : State) : Out := run (Queues.traceRead r false) s

/-- TRACE_HOST_POP (R231). -/
def execTraceHostPop (t : Transport) (r : Fin 512) (s : State) : Out := run (Dict.serve t 1 (0x5300 + r) 6 []) s

end Sys2Proof.Machine
end

