-- ==== Sys2Proof/Machine/CmdSuper.lean ====
section
/-!
DEFINITION. The commands of the supervisor: voltage, self-test, faults, retirement and repair (R468 to R494).
-/

namespace Sys2Proof.Machine

open Sys2Proof.Machine.Run

/-- VOLTAGE_WINDOW_END (R471 to R474). -/
def execVoltageWindowEnd (pref : List (Fin 512 × W16)) (groupPref : List W16) (s : State) : Out :=
  run (Super.windowEnd pref groupPref) s

/-- SELFTEST_SLICE (R478 to R481). -/
def execSelftestSlice (sl : Slice) (s : State) : Out := run (Super.slice sl) s

/-- LENDABLE_WRITE (R481, R482). -/
def execLendableWrite (t : Transport) (mask : List Byte) (s : State) : Out := run (Operands.writeBytes t 0xA000 4 mask) s

/-- FAULT_RETRY (R484). -/
def execFaultRetry (ch : FaultChannel) (again : Bool) (s : State) : Out := run (Super.retry ch again) s

/-- FAULT_WINDOW_CLOSE (R484). -/
def execFaultWindowClose (ch : FaultChannel) (s : State) : Out := run (Super.windowClose ch) s

/-- RETIRE_REQUEST (R488). -/
def execRetireRequest (t : Transport) (entry : W64) (s : State) : Out := run (Operands.write t 0xA010 5 entry.toNat) s

/-- FUSE_REPAIR (R490, R491). -/
def execFuseRepair (t : Transport) (slot : Fin 4) (sig : List Byte) (entry : W64) (s : State) : Out :=
  run (Operands.sealed t slot sig 0xA030 5 entry.toNat) s

/-- FUSE_BLOW_COMPLETE (R411, R490, R491). -/
def execFuseBlowComplete (s : State) : Out := run Transports.fuseDone s

/-- VBAT_LOSS (R291), whatever the other supplies do. -/
def execVbatLoss (mv : W16) (s : State) : Out := runSupply (Super.vbatLoss mv.toNat) s

end Sys2Proof.Machine
end

