-- ==== Sys2Proof/Machine/CmdTime.lean ====
section
/-!
DEFINITION. The commands of Lydan time and timed launch (R129 to R165).
-/

namespace Sys2Proof.Machine

open Sys2Proof.Machine.Run

/-- SET_TIME (R134, R160). -/
def execSetTime (t : Transport) (v : BitVec 80) (s : State) : Out := runTime (Operands.write t 0x3000 3 v.toNat) s

/-- PHASE_CORRECTION (R135). -/
def execPhaseCorrection (t : Transport) (v : W32) (s : State) : Out := run (Operands.write t 0x3000 4 v.toNat) s

/-- RATE_ADJUST (R133). -/
def execRateAdjust (t : Transport) (v : W32) (s : State) : Out := run (Operands.write t 0x3000 7 v.toNat) s

/-- DISCIPLINE_SELECT (R136). -/
def execDisciplineSelect (t : Transport) (v : Byte) (s : State) : Out := run (Operands.write t 0x3000 8 v.toNat) s

/-- PPS_IN_EDGE (R138). -/
def execPpsInEdge (s : State) : Out := runTime Time.ppsEdge s

/-- PPS_HOLDOVER (R138). -/
def execPpsHoldover (s : State) : Out := run (Time.holdover 1 392) s

/-- PPS_OUT_RISE (R139). -/
def execPpsOutRise (s : State) : Out := run Time.ppsRise s

/-- PPS_OUT_FALL (R139). -/
def execPpsOutFall (s : State) : Out := run Time.ppsFall s

/-- TWO_STEP_ENTRY_READ (R141). -/
def execTwoStepEntryRead (t : Transport) (s : State) : Out := run (Dict.serve t 1 0x3002 2 []) s

/-- WAVEFRONT_TICK (R143). -/
def execWavefrontTick (s : State) : Out := run Time.tick s

/-- TIME_WORD (R144). -/
def execTimeWord (r : Fin 512) (w : W64) (s : State) : Out := run (Time.timeWord r w) s

/-- WAVEFRONT_CALIBRATION (R145). -/
def execWavefrontCalibration (r : Fin 512) (good : Bool) (delay : W16) (s : State) : Out :=
  run (Time.calibrate r good delay.toNat) s

/-- GATE_CONFIG_WRITE (R151). -/
def execGateConfigWrite (t : Transport) (g : Fin 8192) (v : W64) (s : State) : Out :=
  run (Operands.write t (0x3200 + g.val / 16) (1 + g.val % 16) v.toNat) s

/-- EPOCH_ORIGIN_WRITE (R162). -/
def execEpochOriginWrite (t : Transport) (r : Fin 512) (v : W64) (s : State) : Out :=
  run (Operands.write t (0x3200 + r) 0x41 v.toNat) s

/-- BANK_WRITE (R155). -/
def execBankWrite (t : Transport) (blob : List Byte) (s : State) : Out := run (Operands.writeBytes t 0x3010 1 blob) s

/-- COMMIT (R155). -/
def execCommit (t : Transport) (g : W16) (bank : Byte) (epoch : W32) (s : State) : Out :=
  run (Operands.writeBytes t 0x3010 2 (Operands.commitBlob g bank epoch.toNat)) s

/-- UNCOMMIT (R155). -/
def execUncommit (t : Transport) (g : W16) (bank : Byte) (s : State) : Out :=
  run (Operands.writeBytes t 0x3010 2 (Operands.commitBlob g bank 0xFFFFFFFF)) s

/-- DECISION_INSTANT (R154). -/
def execDecisionInstant (g : Fin 8192) (s : State) : Out := run (Time.decision g) s

/-- EPOCH_START (R154). -/
def execEpochStart (g : Fin 8192) (s : State) : Out := run (Time.epochStart g) s

/-- OVERLAP_LIMIT (R154, R157). -/
def execOverlapLimit (g : Fin 8192) (s : State) : Out := run (Time.overlapLimit g) s

/-- GATE_CAPTURE (R149). -/
def execGateCapture (g : Fin 8192) (s : State) : Out := run (Time.capture g) s

/-- GATE_SETUP (R156). -/
def execGateSetup (g : Fin 8192) (s : State) : Out := run (Time.setup g) s

/-- GATE_RELEASE (R156). -/
def execGateRelease (g : Fin 8192) (s : State) : Out := run (Time.releaseDue g) s

/-- LATE_RELEASE (R156). -/
def execLateRelease (g : Fin 8192) (s : State) : Out := run (Time.lateRelease g) s

/-- TIME_MESSAGE_SEND (R164). -/
def execTimeMessageSend (s : State) : Out := run Lanes.timeSend s

/-- TIME_MESSAGE (R164). -/
def execTimeMessage (n : Fin 64) (kind : Byte) (sent : BitVec 80) (fraction : W16) (s : State) : Out :=
  runTime (Lanes.timeMessage n kind.toNat (sent.toNat / 2 ^ 32) (sent.toNat % 2 ^ 32) fraction.toNat) s

/-- FOLLOWER_HOLDOVER (R164). -/
def execFollowerHoldover (s : State) : Out := run (Time.holdover 2 396) s

end Sys2Proof.Machine
end

