-- ==== Sys2Proof/Machine/Dispatch.lean ====
section
/-!
DEFINITION. The meaning of each command, one arm per row of spec/opcode_table.json.
-/

namespace Sys2Proof.Machine

def exec (i : Instr) (s : State) : Host.Outcome State Fault Refusal :=
  match i with
  | .powerUp ndId pstrap imagesGood => Sys2Proof.Machine.execPowerUp ndId pstrap imagesGood s
  | .supplyRemoval => Sys2Proof.Machine.execSupplyRemoval s
  | .pwrgdLow => Sys2Proof.Machine.execPwrgdLow s
  | .resetNLow => Sys2Proof.Machine.execResetNLow s
  | .resetNHigh ndId pstrap => Sys2Proof.Machine.execResetNHigh ndId pstrap s
  | .railBelowReset rail mv => Sys2Proof.Machine.execRailBelowReset rail mv s
  | .vcoreWarning rail mv => Sys2Proof.Machine.execVcoreWarning rail mv s
  | .sagRecovered rail mv => Sys2Proof.Machine.execSagRecovered rail mv s
  | .resetRequest t => Sys2Proof.Machine.execResetRequest t s
  | .fullReloadRequest t => Sys2Proof.Machine.execFullReloadRequest t s
  | .runRequest t => Sys2Proof.Machine.execRunRequest t s
  | .sentinelRequest t => Sys2Proof.Machine.execSentinelRequest t s
  | .holdLatchWrite t v => Sys2Proof.Machine.execHoldLatchWrite t v s
  | .sentinelDrainQuiet => Sys2Proof.Machine.execSentinelDrainQuiet s
  | .drainLimitExpiry active => Sys2Proof.Machine.execDrainLimitExpiry active s
  | .temperatureSweep readings => Sys2Proof.Machine.execTemperatureSweep readings s
  | .thermalTrip => Sys2Proof.Machine.execThermalTrip s
  | .thermalTripClear => Sys2Proof.Machine.execThermalTripClear s
  | .integrityCheck altered => Sys2Proof.Machine.execIntegrityCheck altered s
  | .quarantine t slot sig => Sys2Proof.Machine.execQuarantine t slot sig s
  | .securityIsolate t slot sig r => Sys2Proof.Machine.execSecurityIsolate t slot sig r s
  | .securityRelease t slot sig r => Sys2Proof.Machine.execSecurityRelease t slot sig r s
  | .surveyStepDone res => Sys2Proof.Machine.execSurveyStepDone res s
  | .stageCapture u => Sys2Proof.Machine.execStageCapture u s
  | .stageInputsSpacer k => Sys2Proof.Machine.execStageInputsSpacer k s
  | .stageOffer u => Sys2Proof.Machine.execStageOffer u s
  | .stageAcknowledged c => Sys2Proof.Machine.execStageAcknowledged c s
  | .transparentEvaluate u => Sys2Proof.Machine.execTransparentEvaluate u s
  | .illegalCode c r => Sys2Proof.Machine.execIllegalCode c r s
  | .regionReset t v => Sys2Proof.Machine.execRegionReset t v s
  | .lensSample r => Sys2Proof.Machine.execLensSample r s
  | .noProgressWindowEnd r => Sys2Proof.Machine.execNoProgressWindowEnd r s
  | .noProgressWindowWrite t v => Sys2Proof.Machine.execNoProgressWindowWrite t v s
  | .collarIsolate t r => Sys2Proof.Machine.execCollarIsolate t r s
  | .collarIsolationComplete r => Sys2Proof.Machine.execCollarIsolationComplete r s
  | .collarOpen t r => Sys2Proof.Machine.execCollarOpen t r s
  | .collarPolicyWrite t r v => Sys2Proof.Machine.execCollarPolicyWrite t r v s
  | .inboundDrain r c => Sys2Proof.Machine.execInboundDrain r c s
  | .setTime t v => Sys2Proof.Machine.execSetTime t v s
  | .phaseCorrection t v => Sys2Proof.Machine.execPhaseCorrection t v s
  | .rateAdjust t v => Sys2Proof.Machine.execRateAdjust t v s
  | .disciplineSelect t v => Sys2Proof.Machine.execDisciplineSelect t v s
  | .ppsInEdge => Sys2Proof.Machine.execPpsInEdge s
  | .ppsHoldover => Sys2Proof.Machine.execPpsHoldover s
  | .ppsOutRise => Sys2Proof.Machine.execPpsOutRise s
  | .ppsOutFall => Sys2Proof.Machine.execPpsOutFall s
  | .twoStepEntryRead t => Sys2Proof.Machine.execTwoStepEntryRead t s
  | .wavefrontTick => Sys2Proof.Machine.execWavefrontTick s
  | .timeWord r w => Sys2Proof.Machine.execTimeWord r w s
  | .wavefrontCalibration r good delay => Sys2Proof.Machine.execWavefrontCalibration r good delay s
  | .gateConfigWrite t g v => Sys2Proof.Machine.execGateConfigWrite t g v s
  | .epochOriginWrite t r v => Sys2Proof.Machine.execEpochOriginWrite t r v s
  | .bankWrite t blob => Sys2Proof.Machine.execBankWrite t blob s
  | .commit t g bank epoch => Sys2Proof.Machine.execCommit t g bank epoch s
  | .uncommit t g bank => Sys2Proof.Machine.execUncommit t g bank s
  | .decisionInstant g => Sys2Proof.Machine.execDecisionInstant g s
  | .epochStart g => Sys2Proof.Machine.execEpochStart g s
  | .overlapLimit g => Sys2Proof.Machine.execOverlapLimit g s
  | .gateCapture g => Sys2Proof.Machine.execGateCapture g s
  | .gateSetup g => Sys2Proof.Machine.execGateSetup g s
  | .gateRelease g => Sys2Proof.Machine.execGateRelease g s
  | .lateRelease g => Sys2Proof.Machine.execLateRelease g s
  | .timeMessageSend => Sys2Proof.Machine.execTimeMessageSend s
  | .timeMessage n kind sent fraction => Sys2Proof.Machine.execTimeMessage n kind sent fraction s
  | .followerHoldover => Sys2Proof.Machine.execFollowerHoldover s
  | .bankRequest n portB => Sys2Proof.Machine.execBankRequest n portB s
  | .bankGrant n => Sys2Proof.Machine.execBankGrant n s
  | .dualPortCycle n => Sys2Proof.Machine.execDualPortCycle n s
  | .bankAccessComplete n flips => Sys2Proof.Machine.execBankAccessComplete n flips s
  | .hostBankRead off len => Sys2Proof.Machine.execHostBankRead off len s
  | .hostBankWrite off data => Sys2Proof.Machine.execHostBankWrite off data s
  | .hostBankSet off data => Sys2Proof.Machine.execHostBankSet off data s
  | .hostBankClear off data => Sys2Proof.Machine.execHostBankClear off data s
  | .targetOn t n => Sys2Proof.Machine.execTargetOn t n s
  | .targetRetain t n => Sys2Proof.Machine.execTargetRetain t n s
  | .targetOff t n => Sys2Proof.Machine.execTargetOff t n s
  | .targetDeepRetain t n => Sys2Proof.Machine.execTargetDeepRetain t n s
  | .bankIdleExpiry n => Sys2Proof.Machine.execBankIdleExpiry n s
  | .bankWakeComplete n => Sys2Proof.Machine.execBankWakeComplete n s
  | .softRepairWrite t n v => Sys2Proof.Machine.execSoftRepairWrite t n v s
  | .columnRebuildAccess n => Sys2Proof.Machine.execColumnRebuildAccess n s
  | .bankCauseEnableWrite t v => Sys2Proof.Machine.execBankCauseEnableWrite t v s
  | .push a q d => Sys2Proof.Machine.execPush a q d s
  | .pushAndClose a q d => Sys2Proof.Machine.execPushAndClose a q d s
  | .pop a q f => Sys2Proof.Machine.execPop a q f s
  | .peek a q f => Sys2Proof.Machine.execPeek a q f s
  | .abort a q => Sys2Proof.Machine.execAbort a q s
  | .queueFlush t q => Sys2Proof.Machine.execQueueFlush t q s
  | .queueControlWrite t q v => Sys2Proof.Machine.execQueueControlWrite t q v s
  | .limitsWrite t q v => Sys2Proof.Machine.execLimitsWrite t q v s
  | .linkSweep => Sys2Proof.Machine.execLinkSweep s
  | .traceWrite r => Sys2Proof.Machine.execTraceWrite r s
  | .tracePop r => Sys2Proof.Machine.execTracePop r s
  | .tracePeek r => Sys2Proof.Machine.execTracePeek r s
  | .traceHostPop t r => Sys2Proof.Machine.execTraceHostPop t r s
  | .add n => Sys2Proof.Machine.execAdd n s
  | .sub n => Sys2Proof.Machine.execSub n s
  | .and n => Sys2Proof.Machine.execAnd n s
  | .ior n => Sys2Proof.Machine.execIor n s
  | .eor n => Sys2Proof.Machine.execEor n s
  | .mlo n => Sys2Proof.Machine.execMlo n s
  | .cmps n => Sys2Proof.Machine.execCmps n s
  | .cmpu n => Sys2Proof.Machine.execCmpu n s
  | .shl n => Sys2Proof.Machine.execShl n s
  | .shr n => Sys2Proof.Machine.execShr n s
  | .sha n => Sys2Proof.Machine.execSha n s
  | .addk n => Sys2Proof.Machine.execAddk n s
  | .andk n => Sys2Proof.Machine.execAndk n s
  | .iork n => Sys2Proof.Machine.execIork n s
  | .eork n => Sys2Proof.Machine.execEork n s
  | .high n => Sys2Proof.Machine.execHigh n s
  | .shlk n => Sys2Proof.Machine.execShlk n s
  | .shrk n => Sys2Proof.Machine.execShrk n s
  | .shak n => Sys2Proof.Machine.execShak n s
  | .jeq n => Sys2Proof.Machine.execJeq n s
  | .jne n => Sys2Proof.Machine.execJne n s
  | .jls n => Sys2Proof.Machine.execJls n s
  | .jgs n => Sys2Proof.Machine.execJgs n s
  | .jlu n => Sys2Proof.Machine.execJlu n s
  | .jgu n => Sys2Proof.Machine.execJgu n s
  | .call n => Sys2Proof.Machine.execCall n s
  | .jumpr n => Sys2Proof.Machine.execJumpr n s
  | .ldw n => Sys2Proof.Machine.execLdw n s
  | .ldb n => Sys2Proof.Machine.execLdb n s
  | .ldp n => Sys2Proof.Machine.execLdp n s
  | .stw n => Sys2Proof.Machine.execStw n s
  | .stb n => Sys2Proof.Machine.execStb n s
  | .stp n => Sys2Proof.Machine.execStp n s
  | .qpush n => Sys2Proof.Machine.execQpush n s
  | .qpushc n => Sys2Proof.Machine.execQpushc n s
  | .qpop n => Sys2Proof.Machine.execQpop n s
  | .qpeek n => Sys2Proof.Machine.execQpeek n s
  | .qabort n => Sys2Proof.Machine.execQabort n s
  | .bset n => Sys2Proof.Machine.execBset n s
  | .bclr n => Sys2Proof.Machine.execBclr n s
  | .trd n => Sys2Proof.Machine.execTrd n s
  | .twait n => Sys2Proof.Machine.execTwait n s
  | .twaitTargetReached n => Sys2Proof.Machine.execTwaitTargetReached n s
  | .gent n => Sys2Proof.Machine.execGent n s
  | .garm n => Sys2Proof.Machine.execGarm n s
  | .send n => Sys2Proof.Machine.execSend n s
  | .recv n => Sys2Proof.Machine.execRecv n s
  | .poll n => Sys2Proof.Machine.execPoll n s
  | .evr n => Sys2Proof.Machine.execEvr n s
  | .fence n => Sys2Proof.Machine.execFence n s
  | .rdspec n => Sys2Proof.Machine.execRdspec n s
  | .halt n => Sys2Proof.Machine.execHalt n s
  | .tagCompletion n tag f => Sys2Proof.Machine.execTagCompletion n tag f s
  | .portReceiveCapture p => Sys2Proof.Machine.execPortReceiveCapture p s
  | .portSendAcknowledged p => Sys2Proof.Machine.execPortSendAcknowledged p s
  | .start t n => Sys2Proof.Machine.execStart t n s
  | .stop t n => Sys2Proof.Machine.execStop t n s
  | .resume t n => Sys2Proof.Machine.execResume t n s
  | .stagingWrite t off data => Sys2Proof.Machine.execStagingWrite t off data s
  | .imageWindowWrite off data => Sys2Proof.Machine.execImageWindowWrite off data s
  | .stagingClear t => Sys2Proof.Machine.execStagingClear t s
  | .install t mask => Sys2Proof.Machine.execInstall t mask s
  | .installComplete => Sys2Proof.Machine.execInstallComplete s
  | .rotation => Sys2Proof.Machine.execRotation s
  | .migrationCopyDone g => Sys2Proof.Machine.execMigrationCopyDone g s
  | .streamApertureWrite data => Sys2Proof.Machine.execStreamApertureWrite data s
  | .cfgPortByte b => Sys2Proof.Machine.execCfgPortByte b s
  | .discardRunEnd src => Sys2Proof.Machine.execDiscardRunEnd src s
  | .headerFirstByte src b => Sys2Proof.Machine.execHeaderFirstByte src b s
  | .streamHeader => Sys2Proof.Machine.execStreamHeader s
  | .frame => Sys2Proof.Machine.execFrame s
  | .loadSilence => Sys2Proof.Machine.execLoadSilence s
  | .loaderResync => Sys2Proof.Machine.execLoaderResync s
  | .loadAbort t => Sys2Proof.Machine.execLoadAbort t s
  | .endChecksComplete => Sys2Proof.Machine.execEndChecksComplete s
  | .signerKeyWrite t slot key => Sys2Proof.Machine.execSignerKeyWrite t slot key s
  | .revokeSlot t slot sig target => Sys2Proof.Machine.execRevokeSlot t slot sig target s
  | .revocationBlown => Sys2Proof.Machine.execRevocationBlown s
  | .batteryKeyWrite t slot sig key => Sys2Proof.Machine.execBatteryKeyWrite t slot sig key s
  | .batteryKeyErase t slot sig => Sys2Proof.Machine.execBatteryKeyErase t slot sig s
  | .scrubFrame f flips mirrorGood => Sys2Proof.Machine.execScrubFrame f flips mirrorGood s
  | .attestationStart t nonce => Sys2Proof.Machine.execAttestationStart t nonce s
  | .attestationReady => Sys2Proof.Machine.execAttestationReady s
  | .bridgeCapture b v => Sys2Proof.Machine.execBridgeCapture b v s
  | .bridgeDeliver b => Sys2Proof.Machine.execBridgeDeliver b s
  | .bridgeFree b => Sys2Proof.Machine.execBridgeFree b s
  | .sourcePulse b => Sys2Proof.Machine.execSourcePulse b s
  | .bridgeReset b source release => Sys2Proof.Machine.execBridgeReset b source release s
  | .clockDeparture d => Sys2Proof.Machine.execClockDeparture d s
  | .clockRecovery d khz => Sys2Proof.Machine.execClockRecovery d khz s
  | .t0Burst n => Sys2Proof.Machine.execT0Burst n s
  | .signalDetect n => Sys2Proof.Machine.execSignalDetect n s
  | .cdrLock n => Sys2Proof.Machine.execCdrLock n s
  | .blockLock n => Sys2Proof.Machine.execBlockLock n s
  | .lossOfLock n => Sys2Proof.Machine.execLossOfLock n s
  | .lossOfSignal n => Sys2Proof.Machine.execLossOfSignal n s
  | .trainingTimeout n => Sys2Proof.Machine.execTrainingTimeout n s
  | .absentTimeout n => Sys2Proof.Machine.execAbsentTimeout n s
  | .equaliserConverged n => Sys2Proof.Machine.execEqualiserConverged n s
  | .prbsCheckEnd n errors => Sys2Proof.Machine.execPrbsCheckEnd n errors s
  | .mark n count bseq live => Sys2Proof.Machine.execMark n count bseq live s
  | .capability n content => Sys2Proof.Machine.execCapability n content s
  | .rate n proposed fec => Sys2Proof.Machine.execRate n proposed fec s
  | .verify n v => Sys2Proof.Machine.execVerify n v s
  | .lowPower n state => Sys2Proof.Machine.execLowPower n state s
  | .bond n k tx rx => Sys2Proof.Machine.execBond n k tx rx s
  | .unknownLinkBlock n ty => Sys2Proof.Machine.execUnknownLinkBlock n ty s
  | .maintenanceTransfer n => Sys2Proof.Machine.execMaintenanceTransfer n s
  | .laneTxTransfer n => Sys2Proof.Machine.execLaneTxTransfer n s
  | .laneRxTransfer n x => Sys2Proof.Machine.execLaneRxTransfer n x s
  | .marginSample n m => Sys2Proof.Machine.execMarginSample n m s
  | .shortRetrainEnd n m => Sys2Proof.Machine.execShortRetrainEnd n m s
  | .adaptationSlowdown n => Sys2Proof.Machine.execAdaptationSlowdown n s
  | .bondSwitchPoint b receive => Sys2Proof.Machine.execBondSwitchPoint b receive s
  | .enable t n v => Sys2Proof.Machine.execEnable t n v s
  | .restart t n => Sys2Proof.Machine.execRestart t n s
  | .clearcap t n => Sys2Proof.Machine.execClearcap t n s
  | .lp t n v => Sys2Proof.Machine.execLp t n v s
  | .maxrate t n v => Sys2Proof.Machine.execMaxrate t n v s
  | .fecReq t n v => Sys2Proof.Machine.execFecReq t n v s
  | .txeq t n v => Sys2Proof.Machine.execTxeq t n v s
  | .loop t n v => Sys2Proof.Machine.execLoop t n v s
  | .pattern t n v => Sys2Proof.Machine.execPattern t n v s
  | .txIdle t n v => Sys2Proof.Machine.execTxIdle t n v s
  | .bondMembersWrite t b v => Sys2Proof.Machine.execBondMembersWrite t b v s
  | .portMapWrite t e v => Sys2Proof.Machine.execPortMapWrite t e v s
  | .ethernetLock n ev => Sys2Proof.Machine.execEthernetLock n ev s
  | .hostLinkReset => Sys2Proof.Machine.execHostLinkReset s
  | .flr f => Sys2Proof.Machine.execFlr f s
  | .linkStateChange v => Sys2Proof.Machine.execLinkStateChange v s
  | .regionPortSend f r d => Sys2Proof.Machine.execRegionPortSend f r d s
  | .regionPortRecv f r => Sys2Proof.Machine.execRegionPortRecv f r s
  | .unmappedAccess x => Sys2Proof.Machine.execUnmappedAccess x s
  | .sqTail f c v => Sys2Proof.Machine.execSqTail f c v s
  | .cqHead f c v => Sys2Proof.Machine.execCqHead f c v s
  | .descriptorStart c fetched => Sys2Proof.Machine.execDescriptorStart c fetched s
  | .hostToQueue tag data => Sys2Proof.Machine.execHostToQueue tag data s
  | .queueToHost tag f => Sys2Proof.Machine.execQueueToHost tag f s
  | .hostToBank tag data => Sys2Proof.Machine.execHostToBank tag data s
  | .bankToHost tag => Sys2Proof.Machine.execBankToHost tag s
  | .hostToStream tag data => Sys2Proof.Machine.execHostToStream tag data s
  | .descriptorFinish tag => Sys2Proof.Machine.execDescriptorFinish tag s
  | .dmaEnable t c => Sys2Proof.Machine.execDmaEnable t c s
  | .dmaDisable t c => Sys2Proof.Machine.execDmaDisable t c s
  | .read t index sub => Sys2Proof.Machine.execRead t index sub s
  | .write t index sub data => Sys2Proof.Machine.execWrite t index sub data s
  | .describe t index sub => Sys2Proof.Machine.execDescribe t index sub s
  | .doorbell v area => Sys2Proof.Machine.execDoorbell v area s
  | .canRequestFrame p f => Sys2Proof.Machine.execCanRequestFrame p f s
  | .canSegmentTimeout p => Sys2Proof.Machine.execCanSegmentTimeout p s
  | .notice p => Sys2Proof.Machine.execNotice p s
  | .canPortDisable t p => Sys2Proof.Machine.execCanPortDisable t p s
  | .busOffRecovery p => Sys2Proof.Machine.execBusOffRecovery p s
  | .sealedCommand t blob => Sys2Proof.Machine.execSealedCommand t blob s
  | .publishedAccess t op index sub data => Sys2Proof.Machine.execPublishedAccess t op index sub data s
  | .publicationEntryWrite t e v => Sys2Proof.Machine.execPublicationEntryWrite t e v s
  | .pinConfigWrite t p v => Sys2Proof.Machine.execPinConfigWrite t p v s
  | .latchRelease p => Sys2Proof.Machine.execLatchRelease p s
  | .latchTimeout p => Sys2Proof.Machine.execLatchTimeout p s
  | .pinOutputToken slot oe => Sys2Proof.Machine.execPinOutputToken slot oe s
  | .pinInputChange p level => Sys2Proof.Machine.execPinInputChange p level s
  | .pinSample p => Sys2Proof.Machine.execPinSample p s
  | .vioClassChange k c => Sys2Proof.Machine.execVioClassChange k c s
  | .supervisorPinRelease t slot sig p => Sys2Proof.Machine.execSupervisorPinRelease t slot sig p s
  | .voltageWindowEnd pref groupPref => Sys2Proof.Machine.execVoltageWindowEnd pref groupPref s
  | .selftestSlice sl => Sys2Proof.Machine.execSelftestSlice sl s
  | .lendableWrite t mask => Sys2Proof.Machine.execLendableWrite t mask s
  | .faultRetry ch again => Sys2Proof.Machine.execFaultRetry ch again s
  | .faultWindowClose ch => Sys2Proof.Machine.execFaultWindowClose ch s
  | .retireRequest t entry => Sys2Proof.Machine.execRetireRequest t entry s
  | .fuseRepair t slot sig entry => Sys2Proof.Machine.execFuseRepair t slot sig entry s
  | .fuseBlowComplete => Sys2Proof.Machine.execFuseBlowComplete s
  | .fabricUserEvent u => Sys2Proof.Machine.execFabricUserEvent u s
  | .pulseRawEnd src => Sys2Proof.Machine.execPulseRawEnd src s
  | .statusClear t mask => Sys2Proof.Machine.execStatusClear t mask s
  | .eventControlWrite t src v => Sys2Proof.Machine.execEventControlWrite t src v s
  | .msixUnblock b => Sys2Proof.Machine.execMsixUnblock b s
  | .phySupplyOutOfRange vphy vphyh => Sys2Proof.Machine.execPhySupplyOutOfRange vphy vphyh s
  | .phySupplyReturn vphy vphyh => Sys2Proof.Machine.execPhySupplyReturn vphy vphyh s
  | .vbatLoss mv => Sys2Proof.Machine.execVbatLoss mv s
  | .busError p tec rxe => Sys2Proof.Machine.execBusError p tec rxe s
  | .aerError correctable => Sys2Proof.Machine.execAerError correctable s
  | .msixMask b => Sys2Proof.Machine.execMsixMask b s
  | .vfEnable numVfs => Sys2Proof.Machine.execVfEnable numVfs s

end Sys2Proof.Machine
end

