-- ==== Sys2Proof/Safety.lean ====
section
/-!
DEFINITION. What the statements speak of: legal time, a calm state, the server's answer to a request, and the conditions under
which a command has its own effect.
-/

namespace Sys2Proof.Safety

open Sys2Proof.Machine

/-- Lydan time as R129, R131 and R133 bound it: 48 bits of seconds, whole nanoseconds below a second, 40 bits below. -/
def TimeLegal (t : TimeState) : Prop := t.sec < 2 ^ 48 ∧ t.ns < 1000000000 ∧ t.sub < 2 ^ 40

/-- The mode record asks for nothing: no transition is under way or due (R42, R43). -/
def NothingDue (m : ModeState) : Prop :=
  m.trans = none ∧ m.resetDue = none ∧ m.securityDue = false ∧ m.fuseDue = false ∧ m.failDue = none ∧
    m.tripDue = false ∧ m.runDue = false ∧ m.wakeDue = false ∧ m.loadDue = none

/-- A powered state in which nothing but the next command is going to act: no transition is due, M1 is not about to be left, the
supervisor holds no observation and runs no test, and source 304 does not wait for the pool to fill again. -/
structure Calm (s : State) : Prop where
  powered : s.modes.cur ≠ .m0
  due : NothingDue s.modes
  stays : Modes.released s = false
  seen : s.sup.observed = []
  tests : s.sup.tests = []
  waiting : s.sup.waiting = []
  pool : s.events.raw.getLsbD 304 = false

/-- A calm state in M5. -/
structure Runs (s : State) : Prop extends Calm s where
  m5 : s.modes.cur = .m5

/-- A powered state that is not about to leave M1: the next command acts on it as it stands. -/
structure Awake (s : State) : Prop where
  powered : s.modes.cur ≠ .m0
  stays : Modes.released s = false

/-- An awake state in M5. -/
structure Up (s : State) : Prop extends Awake s where
  m5 : s.modes.cur = .m5

/-- What a command leaves whose own effect on `s` makes `x`: what the effect has set off is taken before the command ends (R42,
R43, R484), and Lydan time and the queue of commands are as before. -/
def after (s x : State) : State := Run.commit s (Modes.settle x)

/-- The same for a command that can step Lydan time. -/
def afterTime (s x : State) : State := Run.commitTime s (Modes.settle x)

/-- A transition of R46 from `s`: the mode record of `t` (R47, R52). -/
structure Entered (s t : State) (m : Mode) (cause : Nat) : Prop where
  cur : t.modes.cur = m
  prev : t.modes.prev = s.modes.cur
  cause : t.modes.cause = cause
  count : t.modes.count = (s.modes.count + 1) % 2 ^ 32
  lastSec : t.modes.lastSec = s.time.sec
  lastNs : t.modes.lastNs = s.time.ns

/-! ### The dictionary -/

/-- The state in which the server executes a request: it has counted it (R432). -/
def counted (s : State) : State := Ops.bump 0x1100 3 (Ops.begin s)

/-- The transport can deliver the request, or has captured it (R411, R415, R427). -/
def Served (s : State) (t : Transport) (op index sub : Nat) (d : List Byte) : Prop :=
  Transports.live s t = true ∨ (Transports.captured s t (Transports.names op index sub d)).isSome = true

/-- The server answers the request, which the state `x` is after executing (R411, R416, R421). -/
def answered (s : State) (t : Transport) (op index sub : Nat) (d : List Byte) (err : Nat) (data : List Byte) (x : State) :
    State :=
  Transports.answer t (Transports.captured s t (Transports.names op index sub d))
    { op := op, index := index, sub := sub, err := err, data := data } x

/-- Steps 2 to 6 of R410 pass for a WRITE, and the value fits its type. -/
def Accepts (s : State) (index sub : Nat) (d : List Byte) : Bool :=
  match Dict.row s index sub with
  | none => false
  | some x =>
    !Dict.badLength x d && x.acc != .ro && !Dict.needsSeal s x index sub (Ops.le d) &&
      !(x.own == .field && Dict.fieldLocked s) && !Dict.wrongMode s x &&
      !(x.ty == .bool && decide (1 < Ops.le d)) && !(x.ty == .blob && decide (x.len < d.length))

/-- A WRITE that the server takes and whose checks before the owning chapter's all pass. -/
structure Writes (s : State) (t : Transport) (index sub : Nat) (d : List Byte) : Prop extends Awake s where
  served : Served s t 2 index sub d
  accepted : Accepts (counted s) index sub d = true

/-- The state after a WRITE that succeeds, whose effect makes `x`. -/
def wrote (s : State) (t : Transport) (index sub : Nat) (d : List Byte) (x : State) : State :=
  after s (answered s t 2 index sub d 0 [] x)

/-- The same for a WRITE that can step Lydan time. -/
def wroteTime (s : State) (t : Transport) (index sub : Nat) (d : List Byte) (x : State) : State :=
  afterTime s (answered s t 2 index sub d 0 [] x)

/-- A READ that the server takes, of a sub that exists in its row `x`, can be read, and is reachable in the present mode (steps 2
to 6 of R410). -/
structure Reads (s : State) (t : Transport) (index sub : Nat) (x : Row) : Prop extends Awake s where
  served : Served s t 1 index sub []
  row : Dict.row (counted s) index sub = some x
  readable : x.acc ≠ .wo
  reachable : Dict.reachable s x = true

/-- The state after a READ that answers `data` and leaves `x` behind it. -/
def readOut (s : State) (t : Transport) (index sub : Nat) (data : List Byte) (x : State) : State :=
  after s (answered s t 1 index sub [] 0 data x)

/-- The value `v` in the `n` bytes of its sub. -/
abbrev le (n v : Nat) : List Byte := Ops.bytes n v

/-- The checks on the inner write of a sealed command (R426, check 8). -/
def InnerAccepts (s : State) (index sub : Nat) (d : List Byte) : Bool :=
  match Objects.row index sub with
  | none => false
  | some x =>
    !Dict.badLength x d && !Dict.wrongMode s x && !(x.ty == .bool && decide (1 < Ops.le d)) &&
      !(x.ty == .blob && decide (x.len < d.length))

/-- The state in which the inner write of a sealed command acts: the request is counted and the challenge drawn again (R425). -/
def opened (s : State) : State := Dict.newChallenge (counted s)

/-- A sealed command whose inner write sets `index`.`sub` to the bytes `v`, signed over the present challenge, and which passes
all checks of R426. -/
structure Seals (s : State) (t : Transport) (slot : Fin 4) (sig : List Byte) (index sub : Nat) (v : List Byte) : Prop
    extends Awake s where
  served : Served s t 2 0xC040 2 (Dict.sealedBlob s slot index sub v sig)
  accepted : Accepts (counted s) 0xC040 2 (Dict.sealedBlob s slot index sub v sig) = true
  sigLength : sig.length = 384
  short : v.length ≤ 1024
  number : index < 2 ^ 16
  place : sub < 2 ^ 8
  idle : s.sup.blowing = none
  sealed : Dict.sealChecks (Dict.sealedBlob s slot index sub v sig) (counted s) = none
  inner : InnerAccepts (opened s) index sub v = true

/-- The state after a sealed command that succeeds, whose inner write makes `x` (R426). -/
def unsealed (s : State) (t : Transport) (slot : Fin 4) (sig : List Byte) (index sub : Nat) (v : List Byte) (x : State) :
    State :=
  wrote s t 0xC040 2 (Dict.sealedBlob s slot index sub v sig) (Ops.setReg 0xC040 3 1 x)

/-- The state after a sealed command whose inner write fails with the error `e`, check 8 of R426. -/
def spurned (s : State) (t : Transport) (slot : Fin 4) (sig : List Byte) (index sub : Nat) (v : List Byte) (e : Nat) : State :=
  after s (answered s t 2 0xC040 2 (Dict.sealedBlob s slot index sub v sig) e []
    (Ops.raise 421 (Ops.setReg 0xC040 3 8 (opened s))))

/-! ### Events -/

/-- Raising source `src` delivers nothing: its control word's bit 31 is 0 (R499, R502). -/
def Unheard (s : State) (src : Nat) : Prop := Ops.bit (Ops.control s src) 31 = false

/-- RAW of source `src` becomes 1 (R497, R498). -/
def rawSet (src : Nat) (s : State) : State :=
  { s with events := { s.events with raw := s.events.raw ||| BitVec.twoPow 640 src } }

/-! ### Lydan time -/

/-- A time as a number of 2^-40 ns since SECONDS 0. -/
def fine (t : TimeState) : Nat := (t.sec * 1000000000 + t.ns) * 2 ^ 40 + t.sub

/-- A change of the servos' memory alone. -/
def servo (f : ServoState → ServoState) (s : State) : State := { s with servo := f s.servo }

/-! ### Memory -/

/-- Every addressed memory of the block is in the canonical form of its table: the words of the banks (R166) and their spare
columns (R195), the trace rings (R228), the schedule entries (R153), the configuration frames (R278) with those of a partial load
that have not taken effect (R301), and the scratchpads of the engines (R237). Two memories that hold the same are then the same
data. -/
def Memory.wf (s : State) : Bool :=
  Table.wf (fun _ => 0) s.bankMem && Table.wf (fun _ => 0) s.bankSpare && Table.wf (fun _ => 0) s.ringMem &&
    Table.wf (fun _ => 0) s.entries && Table.wf (fun _ => 0) s.fab.frames && Table.wf (fun _ => 0) s.fab.incoming &&
      Table.wf (fun _ => 0) s.eng.imem && Table.wf (fun _ => 0) s.eng.dmem

/-! ### Memory banks -/

/-- Bank n serves accesses now: On, and not borrowed by self-test (R187, R480). -/
structure BankOn (s : State) (n : Nat) : Prop where
  power : Ops.power s n = .on
  own : (Ops.bank s n).borrowed = false

/-- `x` differs from `u` in bank n and its words alone. -/
def OnlyBank (n : Nat) (u x : State) : Prop :=
  x = { u with banks := x.banks, bankMem := x.bankMem, bankSpare := x.bankSpare } ∧
    ∀ m, m ≠ n → Ops.bank x m = Ops.bank u m ∧ ∀ w, w < 8192 → Ops.word x m w = Ops.word u m w

/-- What one access by request `q` to the stored bits `v` does to bank n in `u`: the word it leaves, and what it counts (R173,
R191 to R194). -/
def accessed (n : Nat) (q : BankReq) (v : BitVec 72) (u : State) : State :=
  let a := Flags.access q.op q.data v
  Ops.noteAccess Ops.raise n q.addr.toNat v a (Ops.setWord n q.addr.toNat a.word u)

/-! ### Queues -/

/-- The words that a queue holds, oldest first, each with its parity bit. -/
def held (x : Queue) : List (BitVec 65) := x.packets.flatMap fun p => p.cells.flatMap fun c => c.words

/-- Queue q takes operations of attachment `a` in M5, as its producer or as its consumer (R209, R215). -/
structure Open (s : State) (q : Nat) : Prop where
  m5 : s.modes.cur = .m5
  enabled : Queues.enabled s q = true

/-! ### Prism engines -/

/-- The instructions of engine n as commands, each with its OP (R240). -/
def instructions (n : Fin 128) : List (Nat × Instr) :=
  [(0x01, .add n), (0x02, .sub n), (0x03, .and n), (0x04, .ior n), (0x05, .eor n), (0x06, .mlo n), (0x07, .cmps n),
   (0x08, .cmpu n), (0x09, .shl n), (0x0A, .shr n), (0x0B, .sha n)] ++
  [(0x10, .addk n), (0x11, .andk n), (0x12, .iork n), (0x13, .eork n), (0x14, .high n), (0x15, .shlk n), (0x16, .shrk n),
   (0x17, .shak n), (0x18, .jeq n), (0x19, .jne n), (0x1A, .jls n), (0x1B, .jgs n), (0x1C, .jlu n), (0x1D, .jgu n),
   (0x1E, .call n), (0x1F, .jumpr n)] ++
  [(0x20, .ldw n), (0x21, .ldb n), (0x22, .ldp n), (0x24, .stw n), (0x25, .stb n), (0x26, .stp n)] ++
  [(0x28, .qpush n), (0x29, .qpushc n), (0x2A, .qpop n), (0x2B, .qpeek n), (0x2C, .qabort n), (0x2E, .bset n),
   (0x2F, .bclr n)] ++
  [(0x30, .trd n), (0x31, .twait n), (0x32, .gent n), (0x33, .garm n), (0x34, .send n), (0x35, .recv n), (0x36, .poll n),
   (0x38, .evr n), (0x39, .fence n), (0x3A, .rdspec n), (0x3B, .halt n)]

/-- The loads and stores of engine n, each with its OP, its size in bytes, and whether it stores (R240). -/
def transfers (n : Fin 128) : List (Nat × Instr × Nat × Bool) :=
  [(0x20, .ldw n, 4, false), (0x21, .ldb n, 1, false), (0x22, .ldp n, 8, false),
   (0x24, .stw n, 4, true), (0x25, .stb n, 1, true), (0x26, .stp n, 8, true)]

/-- Engine n is at the instruction word `w` of operation code `o`: the engine runs, the word is legal, and no source is
pending (R241, R243, R259). -/
structure Issues (o : Nat) (s : State) (n : Fin 128) (w : W32) : Prop extends Runs s where
  state : (Engines.engine s n).state = .running
  pc : (Engines.engine s n).pc.toNat ≤ 0x7FFC
  word : Engines.imem s n ((Engines.engine s n).pc.toNat / 4) = w
  op : Engines.op w = o
  legal : Engines.illegal w = false
  ready : ∀ g ∈ Engines.sources w, Engines.pends (Engines.engine s n) g = false

/-- The state after engine n has retired an instruction: its registers as in `e`, its pc at `pc`, one more instruction retired;
nothing else in the machine changes. -/
def retired (s : State) (n : Nat) (e : Engine) (pc : W32) : State :=
  let e' : Engine := { e with pc := pc, retired := e.retired + 1, twait := none }
  { s with out := [], eng := { s.eng with engines := Table.put (fun _ => {}) s.eng.engines n e' } }

/-- As `retired`, where register D of the word took `v` and the pc went on to the next word. -/
def result (s : State) (n : Nat) (w : W32) (v : W32) : State :=
  retired s n (Engines.put (Engines.f1 w) v (Engines.engine s n)) ((Engines.engine s n).pc + 4)

/-- The register that field 1, 2, 3 or 4 of the word names, as engine n holds it. -/
def r1 (s : State) (n : Nat) (w : W32) : W32 := Engines.get (Engines.engine s n) (Engines.f1 w)
def r2 (s : State) (n : Nat) (w : W32) : W32 := Engines.get (Engines.engine s n) (Engines.f2 w)
def r3 (s : State) (n : Nat) (w : W32) : W32 := Engines.get (Engines.engine s n) (Engines.f3 w)
def r4 (s : State) (n : Nat) (w : W32) : W32 := Engines.get (Engines.engine s n) (Engines.f4 w)

/-- The pc after a branch that is taken, and after one that is not (R240). -/
def taken (s : State) (n : Nat) (w : W32) : W32 := (Engines.engine s n).pc + 4 + 4 * Engines.sext w
def next (s : State) (n : Nat) : W32 := (Engines.engine s n).pc + 4

/-- A byte of engine n's data space, as four or eight of them make a word (R237). -/
def byteAt (s : State) (n a : Nat) : Byte := Engines.dataByte s n a

/-- The state after a store of `k` bytes of `v` by engine n at `a`: the instruction retires, bytes a to a + k − 1 of the engine's
data scratchpad hold `v`, lowest first, and every other byte of every scratchpad is as before. -/
def Stored (s t : State) (n a k v : Nat) : Prop :=
  ∃ d : Table Byte,
    t = { retired s n (Engines.engine s n) (next s n) with
          eng := { (retired s n (Engines.engine s n) (next s n)).eng with dmem := d } } ∧
    ∀ (m : Fin 128) (x : Nat), x < 65536 → Engines.dmem t m x =
      if m.val = n ∧ a ≤ x ∧ x < a + k then BitVec.ofNat 8 (v / 2 ^ (8 * (x - a))) else Engines.dmem s m x

/-- `t` is the lowest tag that engine n has not in flight (R242). -/
def LowestFree (e : Engine) (t : Fin 8) : Prop :=
  (∀ x ∈ e.tags, x.tag ≠ t) ∧ ∀ u : Fin 8, u < t → ∃ x ∈ e.tags, x.tag = u

/-- Register g of engine `e` marked pending by tag t; g0 is never pending (R235, R244). -/
def marked (g : Nat) (t : Fin 8) (e : Engine) : Engine := Engines.mark g t e

/-- The state after engine n has issued request `q` under tag t, with its destinations marked as in `e`. -/
def issued (s : State) (n : Nat) (e : Engine) (t : Fin 8) (q : TagReq) : State :=
  retired s n { e with tags := e.tags ++ [{ tag := t, req := q }] } (next s n)

end Sys2Proof.Safety
end

