-- ==== Sys2Proof/Certificates/Slice0/Obligations.lean ====
section
/-!
DEFINITION. The statements about the model, for the provers.
-/

open Sys2Proof Sys2Proof.Machine Sys2Proof.Safety

/-! ### The block as a whole -/

/-- (1) A step with a command at the front of the queue is that command on the state with the queue's rest.

(2) Every command answers a next state in every state, with the commands that wait behind it untouched: no command ends in a fault
or a refusal. -/
def Obligations.StepRunsFront : Prop :=
  (∀ (s : State) (c : Instr) (rest : List Instr), s.pending = c :: rest → step s = exec c { s with pending := rest }) ∧
  (∀ (c : Instr) (s : State), ∃ t, exec c s = .next t ∧ t.pending = s.pending)

/-- (1) A step on an empty queue is one period of the timebase clock: nothing in M0, and in every other mode that M1 is not about to
leave, a next state with the queue still empty (log entry 4).

(2) R405: in M0 a command changes nothing, but for POWER_UP, RESET_N_LOW, RESET_N_HIGH and VBAT_LOSS, whose effects in M0
PowerAndReset and SecurityAndKeys state.

The model's choices in it: log entries 4 and 8. -/
def Obligations.EmptyQueueAndM0 : Prop :=
  (∀ s : State, s.pending = [] →
     (s.modes.cur = .m0 → step s = .next s) ∧
     (Awake s → step s = .next (afterTime s (Time.period (Ops.begin s))))) ∧
  (∀ (c : Instr) (s : State), s.modes.cur = .m0 →
     (∀ id st g, c ≠ .powerUp id st g) → c ≠ .resetNLow → (∀ id st, c ≠ .resetNHigh id st) → (∀ mv, c ≠ .vbatLoss mv) →
     exec c s = .next s)

/-- R131, R133: every step leaves Lydan time within its fields, in whatever state it starts. R129: SECONDS and NANOSECONDS are 0
after reset; a time within its fields is a TIME80 with NANOSECONDS in bits 31 to 0, below 1,000,000,000, and SECONDS in bits 79
to 32. -/
def Obligations.TimeStaysLegal : Prop :=
  (∀ s t : State, TimeLegal s.time → step s = .next t → TimeLegal t.time) ∧
  State.reset.time.sec = 0 ∧ State.reset.time.ns = 0 ∧
  ∀ t : TimeState, TimeLegal t → let v := Ops.time80Nat t.sec t.ns
    v < 2 ^ 80 ∧ v % 2 ^ 32 = t.ns ∧ v / 2 ^ 32 = t.sec ∧ v % 2 ^ 32 ≤ 999999999

/-- R33, R46, R52, R406: what the reset state holds: the mode M1 entered from M0 by cause 0x0001 with a transition count of 0,
RESET_N low, Lydan time within its fields, no command waiting, no sub written, so that every sub reads its default, every word of
every bank 0 and every bank Off.

The model's choices in it: log entries 5 and 6. -/
def Obligations.ResetState : Prop :=
  TimeLegal State.reset.time ∧ State.reset.modes.cur = .m1 ∧ State.reset.modes.prev = .m0 ∧
  State.reset.modes.cause = 0x0001 ∧ State.reset.modes.count = 0 ∧ State.reset.modes.resetN = false ∧
  State.reset.pending = [] ∧ State.reset.regs = [] ∧ (∀ n w, Ops.word State.reset n w = 0) ∧
  (∀ n, Ops.power State.reset n = .off) ∧ (∀ i k, Ops.reg State.reset i k = Objects.dflt (256 * i + k))

/-- (1) R37, R42, R46, R52: what is due is taken before the command ends, in the order of precedence: a reset trigger to M1 from every
powered mode; else a security event from M2 to M6 to M7, with cause 0x42; else, in M2, a fuse integrity failure (0x43); else a load
failure in M3 or M4 with its cause; else a full-reload or load transition of M2, M3, M4, M5 and M7 with its cause, while no trip
holds; and in M6 a run request (0x22) or a wake event (0x23), while the junction is cool. The state is one in which the command has
observed no fault, no column waits for a rebuild, no test runs and source 304 is not raised.

(2) When nothing is due, a command leaves its own effect and no more.

The model's choices in it: log entries 17 and 71. -/
def Obligations.TransitionsAreTaken : Prop :=
  (∀ s : State, s.sup.observed = [] → s.sup.tests = [] → s.sup.waiting = [] → s.events.raw.getLsbD 304 = false →
     let t := Modes.settle s
     let m := s.modes
     (∀ c, m.resetDue = some c → Entered s t .m1 c) ∧
     (m.resetDue = none → m.securityDue = true → (m.cur = .m2 ∨ m.cur = .m3 ∨ m.cur = .m4 ∨ m.cur = .m5 ∨ m.cur = .m6) →
       Entered s t .m7 0x42) ∧
     (m.resetDue = none → m.securityDue = false → m.cur = .m2 → m.fuseDue = true → Entered s t .m7 0x43) ∧
     (m.resetDue = none → m.securityDue = false → (m.cur = .m3 ∨ m.cur = .m4) →
       ∀ c, m.failDue = some c → Entered s t .m7 c) ∧
     (∀ c, m.resetDue = none → m.securityDue = false → m.tripped = false → m.tripDue = false → m.failDue = none →
       m.loadDue = some c →
       (m.cur = .m2 → m.fuseDue = false → Entered s t .m3 c) ∧ (m.cur = .m3 → Entered s t .m4 c) ∧
       (m.cur = .m4 → Entered s t .m5 c) ∧ (m.cur = .m5 → Entered s t .m3 c)) ∧
     (∀ c, m.resetDue = none → m.tripped = false → m.cur = .m7 → m.securityDue = false → m.loadDue = some c →
       Entered s t .m3 c) ∧
     (m.resetDue = none → m.securityDue = false → m.cur = .m6 → Super.cool s = true →
       (m.runDue = true → Entered s t .m5 0x22) ∧ (m.runDue = false → m.wakeDue = true → Entered s t .m5 0x23))) ∧
  (∀ s x : State, Calm x → x.time = s.time → x.pending = s.pending → after s x = x)

/-! ### Modes and power -/

/-- (1) R33, R37, R406, R425, R491: power comes and goes. A power-up in M0 is the cold reset: a state of defaults that keeps only the
non-volatile state and the level of RESET_N, with the straps sampled and the challenge drawn, where the fused repairs hold, the
engines are mapped and source 391 is raised; with power on it raises PWRGD. The removal of the supplies from every other mode leaves
M0; a fuse row that was being blown is spent.

(2) R37, R43, R48, R50, R419, R436: PWRGD low, RESET_N and the reset request make the reset trigger due, which is taken by the rule
of TransitionsAreTaken; a rise of RESET_N samples the straps, and a CAN port whose state that changes raises its source; the hold
latch takes FALSE and TRUE, and any other value is refused (error 4). In M0 only the level of RESET_N is noted.

The model's choices in it: log entries 5, 17 and 71. -/
def Obligations.PowerAndReset : Prop :=
  (∀ (s : State) (id : BitVec 7) (st : BitVec 8) (g : Bool),
     (s.modes.cur = .m0 →
       let u : State := {
         modes := { resetN := s.modes.resetN, ndId := id, pstrap := st, imagesGood := g }
         sec := { challenge := Config.challenge s.fresh }
         nv := s.nv, fresh := s.fresh + 1, pending := s.pending }
       let t := Run.commitTime s (Ops.raise 391 (Super.mapEngines (Super.applyFuses u)))
       exec (.powerUp id st g) s = .next t ∧
       t.modes.cur = .m1 ∧ t.modes.prev = .m0 ∧ t.modes.cause = 1 ∧ t.modes.count = 0 ∧ t.modes.ndId = id ∧
       t.modes.pstrap = st ∧ t.nv = s.nv ∧ t.time = {} ∧ t.bankMem = [] ∧ t.queues = [] ∧ t.fab = {} ∧
       t.pending = s.pending) ∧
     (Awake s → exec (.powerUp id st g) s =
       .next (afterTime s { s with out := [], modes := { s.modes with pwrgd := true } })) ∧
     (Awake s → exec .supplyRemoval s = .next
       { modes := { cur := .m0, cause := 0, resetN := s.modes.resetN, pwrgd := false }
         nv := if s.sup.blowing.isSome then { s.nv with wasted := s.nv.wasted + 1 } else s.nv
         fresh := s.fresh, pending := s.pending })) ∧
  (∀ s : State, s.modes.cur = .m0 →
     (exec .resetNLow s = .next (Run.commitTime s { s with out := [], modes := { s.modes with resetN := false } })) ∧
     (∀ id st, exec (.resetNHigh id st) s =
       .next (Run.commitTime s { s with out := [], modes := { s.modes with resetN := true } }))) ∧
  (∀ s : State, Awake s →
     (exec .pwrgdLow s = .next (after s { s with out := [], modes := { s.modes with pwrgd := false, resetDue := some 6 } })) ∧
     (s.modes.resetN = true → exec .resetNLow s =
       .next (afterTime s { s with out := [], modes := { s.modes with resetN := false, resetDue := some 2 } })) ∧
     (s.modes.resetN = false → exec .resetNLow s = .next (afterTime s { s with out := [] })) ∧
     (s.modes.resetN = true → ∀ id st, exec (.resetNHigh id st) s = .next (afterTime s { s with out := [] })) ∧
     (s.modes.resetN = false → ∀ id st, exec (.resetNHigh id st) s = .next (afterTime s
       (let x := { s with out := [], modes := { s.modes with resetN := true, ndId := id, pstrap := st } }
        let y := if Transports.canState x 0 = Transports.canState s 0 then x else Ops.raise 417 x
        if Transports.canState y 1 = Transports.canState s 1 then y else Ops.raise 418 y))) ∧
     (∀ t, Writes s t 0x1000 4 (le 1 1) → exec (.resetRequest t) s =
       .next (wrote s t 0x1000 4 (le 1 1) (Modes.setModes (fun m => { m with resetDue := some 3 }) (counted s)))) ∧
     (∀ t v, Writes s t 0x1000 8 (le 1 v.toNat) → exec (.holdLatchWrite t v) s =
       .next (wrote s t 0x1000 8 (le 1 v.toNat) (Ops.setReg 0x1000 8 v.toNat (counted s)))) ∧
     (∀ t (v : Byte), Served s t 2 0x1000 8 (le 1 v.toNat) → 1 < v.toNat → exec (.holdLatchWrite t v) s =
       .next (after s (answered s t 2 0x1000 8 (le 1 v.toNat) 4 [] (counted s)))))

/-- (1) R38, R41, R44, R48, R51, R304: the mode requests: what one that is accepted makes due, and the error of one that is not, in the
order of R48: a full reload from M5, but for a partial load, and from M7 once the machine can take a stream; a run request in M6; and in
M5 a Sentinel request, which waits for the end of a partial load, or begins the drain with the handshakes that the array has begun to
take on its inputs from B.

(2) R38: the end of the quiet, or the drain limit, enters M6; at the limit 0x1010.0D takes the lowest active region, and source 389
is raised if there is one. With no drain under way both do nothing.

The model's choices in it: log entry 20. -/
def Obligations.ModeRequestsAndDrain : Prop :=
  (∀ (s : State) (t : Transport),
     let free := s.modes.trans = none
     let on (f : ModeState → ModeState) : State := Modes.setModes f (counted s)
     let fails (c : Instr) (v e : Nat) : Prop := exec c s = .next (after s (answered s t 2 0x1000 4 (le 1 v) e [] (counted s)))
     let makes (c : Instr) (v : Nat) (y : State) : Prop := exec c s = .next (wrote s t 0x1000 4 (le 1 v) y)
     (Writes s t 0x1000 4 (le 1 3) →
       (¬ free → fails (.fullReloadRequest t) 3 5) ∧
       (free → s.modes.cur ≠ .m5 → s.modes.cur ≠ .m7 → fails (.fullReloadRequest t) 3 3) ∧
       (free → s.modes.cur = .m5 ∧ Loader.partialOf s ≠ none ∨ s.modes.cur = .m7 ∧ Loader.readyForStream s = false →
         fails (.fullReloadRequest t) 3 5) ∧
       (free → s.modes.cur = .m5 ∧ Loader.partialOf s = none ∨ s.modes.cur = .m7 ∧ Loader.readyForStream s = true →
         makes (.fullReloadRequest t) 3 (on fun m => { m with loadDue := some 0x30 }))) ∧
     (Writes s t 0x1000 4 (le 1 5) →
       (¬ free → fails (.runRequest t) 5 5) ∧
       (free → s.modes.cur ≠ .m6 → fails (.runRequest t) 5 3) ∧
       (free → s.modes.cur = .m6 → makes (.runRequest t) 5 (on fun m => { m with runDue := true }))) ∧
     (Writes s t 0x1000 4 (le 1 6) →
       (¬ free → fails (.sentinelRequest t) 6 5) ∧
       (free → s.modes.cur ≠ .m5 → fails (.sentinelRequest t) 6 3) ∧
       (free → s.modes.cur = .m5 → Loader.partialOf s ≠ none →
         makes (.sentinelRequest t) 6 (on fun m => { m with trans := some .sentinelWait })) ∧
       (free → s.modes.cur = .m5 → Loader.partialOf s = none → makes (.sentinelRequest t) 6
         (Modes.setModes (fun m => { m with trans := some (.draining 0x20) }) (Fabric.holdInbound (counted s)))))) ∧
  (∀ (s : State) (c : Nat), Awake s →
     let u := Ops.begin s
     (s.modes.trans = some (.draining c) →
       (exec .sentinelDrainQuiet s = .next (after s (Modes.goto .m6 c u))) ∧
       (∀ a, exec (.drainLimitExpiry a) s = .next (after s (Modes.goto .m6 c
         (let x := { u with sup := { s.sup with drainRegion := a.foldl (fun m r => min m r.val) 0xFFFF } }
          if a.isEmpty then x else Ops.raise 389 x))))) ∧
     ((∀ d, s.modes.trans ≠ some (.draining d)) →
       exec .sentinelDrainQuiet s = .next (after s u) ∧ ∀ a, exec (.drainLimitExpiry a) s = .next (after s u)) ∧
     (∀ x : State, Entered x (Modes.goto .m6 c x) .m6 c))

/-- (1) R40, R45, R467: a thermal trip counts, raises source 387 and, in M3, M4 and M5, makes the transition of its mode due; the
trip is cleared once the hottest sensor reads below 95 °C; an integrity check that finds nothing altered does nothing, and one that
does is a security event: it is counted with cause 1, source 488 is raised and, outside M7, the transition to M7 is due.

(2) R467: a sweep keeps the hottest reading and its first sensor; source 388 is raised once at the warning temperature and armed
again 5 °C below it. A sweep without readings does nothing.

The model's choices in it: log entries 19 and 20. -/
def Obligations.TripsSweepsAndIntegrity : Prop :=
  (∀ s : State, Awake s →
     let u := Ops.begin s
     (exec .thermalTrip s = .next (after s
       (let x := Ops.raise 387 (Ops.bump 0x1010 0x0B (Modes.setModes (fun m => { m with tripped := true }) u))
        if x.modes.cur = .m3 ∨ x.modes.cur = .m4 ∨ x.modes.cur = .m5 then { x with modes := { x.modes with tripDue := true } }
        else x))) ∧
     (s.sup.hottest < 950 → exec .thermalTripClear s =
       .next (after s (Modes.setModes (fun m => { m with tripped := false }) u))) ∧
     (950 ≤ s.sup.hottest → exec .thermalTripClear s = .next (after s u)) ∧
     (exec (.integrityCheck false) s = .next (after s u)) ∧
     (exec (.integrityCheck true) s = .next (after s
       (let x := Ops.raise 488 (Ops.setReg 0xC050 4 1 (Ops.bump 0xC050 3 u))
        if x.modes.cur = .m7 then x else { x with modes := { x.modes with securityDue := true } }))) ∧
     (exec (.temperatureSweep []) s = .next (after s u))) ∧
  (∀ (s : State) (l : List Int) (i : Nat) (v : Int), Awake s → l[i]? = some v → (∀ w ∈ l, w ≤ v) →
     (∀ j w, j < i → l[j]? = some w → w < v) →
     let t : Int := 10 * (Ops.reg s 0x1010 0x0A : Int)
     let u (armed : Bool) : State :=
       { Ops.begin s with sup := { s.sup with hottest := v, sensor := Super.sensorCode i, warnArmed := armed } }
     exec (.temperatureSweep l) s = .next (after s (Pins.alarmPins
       (if t ≤ v ∧ s.sup.warnArmed = true then Ops.raise 388 (u false)
         else if v ≤ t - 50 then u true else u s.sup.warnArmed))))

/-- R463, R464, R466, R491: the rails' warnings. A measurement below the warning level asserts the warning, freezes adaptive voltage,
raises the rail's source, abandons the slices of self-test in progress and drives the alarm pins; a fuse blow that it meets is cut
when no rail had warned before. A measurement at or above the level, or of a rail that warns already, is only noted. The recovery of
a rail clears its comparators and lets its source fall; unless the dip reached the reset level, it is counted; once no rail warns,
adaptive voltage goes on, with source 385 where it was counted. A measurement below the reset level asserts the rail's reset, with
cause 4 or 5.

The model's choices in it: log entry 62. -/
def Obligations.RailWarnings : Prop :=
  ∀ (s : State) (r : Rail) (mv : W16), Awake s →
    let u := Super.measure r mv.toNat (Ops.begin s)
    let cut (x : State) : State := if Super.warned x && !Super.warned s then Transports.fuseCut x else x
    (mv.toNat < Super.warnBelow r → Super.railWarned s r = false → exec (.vcoreWarning r mv) s = .next (after s (cut
      (let x := Ops.track (Super.warnSource r) true (Super.setWarn r true { u with sup := { u.sup with frozen := true } })
       Pins.alarmPins (x.sup.tests.foldl (fun y t => if t.running then Super.abandonSlice t y else y) x))))) ∧
    (Super.warnBelow r ≤ mv.toNat ∨ Super.railWarned s r = true → exec (.vcoreWarning r mv) s = .next (after s u)) ∧
    (Super.warnClears r ≤ mv.toNat → Super.railWarned s r = true →
      exec (.sagRecovered r mv) s = .next (after s
        (let x := Ops.track (Super.warnSource r) false (Super.setWarn r false (Super.setReset r false u))
         let n := Ops.reg x 0x1010 7
         let y := if Super.railReset s r then x else Ops.setReg 0x1010 7 (match r with
           | .vcore => n / 65536 * 65536 + (n % 65536 + 1) % 65536
           | .vaux => (n / 65536 + 1) % 65536 * 65536 + n % 65536) x
         if y.sup.coreWarn || y.sup.auxWarn then y
         else
           let z := if Super.railReset s r then y else Ops.raise 385 y
           { z with sup := { z.sup with frozen := false } }))) ∧
    (mv.toNat < Super.warnClears r ∨ Super.railWarned s r = false → exec (.sagRecovered r mv) s =
      .next (after s (if Super.resetClears r ≤ mv.toNat then Super.setReset r false u else u))) ∧
    (mv.toNat < Super.resetBelow r → exec (.railBelowReset r mv) s = .next (after s (cut
      (Modes.setModes (fun m => { m with resetDue := some (match r with | .vcore => 4 | .vaux => 5) })
        (Super.setReset r true (Super.warning r mv.toNat (Ops.begin s))))))) ∧
    (Super.resetBelow r ≤ mv.toNat → exec (.railBelowReset r mv) s = .next (after s u))

/-- (1) R476, R477: a step of Survey completes in M2: the first three go on to the next, a failed check of the fuses at the first or of
their mirror at the last is a fuse integrity failure, and the last one applies Survey's results and raises source 368. While a trip
holds or a rail warns (R40, R466), the step is suspended or run again.

(2) R478 to R482: a slice of a background test of any kind starts, borrows its bank or takes its spare engine, and ends: the block is
given back, and with the last slice the test is over and its result counted: pass, fail, which is also an observation of R483, or,
where slices or coverage fall short, incomplete. A slice that may not start, and the end of one that does not run, do nothing.

(3) R481, R482: a write of the lendable banks cuts the test of a bank that is no longer lendable; it takes 256 bytes.

The model's choices in it: log entries 22 and 63. -/
def Obligations.SurveyAndSelfTest : Prop :=
  (∀ (s : State) (f : SurveyResult), Awake s → s.modes.cur = .m2 →
     let u := Ops.begin s
     let k := s.modes.surveyStep
     let due := Modes.setModes (fun m => { m with fuseDue := true }) u
     (s.modes.tripped = true ∨ Super.warned s = true ∨ 4 ≤ k → exec (.surveyStepDone f) s = .next (after s u)) ∧
     (s.modes.tripped = false → Super.warned s = false →
       (k < 3 → (k = 0 → f.fuseGood = true) → exec (.surveyStepDone f) s =
         .next (after s (Modes.setModes (fun m => { m with surveyStep := k + 1 }) u))) ∧
       (k = 0 → f.fuseGood = false → exec (.surveyStepDone f) s = .next (after s due)) ∧
       (k = 3 → f.mirrorGood = false → exec (.surveyStepDone f) s = .next (after s due)) ∧
       (k = 3 → f.mirrorGood = true → exec (.surveyStepDone f) s = .next (after s
         (let x := Banks.onSurvey (Super.surveyResults f u)
          Ops.raise 368 { x with modes := { x.modes with surveyStep := 4 } }))))) ∧
  (∀ (s : State) (sl : Slice), Awake s →
     let u := Ops.begin s
     let n := sl.target.toNat
     let mine := Super.sameTest sl.kind n
     (sl.starts = true → Super.mayStart s sl.kind n = true → (∀ t ∈ s.sup.tests, mine t = false ∨ t.running = false) →
       exec (.selftestSlice sl) s = .next (after s
         (let x := match sl.kind with
            | .bank => Ops.setBank n { Ops.bank s n with borrowed := true } u
            | .engine => Engines.setPhys n 2 u
            | _ => u
          Super.setTests (if s.sup.tests.any mine then s.sup.tests.map fun t => if mine t then { t with running := true } else t
            else s.sup.tests ++ [{ kind := sl.kind, target := sl.target, slices := 0, running := true }]) x))) ∧
     (sl.starts = true → Super.mayStart s sl.kind n = false ∨ (∃ t ∈ s.sup.tests, mine t = true ∧ t.running = true) →
       exec (.selftestSlice sl) s = .next (after s u)) ∧
     (sl.starts = false → (∀ t ∈ s.sup.tests, mine t = false ∨ t.running = false) →
       exec (.selftestSlice sl) s = .next (after s u)) ∧
     (∀ t, sl.starts = false → (s.sup.tests.find? fun x => mine x && x.running) = some t →
       let k := t.slices + 1
       let back := Super.giveBack sl.kind n u
       let ended := Super.setTests (back.sup.tests.filter fun x => !mine x) back
       let done (outcome : Nat) : State :=
         Super.result sl.kind n outcome k sl.coverage.toNat sl.misr.toNat sl.wantMisr.toNat
           (if sl.kind = .engine then Engines.setPhys n 1 ended else ended)
       let whole := k = sl.wantSlices.toNat ∧ sl.coverage = sl.wantCoverage
       (sl.last = false → exec (.selftestSlice sl) s = .next (after s
         (Super.setTests (back.sup.tests.map fun x => if mine x then { x with running := false, slices := k } else x) back))) ∧
       (sl.last = true → whole → sl.misr = sl.wantMisr → exec (.selftestSlice sl) s = .next (after s (done 0))) ∧
       (sl.last = true → whole → sl.misr ≠ sl.wantMisr → exec (.selftestSlice sl) s = .next (after s
         (match Super.testChannel sl.kind n sl.position with
          | some c => Ops.observe c (done 1)
          | none => done 1))) ∧
       (sl.last = true → ¬ whole → exec (.selftestSlice sl) s = .next (after s (done 2))))) ∧
  (∀ (s : State) (t : Transport) (m : List Byte), Writes s t 0xA000 4 m →
     let y := { counted s with sup := { s.sup with lendable := BitVec.ofNat 2048 (Ops.le m) } }
     (m.length = 256 → exec (.lendableWrite t m) s = .next (wrote s t 0xA000 4 m
       (s.sup.tests.foldl (fun v x =>
         if x.kind = .bank ∧ y.sup.lendable.getLsbD x.target.toNat = false then
           Ops.broken 4 3 4 x.target.toNat (Super.cutTest x v)
         else v) y))) ∧
     (m.length ≠ 256 → exec (.lendableWrite t m) s = .next (after s (answered s t 2 0xA000 4 m 4 [] (counted s)))))

/-- (1) R45, R292, R527: the sealed security commands: quarantine is a security event of cause 2; a region is isolated with cause 5,
and its release leaves the collar isolated with cause 1; the release of a collar with another cause is refused.

(2) R287, R288: a signer key is staged when it has 388 bytes, exponent 65537 and the hash of a programmed slot that is not revoked; else
it is refused, and while a load names its slot it is busy.

(3) R290: a slot is revoked, unless it is the last (refused), or a load names it or an engine install is in progress (busy): its staged
key goes at once, its fuse is blown after those that wait, and source 362 is raised.

(4) R291: the battery key is written, where fuses allow it, erased, and lost when VBAT leaves 2.0 V to 3.6 V, in every mode; while a load
uses it the writes are busy; source 489 is raised when the key state changes.

The model's choices in it: log entries 58 and 87. -/
def Obligations.SecurityAndKeys : Prop :=
  (∀ (s : State) (t : Transport) (slot : Fin 4) (sig : List Byte) (r : Fin 512),
     let u := opened s
     let v := 0x8000 + r.val
     let mine := (Fabric.collar s r).isolate = true ∧ (Fabric.collar s r).cause = 5
     (Seals s t slot sig 0xC050 2 (le 1 1) → exec (.quarantine t slot sig) s =
       .next (unsealed s t slot sig 0xC050 2 (le 1 1) (Security.event 2 u))) ∧
     (Seals s t slot sig 0xC050 1 (le 2 r) → exec (.securityIsolate t slot sig r) s =
       .next (unsealed s t slot sig 0xC050 1 (le 2 r) (Fabric.isolate r 5 u))) ∧
     (Seals s t slot sig 0xC050 1 (le 2 v) →
       (mine → exec (.securityRelease t slot sig r) s =
         .next (unsealed s t slot sig 0xC050 1 (le 2 v) (Fabric.setCollar r { Fabric.collar s r with cause := 1 } u))) ∧
       (¬ mine → exec (.securityRelease t slot sig r) s = .next (spurned s t slot sig 0xC050 1 (le 2 v) 4)))) ∧
  (∀ (s : State) (t : Transport) (k : Fin 4) (d : List Byte), Writes s t 0xC010 (k + 1) d →
     let good := d.length = 388 ∧ Ops.le (d.drop 384) = 65537 ∧ Security.revoked s k = false ∧
       Security.programmed s k = true ∧ Crypto.sha256 d = Security.slotHash s k
     let fails (e : Nat) : Prop :=
       exec (.signerKeyWrite t k d) s = .next (after s (answered s t 2 0xC010 (k + 1) d e [] (counted s)))
     (¬ good → fails 4) ∧
     (good → Loader.namesSlot s k = true → fails 5) ∧
     (good → Loader.namesSlot s k = false → exec (.signerKeyWrite t k d) s =
       .next (wrote s t 0xC010 (k + 1) d (Security.stage k d (counted s))))) ∧
  (∀ (s : State) (t : Transport) (slot : Fin 4) (sig : List Byte),
     let u := opened s
     (∀ v : Byte, Seals s t slot sig 0xC001 7 (le 1 v.toNat) →
       let makes (y : State) : Prop := exec (.revokeSlot t slot sig v) s = .next y
       let refused := 4 ≤ v.toNat ∨ Security.lastSlot s v.toNat = true
       let busy := Loader.namesSlot s v.toNat = true ∨ Engines.installing s = true
       (refused → makes (spurned s t slot sig 0xC001 7 (le 1 v.toNat) 4)) ∧
       (¬ refused → busy → makes (spurned s t slot sig 0xC001 7 (le 1 v.toNat) 5)) ∧
       (¬ refused → ¬ busy → makes (unsealed s t slot sig 0xC001 7 (le 1 v.toNat)
         (let y := Security.stage v.toNat [] u
          { y with sec := { y.sec with revoking := y.sec.revoking ++ [Fin.ofNat 4 v.toNat] } })))) ∧
     (∀ k rest, Awake s → s.sec.revoking = k :: rest → exec .revocationBlown s = .next (after s (Ops.raise 362 { Ops.begin s with
       sec := { s.sec with revoking := rest }
       nv := { s.nv with revoked := s.nv.revoked ||| BitVec.twoPow 4 k } }))) ∧
     (Awake s → s.sec.revoking = [] → exec .revocationBlown s = .next (after s (Ops.begin s)))) ∧
  (∀ (s : State) (t : Transport) (k : Fin 4) (sig : List Byte),
     let u := opened s
     let keyed (was now : Bool) (x : State) : State := if was = now then x else Ops.raise 489 x
     let had := s.nv.battery.isSome
     let uses := Loader.usesBattery s = true
     (∀ x : BitVec 256, Seals s t k sig 0xC020 1 (le 32 x.toNat) →
       let makes (y : State) : Prop := exec (.batteryKeyWrite t k sig x) s = .next y
       (s.nv.batteryAllowed = false → makes (spurned s t k sig 0xC020 1 (le 32 x.toNat) 4)) ∧
       (s.nv.batteryAllowed = true → uses → makes (spurned s t k sig 0xC020 1 (le 32 x.toNat) 5)) ∧
       (s.nv.batteryAllowed = true → ¬ uses → makes (unsealed s t k sig 0xC020 1 (le 32 x.toNat)
         (keyed had true { u with nv := { s.nv with battery := some x } })))) ∧
     (Seals s t k sig 0xC020 3 (le 1 1) →
       (uses → exec (.batteryKeyErase t k sig) s = .next (spurned s t k sig 0xC020 3 (le 1 1) 5)) ∧
       (¬ uses → exec (.batteryKeyErase t k sig) s = .next (unsealed s t k sig 0xC020 3 (le 1 1)
         (keyed had false { u with nv := { s.nv with battery := none } })))) ∧
     (∀ mv : W16,
       let x := { Ops.begin s with sup := { s.sup with vbat := mv.toNat } }
       let y := if 2000 ≤ mv.toNat ∧ mv.toNat ≤ 3600 then x
         else keyed had false { x with nv := { s.nv with battery := none } }
       (Awake s → exec (.vbatLoss mv) s = .next (afterTime s y)) ∧
       (s.modes.cur = .m0 → exec (.vbatLoss mv) s = .next (Run.commitTime s y))))

/-! ### The array -/

/-- (1) R55, R61, R64, R65, R73: the moves of a storing stage: it captures when all its used inputs are valid and its acknowledge is
low, offers when its output is at spacer with A low, and is empty again when every taker has acknowledged. The channel of a block, and
a token left outside an emptied region, return to spacer by the same rule. A transparent unit's channel goes on under R65. A move that
is not due changes nothing, but that the block of the channel may go on.

(2) R55 step 4, R62, R64: a receiver whose used inputs are all at spacer lowers its acknowledge, and block channels that waited for
that may offer; another one does nothing.

(3) R58, R65: the four moves of a transparent unit, each only when it is due, and the illegal code of a channel, which is counted and
observed once.

(4) R38, R39: outside M5 nothing in the array moves.

The model's choices in it: log entries 33 and 34. -/
def Obligations.StageMoves : Prop :=
  (∀ (s : State) (g : StageRef), Up s →
     let x := Fabric.stage s g
     let u := Ops.begin s
     let flows := Fabric.thawed s (Frames.homeOf (Fabric.chanOfStage g)) = true ∧ Fabric.clear s g = true ∧
       ∀ n, g = .gate n → Time.modeOf (Time.config s n) = 2
     (∀ k l, (∀ n, g ≠ .gate n) → Fabric.takerOf s g = some k → Fabric.linkHeld s g = false → Fabric.thawed s (Frames.regionOf k) = true →
       x.held = none → x.inAck = false → Fabric.allValid s k = some l →
       exec (.stageCapture g) s =
         .next (after s (Fabric.setStage g { x with held := some (Fabric.tokenOf s g l), inAck := true } u))) ∧
     ((∀ n, g ≠ .gate n) → Fabric.linkHeld s g = true ∨ x.held ≠ none ∨ x.inAck = true ∨
         (∀ k, Fabric.takerOf s g = some k → Fabric.thawed s (Frames.regionOf k) = false ∨ Fabric.allValid s k = none) →
       exec (.stageCapture g) s = .next (after s u)) ∧
     (flows → exec (.stageOffer g) s = .next (after s (Fabric.setStage g { x with rails := x.held } u))) ∧
     (¬ flows → exec (.stageOffer g) s = .next (after s u))) ∧
  (∀ (s : State) (c : Chan), Up s → (∀ v, Fabric.rails s c ≠ .valid v) ∨ Fabric.acked s c = false →
     exec (.stageAcknowledged c) s = .next (after s (afterTaken c (Ops.begin s)))) ∧
  (∀ (s : State) (c : Chan) (v : Bool), Up s → Fabric.rails s c = .valid v → Fabric.acked s c = true →
     let y := Fabric.countHandshake c (Ops.begin s)
     (∀ g, Fabric.offered s c ≠ none → Fabric.sender c = some g → (∀ n, g = .unit n → Fabric.transparent s n = false) →
       exec (.stageAcknowledged c) s =
         .next (after s (Fabric.sweep (Fabric.setStage g { Fabric.stage y g with rails := none, held := none } y)))) ∧
     (∀ n, c = .unit n → Fabric.transparent s n = true → Fabric.offered s c ≠ none →
       exec (.stageAcknowledged c) s = .next (after s (Ops.begin s))) ∧
     (∀ src i, Fabric.offered s c ≠ none → Fabric.sender c = none → Fabric.locate c = some (src, i) →
       exec (.stageAcknowledged c) s = .next (after s (afterTaken c (Fabric.sweep
         (let o := (Fabric.onOffer y src).2
          Fabric.setOffer src { o with taken := o.taken ||| BitVec.twoPow 256 i } y))))) ∧
     (Fabric.offered s c = none →
       exec (.stageAcknowledged c) s = .next (after s (afterTaken c (Fabric.sweep { y with fab := { y.fab with
         orphans := y.fab.orphans.map fun (o : Orphan) => if o.chan = c then { o with value := none } else o } }))))) ∧
  (∀ (s : State) (k : Taker), Up s → (∀ r c, k ≠ .collar r c) →
     let due := (∀ n, k = .unit n → Fabric.transparent s n = false) ∧ Fabric.thawed s (Frames.regionOf k) = true ∧
       Fabric.ack s k = true ∧ Fabric.allSpacer s k = true
     (due → exec (.stageInputsSpacer k) s =
       .next (after s (Fabric.wakeSenders k (Fabric.sweep (Fabric.setAck k false (Ops.begin s)))))) ∧
     (¬ due → exec (.stageInputsSpacer k) s = .next (after s (Ops.begin s)))) ∧
  (∀ (s : State) (r : Fin 512) (c : Chan), Awake s →
     exec (.stageInputsSpacer (.collar r c)) s = .next (after s (Fabric.sweep (Ops.begin s)))) ∧
  (∀ s : State,
     let u := Ops.begin s
     (∀ n : Fin 16777216, Up s →
       let x := Fabric.stage s (.unit n)
       let goes (y : State) : Prop := exec (.transparentEvaluate n) s = .next (after s y)
       let runs := Fabric.transparent s n = true ∧ Fabric.thawed s (Frames.regionOf (.unit n)) = true
       (¬ runs → goes u) ∧
       (runs → x.inAck = false → x.rails = none →
         (∀ l, Fabric.allValid s (.unit n) = some l → Fabric.fresh s (.unit n) = true →
           Fabric.free s (.unit n) = true → goes (Fabric.setStage (.unit n) { x with rails := some (Fabric.output s n l) } u)) ∧
         (Fabric.allValid s (.unit n) = none ∨ Fabric.fresh s (.unit n) = false ∨ Fabric.free s (.unit n) = false → goes u)) ∧
       (runs → x.inAck = false → x.rails ≠ none →
         (Fabric.acked s (.unit n) = true → goes (Fabric.setStage (.unit n) { x with inAck := true } u)) ∧
         (Fabric.acked s (.unit n) = false → goes u)) ∧
       (runs → x.inAck = true → x.rails ≠ none →
         (Fabric.allSpacer s (.unit n) = true →
           goes (Fabric.sweep (Fabric.setStage (.unit n) { x with rails := none } (Fabric.countHandshake (.unit n) u)))) ∧
         (Fabric.allSpacer s (.unit n) = false → goes u)) ∧
       (runs → x.inAck = true → x.rails = none →
         (Fabric.free s (.unit n) = true →
           goes (Fabric.wakeSenders (.unit n) (Fabric.sweep (Fabric.setStage (.unit n) { x with inAck := false } u)))) ∧
         (Fabric.free s (.unit n) = false → goes u))) ∧
     (∀ (c : Chan) (r : Fin 512), Awake s →
       ((∀ e ∈ s.fab.illegal, e.1 ≠ c) → exec (.illegalCode c r) s = .next (after s
         (Ops.observe (Ops.channel 6 r 0)
           (Fabric.setLens r { Fabric.lens s r with codeErrors := (Fabric.lens s r).codeErrors + 1 }
             { u with fab := { s.fab with illegal := (c, r.val) :: s.fab.illegal } })))) ∧
       ((∃ e ∈ s.fab.illegal, e.1 = c) → exec (.illegalCode c r) s = .next (after s u))) ∧
     (Awake s → s.modes.cur ≠ .m5 →
       (∀ g, (∀ n, g ≠ .gate n) → exec (.stageCapture g) s = .next (after s u)) ∧
       (∀ g, exec (.stageOffer g) s = .next (after s u)) ∧
       (∀ c, exec (.stageAcknowledged c) s = .next (after s (afterTaken c u))) ∧
       (∀ k, (∀ r c, k ≠ .collar r c) → exec (.stageInputsSpacer k) s = .next (after s u)) ∧
       (∀ n, exec (.transparentEvaluate n) s = .next (after s u))))

/-- (1) R72, R76, R77: a region reset in M5, while no partial load of the region runs and no entry to M6 has begun; a number above 511 is
refused (4), another mode is wrong (3), and a transition or a partial load of the region is busy (5).

(2) R116 to R121, R302, R527: a collar is isolated, with cause 1 unless one of higher rank holds, and a partial load of its region then
keeps it isolated; its ladder ends once no handshake of its border goes on; it is opened, unless its facet is retired or empty, a
partial load of it runs, or its cause is 3 or 5, where the write is refused; its policy takes 0 and 1. During an entry to M6 and in M6
such writes act on the border only when that override ends: what the border does until then is kept beside them.

(3) R114, R118, R303: an isolated draining collar acknowledges and counts a valid inbound token that it stops, and does nothing to
another.

The model's choices in it: log entries 35, 60 and 76. -/
def Obligations.CollarCommands : Prop :=
  ∀ (s : State) (t : Transport) (r : Fin 512),
    let u := counted s
    let k := Fabric.collar s r
    (∀ v : W16, Writes s t 0x2400 1 (le 2 v.toNat) →
      let fails (e : Nat) : Prop := exec (.regionReset t v) s = .next (after s (answered s t 2 0x2400 1 (le 2 v.toNat) e [] u))
      let busy := s.modes.trans ≠ none ∨ Loader.partialOf s = some v.toNat
      (511 < v.toNat → fails 4) ∧
      (v.toNat ≤ 511 → s.modes.cur ≠ .m5 → fails 3) ∧
      (v.toNat ≤ 511 → s.modes.cur = .m5 → busy → fails 5) ∧
      (v.toNat ≤ 511 → s.modes.cur = .m5 → ¬ busy →
        exec (.regionReset t v) s = .next (wrote s t 0x2400 1 (le 2 v.toNat) (Regions.reset v.toNat u)))) ∧
    (Writes s t (0x2600 + r) 1 (le 1 1) →
      exec (.collarIsolate t r) s = .next (wrote s t (0x2600 + r) 1 (le 1 1)
        (let x := Fabric.isolate r 1 u
         match x.loader.load with
         | some l =>
           if l.header.facetOnly && l.header.facet == r.val then
             { x with loader := { x.loader with load := some { l with keepIsolated := true } } }
           else x
         | none => x))) ∧
    (k.isolate = true → Fabric.isolate r 1 u =
      Fabric.setCollar r { k with cause := if Fabric.rank k.cause < 1 then 1 else k.cause } u) ∧
    (k.isolate = false → Fabric.collar (Fabric.isolate r 1 u) r =
      { k with isolate := true, cause := 1, isolating := true
               lines := if Fabric.draining s then some (Fabric.acts k) else k.lines }) ∧
    (Awake s → let v := Fabric.sweep (Ops.begin s)
      ((∀ e ∈ v.fab.grace, e.1 ≠ r.val) → (∀ o ∈ v.fab.orphans, o.region ≠ r.val) → k.lines = none →
        exec (.collarIsolationComplete r) s = .next (after s (Fabric.setCollar r { k with isolating := false } v))) ∧
      ((∃ e ∈ v.fab.grace, e.1 = r.val) ∨ (∃ o ∈ v.fab.orphans, o.region = r.val) ∨ k.lines ≠ none →
        exec (.collarIsolationComplete r) s = .next (after s v))) ∧
    (Writes s t (0x2600 + r) 1 (le 1 0) →
      let barred := Loader.partialOf s = some r.val ∨ (Loader.facet s r).state = .retired ∨ (Loader.facet s r).state = .empty ∨
        k.isolate = true ∧ (k.cause = 3 ∨ k.cause = 5)
      (barred → exec (.collarOpen t r) s = .next (after s (answered s t 2 (0x2600 + r) 1 (le 1 0) 4 [] u))) ∧
      (¬ barred → k.isolate = false → exec (.collarOpen t r) s = .next (wrote s t (0x2600 + r) 1 (le 1 0) u)) ∧
      (¬ barred → k.isolate = true → exec (.collarOpen t r) s = .next (wrote s t (0x2600 + r) 1 (le 1 0)
        (if Fabric.draining s then Fabric.setCollar r { lines := some (Fabric.acts k), linePolicy := k.linePolicy } u
         else Fabric.restartWindow r
          (let x := Fabric.setCollar r {} u
           { x with fab := { x.fab with grace := x.fab.grace.filter fun e => e.1 != r } }))))) ∧
    (∀ v : Byte, Writes s t (0x2600 + r) 2 (le 1 v.toNat) →
      (v.toNat ≤ 1 → exec (.collarPolicyWrite t r v) s = .next (wrote s t (0x2600 + r) 2 (le 1 v.toNat)
        (let x := Ops.setReg (0x2600 + r) 2 v.toNat u
         if Fabric.draining s then Fabric.setCollar r { k with linePolicy := some (Fabric.policy s r) } x else x))) ∧
      (1 < v.toNat → exec (.collarPolicyWrite t r v) s =
        .next (after s (answered s t 2 (0x2600 + r) 2 (le 1 v.toNat) 4 [] u)))) ∧
    (∀ c, Awake s →
      let drains := s.modes.cur = .m5 ∧ Fabric.acts k = true ∧ Fabric.policy s r = 1 ∧
        ((Frames.homeOf c).isSome = true ∨ Fabric.draining s = false) ∧
        (∃ p ∈ Fabric.legs s c, p.1 = .collar r c ∨ Fabric.stopAt s c p.2 = some (r.val, false)) ∧
        Fabric.ack s (.collar r c) = false ∧ ∃ v, Fabric.rails s c = .valid v
      (drains → exec (.inboundDrain r c) s = .next (after s
        (Ops.bump (0x2600 + r) 5 (Fabric.setAck (.collar r c) true (Ops.begin s))))) ∧
      (¬ drains → exec (.inboundDrain r c) s = .next (after s (Ops.begin s))))

/-- R123, R125, R127: a lens sample in M5 counts a stalled sample when a probe that was valid at the last one has had no handshake
since, and a waiting one when a token waits at the border; the end of a no-progress window raises source 356 when nothing has moved
at an open border with tokens waiting all the while, and the next window begins; before its end, and outside M5, nothing happens; the
window's length takes 1 to 60,000, and a new value restarts every region's window.

The model's choices in it: log entry 16. -/
def Obligations.LensAndWatch : Prop :=
  ∀ (s : State) (r : Fin 512),
    let x := Fabric.lens s r
    let u := Ops.begin s
    (Up s → exec (.lensSample r) s = .next (after s (Fabric.setLens r
      (let valid := (Frames.probes s.fab.frames r).filterMap fun p => if Fabric.probed s p.2 then some p.1 else none
       { x with
         stallSamples := if valid.any fun i => x.stuck.contains i then x.stallSamples + 1 else x.stallSamples
         waitSamples := if Fabric.waitingIn s r then x.waitSamples + 1 else x.waitSamples
         stuck := valid
         sampled := true
         still := x.still && Fabric.waitingIn s r }) u))) ∧
    (Up s → x.windowStart + 16000000 * Ops.reg s 0x2500 1 ≤ (Ops.launch s).toNat →
      exec (.noProgressWindowEnd r) s = .next (after s
        (let y := Fabric.restartWindow r u
         if x.sampled && x.still && !(Fabric.collar s r).isolate && !Fabric.draining s && !x.noProgress then
           Ops.raise 356 (Fabric.setLens r { Fabric.lens y r with noProgress := true } y) else y))) ∧
    (Up s → (Ops.launch s).toNat < x.windowStart + 16000000 * Ops.reg s 0x2500 1 →
      exec (.noProgressWindowEnd r) s = .next (after s u)) ∧
    (Awake s → s.modes.cur ≠ .m5 →
      exec (.lensSample r) s = .next (after s u) ∧ exec (.noProgressWindowEnd r) s = .next (after s u)) ∧
    (∀ t (v : W32), Writes s t 0x2500 1 (le 4 v.toNat) → 1 ≤ v.toNat → v.toNat ≤ 60000 →
      exec (.noProgressWindowWrite t v) s = .next (wrote s t 0x2500 1 (le 4 v.toNat)
        ((List.range 512).foldl (fun s r => Fabric.restartWindow r s) (Ops.setReg 0x2500 1 v.toNat (counted s))))) ∧
    (∀ t (v : W32), Writes s t 0x2500 1 (le 4 v.toNat) → v = 0 ∨ 60000 < v.toNat →
      exec (.noProgressWindowWrite t v) s = .next (after s (answered s t 2 0x2500 1 (le 4 v.toNat) 4 [] (counted s))))

/-! ### Lydan time and timed launch -/

/-- R129, R133, R135: what one period of the timebase clock adds to Lydan time, modulo 2^48 seconds: 1 ns, the rate adjustment A,
and the slew step, which the remainder loses. -/
def Obligations.TimebasePeriod : Prop :=
  ∀ s : State, TimeLegal s.time →
    let p := Time.period s
    let limit : Int := (Ops.reg s 0x3000 6 * 2 ^ 40 / 1000000 : Nat)
    let slew : Int := max (-limit) (min limit s.servo.remain)
    let d := (2 ^ 40 + Ops.signed 32 (Ops.reg s 0x3000 7) + slew).toNat
    fine p.time = (fine s.time + d) % (2 ^ 48 * 1000000000 * 2 ^ 40) ∧ TimeLegal p.time ∧
    p.servo.remain = s.servo.remain - slew ∧ p = { s with time := p.time, servo := { s.servo with remain := p.servo.remain } }

/-- (1) R131, R133 to R136, R139, R141, R164: the writes to Lydan time and its servo. A set time steps it, unless its NANOSECONDS
exceed 999,999,999; while a discipline source is selected, a phase correction and a rate write answer with the busy error; a
correction past the remainder's limit, and a source above 2, are refused; a new source starts the servo anew, and the follower is in
holdover while its lane is not Up. A read of 0x3002.02 takes the oldest two-step entry.

(2) R138, R139, R164: a pulse-per-second edge is captured and counted; at the first edge after PPS has been selected a large error
steps time in M1 to M4 and M7, and every other edge is judged and acts on the servo, whose values are open (log entry 14). Silence
puts the source selected into holdover with the rate at its average. PPS_OUT rises at its second for its high time. Of these, a change
that is not due leaves all as it was.

The model's choices in it: log entry 14. -/
def Obligations.TimeWrites : Prop :=
  (∀ (s : State) (t : Transport),
     let u := counted s
     let free := Ops.reg s 0x3000 8 = 0
     let refused (i k : Nat) (d : List Byte) (e : Nat) : State := after s (answered s t 2 i k d e [] u)
     (∀ v : BitVec 80, Writes s t 0x3000 3 (le 10 v.toNat) →
       (v.toNat % 2 ^ 32 < 1000000000 → exec (.setTime t v) s =
         .next (wroteTime s t 0x3000 3 (le 10 v.toNat) (Ops.setReg 0x3000 3 v.toNat
           (Time.step { sec := v.toNat / 2 ^ 32, ns := v.toNat % 2 ^ 32, sub := 0 } (servo (fun m => { m with remain := 0 }) u))))) ∧
       (1000000000 ≤ v.toNat % 2 ^ 32 → exec (.setTime t v) s =
         .next (afterTime s (answered s t 2 0x3000 3 (le 10 v.toNat) 4 [] u)))) ∧
     (∀ v : W32, let n := s.servo.remain + Ops.signed 32 v.toNat * 2 ^ 36
       Writes s t 0x3000 4 (le 4 v.toNat) →
       (free → -(2 ^ 31 * 2 ^ 36) ≤ n → n ≤ 2 ^ 31 * 2 ^ 36 → exec (.phaseCorrection t v) s =
         .next (wrote s t 0x3000 4 (le 4 v.toNat) (servo (fun m => { m with remain := n }) u))) ∧
       (free → n < -(2 ^ 31 * 2 ^ 36) ∨ 2 ^ 31 * 2 ^ 36 < n →
         exec (.phaseCorrection t v) s = .next (refused 0x3000 4 (le 4 v.toNat) 4)) ∧
       (¬ free → exec (.phaseCorrection t v) s = .next (refused 0x3000 4 (le 4 v.toNat) 5))) ∧
     (∀ v : W32, Writes s t 0x3000 7 (le 4 v.toNat) → free → exec (.rateAdjust t v) s =
       .next (wrote s t 0x3000 7 (le 4 v.toNat) (Ops.setReg 0x3000 7 v.toNat u))) ∧
     (∀ v : W32, Writes s t 0x3000 7 (le 4 v.toNat) → ¬ free → exec (.rateAdjust t v) s =
       .next (refused 0x3000 7 (le 4 v.toNat) 5)) ∧
     (∀ v : Byte, Writes s t 0x3000 8 (le 1 v.toNat) → v.toNat ≤ 2 →
       exec (.disciplineSelect t v) s = .next (wrote s t 0x3000 8 (le 1 v.toNat)
         (let y := Ops.setReg 0x3000 8 v.toNat (if v.toNat = Ops.reg s 0x3000 8 then u else servo (fun m => { m with
            state := if v.toNat = 0 then 0 else 1, first := true, good := 0, rates := [], exchange := [] }) u)
          if (Lanes.lane y (Ops.reg y 0x3003 1)).st = .t7 then y else Time.holdover 2 396 y))) ∧
     (∀ v : Byte, Writes s t 0x3000 8 (le 1 v.toNat) → 2 < v.toNat →
       exec (.disciplineSelect t v) s = .next (refused 0x3000 8 (le 1 v.toNat) 4)) ∧
     (∀ x, Reads s t 0x3002 2 x → x.ty = .blob → exec (.twoStepEntryRead t) s =
       .next (readOut s t 0x3002 2 (Time.twoStepBytes s) (servo (fun m => { m with twoStep := m.twoStep.drop 1 }) u)))) ∧
  (∀ s : State, Awake s →
     let u := Ops.begin s
     let c := ((Time.units s.time : Int) - Ops.signed 32 (Ops.reg s 0x3001 5)).toNat
     let k := c % (16 * 1000000000)
     let e : Int := if 2 * k ≤ 16 * 1000000000 then (k : Int) else (k : Int) - 16 * 1000000000
     let edge : State :=
       Ops.setReg 0x3001 1 (Ops.time80Nat (Time.ofUnits c).sec (Time.ofUnits c).ns)
         (Ops.setReg 0x3001 2 ((Time.ofUnits c).sub / 2 ^ 24)
           (Ops.setReg 0x3001 9 (Ops.unsigned 32 e) (Ops.bump 0x3001 3 u)))
     let slews := s.servo.first = false ∨ s.modes.cur = .m5 ∨ s.modes.cur = .m6 ∨ (e ≤ 16000 ∧ -16000 ≤ e)
     let hold (f : State → State) : State :=
       f (if s.servo.rates.isEmpty then u
         else Ops.setReg 0x3000 7 (Ops.unsigned 32 (Int.tdiv s.servo.rates.sum s.servo.rates.length)) u)
     let held (src : Nat) (x : State) : State := Ops.raise src (servo (fun m => { m with state := 3, good := 0 }) x)
     let h := Time.ppsCount s
     (Ops.reg s 0x3000 8 ≠ 1 → exec .ppsInEdge s = .next (afterTime s edge)) ∧
     (Ops.reg s 0x3000 8 = 1 → slews →
       exec .ppsInEdge s = .next (afterTime s (Time.servoAct (Time.judge e 320 10 393 edge)))) ∧
     (Ops.reg s 0x3000 8 = 1 → ¬ slews → exec .ppsInEdge s = .next (afterTime s
       (servo (fun m => { m with first := false, good := 0, state := 1 })
         (Time.step (Time.ofUnits (Time.units s.time - k)) edge)))) ∧
     let silent (c : Instr) (k src : Nat) : Prop :=
       (Ops.reg s 0x3000 8 = k → s.servo.state ≠ 3 → exec c s = .next (after s (hold (held src)))) ∧
       (Ops.reg s 0x3000 8 ≠ k ∨ s.servo.state = 3 → exec c s = .next (after s u))
     let rises := Ops.reg s 0x3001 6 ≠ 0 ∧ s.servo.ppsHigh = false ∧ s.servo.ppsSecond < h
     let falls := s.servo.ppsHigh = true ∧ (Ops.reg s 0x3001 6 = 0 ∨ s.servo.ppsEnd ≤ Time.units s.time)
     silent .ppsHoldover 1 392 ∧ silent .followerHoldover 2 396 ∧
     (rises → exec .ppsOutRise s = .next (after s (servo (fun m => { m with
         ppsHigh := true, ppsSecond := h
         ppsEnd := h * (16 * 1000000000) + Ops.signed 32 (Ops.reg s 0x3001 7) + 16000 * Ops.reg s 0x3001 8 }) u))) ∧
     (¬ rises → exec .ppsOutRise s = .next (after s u)) ∧
     (falls → exec .ppsOutFall s = .next (after s (servo (fun m => { m with ppsHigh := false }) u))) ∧
     (¬ falls → exec .ppsOutFall s = .next (after s u)))

/-- (1) R143 to R145: a region's keeper follows the time words: it locks after two in a row that differ by 4,096, expects the next, counts
one that is not expected, and takes the new count from a second one in a row. A calibration sets the target delay in M2, M5 and M6,
or raises source 397; a tick that is due carries its time-word bit and moves every delay by one step.

(2) R164: the master's sync messages, and on a lane that is Up the master's answer and the follower's sync, and its response, which
gives the path delay and the offset: in M1 to M4 and M7 a large offset steps time, and otherwise the servo acts.

In both, what is not due, and a message that no one awaits, change nothing.

The model's choices in it: log entries 14, 37 and 79. -/
def Obligations.KeepersAndMessages : Prop :=
  (∀ (s : State) (r : Fin 512) (w : W64), Awake s →
     let u := Ops.begin s
     let k := Time.keeper s r
     let ahead := w - ((Ops.launch s + 2048) >>> 12 <<< 12 - s.servo.steps)
     let word (x : Keeper) : Prop := exec (.timeWord r w) s = .next (after s (Time.setKeeper r x u))
     (k.locked = false → k.last = some (w - 4096) →
       word { k with locked := true, last := none, odd := none, expect := w + 4096, seen := ahead }) ∧
     (k.locked = false → k.last ≠ some (w - 4096) → word { k with last := some w }) ∧
     (k.locked = true → w = k.expect → word { k with expect := k.expect + 4096, odd := none }) ∧
     (k.locked = true → w ≠ k.expect → k.odd = some (w - 4096) →
       word { k with expect := w + 4096, odd := none, seen := ahead }) ∧
     (k.locked = true → w ≠ k.expect → k.odd ≠ some (w - 4096) → exec (.timeWord r w) s = .next (after s
       (Ops.bump 0x3000 0x0B (Time.setKeeper r { k with expect := k.expect + 4096, odd := some w } u)))) ∧
     (∀ ok d, s.modes.cur ≠ .m2 → s.modes.cur ≠ .m5 → s.modes.cur ≠ .m6 →
       exec (.wavefrontCalibration r ok d) s = .next (after s u)) ∧
     (∀ d : W16, s.modes.cur = .m2 ∨ s.modes.cur = .m5 ∨ s.modes.cur = .m6 →
       exec (.wavefrontCalibration r true d) s =
         .next (after s (Time.setKeeper r { k with target := d.toNat, failed := false } u)) ∧
       exec (.wavefrontCalibration r false d) s =
         .next (after s (Ops.raise 397 (Time.setKeeper r { k with failed := true } u)))) ∧
     (Time.units s.time / 64 ≤ s.servo.tick → exec .wavefrontTick s = .next (after s u)) ∧
     (s.servo.tick < Time.units s.time / 64 → exec .wavefrontTick s = .next (after s
       (let n := s.servo.tick + 1
        let bit := (BitVec.ofNat 64 ((n / 64 + 1) * 4096) : W64).getLsbD (n % 64)
        let nearer (k : Keeper) : Keeper :=
          { k with delay := if k.delay < k.target then k.delay + 1 else if k.target < k.delay then k.delay - 1 else k.delay }
        { u with
          servo := { s.servo with tick := n }
          keepers := s.keepers.map fun (e : Nat × Keeper) => (e.1, nearer e.2)
          out := [.tick (decide (n % 64 = 0)) bit] })))) ∧
  (∀ (s : State) (n : Fin 64) (sent : BitVec 80) (f : W16), Awake s →
     let u := Ops.begin s
     let x := Lanes.lane s n
     let at' := 16 * (1000000000 * (sent.toNat / 2 ^ 32) + sent.toNat % 2 ^ 32) + f.toNat / 4096
     let send (b : LinkBlock) (v : State) : State := Lanes.setLane n { x with queue := x.queue ++ [b] } v
     (Ops.reg s 0x3003 2 ≠ 1 ∨ Time.units s.time / 16000000 = s.servo.sentMs → exec .timeMessageSend s = .next (after s u)) ∧
     (Ops.reg s 0x3003 2 = 1 → Time.units s.time / 16000000 ≠ s.servo.sentMs → exec .timeMessageSend s = .next (after s
       ((List.range 64).foldl (fun v m =>
         if Ops.bit (Ops.reg v 0x3003 3) m ∧ (Lanes.lane v m).st = .t7 ∧ Lanes.streller v m then
           Lanes.setLane m { Lanes.lane v m with queue := (Lanes.lane v m).queue ++ [.time 0 none] } v
         else v) (servo (fun m => { m with sentMs := Time.units s.time / 16000000 }) u)))) ∧
     (x.st ≠ .t7 ∨ Lanes.streller s n = false → ∀ k, exec (.timeMessage n k sent f) s = .next (afterTime s u)) ∧
     (Ops.reg s 0x3003 2 ≠ 1 ∨ Ops.bit (Ops.reg s 0x3003 3) n = false →
       exec (.timeMessage n 1 sent f) s = .next (afterTime s u)) ∧
     (Ops.reg s 0x3000 8 ≠ 2 ∨ Ops.reg s 0x3003 1 ≠ n → ∀ k : Byte, k ≠ 1 →
       exec (.timeMessage n k sent f) s = .next (afterTime s u)) ∧
     (∀ k : Byte, 2 < k.toNat → exec (.timeMessage n k sent f) s = .next (afterTime s u)) ∧
     (s.servo.exchange.length ≠ 3 → exec (.timeMessage n 2 sent f) s = .next (afterTime s u)) ∧
     (x.st = .t7 → Lanes.streller s n = true → Ops.reg s 0x3003 2 = 1 → Ops.bit (Ops.reg s 0x3003 3) n = true →
       exec (.timeMessage n 1 sent f) s =
         .next (afterTime s (send (.time 2 (some (s.time.sec, s.time.ns, Ops.fraction s))) u))) ∧
     (x.st = .t7 → Lanes.streller s n = true → Ops.reg s 0x3000 8 = 2 → Ops.reg s 0x3003 1 = n →
       exec (.timeMessage n 0 sent f) s = .next (afterTime s (send (.time 1 none)
         (servo (fun m => { m with exchange := [at', Time.units s.time] }) u))) ∧
       (∀ t1 t2 t3 : Nat, s.servo.exchange = [t1, t2, t3] →
         let delay : Int := ((t2 : Int) - t1) + ((at' : Int) - t3)
         let offset := ((t2 : Int) - t1) - Int.tdiv (delay + Ops.signed 32 (Ops.reg s 0x3003 4)) 2
         let y := Ops.setReg 0x3003 5 (Ops.unsigned 32 delay) (Ops.setReg 0x3003 6 (Ops.unsigned 32 offset)
           (servo (fun m => { m with exchange := [] }) u))
         let slews := s.modes.cur = .m5 ∨ s.modes.cur = .m6 ∨ (offset ≤ 16000 ∧ -16000 ≤ offset)
         (slews → exec (.timeMessage n 2 sent f) s =
           .next (afterTime s (Time.servoAct (Time.judge offset 80 16 396 y)))) ∧
         (¬ slews → exec (.timeMessage n 2 sent f) s = .next (afterTime s
           (servo (fun m => { m with first := false, good := 0, state := 1 })
             (Time.step (Time.ofUnits ((Time.units s.time : Int) - offset).toNat) y)))))))

/-- R149, R151, R153, R155, R162: the writes that configure a gate, fill its banks and commit them, each with its errors. A configuration
word that is legal and keeps the epoch, overlap and REPEAT of a timed gate is stored; a gate that leaves timed mode retires what it
serves, one that enters it resumes at the next epoch, and one that enters bypass mode offers its token. An origin is written while no
gate of the region is timed; a FREE bank takes a run of entries, is committed for an epoch of its parity that has not been decided,
and is uncommitted before its decision instant. -/
def Obligations.GateWrites : Prop :=
  (∀ (s : State) (t : Transport) (g : Fin 8192) (b : Bool),
    let u := counted s
    let i := 0x3200 + g.val / 16
    let k := 1 + g.val % 16
    let x := Time.gate s g
    let old := Time.config s g
    let bank : Byte := if b then 1 else 0
    (∀ v : W64, let w := v.toNat &&& 0xF1FFFFFFFFFFFFFF
      let timed := Time.modeOf w = 1
      let d := le 8 v.toNat
      let legal := Time.modeOf w ≠ 3 ∧
        (timed → 1000 ≤ Time.epochLen w ∧ Time.epochLen w ≤ 1000000000 ∧ Time.overlap w ≤ Time.epochLen w / 8)
      let keeps := Time.modeOf old = 1 → Time.epochLen w = Time.epochLen old ∧ Time.overlap w = Time.overlap old ∧
        Time.repeats w = Time.repeats old
      Writes s t i k d →
      (¬ legal → exec (.gateConfigWrite t g v) s = .next (after s (answered s t 2 i k d 4 [] u))) ∧
      (legal → ¬ keeps → exec (.gateConfigWrite t g v) s = .next (after s (answered s t 2 i k d 5 [] u))) ∧
      (legal → keeps → exec (.gateConfigWrite t g v) s = .next (wrote s t i k d
        (let left := Time.retireAll g false true u
         let y := Ops.setReg i k w (if Time.modeOf old = 1 ∧ ¬ timed then
           Time.setGate g { Time.gate left g with fire := Time.dropped (Time.gate left g) } left else u)
         let z := if timed ∧ Time.modeOf old ≠ 1 then Time.setGate g { Time.gate y g with next := Time.firstAfter y g } y else y
         if Time.modeOf w = 2 ∧ Time.modeOf old ≠ 2 then Fabric.offer (.gate g) z else z)))) ∧
    (∀ (first : Nat) (l : List W64),
      let d := le 2 g ++ le 1 (if b then 1 else 0) ++ le 1 first ++ le 2 l.length ++ le 2 0 ++ l.flatMap fun e => le 8 e.toNat
      Writes s t 0x3010 1 d → l ≠ [] → first + l.length ≤ 64 →
      ((Time.sched x b).phase = .free → exec (.bankWrite t d) s = .next (wrote s t 0x3010 1 d (Time.putEntries g b first l u))) ∧
      ((Time.sched x b).phase ≠ .free → exec (.bankWrite t d) s = .next (after s (answered s t 2 0x3010 1 d 5 [] u)))) ∧
    (∀ e : W32,
      let d := le 2 g ++ le 1 (if b then 1 else 0) ++ le 1 0 ++ le 4 e.toNat
      let n := Time.namedEpoch s g e.toNat
      let long := 1000 ≤ Time.epochLen (Time.config s g) ∧ Time.epochLen (Time.config s g) ≤ 1000000000
      let early := Time.since s g < Time.startOf s g n - 8000
      let fits := (n % 2 = if b then 1 else 0) ∧ (Time.sched x b).phase = .free ∧ Time.goodEntries s g b = true
      let fails (err : Nat) : Prop :=
        exec (.commit t (BitVec.ofNat 16 g) bank e) s = .next (after s (answered s t 2 0x3010 2 d err [] u))
      Writes s t 0x3010 2 d → e ≠ 0xFFFFFFFF →
      (long → early → fits → exec (.commit t (BitVec.ofNat 16 g) bank e) s =
        .next (wrote s t 0x3010 2 d (Time.setGate g (Time.withSched x b { phase := .committed n false }) u))) ∧
      (¬ long → fails 4) ∧ (long → ¬ early → fails 5) ∧ (long → early → ¬ fits → fails 4)) ∧
    (let d := le 2 g ++ le 1 (if b then 1 else 0) ++ le 1 0 ++ le 4 0xFFFFFFFF
     Writes s t 0x3010 2 d →
      ∀ c ∈ [Instr.uncommit t (BitVec.ofNat 16 g) bank, .commit t (BitVec.ofNat 16 g) bank 0xFFFFFFFF],
      let fails (err : Nat) : Prop := exec c s = .next (after s (answered s t 2 0x3010 2 d err [] u))
      (∀ n m, (Time.sched x b).phase = .committed n m → Time.since s g < Time.startOf s g n - 8000 →
        exec c s = .next (wrote s t 0x3010 2 d (Time.setGate g (Time.withSched x b {}) u))) ∧
      (∀ n m, (Time.sched x b).phase = .committed n m → Time.startOf s g n - 8000 ≤ Time.since s g → fails 5) ∧
      (∀ n, (Time.sched x b).phase = .active n ∨ (Time.sched x b).phase = .tail n → fails 5) ∧
      ((Time.sched x b).phase = .free → fails 4))) ∧
  (∀ (s : State) (t : Transport),
    let refused (i k : Nat) (d : List Byte) (e : Nat) : State := after s (answered s t 2 i k d e [] (counted s))
    (∀ (r : Fin 512) (v : W64), let d := le 8 v.toNat
      Writes s t (0x3200 + r) 0x41 d →
      (Time.anyTimed s r = false →
        exec (.epochOriginWrite t r v) s = .next (wrote s t (0x3200 + r) 0x41 d (Ops.setReg (0x3200 + r) 0x41 v.toNat (counted s)))) ∧
      (Time.anyTimed s r = true → exec (.epochOriginWrite t r v) s = .next (refused (0x3200 + r) 0x41 d 5))) ∧
    (∀ d : List Byte, let f (at' n : Nat) : Nat := Ops.le ((d.drop at').take n)
      Writes s t 0x3010 1 d →
      d.length ≠ 8 + 8 * f 4 2 ∨ 8191 < f 0 2 ∨ 1 < f 2 1 ∨ f 4 2 = 0 ∨ 64 < f 3 1 + f 4 2 ∨ f 6 2 ≠ 0 →
      exec (.bankWrite t d) s = .next (refused 0x3010 1 d 4)) ∧
    (∀ (g : W16) (bank : Byte) (e : W32), let d := le 2 g.toNat ++ le 1 bank.toNat ++ le 1 0 ++ le 4 e.toNat
      Writes s t 0x3010 2 d → 8191 < g.toNat ∨ 1 < bank.toNat →
      exec (.commit t g bank e) s = .next (refused 0x3010 2 d 4) ∧
      (e = 0xFFFFFFFF → exec (.uncommit t g bank) s = .next (refused 0x3010 2 d 4))))

/-- (1) R152, R154, R157: outside M6, the decision instant of a gate's next epoch takes the bank committed for it, or counts the epoch
without a schedule and raises source 394; at an epoch start a bank that has been taken becomes ACTIVE, one that was not taken FREE,
and the ACTIVE one of the epoch before TAIL, or is retired where the gate has no overlap; at the overlap limit a TAIL bank is
retired: its unfired entries are counted late, with source 395, and with REPEAT it is committed again for the epoch two later.

(2) R149, R156: the steps of a gate's firing loop outside M6, for the entry `i` of bank `b` that is due next at `d` after the epoch
origin: armed 8 ns before its time when the token is there, in M5, and the keeper locked, otherwise waiting or skipped; released at
its time, or as soon as the output is clear, and then late; and a release that goes on when its schedule has been dropped, and ends
with its token.

(3) R149: a gate captures as a stage does; in bypass mode it offers its token at once.

(4) R159: in M6 nothing of this happens; and a step that is not due changes nothing.

The model's choices in it: log entry 16. -/
def Obligations.GateEvents : Prop :=
  (∀ (s : State) (g : Fin 8192), Awake s → s.modes.cur ≠ .m6 →
     let u := Ops.begin s
     let x := Time.gate s g
     let k := x.next
     let b := decide (k % 2 = 1)
     let due := Time.timed s g = true ∧ Time.startOf s g k - 8000 ≤ Time.since s g
     (due → (Time.sched x b).phase = .committed k false →
       exec (.decisionInstant g) s = .next (after s (Time.setGate g
         (Time.withSched { x with next := k + 1 } b { Time.sched x b with phase := .committed k true }) u))) ∧
     (due → (Time.sched x b).phase ≠ .committed k false →
       exec (.decisionInstant g) s =
         .next (after s (Ops.raise 394 (Ops.bump (0x3200 + g.val / 16) 0x43 (Time.setGate g { x with next := k + 1 } u))))) ∧
     (¬ due → exec (.decisionInstant g) s = .next (after s u)) ∧
     (exec (.epochStart g) s = .next (after s (Time.startBank g true (Time.startBank g false u)))) ∧
     (exec (.overlapLimit g) s = .next (after s ([false, true].foldl (fun v c =>
       match (Time.sched (Time.gate v g) c).phase with
       | .tail n =>
         if Time.startOf v g (n + 1) + 16 * (Time.overlap (Time.config v g) : Int) ≤ Time.since v g then Time.retire g c n true v
         else v
       | _ => v) u)))) ∧
  (∀ (v : State) (g : Nat) (c : Bool) (n : Nat),
     let x := Time.gate v g
     let unfired := (Time.unfired v g c).length
     let gone (phase : BankPhase) : Gate :=
       { Time.withSched x c { phase := phase } with fire := if Time.firing x c then Time.dropped x else x.fire }
     let left := Time.setGate g (gone (if Time.repeats (Time.config v g) then .committed (n + 2) false else .free)) v
     (Time.retire g c n true v = if unfired = 0 then left else Ops.raise 395 (Time.count g 0x11 unfired left)) ∧
     (∀ m, (Time.sched x c).phase = .committed n m → Time.startOf v g n ≤ Time.since v g →
       Time.startBank g c v = Time.setGate g (Time.withSched x c (if m then { phase := .active n } else {})) v) ∧
     ((Time.sched x c).phase = .active n → Time.startOf v g (n + 1) ≤ Time.since v g →
       Time.startBank g c v = if Time.overlap (Time.config v g) = 0 then Time.retire g c n true v
         else Time.setGate g (Time.withSched x c { Time.sched x c with phase := .tail n }) v) ∧
     ((∃ m, (Time.sched x c).phase = .committed n m ∧ Time.since v g < Time.startOf v g n) ∨
         (Time.sched x c).phase = .active n ∧ Time.since v g < Time.startOf v g (n + 1) ∨
         (Time.sched x c).phase = .tail n ∨ (Time.sched x c).phase = .free → Time.startBank g c v = v)) ∧
  (∀ (s : State) (g : Fin 8192), Awake s →
     let u := Ops.begin s
     let x := Time.gate s g
     let holds := Time.holds s g
     let may := (Time.keeper s (g.val / 16)).locked ∧ s.modes.cur = .m5
     let clear := Fabric.clear s (.gate g)
     let lost (b : Bool) (i : Fin 64) : State :=
       if Time.lateSkip (Time.config s g) then Ops.raise 395 (Time.count g 0x21 1 (Time.fired g b i u))
       else Time.setGate g { x with fire := .waiting b i } u
     let fire (b : Bool) (i : Fin 64) (late : Bool) : State :=
       let y := Time.count g 0x31 1 (Time.fired g b i (Fabric.offer (.gate g) u))
       if late then Ops.raise 395 (Time.count g 0x11 1 y) else y
     let sets (y : State) : Prop := exec (.gateSetup g) s = .next (after s y)
     let releases (y : State) : Prop := exec (.gateRelease g) s = .next (after s y)
     let comes (y : State) : Prop := exec (.lateRelease g) s = .next (after s y)
     (s.modes.cur ≠ .m6 →
       (∀ (b : Bool) (i : Fin 64) (d : Int),
         let due := Time.timed s g = true ∧ d - 128 ≤ Time.sinceLocal s g
         let past := d ≤ Time.sinceLocal s g
         (x.fire = .idle → Time.earliest s g = some (b, i.val, d) →
           (due → sets (if holds ∧ may then Time.setGate g { x with fire := .armed b i false } u else lost b i)) ∧
           (¬ due → sets u)) ∧
         (∀ late, x.fire = .armed b i late → Time.dueTime s g b i = some d →
           (past → holds ∧ may → releases (if clear then fire b i late else Time.setGate g { x with fire := .armed b i true } u)) ∧
           (past → ¬ (holds ∧ may) → releases (lost b i)) ∧
           (¬ past → releases u)) ∧
         (x.fire = .waiting b i → Time.dueTime s g b i = some d →
           (past ∧ holds ∧ may ∧ clear → comes (fire b i true)) ∧
           (¬ (past ∧ holds ∧ may ∧ clear) → comes u))) ∧
       (x.fire = .releasing →
         (¬ holds → releases (Time.setGate g { x with fire := .idle } u)) ∧
         (holds → may ∧ clear → releases (Ops.raise 395 (Time.count g 0x11 1 (Time.count g 0x31 1
           (Time.setGate g { x with fire := .idle } (Fabric.offer (.gate g) u)))))) ∧
         (holds → ¬ (may ∧ clear) → releases u))) ∧
     (s.modes.cur = .m6 ∨ x.fire ≠ .idle ∨ Time.earliest s g = none → sets u) ∧
     (s.modes.cur = .m6 ∨ (x.fire ≠ .releasing ∧ ∀ b i late, x.fire = .armed b i late → Time.dueTime s g b i = none) →
       releases u) ∧
     (s.modes.cur = .m6 ∨ (∀ b i, x.fire = .waiting b i → Time.dueTime s g b i = none) → comes u) ∧
     (s.modes.cur = .m6 →
       ∀ c ∈ [Instr.decisionInstant g, .epochStart g, .overlapLimit g], exec c s = .next (after s u))) ∧
  (∀ (s : State) (g : Fin 8192), Awake s →
     let u := Ops.begin s
     let x := Fabric.stage s (.gate g)
     let frozen := s.modes.cur ≠ .m5 ∨ Fabric.thawed s (Frames.regionOf (.gate g)) = false
     let made (y : State) : Prop := ∀ c ∈ [Instr.gateCapture g, .stageCapture (.gate g)], exec c s =
       .next (after s (if Time.modeOf (Time.config s g) = 2 then Fabric.offer (.gate g) y else y))
     (∀ l, ¬ frozen → x.held = none → x.inAck = false → Fabric.allValid s (.gate g) = some l →
       made (Fabric.setStage (.gate g) { x with held := some (l.any (·.2)), inAck := true } u)) ∧
     (frozen ∨ x.held ≠ none ∨ x.inAck = true ∨ Fabric.allValid s (.gate g) = none → made u))

/-! ### Memory banks -/

/-- R191: the columns h(0) to h(63) are the first 64 numbers from 1 to 127, ascending, that are not powers of two; a word with
fresh check bits holds its data in bits 63 to 0; c[j], for j from 0 to 6, is the exclusive or of the data bits whose column has
bit j; and c[7] is that of all data bits and c[6:0]. -/
def Obligations.CheckBits : Prop :=
  let h (i : Nat) : BitVec 7 := Flags.column i
  let xor (l : List Bool) : Bool := l.foldl (fun a b => a ^^ b) false
  (List.range 64).map (fun i => (h i).toNat) =
    (((List.range 128).filter fun n => 1 ≤ n ∧ ∀ j, j < 7 → n ≠ 2 ^ j).take 64) ∧
  ∀ d : W64, let w := Flags.encode d
    w.extractLsb' 0 64 = d ∧
    (∀ j, j < 7 → w.getLsbD (64 + j) = xor (((List.range 64).filter fun i => (h i).getLsbD j).map fun i => d.getLsbD i)) ∧
    w.getLsbD 71 = xor ((List.range 64).map (fun i => d.getLsbD i) ++ (List.range 7).map fun j => w.getLsbD (64 + j))

/-- R192: what the bank makes of a stored word by its syndrome, the exclusive or of the check bits c[6:0] of its data with those
stored, and by the parity of its 72 bits; and that every read, bit-set and bit-clear of the array goes by that. -/
def Obligations.SyndromeTable : Prop :=
  ∀ w : BitVec 72,
    let s : BitVec 7 := (Flags.encode (w.extractLsb' 0 64)).extractLsb' 64 7 ^^^ w.extractLsb' 64 7
    let p : Bool := (List.range 72).foldl (fun a i => a ^^ w.getLsbD i) false
    (p = false → s = 0 → Flags.decode w = .good) ∧
    (p = true → s = 0 → Flags.decode w = .corrected (w ^^^ BitVec.twoPow 72 71)) ∧
    (∀ j, j < 7 → p = true → s = BitVec.twoPow 7 j → Flags.decode w = .corrected (w ^^^ BitVec.twoPow 72 (64 + j))) ∧
    (∀ i, i < 64 → p = true → s = Flags.column i → Flags.decode w = .corrected (w ^^^ BitVec.twoPow 72 i)) ∧
    (p = true → s ≠ 0 → (∀ j, j < 7 → s ≠ BitVec.twoPow 7 j) → (∀ i, i < 64 → s ≠ Flags.column i) →
      Flags.decode w = .bad) ∧
    (p = false → s ≠ 0 → Flags.decode w = .bad) ∧
    (∀ (op : BitVec 2) (m : W64), op ≠ 1 →
      ((Flags.access op m w).bad = true ↔ Flags.decode w = .bad) ∧
      ((Flags.access op m w).corrected = true ↔ ∃ f, Flags.decode w = .corrected f))

/-- (1) R191, R192: a word with any one of its 72 bits flipped decodes to the word as it was.

(2) R191, R192: a word without an error decodes as good, and one with any two bits flipped is uncorrectable.

(3) R173, R194: what an access leaves and answers, for a word without an error and for an uncorrectable one. -/
def Obligations.ErrorCode : Prop :=
  (∀ (d : W64) (i : Nat), i < 72 → Flags.decode (Flags.encode d ^^^ BitVec.twoPow 72 i) = .corrected (Flags.encode d)) ∧
  (∀ (d : W64), Flags.decode (Flags.encode d) = .good ∧
     ∀ i j : Nat, i < j → j < 72 → Flags.decode (Flags.encode d ^^^ BitVec.twoPow 72 i ^^^ BitVec.twoPow 72 j) = .bad) ∧
  (∀ (d m : W64) (v : BitVec 72),
     let w := Flags.encode d
     Flags.access 0 m w = ⟨w, d, false, false⟩ ∧
     Flags.access 1 m v = ⟨Flags.encode m, 0, false, false⟩ ∧
     Flags.access 2 m w = ⟨Flags.encode (d ||| m), d, false, false⟩ ∧
     Flags.access 3 m w = ⟨Flags.encode (d &&& ~~~m), d, false, false⟩ ∧
     (∀ op : BitVec 2, op ≠ 1 → Flags.decode v = .bad → Flags.access op m v = ⟨v, v.extractLsb' 0 64, false, true⟩))

/-- (1) R171, R174, R189, R190: a port in read or read-write mode captures a request, acknowledges its channels, takes back a bank that
self-test has borrowed and starts the wake of one in Retain.

(2) R178, R184: who gets the array: a lone client does, the maintenance requester and port B compete for one side, the winner with
port A, and the loser of a conflict wins the next one.

(3) R172, R174, R180: grants: a port's request is granted, or refused by an Off or retired bank; in a single-port bank the arbiter's
client gets the array, the maintenance requester's access being complete at once; in a dual-port bank both ports are granted, and the
maintenance requester, which competes with port B for its side, makes its access beside port A's, unless both have the same word. A
bank that is neither On nor refusing grants nothing.

The model's choices in it: log entries 24 and 25. -/
def Obligations.BankArbitration : Prop :=
  (∀ (s : State) (n : Fin 2048) (portB : Bool), Awake s →
     let u := Ops.begin s
     let b := Ops.bank s n
     let free := (Banks.port b portB).waiting = none ∧
       (Frames.portMode s.fab.frames n portB = 1 ∨ Frames.portMode s.fab.frames n portB = 2)
     let word := Fabric.captured s (.bankPort n portB)
     (∀ v, free → word = some v →
       exec (.bankRequest n portB) s = .next (after s (Ops.wakeBank n false (Fabric.setAck (.bankPort n portB) true
         (Ops.claim Ops.raise n (Banks.setPort n portB { Banks.port b portB with
           waiting := some (Banks.requestOf (Frames.portMode s.fab.frames n portB == 1) v)
           after := b.leaving.isSome } u)))))) ∧
     (¬ free ∨ word = none → exec (.bankRequest n portB) s = .next (after s u))) ∧
  (∀ (b : Bank), let a := Ops.grantable b b.portA
     let c := Ops.grantable b b.portB
     let flipA (x : Bank) : Bank := { x with aWins := !b.aWins }
     let flipB (x : Bank) : Bank := { x with bWins := !b.bWins }
     let lone : Option Banks.Client := if a then some (.port false) else if c then some (.port true) else none
     (a = false ∨ c = false → Banks.arbitrate b false = (lone, b)) ∧
     (a = false → c = false → Banks.arbitrate b true = (some .maint, b)) ∧
     (a = true → c = true → Banks.arbitrate b false = (some (.port (!b.aWins)), flipA b)) ∧
     (a = true → c = false → Banks.arbitrate b true = (some (if b.aWins then .port false else .maint), flipA b)) ∧
     (a = false → c = true → Banks.arbitrate b true = (some (if b.bWins then .port true else .maint), flipB b)) ∧
     (a = true → c = true → Banks.arbitrate b true =
       (some (if b.aWins then .port false else if b.bWins then .port true else .maint), flipA (flipB b)))) ∧
  (∀ (s : State) (n : Fin 2048), Awake s → Ops.ready s n = false → Ops.refuses s n = false →
     exec (.bankGrant n) s = .next (after s (Ops.begin s))) ∧
  (∀ (s : State) (n : Fin 2048), Awake s → Ops.ready s n = true ∨ Ops.refuses s n = true →
     let u := Ops.begin s
     let b := Ops.bank s n
     let c := Ops.grantable b b.portB
     (∀ (portB : Bool) (v : State), let p := Banks.port (Ops.bank v n) portB
       Banks.grantPort n portB v = if Ops.refuses v n then
           Banks.respond n portB { refused := true }
             (Ops.refuse Ops.raise n (Banks.setPort n portB { p with waiting := none, after := false } v))
         else Banks.setPort n portB { p with granted := p.waiting, waiting := none } v) ∧
     (Banks.dual n = false → Ops.granted b = false →
       let r := Banks.arbitrate b (Banks.maintWaits b)
       (r.1 = none → exec (.bankGrant n) s = .next (after s u)) ∧
       (∀ p, r.1 = some (.port p) → exec (.bankGrant n) s = .next (after s (Banks.grantPort n p (Ops.setBank n r.2 u)))) ∧
       (r.1 = some .maint →
         exec (.bankGrant n) s = .next (after s (Banks.grantSingle 3 n (Banks.performHead n (Ops.setBank n r.2 u)))))) ∧
     (Banks.dual n = false → Ops.granted b = true → exec (.bankGrant n) s = .next (after s u)) ∧
     (Banks.dual n = true →
       let m := Banks.maintWaits b && b.portB.granted.isNone && !b.deferred
       let x := let y := if c && m then Ops.setBank n { b with bWins := !b.bWins } u else u
         if Ops.grantable b b.portA then Banks.grantPort n false y else y
       let grants (y : State) : Prop := exec (.bankGrant n) s = .next (after s y)
       (m = false ∨ c = true ∧ b.bWins = true → grants (if c then Banks.grantPort n true x else x)) ∧
       (m = true → c = false ∨ b.bWins = false → ∀ q rest, (Ops.bank x n).held = q :: rest →
         let waits := Banks.defers q (Ops.bank x n).portA.granted
         (waits = true → grants (Ops.setBank n { Ops.bank x n with deferred := true } x)) ∧
         (waits = false → let y := Banks.performHead n x
           grants (if c && (Ops.bank x n).portA.granted.isNone then Banks.grantPort n true y else y)))))

/-- (1) R172, R173, R176, R191 to R194: the access of a granted port of a single-port bank completes, port A's first, its stored bits
first upset by `flips`: the word it leaves, what it counts, and one response; then the array is free.

(2) R180 to R182: one cycle of a dual-port bank: accesses to two words are made one after the other; two to one word meet it as it was,
port A's modification is stored, and port B's is dropped as a collision where it would change what port A's leaves; the word's own
error is answered and counted once. In both, a command for the other kind of bank, or with nothing granted, makes no access.

The model's choices in it: log entry 27. -/
def Obligations.BankAccess : Prop :=
  (∀ (s : State) (n : Fin 2048) (f : BitVec 72) (q : BankReq), Awake s → Banks.dual n = false →
     let b := Ops.bank s n
     let v := Ops.word s n q.addr.toNat ^^^ f
     let a := Flags.access q.op q.data v
     let r : BankResp := { poison := a.bad, corrected := a.corrected, data := a.data }
     let done (portB : Bool) : State := Banks.afterCycle n (Banks.respond n portB r (accessed n q v (Ops.begin s)))
     (b.portA.granted = some q → exec (.bankAccessComplete n f) s = .next (after s (done false))) ∧
     (b.portA.granted = none → b.portB.granted = some q → exec (.bankAccessComplete n f) s = .next (after s (done true))) ∧
     (b.portA.granted = none → b.portB.granted = none →
       exec (.bankAccessComplete n f) s = .next (after s (Banks.afterCycle n (Ops.begin s)))) ∧
     exec (.dualPortCycle n) s = .next (after s (Ops.begin s))) ∧
  (∀ (s : State) (n : Fin 2048) (qa qb : BankReq), Awake s → Banks.dual n = true →
     let u := Ops.begin s
     let b := Ops.bank s n
     (∀ f, exec (.bankAccessComplete n f) s = .next (after s u)) ∧
     (b.portA.granted = none → b.portB.granted = none → exec (.dualPortCycle n) s = .next (after s u)) ∧
     let one (portB : Bool) (q : BankReq) (x : State) : State :=
       let v := Ops.word x n q.addr.toNat
       let a := Flags.access q.op q.data v
       Banks.respond n portB { poison := a.bad, corrected := a.corrected, data := a.data } (accessed n q v x)
     (b.portA.granted = some qa → b.portB.granted = none →
       exec (.dualPortCycle n) s = .next (after s (Banks.afterCycle n (one false qa u)))) ∧
     (b.portA.granted = none → b.portB.granted = some qb →
       exec (.dualPortCycle n) s = .next (after s (Banks.afterCycle n (one true qb u)))) ∧
     (b.portA.granted = some qa → b.portB.granted = some qb → qa.addr ≠ qb.addr →
       exec (.dualPortCycle n) s = .next (after s (Banks.afterCycle n (Banks.completePort n true 0 (one false qa u))))) ∧
     (b.portA.granted = some qa → b.portB.granted = some qb → qa.addr = qb.addr →
       let p := Banks.pairAccess n qa qb u
       exec (.dualPortCycle n) s =
         .next (after s (Banks.afterCycle n (Banks.respond n true p.1.2 (Banks.respond n false p.1.1 p.2)))))) ∧
  (∀ (s : State) (n : Nat) (qa qb : BankReq), qa.addr = qb.addr →
     let w := qa.addr.toNat
     let v := Ops.word s n w
     let a := Flags.access qa.op qa.data v
     let b := Flags.access qb.op qb.data v
     let counts (x : State) : State := Ops.noteAccess Ops.raise n w v (if qa.op = 1 then b else a) x
     (∀ (fixed : Bool) (d : W64),
       (fixed = false → v = Flags.encode d) → (fixed = true → Flags.decode v = .corrected (Flags.encode d)) →
       let tells (op : BitVec 2) (c : Bool) : BankResp :=
         { collision := c, corrected := fixed && op != 1, data := if op = 1 then 0 else d }
       let both (c : Bool) (x : State) : (BankResp × BankResp) × State := ((tells qa.op false, tells qb.op c), x)
       let store (x : W64) : State := counts (Ops.setWord n w (Flags.encode x) s)
       let xa := Flags.modify qa.op d qa.data
       (qa.op = 0 → qb.op = 0 → Banks.pairAccess n qa qb s = both false (store d)) ∧
       (qa.op = 0 → qb.op ≠ 0 → Banks.pairAccess n qa qb s = both false (store (Flags.modify qb.op d qb.data))) ∧
       (qa.op ≠ 0 → qb.op = 0 → Banks.pairAccess n qa qb s = both false (store xa)) ∧
       (qa.op ≠ 0 → qb.op ≠ 0 → Flags.modify qb.op xa qb.data = xa → Banks.pairAccess n qa qb s = both false (store xa)) ∧
       (qa.op ≠ 0 → qb.op ≠ 0 → Flags.modify qb.op xa qb.data ≠ xa →
         Banks.pairAccess n qa qb s = both true (Banks.collide n w (store xa)))) ∧
     (Flags.decode v = .bad →
       let drops := qa.op = 1 ∧ qb.op ≠ 0 ∧ Flags.modify qb.op qa.data qb.data ≠ qa.data
       let tells (x : Flags.Access) (c : Bool) : BankResp := { poison := x.bad, collision := c, data := x.data }
       let y := counts (Ops.setWord n w (if qa.op = 0 then b.word else a.word) s)
       Banks.pairAccess n qa qb s =
         ((tells a false, tells b (decide drops)), if drops then Banks.collide n w y else y)))

/-- R183, R185, R186, R385, R396: the host's accesses to the bank part of BAR2. In M5 and M7 a read or write of one word of a bank
that is On, given back by its test if need be, and that nothing else asks for is made at once, in every alias; an Off or retired bank refuses it, and any other bank holds it; longer
accesses go word by word in rising order, and a write that is not of whole words is discarded and counted. In every other mode a read
returns ones and a write is discarded; in M6 either brings the link back to L0. A read past the bank part returns ones and is
counted, and with the link down nothing is accessed.

The model's choices in it: log entries 24 and 51. -/
def Obligations.HostBankAccess : Prop :=
  (∀ (s : State) (off : BitVec 29) (len : W16) (op : BitVec 2) (o : BitVec 27) (l : List Byte), Awake s →
     let u := Ops.toL0 Ops.raise (Ops.begin s)
     let served := s.modes.cur = .m5 ∨ s.modes.cur = .m7
     let put (x : State) : Prop := (op = 1 → exec (.hostBankWrite o l) s = .next (after s x)) ∧
       (op = 2 → exec (.hostBankSet o l) s = .next (after s x)) ∧ (op = 3 → exec (.hostBankClear o l) s = .next (after s x))
     (HostLink.up s = false → exec (.hostBankRead off len) s = .next (after s (Ops.begin s)) ∧ put (Ops.begin s)) ∧
     (HostLink.up s = true →
       (0x18000000 ≤ off.toNat → exec (.hostBankRead off len) s =
         .next (after s (Ops.emit (.completion (List.replicate len.toNat 0xFF) false) (Ops.bump 0x8000 7 u)))) ∧
       (off.toNat < 0x18000000 → ¬ served → exec (.hostBankRead off len) s =
         .next (after s (Ops.emit (.completion (List.replicate len.toNat 0xFF) false) u))) ∧
       (off.toNat < 0x18000000 → served →
         exec (.hostBankRead off len) s = .next (after s (Banks.hostRead len.toNat off.toNat len.toNat u))) ∧
       (¬ served → put u) ∧
       (served → o.toNat % 8 ≠ 0 ∨ l.length % 8 ≠ 0 →
         put (Ops.bankCause Ops.raise (o.toNat / 65536 % 2048) 4 (Ops.bump 0x4000 5 u))) ∧
       (served → o.toNat % 8 = 0 → l.length % 8 = 0 → put (Banks.hostWrite op l.length o.toNat l u)))) ∧
  (∀ (s : State) (n : Fin 2048) (w : Fin 8192) (x : W64) (al : Fin 3) (lo len : Nat), Awake s → HostLink.up s = true →
     s.modes.cur = .m5 ∨ s.modes.cur = .m7 → 0 < len → lo + len ≤ 8 →
     let u := Ops.begin s
     let at' := 65536 * n.val + 8 * w.val
     let read (y : State) : Prop :=
       exec (.hostBankRead (BitVec.ofNat 29 (0x08000000 * al.val + at' + lo)) (BitVec.ofNat 16 len)) s = .next (after s y)
     let puts (op : BitVec 2) (y : State) : Prop :=
       (op = 1 → exec (.hostBankWrite (BitVec.ofNat 27 at') (le 8 x.toNat)) s = .next (after s y)) ∧
       (op = 2 → exec (.hostBankSet (BitVec.ofNat 27 at') (le 8 x.toNat)) s = .next (after s y)) ∧
       (op = 3 → exec (.hostBankClear (BitVec.ofNat 27 at') (le 8 x.toNat)) s = .next (after s y))
     let host (lo len : Nat) (q : BankReq) : MaintReq := { kind := .host lo len, req := q }
     let req (op : BitVec 2) (v : W64) : BankReq := { op := op, addr := BitVec.ofNat 13 w, data := v }
     let mine := Ops.claim Ops.raise n u
     let now := Ops.ready mine n = true ∧ Ops.arrayFree (Ops.bank mine n) = true
     let v := Ops.word mine n w
     (Ops.refuses s n = false → now →
       (let a := Flags.access 0 0 v
        read (Ops.emit (.completion ((Ops.bytes 8 a.data.toNat).drop lo |>.take len) a.bad) (accessed n (req 0 0) v mine))) ∧
       ∀ op, puts op (accessed n (req op x) v mine)) ∧
     (Ops.refuses s n = true →
       read (Ops.emit (.completion (List.replicate len 0xFF) false) (Ops.refuse Ops.raise n u)) ∧
       ∀ op, puts op (Ops.refuse Ops.raise n u)) ∧
     (Ops.refuses s n = false → ¬ now →
       read (Ops.hold n (host lo len (req 0 0)) mine) ∧ ∀ op, puts op (Ops.hold n (host 0 8 (req op x)) mine)))

/-- (1) R188, R190, R198, R199: a write of TARGET takes effect in M5 and M7, Deep-retain only in M7, and in M2 On and Deep-retain; the
value that TARGET holds is accepted in every mode, another one is not, and a retired bank accepts none. A bank takes the state by its
own: an On bank with nothing left to serve at once, with its contents lost when it goes Off; a Retain, Off or Deep-retain bank at once
or by a wake; a waking one afterwards.

(2) R188, R189: an idle bank goes to Retain, and a wake ends On; one that comes from Off reads 0 in every word. A bank that is not idle,
or not waking, stays as it is.

(3) R195, R196, R200, R201: a soft repair word is applied unless it is refused; a rebuild reads and writes back the next word in a cycle
that no one has asked for, in no other, and at the last word goes on to the next steering with cause 5; the cause enables.

The model's choices in it: log entries 26 and 81. -/
def Obligations.BankStates : Prop :=
  (∀ (s : State) (t : Transport) (n : Fin 2048) (k : Fin 4),
     let i := 0x4800 + n.val
     let old := Ops.reg s i 1
     let v := Operands.replace old 0 2 k
     let m := s.modes.cur
     let ok := (m = .m5 ∧ k.val ≠ 3) ∨ m = .m7 ∨ (m = .m2 ∧ (k.val = 0 ∨ k.val = 3))
     let c : Instr := match k with
       | 0 => .targetOn t n | 1 => .targetRetain t n | 2 => .targetOff t n | 3 => .targetDeepRetain t n
     let u := Ops.setReg i 1 (v &&& 0xFFFF07) (counted s)
     let fails (e : Nat) : State := after s (answered s t 2 i 1 (le 4 v) e [] (counted s))
     Writes s t i 1 (le 4 v) →
     (Ops.power s n = .retired → exec c s = .next (fails 4)) ∧
     (Ops.power s n ≠ .retired →
       (ok → exec c s = .next (wrote s t i 1 (le 4 v) (Banks.applyTarget n k (Ops.claim Ops.raise n u)))) ∧
       (¬ ok → k.val = old % 4 → exec c s = .next (wrote s t i 1 (le 4 v) u)) ∧
       (¬ ok → k.val ≠ old % 4 → exec c s = .next (fails (if k.val = 3 then 4 else 3))))) ∧
  (∀ (s : State) (n : Nat) (k : Fin 4), let b := Ops.bank s n
     let takes (p : Power) : Prop := ∃ x, Banks.applyTarget n k s = x ∧ OnlyBank n s x ∧ Ops.power x n = p
     (BankOn s n → b.leaving = none → Banks.quiet b = true → takes (Banks.powerOf k)) ∧
     (BankOn s n → b.leaving ≠ none → Banks.applyTarget n k s = Ops.setBank n { b with next := some k } s) ∧
     (∀ z g, Ops.power s n = .waking z g → Banks.applyTarget n k s = Ops.setPower n (.waking z k) s) ∧
     (Ops.power s n = .retain → b.held = [] →
       takes (match k with | 0 => .waking false 0 | 1 => .retain | 2 => .off | 3 => .deep)) ∧
     (Ops.power s n = .off → takes (match k with | 0 => .waking true 0 | 1 => .waking true 1 | _ => .off)) ∧
     (Ops.power s n = .deep → b.held = [] →
       takes (match k with | 0 => .waking false 0 | 1 => .waking false 1 | 2 => .off | 3 => .deep))) ∧
  (∀ (s : State) (n : Fin 2048), Awake s →
     let u := Ops.begin s
     let b := Ops.bank s n
     let sleeps := (s.modes.cur = .m5 ∨ s.modes.cur = .m7) ∧ BankOn s n ∧ Ops.idle s n ≠ 0 ∧ Banks.quiet b = true ∧ b.leaving = none
     (sleeps → exec (.bankIdleExpiry n) s = .next (after s (Ops.setPower n .retain u))) ∧
     (¬ sleeps → exec (.bankIdleExpiry n) s = .next (after s u)) ∧
     ((∀ z g, Ops.power s n ≠ .waking z g) → exec (.bankWakeComplete n) s = .next (after s u)) ∧
     (∀ z g, Ops.power s n = .waking z g → exec (.bankWakeComplete n) s = .next (after s
       (let x := if z then Banks.lose n (Ops.setBank n { b with aWins := true, bWins := true } u) else u
        let y := Banks.serve n (Ops.setPower n .on x)
        if g.val = 0 then y else Banks.leave n g y))) ∧
     (Ops.power s n = .waking false 0 → b.held = [] →
       ∃ x, exec (.bankWakeComplete n) s = .next (after s x) ∧ OnlyBank n u x ∧ Ops.power x n = .on ∧
         ∀ w, w < 8192 → Ops.word x n w = Ops.word s n w) ∧
     (Ops.power s n = .waking true 0 → b.held = [] →
       ∃ x, exec (.bankWakeComplete n) s = .next (after s x) ∧ OnlyBank n u x ∧ Ops.power x n = .on ∧
         (Ops.bank x n).aWins = true ∧ ∀ w, w < 8192 → Ops.word x n w = 0)) ∧
  (∀ (s : State) (t : Transport) (n : Fin 2048),
     let u := Ops.begin s
     let b := Ops.bank s n
     (∀ v : W32, Writes s t (0x4800 + n) 9 (le 4 v.toNat) →
       (Banks.badRepair (counted s) n v.toNat = false → exec (.softRepairWrite t n v) s =
         .next (wrote s t (0x4800 + n) 9 (le 4 v.toNat) (Banks.applyRepair n v.toNat (counted s)))) ∧
       (Banks.badRepair (counted s) n v.toNat = true → exec (.softRepairWrite t n v) s =
         .next (after s (answered s t 2 (0x4800 + n) 9 (le 4 v.toNat) 4 [] (counted s))))) ∧
     (Awake s → b.rebuild = none ∨ ¬ BankOn s n ∨ Ops.arrayFree { b with leaving := none } = false →
       exec (.columnRebuildAccess n) s = .next (after s u)) ∧
     (∀ w, Awake s → b.rebuild = some w → BankOn s n → Ops.arrayFree { b with leaving := none } = true →
       let q : BankReq := { op := 0, addr := BitVec.ofNat 13 w, data := 0 }
       let y := accessed n q (Ops.word s n q.addr.toNat) u
       exec (.columnRebuildAccess n) s = .next (after s
         (if w + 1 < 8192 then Ops.setBank n { Ops.bank y n with rebuild := some (w + 1) } y
          else Banks.steerNext n (Ops.bankCause Ops.raise n 5 (Ops.setBank n { Ops.bank y n with rebuild := none } y))))) ∧
     (∀ v : Byte, Writes s t 0x4000 3 (le 1 v.toNat) → exec (.bankCauseEnableWrite t v) s =
       .next (wrote s t 0x4000 3 (le 1 v.toNat)
         ((List.range 32).foldl (fun x k => Banks.trackGroup k x) (Ops.setReg 0x4000 3 (v.toNat &&& 0x3F) (counted s))))))

/-! ### Queues and trace rings -/

/-- (1) R209, R211, R212, R214: an operation of an attachment other than a fabric port is answered at once, unless it is held; a
fabric port captures it from its channels, where they spell it, and serves it when its response buffer is empty. Then a pop that the
queue's consumer holds is looked at again. The response and the queue after it are those of the queue's slot.

(2) R210, R215, R217: the reasons for which a push is refused, in their order: 4 outside M5 or for a disabled queue and 3 for another
attachment, which change nothing, and for which pops, peeks and aborts are refused too; 6 while the rest of a refused packet is
discarded, 1 for a full queue and 2 for an empty pool. A request with a reserved operation is refused with reason 5.

The model's choices in it: log entry 30. -/
def Obligations.QueueAnswers : Prop :=
  (∀ (s : State) (a q : BitVec 12) (d : W64) (f : PoolFault), Awake s →
     let u := Ops.begin s
     let does (c : Instr) (o : QOp) (d : W64) (f : PoolFault) : Prop :=
       let r : QReq := { op := o, queue := q, data := d }
       (a.toNat / 1024 ≠ 1 → ∀ y x, Queues.operate a.toNat r f u = (some y, x) →
         exec c s = .next (after s (Queues.wakeConsumer q.toNat (Ops.emit (.queue y) x)))) ∧
       (a.toNat / 1024 ≠ 1 → ∀ x, Queues.operate a.toNat r f u = (none, x) → exec c s = .next (after s x)) ∧
       (a.toNat / 1024 = 1 → ∀ v, let p := a.toNat % 1024
         Queues.portOn s p = true → (Queues.qport s p).waiting = none →
         Fabric.captured s (.queuePort (Fin.ofNat 1024 p)) = some v → Queues.sameRequest (Queues.requestOf v) r = true →
         exec c s = .next (after s (Queues.wakeConsumer q.toNat (Queues.serve p f
           (Fabric.setAck (.queuePort (Fin.ofNat 1024 p)) true
             (Queues.setQPort p { Queues.qport s p with waiting := some (Queues.requestOf v) } u)))))) ∧
       (a.toNat / 1024 = 1 → let p := a.toNat % 1024
         Queues.portOn s p = false ∨ (Queues.qport s p).waiting ≠ none ∨
           (∀ v, Fabric.captured s (.queuePort (Fin.ofNat 1024 p)) = some v → Queues.sameRequest (Queues.requestOf v) r = false) →
         exec c s = .next (after s u))
     does (.push a q d) .push d Queues.sound ∧ does (.pushAndClose a q d) .pushClose d Queues.sound ∧
     does (.pop a q f) .pop 0 f ∧ does (.peek a q f) .peek 0 f ∧ does (.abort a q) .abort 0 Queues.sound) ∧
  (∀ (s : State) (a q : Nat) (d : W64) (close : Bool),
     let x := Queues.queue s q
     ((s.modes.cur ≠ .m5 ∨ Queues.enabled s q = false) → Queues.push a q d close s = (Queues.refused 4, s)) ∧
     (Open s q → a ≠ Queues.producer s q → Queues.push a q d close s = (Queues.refused 3, s)) ∧
     (Open s q → a = Queues.producer s q → x.discarding = true → (Queues.push a q d close s).1 = Queues.refused 6) ∧
     (Open s q → a = Queues.producer s q → x.discarding = false → x.swallowing = false →
       (Queues.isOpen x && Queues.hasRoom x) = false →
       (Queues.depth x = Queues.maxDepth s q → (Queues.push a q d close s).1 = Queues.refused 1) ∧
       (Queues.depth x ≠ Queues.maxDepth s q → Queues.allocate q s = none →
         (Queues.push a q d close s).1 = Queues.refused 2)) ∧
     (∀ (e : Nat) (who : Nat), (e = 4 ∧ (s.modes.cur ≠ .m5 ∨ Queues.enabled s q = false)) ∨ (e = 3 ∧ Open s q ∧ a ≠ who) →
       (e = 4 ∨ who = Queues.consumer s q → ∀ remove f, Queues.pop a q remove f s = (some (Queues.refused e), s)) ∧
       (e = 4 ∨ who = Queues.producer s q → Queues.abort a q s = (Queues.refused e, s))) ∧
     (∀ r f, r.op = .reserved → (Queues.operate a r f s).1 = some (Queues.refused 5)))

/-- (1) R213: an accepted push appends its word, with its parity bit, behind every word that the queue holds.

(2) R207, R208, R213, R214, R218, R219: a pop returns the oldest word of the head packet and removes that word alone; a peek returns
the same and removes nothing. A word that ends a packet by a flush or an abort comes first; where no packet is eligible the answer is
empty, and within a packet whose next word is not visible yet the pop is held.

(3) R218: an abort removes the open packet that the consumer has not begun, and ends one that it has: its words are poisoned, or a word
is owed where none is left.

(4) R205, R206: a word whose parity fails is poisoned, counted and observed; a link entry that is corrected is counted, and one that is
not flushes the queue, whose answer is then as above. -/
def Obligations.QueueOrder : Prop :=
  (∀ (s : State) (a q : Nat) (d : W64) (close : Bool), Open s q → Queues.producer s q = a →
     (Queues.queue s q).discarding = false → (Queues.queue s q).swallowing = false →
     (Queues.isOpen (Queues.queue s q) = true ∧ Queues.hasRoom (Queues.queue s q) = true ∨
       Queues.depth (Queues.queue s q) ≠ Queues.maxDepth s q ∧ (Queues.allocate q s).isSome = true) →
     ∃ x, Queues.push a q d close s = ({}, x) ∧
       held (Queues.queue x q) = held (Queues.queue s q) ++ [Queues.withParity d]) ∧
  (∀ (s : State) (a q : Nat), Open s q → Queues.consumer s q = a →
     let x := Queues.queue s q
     (∀ (p : Packet) (ps : List Packet) (c : Cell) (cs : List Cell) (w : BitVec 65) (ws : List (BitVec 65)),
       x.owed = none → x.packets = p :: ps → p.cells = c :: cs → c.words = w :: ws → c.visible = true →
       (p.started = true ∨ Queues.eligible s q p = true) →
       let last := !p.opened && ws.isEmpty && Queues.wordsIn cs == 0
       let r (bad : Bool) (w : BitVec 65) : QResp :=
         { poison := bad || p.poisoned, eop := last, sop := !p.started, valid := true, data := w.setWidth 64 }
       (Flags.parity w = false →
         (∃ x, Queues.pop a q true Queues.sound s = (some (r false w), x) ∧
           held (Queues.queue s q) = w :: held (Queues.queue x q)) ∧
         Queues.pop a q false Queues.sound s = (some (r false w), s)) ∧
       (∀ v, Flags.parity (w ^^^ v) = true → Queues.pop a q false { Queues.sound with flips := v } s = (some (r true (w ^^^ v)),
         Ops.observe (Ops.channel 5 (c.id % 128) 0)
           (Ops.raise 305 (Queues.notice q 3 (Queues.count q 7 1 (Ops.bump 0x5000 4 s)))))) ∧
       (∀ remove v bad, Queues.pop a q remove { correctedLink := true, badLink := bad, flips := v } s =
         Queues.pop a q remove { correctedLink := false, badLink := bad, flips := v } (Ops.bump 0x5000 5 s)) ∧
       (∀ remove v, Queues.pop a q remove { correctedLink := false, badLink := true, flips := v } s =
         Queues.pop a q remove Queues.sound (Ops.raise 306 (Queues.notice q 4 (Ops.bump 0x5000 6 (Queues.flush q true s)))))) ∧
     (∀ f, x.owed = some .flushed →
       Queues.pop a q true f s = (some { flushed := true, eop := true, valid := true }, Queues.setQueue q { x with owed := none } s) ∧
       Queues.pop a q false f s = (some { flushed := true, eop := true, valid := true }, s)) ∧
     (∀ f, x.owed = some .poisonEnd →
       Queues.pop a q true f s = (some { poison := true, eop := true, valid := true },
         Queues.count q 8 1 (Queues.setQueue q { x with owed := none } s)) ∧
       Queues.pop a q false f s = (some { poison := true, eop := true, valid := true }, s)) ∧
     (∀ remove f, x.owed = none → (∀ p, x.packets.head? = some p → p.started = false ∧ Queues.eligible s q p = false) →
       Queues.pop a q remove f s = (some {}, s)) ∧
     (∀ remove f p ps, x.owed = none → x.packets = p :: ps → p.started = true →
       (∀ c, p.cells.head? = some c → c.visible = false) → Queues.pop a q remove f s = (none, s))) ∧
  (∀ (s : State) (a q : Nat), Open s q → Queues.producer s q = a →
     let x := Queues.queue s q
     let ends (y : Queue) : Prop := Queues.abort a q s = ({}, Queues.notice q 5 (Queues.setQueue q y s))
     (x.discarding = true →
       Queues.abort a q s = (Queues.refused 6, Queues.count q 6 1 (Queues.setQueue q { x with discarding := false } s))) ∧
     (x.discarding = false → x.swallowing = true →
       Queues.abort a q s = ({}, Queues.setQueue q { x with swallowing := false } s)) ∧
     (x.discarding = false → x.swallowing = false → Queues.isOpen x = false → Queues.abort a q s = ({}, s)) ∧
     (∀ p ps, x.discarding = false → x.swallowing = false → Queues.isOpen x = true → x.packets = ps ++ [p] →
       (p.started = false → ends { x with packets := ps }) ∧
       (p.started = true → Queues.wordsIn p.cells = 0 → ends { x with packets := ps, owed := some .poisonEnd }) ∧
       (p.started = true → Queues.wordsIn p.cells ≠ 0 → ends { x with packets := ps ++ [{ p with
         opened := false, poisoned := true, cells := p.cells.map fun c => { c with visible := true } }] })))

/-- (1) R206, R219, R223 to R225: the writes of a queue's words. A flush empties the queue at once; a control word is stored when it
keeps the attachments and the cut of an enabled queue, does not disable one that holds cells or whose producer has a packet open
without flushing it (otherwise busy, 5), and names attachments (otherwise refused, 4); the limits take a legal depth (4) of at least
the cells held (5). The sweep returns the cells that a
lost link entry has left.

(2) R228, R229, R231: a write joins the ring and pushes out the oldest entry of a full one, which is counted and, where sub 0x07 is
TRUE, raises the group's source; a pop takes the oldest entry and a peek leaves it, and an empty ring, or one that the host drains,
answers 0; the host's read takes the oldest entry of a ring that it drains. Without such a request on the fabric's channels, or while
a response waits, nothing is done. -/
def Obligations.QueueWrites : Prop :=
  (∀ (s : State) (t : Transport) (q : BitVec 12),
     let n := q.toNat
     let i := 0x5100 + n / 16
     let k := 8 * (n % 16)
     let u := counted s
     let old := Queues.sub s n 1
     let f := Operands.replace old 62 1 1
     let flushed := Queues.wakeConsumer n (Queues.watermarks n (Queues.flush n false u))
     let store (w : Nat) (x : State) : State := Queues.trackNotices n (Ops.setReg i (1 + k) (Ops.clearBits w (2 ^ 62)) x)
     let good (w : Nat) : Prop :=
       Queues.badAttachment (w / 2 ^ 24 % 4096) = false ∧ Queues.badAttachment (w / 2 ^ 12 % 4096) = false
     let fails (c : Instr) (j : Nat) (d : List Byte) (e : Nat) : Prop := exec c s = .next (after s (answered s t 2 i j d e [] u))
     (Writes s t i (1 + k) (le 8 f) →
       (good f → exec (.queueFlush t q) s = .next (wrote s t i (1 + k) (le 8 f) (store (f &&& 0xE0FF000FFFFFF000) flushed))) ∧
       (¬ good f → fails (.queueFlush t q) (1 + k) (le 8 f) 4)) ∧
     (∀ v : W64, let w := v.toNat &&& 0xE0FF000FFFFFF000
       let x := Queues.queue s n
       let d := le 8 v.toNat
       let keeps := Ops.bit old 63 = true →
         w / 2 ^ 12 % 2 ^ 24 = old / 2 ^ 12 % 2 ^ 24 ∧ w / 2 ^ 48 % 256 = old / 2 ^ 48 % 256 ∧
         (Ops.bit w 63 = false → Ops.bit w 62 = false →
           Queues.depth x = 0 ∧ Queues.isOpen x = false ∧ x.swallowing = false)
       Writes s t i (1 + k) d →
       (keeps → good w → exec (.queueControlWrite t q v) s =
         .next (wrote s t i (1 + k) d (store w (if Ops.bit w 62 then flushed else u)))) ∧
       (¬ keeps → fails (.queueControlWrite t q v) (1 + k) d 5) ∧
       (keeps → ¬ good w → fails (.queueControlWrite t q v) (1 + k) d 4)) ∧
     (∀ v : W64, let m := v.toNat / 2 ^ 38 % 2 ^ 19
       let h := v.toNat / 2 ^ 19 % 2 ^ 19
       let d := le 8 v.toNat
       let legal := 1 ≤ m ∧ m ≤ 262144 ∧ (h = 0 ∨ v.toNat % 2 ^ 19 < h ∧ h ≤ m)
       Writes s t i (2 + k) d →
       (legal → Queues.depth (Queues.queue s n) ≤ m → exec (.limitsWrite t q v) s =
         .next (wrote s t i (2 + k) d (Ops.setReg i (2 + k) (v.toNat % 2 ^ 57) u))) ∧
       (¬ legal → fails (.limitsWrite t q v) (2 + k) d 4) ∧
       (legal → m < Queues.depth (Queues.queue s n) → fails (.limitsWrite t q v) (2 + k) d 5)) ∧
     (Awake s → exec .linkSweep s = .next (after s
       (Ops.add 0x5000 8 32 s.pool.lost.length { Ops.begin s with pool := { s.pool with lost := [] } })))) ∧
  (∀ (s : State) (r : Fin 512), Awake s →
     let u := Ops.begin s
     let g := Queues.ring s r
     let e := Table.get (fun _ => (0 : W64)) s.ringMem (256 * r.val + g.rp.toNat % 256)
     let full := g.wp - g.rp = 256
     let host := Ops.reg s (0x5300 + r) 5 = 1
     (Fabric.captured s (.traceWrite r) = none → exec (.traceWrite r) s = .next (after s u)) ∧
     (g.resp ≠ none ∨ Fabric.captured s (.traceRead r) = none ∨ Fabric.captured s (.traceRead r) = some 1 →
       exec (.tracePeek r) s = .next (after s u)) ∧
     (g.resp ≠ none ∨ Fabric.captured s (.traceRead r) ≠ some 1 → exec (.tracePop r) s = .next (after s u)) ∧
     (∀ v, Fabric.captured s (.traceWrite r) = some v →
       let joins (rp : BitVec 9) : State :=
         let x := Queues.setRing r { g with wp := g.wp + 1, rp := rp } (Fabric.setAck (.traceWrite r) true u)
         { x with ringMem := Table.put (fun _ => 0) s.ringMem (256 * r.val + g.wp.toNat % 256) (BitVec.ofNat 64 v) }
       (¬ full → exec (.traceWrite r) s = .next (after s (joins g.rp))) ∧
       (full → exec (.traceWrite r) s = .next (after s
         (let y := Ops.bump (0x5300 + r) 4 (joins (g.rp + 1))
          if Ops.reg y (0x5300 + r) 7 = 1 then Ops.raise (288 + r / 32) y else y)))) ∧
     (g.resp = none →
       let word : BitVec 65 := if host ∨ g.wp = g.rp then 0 else 1#1 ++ e
       let answers (c : Instr) (k : Taker) (rp : BitVec 9) : Prop :=
         ∃ x, exec c s = .next (after s (Fabric.pump (.trace r) x)) ∧
           x = { Fabric.setAck k true u with rings := x.rings } ∧
           Queues.ring x r = { g with rp := rp, resp := some word, offer := {} } ∧ ∀ j, j ≠ r.val → Queues.ring x j = Queues.ring s j
       (Fabric.captured s (.traceRead r) = some 0 → answers (.tracePeek r) (.traceRead r) g.rp) ∧
       (Fabric.captured s (.traceRead r) = some 1 →
         answers (.tracePop r) (.traceRead r) (if host ∨ g.wp = g.rp then g.rp else g.rp + 1))) ∧
     (∀ t x, Reads s t (0x5300 + r) 6 x → x.ty = .blob →
       (host → g.wp ≠ g.rp → exec (.traceHostPop t r) s =
         .next (readOut s t (0x5300 + r) 6 (Ops.bytes 1 1 ++ Ops.bytes 8 e.toNat)
           (Queues.setRing r { g with rp := g.rp + 1 } (counted s)))) ∧
       (¬ host ∨ g.wp = g.rp →
         exec (.traceHostPop t r) s = .next (readOut s t (0x5300 + r) 6 (List.replicate 9 0) (counted s)))))

/-! ### Prism engines -/

/-- (1) R240: the results of the eleven instructions on two registers.

(2) R240: the results of the eight instructions on a register and an immediate.

(3) R240: where the branches and jumps go, and what CALL and JUMPR leave in D.

(4) R235, R238, R244: the register file: g0 reads 0 and keeps nothing, every other register reads what was written last, and
a write leaves the others alone. -/
def Obligations.PrismRegister : Prop :=
  (∀ (s : State) (n : Fin 128) (w : W32),
     let a := r2 s n w
     let b := r3 s n w
     (Issues 0x01 s n w → exec (.add n) s = .next (result s n w (a + b))) ∧
     (Issues 0x02 s n w → exec (.sub n) s = .next (result s n w (a - b))) ∧
     (Issues 0x03 s n w → exec (.and n) s = .next (result s n w (a &&& b))) ∧
     (Issues 0x04 s n w → exec (.ior n) s = .next (result s n w (a ||| b))) ∧
     (Issues 0x05 s n w → exec (.eor n) s = .next (result s n w (a ^^^ b))) ∧
     (Issues 0x06 s n w → exec (.mlo n) s = .next (result s n w (BitVec.ofNat 32 (a.toNat * b.toNat)))) ∧
     (Issues 0x07 s n w → exec (.cmps n) s =
       .next (result s n w (if a.toInt < b.toInt then BitVec.ofInt 32 (-1) else if a.toInt = b.toInt then 0 else 1))) ∧
     (Issues 0x08 s n w → exec (.cmpu n) s =
       .next (result s n w (if a.toNat < b.toNat then BitVec.ofInt 32 (-1) else if a.toNat = b.toNat then 0 else 1))) ∧
     (Issues 0x09 s n w → exec (.shl n) s = .next (result s n w (BitVec.ofNat 32 (a.toNat * 2 ^ (b.toNat % 32))))) ∧
     (Issues 0x0A s n w → exec (.shr n) s = .next (result s n w (BitVec.ofNat 32 (a.toNat / 2 ^ (b.toNat % 32))))) ∧
     (Issues 0x0B s n w → exec (.sha n) s = .next (result s n w (BitVec.ofInt 32 (a.toInt / 2 ^ (b.toNat % 32)))))) ∧
  (∀ (s : State) (n : Fin 128) (w : W32),
     let a := r2 s n w
     let k : Nat := w.toNat % 2 ^ 18
     (Issues 0x10 s n w → exec (.addk n) s =
       .next (result s n w (a + BitVec.ofInt 32 (if k < 2 ^ 17 then (k : Int) else (k : Int) - 2 ^ 18)))) ∧
     (Issues 0x11 s n w → exec (.andk n) s = .next (result s n w (a &&& BitVec.ofNat 32 k))) ∧
     (Issues 0x12 s n w → exec (.iork n) s = .next (result s n w (a ||| BitVec.ofNat 32 k))) ∧
     (Issues 0x13 s n w → exec (.eork n) s = .next (result s n w (a ^^^ BitVec.ofNat 32 k))) ∧
     (Issues 0x14 s n w → exec (.high n) s = .next (result s n w (BitVec.ofNat 32 (k * 2 ^ 14)))) ∧
     (Issues 0x15 s n w → exec (.shlk n) s = .next (result s n w (BitVec.ofNat 32 (a.toNat * 2 ^ k)))) ∧
     (Issues 0x16 s n w → exec (.shrk n) s = .next (result s n w (BitVec.ofNat 32 (a.toNat / 2 ^ k)))) ∧
     (Issues 0x17 s n w → exec (.shak n) s = .next (result s n w (BitVec.ofInt 32 (a.toInt / 2 ^ k))))) ∧
  (∀ (s : State) (n : Fin 128) (w : W32),
     let e := Engines.engine s n
     let a := r1 s n w
     let b := r2 s n w
     let go (c : Prop) [Decidable c] := retired s n e (if c then taken s n w else next s n)
     (Issues 0x18 s n w → exec (.jeq n) s = .next (go (a = b))) ∧
     (Issues 0x19 s n w → exec (.jne n) s = .next (go (a ≠ b))) ∧
     (Issues 0x1A s n w → exec (.jls n) s = .next (go (a.toInt < b.toInt))) ∧
     (Issues 0x1B s n w → exec (.jgs n) s = .next (go (a.toInt ≥ b.toInt))) ∧
     (Issues 0x1C s n w → exec (.jlu n) s = .next (go (a.toNat < b.toNat))) ∧
     (Issues 0x1D s n w → exec (.jgu n) s = .next (go (a.toNat ≥ b.toNat))) ∧
     (Issues 0x1E s n w → exec (.call n) s =
       .next (retired s n (Engines.put (Engines.f1 w) (next s n) e) (taken s n w))) ∧
     (Issues 0x1F s n w → exec (.jumpr n) s =
       .next (retired s n (Engines.put (Engines.f1 w) (next s n) e) ((b + 4 * Engines.sext w) &&& 0xFFFFFFFC)))) ∧
  (∀ (e : Engine) (g h : Nat) (v : W32),
     Engines.get e 0 = 0 ∧ Engines.put 0 v e = e ∧ (g ≠ 0 → Engines.get (Engines.put g v e) g = v) ∧
     (h ≠ g → Engines.get (Engines.put g v e) h = Engines.get e h) ∧
     (g ≠ 0 → Engines.pends (Engines.put g v e) g = false))

/-- (1) R237, R238, R240: the loads, little-endian, at A plus the sign-extended immediate; the conditions are those under which
no access fault of R262 arises.

(2) R237, R238, R240: the stores write their bytes into the data scratchpad, and no other byte anywhere. -/
def Obligations.PrismMemory : Prop :=
  (∀ (s : State) (n : Fin 128) (w : W32),
     let a := Engines.address (Engines.engine s n) w
     let x (i : Nat) := byteAt s n (a + i)
     (Issues 0x20 s n w → a % 4 = 0 → a < 0x18000 →
       exec (.ldw n) s = .next (result s n w (x 3 ++ x 2 ++ x 1 ++ x 0))) ∧
     (Issues 0x21 s n w → a < 0x18000 → exec (.ldb n) s = .next (result s n w ((x 0).setWidth 32))) ∧
     (Issues 0x22 s n w → a % 8 = 0 → a < 0x18000 → Engines.f1 w % 2 = 0 →
       exec (.ldp n) s = .next (retired s n
         (Engines.put (Engines.f1 w + 1) (x 7 ++ x 6 ++ x 5 ++ x 4)
           (Engines.put (Engines.f1 w) (x 3 ++ x 2 ++ x 1 ++ x 0) (Engines.engine s n))) (next s n)))) ∧
  (∀ (s : State) (n : Fin 128) (w : W32),
     let a := Engines.address (Engines.engine s n) w
     let v := (r1 s n w).toNat
     (Issues 0x24 s n w → a % 4 = 0 → a < 0x10000 → ∃ t, exec (.stw n) s = .next t ∧ Stored s t n a 4 v) ∧
     (Issues 0x25 s n w → a < 0x10000 → ∃ t, exec (.stb n) s = .next t ∧ Stored s t n a 1 v) ∧
     (Issues 0x26 s n w → a % 8 = 0 → a < 0x10000 → Engines.f1 w % 2 = 0 →
       ∃ t, exec (.stp n) s = .next t ∧
         Stored s t n a 8 (v + 2 ^ 32 * (Engines.get (Engines.engine s n) (Engines.f1 w + 1)).toNat)))

/-- R242 to R244, R249, R250, R253: a tagged instruction issues at once under the lowest free tag, with its destinations marked
pending, and goes on. -/
def Obligations.PrismTaggedIssue : Prop :=
  ∀ (s : State) (n : Fin 128) (w : W32) (t : Fin 8),
    let e := Engines.engine s n
    let d := Engines.f1 w
    let x := Engines.f2 w
    let q : BitVec 12 := BitVec.ofNat 12 ((r3 s n w).toNat + w.toNat % 1024)
    let f (g : Nat) : Fin 16 := Fin.ofNat 16 g
    LowestFree e t →
    (Issues 0x28 s n w → x % 2 = 0 → exec (.qpush n) s =
      .next (issued s n (marked d t e) t (.queue .push q (Engines.getPair e x) none (f d)))) ∧
    (Issues 0x29 s n w → x % 2 = 0 → exec (.qpushc n) s =
      .next (issued s n (marked d t e) t (.queue .pushClose q (Engines.getPair e x) none (f d)))) ∧
    (Issues 0x2A s n w → d % 2 = 0 → exec (.qpop n) s =
      .next (issued s n (marked x t (marked (d + 1) t (marked d t e))) t (.queue .pop q 0 (some (f d)) (f x)))) ∧
    (Issues 0x2B s n w → d % 2 = 0 → exec (.qpeek n) s =
      .next (issued s n (marked x t (marked (d + 1) t (marked d t e))) t (.queue .peek q 0 (some (f d)) (f x)))) ∧
    (Issues 0x2C s n w → exec (.qabort n) s = .next (issued s n (marked d t e) t (.queue .abort q 0 none (f d)))) ∧
    (Issues 0x2E s n w → exec (.bset n) s =
      .next (issued s n (marked x t (marked d t e)) t (.bank false (r3 s n w) (r4 s n w) (f x) (f d)))) ∧
    (Issues 0x2F s n w → exec (.bclr n) s =
      .next (issued s n (marked x t (marked d t e)) t (.bank true (r3 s n w) (r4 s n w) (f x) (f d)))) ∧
    (Issues 0x32 s n w → x % 2 = 0 → exec (.gent n) s =
      .next (issued s n (marked d t e) t (.entry (r3 s n w) (Engines.getPair e x) (f d)))) ∧
    (Issues 0x33 s n w → exec (.garm n) s =
      .next (issued s n (marked d t e) t (.arm (r3 s n w) (r4 s n w) (f d))))

/-- (1) R251, R252: TRD and the two ends of TWAIT; the wait ends at once when its target has passed, and otherwise when the
target is reached. The lateness in D saturates. The target of an engine that does not wait is never reached.

(2) R240, R246, R255, R256, R272: SEND, RECV, POLL, EVR, FENCE, RDSPEC and HALT; SEND waits for an empty send buffer, RECV for a full
receive buffer, and FENCE for the last tag.

The model's choices in it: log entry 39. -/
def Obligations.PrismOther : Prop :=
  (∀ (s : State) (n : Fin 128) (w : W32),
     let e := Engines.engine s n
     let l := Ops.launch s
     let late (x : W64) : W32 := BitVec.ofNat 32 (min (l - x).toNat 0xFFFFFFFF)
     (Issues 0x30 s n w → Engines.f1 w % 2 = 0 → exec (.trd n) s = .next (retired s n
       (Engines.put (Engines.f1 w + 1) (l.extractLsb' 32 32) (Engines.put (Engines.f1 w) (l.extractLsb' 0 32) e))
       (next s n))) ∧
     (∀ x, x = e.twait.getD (Engines.getPair e (Engines.f2 w)) → Issues 0x31 s n w → Engines.f2 w % 2 = 0 →
       (0 ≤ (l - x).toInt → exec (.twait n) s = .next (result s n w (late x))) ∧
       ((l - x).toInt < 0 → exec (.twait n) s = .next
         { s with out := [], eng := { s.eng with engines :=
           (Table.put (fun _ => {}) s.eng.engines n { e with twait := some x }) } })) ∧
     (Awake s → s.modes.cur ≠ .m5 ∨ e.state ≠ .running ∨ e.twait = none →
       exec (.twaitTargetReached n) s = .next (after s (Ops.begin s))) ∧
     (∀ x, Runs s → e.state = .running → e.twait = some x →
       (0 ≤ (l - x).toInt → exec (.twaitTargetReached n) s =
         .next (result s n (Engines.imem s n (e.pc.toNat / 4)) (late x))) ∧
       ((l - x).toInt < 0 → exec (.twaitTargetReached n) s = .next
         { s with out := [], eng := { s.eng with engines := Table.put (fun _ => {}) s.eng.engines n e } }))) ∧
  (∀ (s : State) (n : Fin 128) (w : W32),
     let e := Engines.engine s n
     let u := Ops.begin s
     let port := 4 * n.val + w.toNat % 4
     let p := Engines.port s port
     let pair := Engines.getPair e (Engines.f2 w)
     (Issues 0x34 s n w → Engines.f2 w % 2 = 0 → p.send = none → exec (.send n) s = .next (after s
       (Engines.retire n (next s n) e (Pins.engineSend n (w.toNat % 4) pair
         (Fabric.pump (.port port) (Engines.setPort port { p with send := some pair, last := pair, offer := {} } u)))))) ∧
     (∀ v, Issues 0x34 s n w → Engines.f2 w % 2 = 0 → p.send = some v → exec (.send n) s = .next u) ∧
     (∀ v, Issues 0x35 s n w → Engines.f1 w % 2 = 0 → Engines.recvOff s n (w.toNat % 4) = false → p.recv = some v →
       exec (.recv n) s = .next (after s (Engines.retire n (next s n)
         (Engines.put (Engines.f1 w + 1) (v.extractLsb' 32 32) (Engines.put (Engines.f1 w) (v.extractLsb' 0 32) e))
         (Engines.setPort port { p with recv := none } u)))) ∧
     (Issues 0x35 s n w → Engines.f1 w % 2 = 0 → Engines.recvOff s n (w.toNat % 4) = false → p.recv = none →
       exec (.recv n) s = .next u) ∧
     (Issues 0x36 s n w → exec (.poll n) s = .next (result s n w (Engines.pollWord s n))) ∧
     (∀ k : Fin 4, (Engines.pollWord s n).getLsbD k = (Engines.port s (4 * n.val + k)).recv.isSome ∧
       (Engines.pollWord s n).getLsbD (4 + k) = (Engines.port s (4 * n.val + k)).send.isNone ∧
       (Engines.pollWord s n).getLsbD (8 + k) = Engines.recvOff s n k ∧ (Engines.pollWord s n).toNat < 2 ^ 12) ∧
     (Issues 0x38 s n w → exec (.evr n) s = .next (after s
       (Engines.cause n (w.toNat % 65536 * 65536) (retired s n e (next s n))))) ∧
     (Issues 0x39 s n w → e.tags = [] → exec (.fence n) s = .next (retired s n e (next s n))) ∧
     (Issues 0x39 s n w → e.tags ≠ [] → exec (.fence n) s = .next u) ∧
     (Issues 0x3A s n w →
       (w.toNat % 2 ^ 18 = 0 → exec (.rdspec n) s = .next (result s n w (BitVec.ofNat 32 n))) ∧
       (w.toNat % 2 ^ 18 = 1 → exec (.rdspec n) s = .next (result s n w (BitVec.ofNat 32 (Engines.physical s n)))) ∧
       (w.toNat % 2 ^ 18 = 2 → exec (.rdspec n) s = .next (result s n w e.version)) ∧
       (w.toNat % 2 ^ 18 = 3 → exec (.rdspec n) s = .next (result s n w (BitVec.ofNat 32 (Engines.tagMask e)))) ∧
       (w.toNat % 2 ^ 18 = 4 → exec (.rdspec n) s = .next (result s n w (e.retired.extractLsb' 0 32))) ∧
       (w.toNat % 2 ^ 18 = 5 → exec (.rdspec n) s = .next (result s n w (e.retired.extractLsb' 32 32)))) ∧
     (Issues 0x3B s n w → exec (.halt n) s = .next (after s
       (Engines.cause n 2 (retired s n { e with state := .halted } (next s n))))))

/-- (1) R237, R238, R241, R262: the faults, for every instruction. The instruction is not executed: the engine stops in Fault with its
cause and its pc kept, no register, no pc and no memory of it changes, and cause 0 becomes pending.

(2) R242, R243, R259: when an instruction waits, or nothing happens: the engine does not run, the word at its pc is of another OP, a
source is pending, or no tag is free for a request. -/
def Obligations.PrismFaults : Prop :=
  (∀ (s : State) (n : Fin 128) (w : W32), Up s →
     let e := Engines.engine s n
     let faults (c : Instr) (k : Nat) : Prop := exec c s = .next (after s (Engines.cause n 1
       (Engines.setEngine n { e with state := .fault, faultCause := k, faultPc := e.pc, twait := none } (Ops.begin s))))
     e.state = .running → Engines.imem s n (e.pc.toNat / 4) = w →
     (0x7FFC < e.pc.toNat → ∀ x ∈ instructions n, faults x.2 7) ∧
     (e.pc.toNat ≤ 0x7FFC → Engines.illegal w = true → ∀ x ∈ instructions n, faults x.2 1) ∧
     (∀ x ∈ transfers n, Issues x.1 s n w →
       let c := x.2.1
       let k := x.2.2.1
       let a := Engines.address e w
       (a % k ≠ 0 → faults c 2) ∧
       (a % k = 0 → 0x18000 ≤ a → faults c 3) ∧
       (a % k = 0 → 0x10000 ≤ a → a < 0x18000 → x.2.2.2 = true → faults c 4) ∧
       (a % k = 0 → a < (if x.2.2.2 then 0x10000 else 0x18000) → Engines.oddPair w = true → faults c 5)) ∧
     (∀ x ∈ instructions n, x.1 ∉ [0x22, 0x26] → Issues x.1 s n w → Engines.oddPair w = true → faults x.2 5) ∧
     (Issues 0x35 s n w → Engines.f1 w % 2 = 0 → Engines.recvOff s n (w.toNat % 4) = true → faults (.recv n) 6)) ∧
  (∀ (s : State) (n : Fin 128) (w : W32), Awake s →
     let e := Engines.engine s n
     let waits (c : Instr) : Prop := exec c s = .next (after s (Ops.begin s))
     ∀ x ∈ instructions n,
       (s.modes.cur ≠ .m5 ∨ e.state ≠ .running → waits x.2) ∧
       (s.modes.cur = .m5 → e.state = .running → e.pc.toNat ≤ 0x7FFC → Engines.imem s n (e.pc.toNat / 4) = w →
         Engines.illegal w = false →
         (Engines.op w ≠ x.1 → waits x.2) ∧
         ((∃ g ∈ Engines.sources w, Engines.pends e g = true) → waits x.2)) ∧
       (Issues x.1 s n w → x.1 ∈ [0x28, 0x29, 0x2A, 0x2B, 0x2C, 0x2E, 0x2F, 0x32, 0x33] → Engines.oddPair w = false →
         (∀ t : Fin 8, ∃ y ∈ e.tags, y.tag = t) → waits x.2))

/-- (1) R242 to R248, R250, R253: a request in flight completes at its target in M5: what it asked is done, the destinations that
still carry its mark are written, and its tag is freed. While its target does not answer, or an earlier request to the same target is
in flight, it stays in flight, and so it does outside M5; a tag that is not in flight completes nothing.

(2) R247, R248, R250, R253: what a request does at its target: the status word of a queue's answer; a bit-set or bit-clear of a
half-word, made when the array's turn has come round to it, refused by an Off or retired bank and at an address that does not exist,
and held while the bank cannot serve it; a schedule entry written to a free bank of a gate; a commit and its two refusals.

The model's choices in it: log entries 24, 31 and 39. -/
def Obligations.TagCompletes : Prop :=
  (∀ (s : State) (n : Fin 128) (t : Fin 8) (f : PoolFault) (q : TagReq) (x : State), Up s →
     (Engines.engine s n).tags.find? (fun y => y.tag == t) = some { tag := t, req := q } →
     (Engines.firstAtTarget (Engines.engine s n) { tag := t, req := q } = true →
       (∀ l : List (Nat × W32), Engines.perform n q f (Ops.begin s) = (some l, x) →
         exec (.tagCompletion n t f) s = .next (after s
           (let e := l.foldl (fun e g => Engines.land t g.1 g.2 e) (Engines.engine x n)
            Engines.setEngine n { e with
              tags := e.tags.filter fun y => y.tag != t, marks := e.marks.filter fun m => m.2 != t } x))) ∧
       (Engines.perform n q f (Ops.begin s) = (none, x) → exec (.tagCompletion n t f) s = .next (after s x))) ∧
     (Engines.firstAtTarget (Engines.engine s n) { tag := t, req := q } = false →
       exec (.tagCompletion n t f) s = .next (after s (Ops.begin s)))) ∧
  (∀ (s : State) (n : Fin 128) (t : Fin 8) (f : PoolFault), Awake s →
     s.modes.cur ≠ .m5 ∨ (Engines.engine s n).tags.find? (fun y => y.tag == t) = none →
     exec (.tagCompletion n t f) s = .next (after s (Ops.begin s))) ∧
  (∀ (e : Engine) (t : Fin 8) (g : Nat) (v : W32),
     ((∀ m ∈ e.marks, m.1.val = g → m.2 ≠ t) → Engines.land t g v e = e) ∧
     ((∃ m ∈ e.marks, m.1.val = g ∧ m.2 = t) → Engines.land t g v e = Engines.put g v e)) ∧
  (∀ (s : State) (n : Nat) (f : PoolFault) (o : QOp) (q : BitVec 12) (d : W64) (pair : Option (Fin 16)) (st : Fin 16)
     (r : QResp) (x : State),
     let one (b : Bool) : BitVec 1 := BitVec.ofBool b
     (Queues.operate (0x800 + n) { op := o, queue := q, data := d } f s = (some r, x) →
       Engines.perform n (.queue o q d pair st) f s =
         (some ((match pair with
             | none => []
             | some p => [(p.val, r.data.extractLsb' 0 32), (p.val + 1, r.data.extractLsb' 32 32)]) ++
           [(st.val, (0 : BitVec 20) ++ one r.refused ++ (if r.refused then r.data.extractLsb' 0 3 else 0) ++ (0 : BitVec 1) ++
             one r.flushed ++ one r.poison ++ one r.eop ++ one r.sop ++ one r.valid ++ (0 : BitVec 2))]),
          Queues.wakeConsumer q.toNat x)) ∧
     (Queues.operate (0x800 + n) { op := o, queue := q, data := d } f s = (none, x) →
       Engines.perform n (.queue o q d pair st) f s = (none, x))) ∧
  (∀ (s : State) (n : Nat) (f : PoolFault) (clear : Bool) (a m p : W32) (v : W64) (old st : Fin 16),
     let b := a.toNat / 8192 % 2048
     let w := a.toNat % 8192
     let hi := a.getLsbD 24
     let mask : W64 := if hi then m ++ (0 : W32) else (0 : W32) ++ m
     let half (d : W64) : W32 := if hi then d.extractLsb' 32 32 else d.extractLsb' 0 32
     let y := Banks.turn b s
     let bits := Engines.perform n (.bank clear a m old st) f s
     let op : BitVec 2 := if clear then 3 else 2
     (2 ^ 25 ≤ a.toNat → bits = (some [(old.val, 0), (st.val, BitVec.ofNat 32 (2 ^ 11 + 2 * 2 ^ 8))], s)) ∧
     (a.toNat < 2 ^ 25 → Ops.refuses s b = true →
       bits = (some [(old.val, 0), (st.val, BitVec.ofNat 32 (2 ^ 11))], Ops.refuse Ops.raise b s)) ∧
     (a.toNat < 2 ^ 25 → Ops.refuses s b = false → Banks.entered y b = true →
       (let r := Flags.access op mask (Ops.word y b w)
        bits = (some [(old.val, half r.data), (st.val, if r.bad then 32 else if r.corrected then 2 else 0)],
          accessed b { op := op, addr := BitVec.ofNat 13 w, data := mask } (Ops.word y b w) y)) ∧
       (∀ d, Ops.word y b w = Flags.encode d → bits = (some [(old.val, half d), (st.val, 0)],
         Ops.setWord b w (Flags.encode (if clear then d &&& ~~~mask else d ||| mask)) y))) ∧
     (a.toNat < 2 ^ 25 → Ops.refuses s b = false → Banks.entered y b = false → bits = (none, Ops.wakeBank b true y)) ∧
     (BankOn s b → Ops.arrayFree (Ops.bank s b) = true → Banks.entered y b = true ∧ ∀ i, Ops.word y b i = Ops.word s b i) ∧
     (let entry := Engines.perform n (.entry p v st) f s
      let free : Prop := (Time.sched (Time.gate s (p.toNat % 8192)) (p.getLsbD 13)).phase = .free
      (2 ^ 20 ≤ p.toNat → entry = (some [(st.val, BitVec.ofNat 32 (2 ^ 11 + 2 * 2 ^ 8))], s)) ∧
      (p.toNat < 2 ^ 20 → free → entry =
        (some [(st.val, 0)], Time.putEntries (p.toNat % 8192) (p.getLsbD 13) (p.toNat / 2 ^ 14 % 64) [v] s)) ∧
      (p.toNat < 2 ^ 20 → ¬ free → entry = (some [(st.val, BitVec.ofNat 32 (2 ^ 11 + 2 ^ 8))], s))) ∧
     (let arm := Engines.perform n (.arm p m st) f s
      let commit := Time.commit (p.toNat % 8192) (p.getLsbD 13) m.toNat s
      (2 ^ 20 ≤ p.toNat → arm = (some [(st.val, BitVec.ofNat 32 (2 ^ 11 + 2 * 2 ^ 8))], s)) ∧
      (∀ x, p.toNat < 2 ^ 20 → commit = .inr x → arm = (some [(st.val, 0)], x)) ∧
      (p.toNat < 2 ^ 20 → commit = .inl 5 → arm = (some [(st.val, BitVec.ofNat 32 (2 ^ 11 + 2 ^ 8))], s)) ∧
      (p.toNat < 2 ^ 20 → commit = .inl 4 → arm = (some [(st.val, BitVec.ofNat 32 (2 ^ 11 + 2 * 2 ^ 8))], s))))

/-- (1) R255, R386, R447: a channel port captures a word when its receive channels, and the pins that replace some of them, all hold a
token and its buffer is empty, and it acknowledges them together, in M5 and unless its engine is lost; otherwise nothing happens. Its send channels return
to spacer one by one as they are acknowledged.

(2) R260, R266: START, STOP and RESUME of an engine: outside M5 the wrong-mode error; the busy error for START with a tag in flight
and for all three during a migration or an install; the state each needs and what it does; value refused in any other state. -/
def Obligations.EngineCommands : Prop :=
  (∀ (s : State) (p : PortRef), Awake s →
     let u := Ops.begin s
     let i := Operands.portNo p
     let k : Taker := match p with
       | .engine r => .enginePort r
       | .host r => .hostPort r
     let pins : List (Nat × Nat) := match p with
       | .engine r => Pins.engineInputs s (r.val / 4) (r.val % 4)
       | .host _ => []
     let lost : Prop := match p with
       | .engine r => (Engines.engine s (r.val / 4)).state = .lost
       | .host _ => False
     let channels := (Frames.inputs s.fab.frames k).filter fun e => !pins.any fun y => y.1 == e.1
     let pin (y : Nat) : Option (BitVec 256) :=
       if Pins.onSlot s y = true then none else (Table.get (fun _ => ({} : WordOut)) s.pinIn y).word
     (∀ a b : List (Nat × Bool), s.modes.cur = .m5 → ¬ lost → (Engines.port s i).recv = none → Fabric.ack s k = false →
       channels ≠ [] ∨ pins ≠ [] →
       List.Forall₂ (fun e x => x.1 = e.1 ∧ Fabric.seen s k e = .valid x.2) channels a →
       List.Forall₂ (fun y x => x.1 = y.1 ∧ (pin y.2).map (·.getLsbD 0) = some x.2) pins b →
       exec (.portReceiveCapture p) s = .next (after s (Pins.takeEngine pins (Engines.setPort i
         { Engines.port s i with recv := some (BitVec.ofNat 64 (Fabric.gather (a ++ b))) }
         (if channels = [] then u else Fabric.setAck k true u))))) ∧
     (s.modes.cur ≠ .m5 ∨ lost ∨ (Engines.port s i).recv ≠ none ∨ Fabric.ack s k = true ∨ (channels = [] ∧ pins = []) ∨
         (∃ e ∈ channels, ∀ v, Fabric.seen s k e ≠ .valid v) ∨ (∃ y ∈ pins, pin y.2 = none) →
       exec (.portReceiveCapture p) s = .next (after s u)) ∧
     exec (.portSendAcknowledged p) s = .next (after s
       ((List.range 64).foldl (fun x j => Fabric.acknowledge (Fabric.chanOf (.port i) j) x) u)) ∧
     (∀ j, j < 64 → let c := Fabric.chanOf (.port i) j
       Fabric.rails s c = .spacer ∨ Fabric.acked s c = false → Fabric.acknowledge c s = s)) ∧
  (∀ (s : State) (t : Transport) (n : Fin 128),
     let e := Engines.engine s n
     let i := 0x6100 + n.val
     let does (c : Instr) (k : Nat) (e' : Engine) : Prop :=
       Writes s t i 1 (le 1 k) → exec c s = .next (wrote s t i 1 (le 1 k) (Engines.setEngine n e' (counted s)))
     let fails (c : Instr) (k err : Nat) : Prop :=
       Writes s t i 1 (le 1 k) → exec c s = .next (after s (answered s t 2 i 1 (le 1 k) err [] (counted s)))
     let m5 : Prop := s.modes.cur = .m5
     let busy := Engines.busyWith s n
     (¬ m5 → fails (.start t n) 1 3 ∧ fails (.stop t n) 2 3 ∧ fails (.resume t n) 3 3) ∧
     (m5 → busy = true → fails (.start t n) 1 5 ∧ fails (.stop t n) 2 5 ∧ fails (.resume t n) 3 5) ∧
     (m5 → busy = false →
       (e.tags ≠ [] → fails (.start t n) 1 5) ∧
       (e.tags = [] →
         ((e.state = .stopped ∨ e.state = .halted ∨ e.state = .fault) →
           does (.start t n) 1 { e with state := .running, regs := [], marks := [], pc := e.entry, twait := none }) ∧
         (e.state ≠ .stopped → e.state ≠ .halted → e.state ≠ .fault → fails (.start t n) 1 4)) ∧
       (e.state = .running → does (.stop t n) 2 { e with state := .stopped, twait := none }) ∧
       (e.state ≠ .running → fails (.stop t n) 2 4) ∧
       ((e.state = .stopped ∨ e.state = .halted) → does (.resume t n) 3 { e with state := .running }) ∧
       (e.state ≠ .stopped → e.state ≠ .halted → fails (.resume t n) 3 4)))

/-- (1) R265, R266, R381, R385, R396: the staging buffer, its two ways in and its clearing, each refused, or discarded and counted,
during an install; past the window nothing is mapped.

(2) R265, R266: an install: its checks in order and a failed one, which changes no engine; the targets of one that passes, and its
end, which waits for a migration of a target; without an install nothing ends.

(3) R267 to R269, R492: in M5, with a period, a rotation looks at each group in turn, and breaks guarantee 4 for one that it passes over because an engine
in TWAIT held it back; the end of a migration's copy moves the engine onto its target, unless a rotation is held back or the group has
no migration.

The model's choices in it: log entries 40 and 41. -/
def Obligations.EngineImages : Prop :=
  (∀ (s : State) (t : Transport),
     let u := counted s
     let i := s.eng.installer
     (∀ (off : W32) (d : List Byte), Writes s t 0x6000 1 (le 4 off.toNat ++ d) →
       let fails (err : Nat) : Prop := exec (.stagingWrite t off d) s =
         .next (after s (answered s t 2 0x6000 1 (le 4 off.toNat ++ d) err [] u))
       (Engines.installing s = false → off.toNat + d.length ≤ 99328 → exec (.stagingWrite t off d) s =
         .next (wrote s t 0x6000 1 (le 4 off.toNat ++ d) (Engines.setInstaller (Engines.stage off.toNat d i) u))) ∧
       (Engines.installing s = false → 99328 < off.toNat + d.length → fails 4) ∧ (Engines.installing s = true → fails 5)) ∧
     (∀ (off : BitVec 17) (d : List Byte), Awake s →
       let v := Ops.toL0 Ops.raise (Ops.begin s)
       let makes (x : State) : Prop := exec (.imageWindowWrite off d) s = .next (after s x)
       (HostLink.up s = true →
         (off.toNat + d.length ≤ 99328 → Engines.installing s = false →
           makes (Engines.setInstaller (Engines.stage off.toNat d i) v)) ∧
         (off.toNat + d.length ≤ 99328 → Engines.installing s = true → makes (Ops.bump 0x6000 8 v)) ∧
         (99328 < off.toNat + d.length → makes (Ops.bump 0x8000 7 v))) ∧
       (HostLink.up s = false → makes (Ops.begin s))) ∧
     (Writes s t 0x6000 2 (le 4 0) → Engines.installing s = false → exec (.stagingClear t) s =
       .next (wrote s t 0x6000 2 (le 4 0) (Engines.setInstaller { i with staged := [], stagedLen := 0 } u))) ∧
     (Writes s t 0x6000 2 (le 4 0) → Engines.installing s = true → exec (.stagingClear t) s =
       .next (after s (answered s t 2 0x6000 2 (le 4 0) 5 [] u))) ∧
     (∀ (off : Nat) (d : List Byte) (k : Nat), 0 < d.length →
       (Engines.stage off d i).stagedLen = max i.stagedLen (off + d.length) ∧
       Table.get (fun _ => 0) (Engines.stage off d i).staged k =
         if off ≤ k ∧ k < off + d.length then d.getD (k - off) 0 else Table.get (fun _ => 0) i.staged k)) ∧
  (∀ (s : State) (t : Transport) (m : BitVec 128),
     let u := counted s
     let i := s.eng.installer
     let targets := (List.range 128).filter fun n => m.getLsbD n
     let fails (err : Nat) : Prop := exec (.install t m) s =
       .next (after s (answered s t 2 0x6000 3 (le 16 m.toNat) err [] u))
     (Writes s t 0x6000 3 (le 16 m.toNat) →
       (s.modes.cur ≠ .m5 → s.modes.cur ≠ .m7 → fails 3) ∧
       (s.modes.cur = .m5 ∨ s.modes.cur = .m7 → Engines.installing s = true → fails 5) ∧
       (s.modes.cur = .m5 ∨ s.modes.cur = .m7 → Engines.installing s = false →
         (∀ c, Engines.installChecks (Security.slots u) m u = some c → exec (.install t m) s =
           .next (wrote s t 0x6000 3 (le 16 m.toNat) (targets.foldl (fun x n => Engines.cause n 16 x)
             (Engines.setInstaller { i with status := 4, result := c, mask := m } u)))) ∧
         (Engines.installChecks (Security.slots u) m u = none → exec (.install t m) s =
           .next (wrote s t 0x6000 3 (le 16 m.toNat)
             (targets.foldl (fun x n => Engines.setEngine n { Engines.engine x n with state := .installing } x)
               (Engines.setInstaller { i with status := 2, result := 0, mask := m } u)))))) ∧
     (Awake s → i.status ≠ 2 → exec .installComplete s = .next (after s (Ops.begin s))) ∧
     (Awake s → i.status = 2 → i.mask = m →
       (let moving := s.eng.migrations.any fun x => targets.contains x.2.engine
        (moving = false → exec .installComplete s = .next (after s
          (let x := targets.foldl (fun x n => Engines.load1 n x) (Ops.begin s)
           Ops.bump 0x6000 7 (Engines.setInstaller { x.eng.installer with status := 3, result := 0 } x)))) ∧
        (moving = true → exec .installComplete s = .next (after s (Ops.begin s)))))) ∧
  (∀ (s : State) (g : Fin 4), Awake s →
     let u := Ops.begin s
     (s.modes.cur = .m5 → Ops.reg s 0x6000 6 ≠ 0 → exec .rotation s = .next (after s
       (((List.range 4).filter (passedOver s)).foldl (fun x k => Ops.broken 4 2 3 k x)
         ((List.range 4).foldl (fun x k => Engines.rotate k x) u)))) ∧
     (s.modes.cur ≠ .m5 ∨ Ops.reg s 0x6000 6 = 0 → exec .rotation s = .next (after s u)) ∧
     (s.eng.migrations.find? (fun x => x.1 == g.val) = none → exec (.migrationCopyDone g) s = .next (after s u)) ∧
     (s.eng.migrations = [] → passedOver s g = false ∧ Engines.rotate g s = Engines.rotateNext g s) ∧
     (∀ (m : Migration), s.eng.migrations.find? (fun x => x.1 == g.val) = some (g.val, m) →
       (m.forced = true ∨ Engines.heldBack s m.engine = false →
         exec (.migrationCopyDone g) s = .next (after s (Engines.cause m.engine 8
           (let a := Engines.physical s m.engine
            let x := { u with eng := { s.eng with
              migrations := s.eng.migrations.filter fun x => x.1 != g.val
              physical := Table.put (fun n => 33 * (n / 32) + n % 32) s.eng.physical m.engine m.target } }
            let y := Engines.setPhys m.target 0 x
            if Engines.physState y a = 4 then y else Engines.setPhys a 1 y)))) ∧
       (m.forced = false → Engines.heldBack s m.engine = true →
         exec (.migrationCopyDone g) s = .next (after s u))))

/-! ### The loader, the keys and scrubbing -/

/-- R41, R275 to R277, R385, R396, R456, R457: what a byte does at a source: one for a source that is not enabled is nothing, one that
is not taken is counted as discarded, the first begins a header, and a later one is taken up to a whole header or frame; the commands
that bring bytes; and the ends of silence.

The model's choices in it: log entries 43, 44 and 51. -/
def Obligations.StreamBytes : Prop :=
  ∀ (s : State) (src : Source) (b : Byte) (d : List Byte),
    let u := Ops.begin s
    let l := s.loader
    let run (x : Loader) : Loader :=
      match src with
      | .aperture => { x with apertureRun := false }
      | .port => { x with portRun := false }
    let add (x : Loader) : Loader :=
      match src with
      | .aperture => { x with aperture := x.aperture ++ [b] }
      | .port => { x with port := x.port ++ [b] }
    let on := Loader.enabled s src = true ∧ Loader.listening s = true
    (Loader.enabled s src = false → Loader.arrive src b s = s) ∧
    (Loader.enabled s src = true → Loader.listening s = false → Loader.arrive src b s = Loader.discard src 1 s) ∧
    (on → l.phase = .idle → Loader.arrive src b s =
      (let x := { s with loader := run { l with phase := .header, src := src, unit := [b] } }
       if s.modes.cur = .m2 then { x with modes := { s.modes with loadDue := some 0x11 } } else x)) ∧
    (on → l.phase = .resync → Loader.arrive src b s = Loader.discard src 1 s) ∧
    (on → l.phase ≠ .idle → l.src ≠ src → Loader.arrive src b s = Loader.discard src 1 s) ∧
    (on → l.phase ≠ .idle → l.phase ≠ .resync → l.src = src →
      (src = .port → 512 ≤ l.port.length → Loader.arrive src b s = Ops.bump 0x9000 6 s) ∧
      (src = .aperture ∨ l.port.length < 512 →
        Loader.arrive src b s = Loader.refill { s with loader := run (add l) })) ∧
    (Awake s →
      (HostLink.up s = true → exec (.streamApertureWrite d) s =
        .next (after s (d.foldl (fun x b => Loader.arrive .aperture b x) (Ops.toL0 Ops.raise u)))) ∧
      (HostLink.up s = false → exec (.streamApertureWrite d) s = .next (after s u)) ∧
      exec (.cfgPortByte (some b)) s = .next (after s (Loader.arrive .port b u)) ∧
      exec (.cfgPortByte none) s =
        .next (after s (Loader.arrive .port (Config.strobedByte s.fresh) { u with fresh := s.fresh + 1 })) ∧
      (l.phase = .idle → exec (.headerFirstByte src b) s = .next (after s (Loader.arrive src b u))) ∧
      (l.phase ≠ .idle → exec (.headerFirstByte src b) s = .next (after s u)) ∧
      exec (.discardRunEnd src) s = .next (after s { u with loader := run l }) ∧
      (l.phase = .resync → l.src = src → exec .loaderResync s = .next (after s
        { u with loader := run { l with phase := .idle } })) ∧
      (l.phase ≠ .resync → exec .loaderResync s = .next (after s u)))

/-- (1) R293 to R295, R308: a whole header is accepted or rejected, with its FRAMES in 0x2000.04 either way; a part of one waits.

(2) R280, R284, R285, R295: a whole frame: discarded and counted while another one is awaited again, refused for its address, sent
again up to twice after a CRC that does not match, failed at the third, or written, with the first CRC and the first invalid payload
recorded where the header puts those checks at the end.

(3) R295, R299, R309: silence, an abort, and how a load fails; the writes of 0x2000.01 and 0x2000.08 that are refused.

The model's choices in it: log entries 19 and 43. -/
def Obligations.LoadFrames : Prop :=
  (∀ (s : State), Awake s → let f := s.loader.unit
     (s.loader.phase = .header → 512 ≤ f.length →
       (Loader.headerChecks f s = none →
         exec .streamHeader s = .next (after s (Loader.refill (Loader.accept (Loader.parse f) (Ops.begin s))))) ∧
       (∀ c, Loader.headerChecks f s = some c → exec .streamHeader s =
         .next (after s (Loader.fail c 0 (Ops.setReg 0x2000 4 (Ops.le ((f.drop 20).take 4)) (Ops.begin s)))))) ∧
     (s.loader.phase ≠ .header ∨ f.length < 512 → exec .streamHeader s = .next (after s (Ops.begin s)))) ∧
  (∀ (s : State) (l : Load), Awake s → s.loader.load = some l →
     let u := Ops.begin s
     let f := s.loader.unit
     let a := Ops.le (f.take 8)
     let cipher := (f.drop 8).take 512
     let plain := if l.header.enc = 0 then cipher
       else Crypto.gcmDecryptFrame (Loader.keyOf s l.header.enc) l.header.iv l.accepted cipher
     let v := BitVec.ofNat 4096 (Ops.le plain)
     let good := Ops.le (f.drop 520) = (Crypto.crc32c (f.take 8 ++ plain)).toNat
     let bad := Loader.invalidFrame l.header.facetOnly a v s
     let makes (x : State) : Prop := exec .frame s = .next (after s x)
     let elsewhere := l.header.facetOnly = true ∧ (Loader.typeOf a = 1 ∨ Loader.typeOf a = 2) ∧
       ¬ (Loader.dieOf a = l.header.facet / 128 ∧ Loader.localOf a = l.header.facet % 128)
     (524 ≤ f.length → s.loader.phase = .resend → a ≠ l.rejected →
       makes (Loader.refill (Ops.add 0x2000 0x0B 32 524 { u with loader := { s.loader with unit := [] } }))) ∧
     (524 ≤ f.length → s.loader.phase = .frames ∨ s.loader.phase = .resend ∧ a = l.rejected →
       (elsewhere → makes (Loader.fail 0x0A a u)) ∧
       (¬ elsewhere → Loader.badAddress l a = true → makes (Loader.fail 0x09 a u)) ∧
       (¬ elsewhere → Loader.badAddress l a = false →
         (¬ good → l.header.perFrame = true → l.tries ≠ 2 → makes (Loader.refill (Ops.raise 354 (Ops.setReg 0x2000 7 a
           { u with loader := { s.loader with
               phase := .resend, unit := [], load := some { l with tries := l.tries + 1, rejected := a } } })))) ∧
         (¬ good → l.header.perFrame = true → l.tries = 2 → makes (Loader.fail 0x0B a u)) ∧
         (good → l.header.perFrame = true → bad = true → makes (Loader.fail 0x09 a u)) ∧
         (good ∧ bad = false ∨ l.header.perFrame = false →
           let l' := { l with
             firstCrc := if good then l.firstCrc else some (l.firstCrc.getD a)
             firstInvalid := if bad then some (l.firstInvalid.getD a) else l.firstInvalid }
           makes (Loader.acceptFrame l' a (Ops.le (f.drop 520)) f plain cipher v u)))) ∧
     (f.length < 524 ∨ s.loader.phase ≠ .frames ∧ s.loader.phase ≠ .resend → makes u)) ∧
  (∀ s : State, Awake s → s.loader.load = none → exec .frame s = .next (after s (Ops.begin s))) ∧
  (∀ (s : State) (l : Load) (a crc : Nat) (f plain cipher : List Byte) (v : BitVec 4096),
     let x := Loader.acceptFrame l a crc f plain cipher v s
     let r := Loader.regionOf a
     Ops.reg x 0x2000 3 = l.accepted + 1 ∧
     (l.accepted + 1 = l.header.frames → x.loader.phase = .endChecks ∧ (s.modes.cur = .m3 → x.modes.loadDue = some 0x12)) ∧
     (Loader.typeOf a = 1 → (Loader.facet s r).state ≠ .retired → Loader.invalidFrame l.header.facetOnly a v s = false →
       Table.get (fun _ => 0) (if l.header.facetOnly then x.fab.incoming else x.fab.frames)
         (Frames.key r (Loader.columnOf a) (Loader.minorOf a)) = v)) ∧
  (∀ (s : State), Awake s →
     (s.loader.phase = .header ∨ s.loader.phase = .frames ∨ s.loader.phase = .resend →
       exec .loadSilence s = .next (after s (Loader.fail 0x0C 0 (Ops.begin s)))) ∧
     (s.loader.phase ≠ .header → s.loader.phase ≠ .frames → s.loader.phase ≠ .resend →
       exec .loadSilence s = .next (after s (Ops.begin s)))) ∧
  (∀ (s : State) (c k : Nat),
     let b := Ops.bump 0x2000 0x0A (Ops.setReg 0x2000 6 k (Ops.setReg 0x2000 5 c s))
     let due (x : State) : State := { x with modes := { x.modes with failDue :=
       match x.modes.cur with
       | .m3 => some (if c = 0x0E then 0x21 else 0x40)
       | .m4 => some (if c = 0x0E then 0x21 else 0x41)
       | _ => x.modes.failDue } }
     (∀ l, s.loader.load = some l → l.header.facetOnly = true → Loader.fail c k s =
       Loader.resynchronise (Ops.raise 353 (due (Loader.abortFacet l.header.facet l.banks b)))) ∧
     (Unheard s 353 → Loader.partialOf s = none → s.loader.aperture = [] → s.loader.port = [] →
       Loader.fail c k s = { due (rawSet 353 b) with
         loader := { s.loader with phase := .resync, unit := [], load := none } })) ∧
  (∀ (s : State) (t : Transport) (v : Byte),
     (Writes s t 0x2000 8 (le 1 1) → s.loader.phase = .header ∨ s.loader.load.isSome = true →
       exec (.loadAbort t) s = .next (wrote s t 0x2000 8 (le 1 1) (Loader.fail 0x0D 0 (counted s)))) ∧
     (Writes s t 0x2000 8 (le 1 1) → s.loader.load = none → s.loader.phase ≠ .header →
       exec (.loadAbort t) s = .next (after s (answered s t 2 0x2000 8 (le 1 1) 5 [] (counted s)))) ∧
     (Writes s t 0x2000 1 (le 1 v.toNat) → s.loader.phase ≠ .idle → exec (.write t 0x2000 1 (le 1 v.toNat)) s =
       .next (afterTime s (answered s t 2 0x2000 1 (le 1 v.toNat) 5 [] (counted s)))) ∧
     (Writes s t 0x2000 8 (le 1 v.toNat) → v ≠ 1 → exec (.write t 0x2000 8 (le 1 v.toNat)) s =
       .next (afterTime s (answered s t 2 0x2000 8 (le 1 v.toNat) 4 [] (counted s)))))

/-- (1) R286, R296, R298, R301, R310: the end checks; a load that passes them, a full one with every facet that is not retired loaded
and the release due, a partial one with its facet loaded; and one that fails them.

(2) R312: attestation: a nonce samples the report, refused during a report or a load and for its length, and the report is ready once
it is signed. -/
def Obligations.LoadEnds : Prop :=
  (∀ (s : State) (l : Load), Awake s →
     let u := Ops.begin s
     let hash := BitVec.ofNat 256 (Ops.le (Loader.streamHash l))
     let loaded : Facet := { state := .loaded, hash := hash, version := l.header.version }
     (s.loader.load = some l → s.loader.phase = .endChecks →
       (∀ e, Loader.endChecks l s = some e → exec .endChecksComplete s = .next (after s (Loader.fail e.1 e.2 u))) ∧
       (Loader.endChecks l s = none → l.header.facetOnly = true →
         exec .endChecksComplete s = .next (after s (Loader.finish (Loader.finishPartial l hash u)))) ∧
       (Loader.endChecks l s = none → l.header.facetOnly = false →
         exec .endChecksComplete s = .next (after s (Loader.passFull l u)))) ∧
     (s.loader.load = none ∨ s.loader.phase ≠ .endChecks → exec .endChecksComplete s = .next (after s u)) ∧
     (Loader.endChecks l s = none ↔
       (l.header.perFrame = false → l.firstCrc = none ∧ (Crypto.crcFinal l.crc).toNat = l.header.endCrc ∧
         l.firstInvalid = none) ∧
       (l.header.enc ≠ 0 → Crypto.gcmTag (Loader.keyOf s l.header.enc) l.header.iv l.ghash 36 (512 * l.header.frames) =
         l.header.tag) ∧
       Crypto.pssVerifyHash ((Loader.stagedKey s l.header.signer).take 384) (Loader.streamHash l) l.header.signature = true) ∧
     Loader.facet (Loader.finishPartial l hash u) l.header.facet = loaded ∧
     (Loader.passFull l u).modes.loadDue = some 0x13 ∧
     (∀ r, (∀ e ∈ s.facets, e.1 = r → e.2.state ≠ .retired) → s.facetBase.state ≠ .retired →
       Loader.facet (Loader.passFull l u) r = loaded)) ∧
  (∀ (s : State) (t : Transport) (d : List Byte),
     let fails (err : Nat) : Prop := exec (.attestationStart t d) s =
       .next (after s (answered s t 2 0xC030 1 d err [] (counted s)))
     (Writes s t 0xC030 1 d →
       (d.length ≠ 32 → fails 4) ∧
       (d.length = 32 → s.sec.reportStatus = 1 ∨ s.loader.load.isSome = true → fails 5) ∧
       (d.length = 32 → s.sec.reportStatus ≠ 1 → s.loader.load = none →
         exec (.attestationStart t d) s = .next (wrote s t 0xC030 1 d { counted s with sec :=
           { s.sec with reportStatus := 1, report := Security.reportBody d (counted s) } }))) ∧
     (Awake s →
       (s.sec.reportStatus = 1 → exec .attestationReady s = .next (after s
         (Ops.raise 363 { Ops.begin s with sec := { s.sec with
           reportStatus := 2
           report := s.sec.report ++ le 384 (Config.attestationSignature s.sec.report).toNat } }))) ∧
       (s.sec.reportStatus ≠ 1 → exec .attestationReady s = .next (after s (Ops.begin s)))))

/-- R305 to R307: in M5 the scrubbers read back a frame of a facet that is neither loading nor empty. One that is as it was written
passes; one bit upset is put right from the parities; any other difference that the parities or the golden CRC show is an upset of the
facet, and an entry of the mirror that is uncorrectable or empty is source 361 besides. Otherwise nothing is read.

The model's choices in it: log entry 48. -/
def Obligations.ScrubRepairs : Prop :=
  ∀ (s : State) (f : Fin 393216) (flips : BitVec 4096) (sound : Bool), Awake s →
    let u := Ops.begin s
    let v : BitVec 4096 := Table.get (fun _ => 0) s.fab.frames f
    let r := f.val / 768
    let put (x : BitVec 4096) (y : State) : State :=
      { y with fab := { y.fab with frames := Table.put (fun _ => 0) y.fab.frames f x } }
    let read (x : BitVec 4096) : State := Loader.readBack f (put x u)
    let crc (x : BitVec 4096) := some (Loader.frameCrc (Loader.addressOf f) x)
    let d (x : BitVec 4096) := Loader.parityOf x ^^^ Table.get (fun _ => 0) s.scrub.parity f
    let scrubs (x : BitVec 4096) (y : Bool) (t : State) : Prop := exec (.scrubFrame f x y) s = .next (after s t)
    (s.modes.cur = .m5 → Fabric.draining s = false →
      (Loader.facet s r).state = .loaded ∨ (Loader.facet s r).state = .retired →
      (Loader.golden s f = crc v → Table.get (fun _ => 0) s.scrub.parity f = Loader.parityOf v →
        scrubs 0 true (read v) ∧
        ∀ b : Fin 4096, scrubs (BitVec.twoPow 4096 b) true (Ops.raise 357 (Ops.bump 0x2001 2 (Ops.bump (0x2800 + r) 6
          (Fabric.rewritten r (f.val / 24 % 32) (put v (read (v ^^^ BitVec.twoPow 4096 b)))))))) ∧
      (∀ x, x = v ^^^ flips → (Loader.golden s f).isSome = true → ¬ (d x = 0 ∧ Loader.golden s f = crc x) →
        (∀ b, Loader.crossing (d x) = some b → Loader.golden s f ≠ crc (x ^^^ BitVec.twoPow 4096 b)) →
        scrubs flips true (Loader.upset f (read x))) ∧
      (sound = false ∨ Loader.golden s f = none →
        scrubs flips sound (Loader.upset f (Ops.raise 361 (Ops.bump 0x2001 4 (read (v ^^^ flips))))))) ∧
    (s.modes.cur ≠ .m5 ∨ Fabric.draining s = true ∨
        ((Loader.facet s r).state ≠ .loaded ∧ (Loader.facet s r).state ≠ .retired) →
      scrubs flips sound u)

/-! ### Bridges and clock domains -/

/-- (1) R318 to R324, R326, R496: a value captured, delivered and freed: a status bridge keeps the latest value that waits, a data
crossing takes values into its slices in rotation and its source holds one more while they are full or a side is in reset, and a pulse
bridge counts up to 15 pulses and marks an overflow, which its destination counts. A delivery to a user event's crossing raises its
source.

(2) R325 to R328: a side in reset flushes both halves and counts the data values not yet delivered; a side that leaves it completes its
handshake unless its domain still holds it, and once both sides are out a status bridge starts with the present value and a data
source's held value crosses.

(3) R314, R316, R329, R468, R520: a clock that departs is noted, and one that recovers is measured, unless it had not departed; the
bridges follow their domains into reset and out of it; 89 follows 88, and 90 follows both. A departure of domain 99 is counted and
raised, and holds nothing.

The model's choices in it: log entries 49 and 88. -/
def Obligations.BridgeSteps : Prop :=
  (∀ (s : State) (b : BridgeId) (v : W64) (w : Nat), Awake s →
     let u := Ops.begin s
     let x := Bridges.find s b
     let makes (c : Instr) (y : Bridge) : Prop := exec c s = .next (after s (Bridges.store b y u))
     let nothing (c : Instr) : Prop := exec c s = .next (after s u)
     let full := 2 * Bridges.slices b
     let slice := b.slot.val / 8
     (b.kind = .status →
       (Bridges.ready x = true → x.h = none →
         makes (.bridgeCapture b v) { x with present := some v, h := some v, delivered := false }) ∧
       (Bridges.ready x = false ∨ x.h ≠ none → makes (.bridgeCapture b v) { x with present := some v, n := some v })) ∧
     (b.kind = .data → ¬ (b = Lanes.txCrossing (slice / 8) (slice % 8) ∧ slice % 8 < 4) →
       (x.held = none → Bridges.ready x = true → x.line.length < full →
         makes (.bridgeCapture b v) { x with line := x.line ++ [v.toNat] }) ∧
       (x.held = none → Bridges.ready x = false ∨ full ≤ x.line.length →
         makes (.bridgeCapture b v) { x with held := some v.toNat }) ∧
       (x.held ≠ none → nothing (.bridgeCapture b v))) ∧
     (b.kind = .pulse → nothing (.bridgeCapture b v)) ∧
     (Bridges.ready x = false → nothing (.bridgeDeliver b)) ∧
     (b.kind = .data → x.taken = Bridges.slices b ∨ x.line.length ≤ x.taken → nothing (.bridgeDeliver b)) ∧
     (b.kind = .data → Bridges.ready x = true → x.taken < Bridges.slices b → x.line[x.taken]? = some w →
       makes (.bridgeDeliver b) { x with taken := x.taken + 1, dst := some w }) ∧
     (b.kind ≠ .data → x.h = none ∨ x.delivered = true → nothing (.bridgeDeliver b)) ∧
     (Bridges.ready x = true → x.h = some v → x.delivered = false →
       (b.kind = .status → makes (.bridgeDeliver b) { x with delivered := true, dst := some v.toNat }) ∧
       (b.kind = .pulse →
         let y := Bridges.store b { x with delivered := true, dst := some v.toNat, events := x.events + v.toNat % 16 } u
         let z := if v.getLsbD 4 then Ops.setReg 0x1201 2 (Bridges.sourceNo b) (Ops.bump 0x1201 1 y) else y
         (EventBlock.userOf b = none → exec (.bridgeDeliver b) s = .next (after s z)) ∧
         (∀ e, EventBlock.userOf b = some e → v.toNat % 16 ≠ 0 → exec (.bridgeDeliver b) s =
           .next (after s (Ops.raise (512 + e) (if v.getLsbD 4 then Ops.bump 0xB000 8 z else z)))))) ∧
     (b.kind ≠ .data → x.h = none ∨ x.delivered = false → nothing (.bridgeFree b)) ∧
     (b.kind ≠ .data → x.h = some v → x.delivered = true →
       (b.kind = .status → makes (.bridgeFree b) { x with h := x.n, delivered := false, n := none }) ∧
       (b.kind = .pulse → x.acc = 0 → makes (.bridgeFree b) { x with h := none, delivered := false }) ∧
       (b.kind = .pulse → x.acc ≠ 0 → makes (.bridgeFree b)
         { x with h := some (Bridges.countWord x.acc x.ovf), delivered := false, acc := 0, ovf := false })) ∧
     (b.kind = .data → x.taken = 0 → nothing (.bridgeFree b)) ∧
     (b.kind = .data → x.taken ≠ 0 →
       (x.held = none → makes (.bridgeFree b) { x with line := x.line.drop 1, taken := x.taken - 1 }) ∧
       (x.held = some w → x.line.length ≤ full → x.line ≠ [] →
         makes (.bridgeFree b) { x with line := x.line.drop 1 ++ [w], taken := x.taken - 1, held := none })) ∧
     (b.kind ≠ .pulse ∨ Bridges.ready x = false → nothing (.sourcePulse b)) ∧
     (b.kind = .pulse → Bridges.ready x = true →
       (x.h = none → makes (.sourcePulse b) { x with h := some 1, delivered := false }) ∧
       (x.h ≠ none → x.acc < 15 → makes (.sourcePulse b) { x with acc := x.acc + 1 }) ∧
       (x.h ≠ none → 15 ≤ x.acc → makes (.sourcePulse b) { x with ovf := true }))) ∧
  (∀ (s : State) (b : BridgeId) (source : Bool), Awake s →
     let u := Ops.begin s
     let x := Bridges.find s b
     let set (r : SideReset) (y : Bridge) : Bridge := if source then { y with srcReset := r } else { y with dstReset := r }
     let y := set .out x
     let held := if source then x.srcDomain else x.dstDomain
     let resumed : Bridge := match b.kind with
       | .status => { y with h := y.present, n := none }
       | .data => match y.held with
         | none => y
         | some v => Bridges.accept b v { y with held := none }
       | .pulse => y
     let makes (z : State) : Prop := exec (.bridgeReset b source true) s = .next (after s z)
     exec (.bridgeReset b source false) s = .next (after s (Bridges.store b
       (set .held { x with h := none, delivered := false, n := if b.kind = .status then x.present else none
                           line := [], taken := 0, dst := none, acc := 0, ovf := false })
       (Ops.add 0x1201 3 32 (x.line.length - x.taken) u))) ∧
     ((if source then x.srcReset else x.dstReset) = .out → makes u) ∧
     ((if source then x.srcReset else x.dstReset) = .held →
       (held = true → makes (Bridges.store b y u)) ∧
       (held = false → makes (Bridges.store b (if Bridges.ready y then resumed else y) (Ops.bump 0x1201 4 u))))) ∧
  (∀ (s : State) (d : Fin 108), Awake s →
     let u := Ops.begin s
     let x := Bridges.domain s d
     (d = 99 → exec (.clockDeparture d) s = .next (after s
       (Ops.raise 390 (Ops.bump 0x1010 0x0C (Bridges.setDomain d { x with departed := true } u))))) ∧
     (d ≠ 99 → exec (.clockDeparture d) s = .next (after s
       (Bridges.follow (Bridges.setDomain d { x with departed := true, latched := true } u)))) ∧
     (∀ k : BitVec 21,
       (x.departed = false → d ≠ 99 ∨ x.stable = true → exec (.clockRecovery d k) s = .next (after s u)) ∧
       (x.departed = true ∨ d = 99 ∧ x.stable = false → exec (.clockRecovery d k) s = .next (after s
         (Bridges.follow (Bridges.setDomain d { x with
           departed := false, freq := some (k.toNat, Bridges.nominal s d), stable := decide (d = 99) } u))))) ∧
     (d ≠ 99 → x.departed = true → Bridges.inReset s d = true) ∧
     (Bridges.inReset s 88 = true → Bridges.inReset s 89 = true ∧ Bridges.inReset s 90 = true) ∧
     (Bridges.inReset s 89 = true → Bridges.inReset s 90 = true)) ∧
  (∀ (s : State) (b : BridgeId) (source : Bool),
     let x := Bridges.find s b
     let was := if source then x.srcDomain else x.dstDomain
     let now := Bridges.sideInReset s (if source then b.src else b.dst)
     (was = now → Bridges.followSide b source s = s) ∧
     (was = false → now = true →
       let t := Bridges.followSide b source s
       (if source then (Bridges.find t b).srcDomain else (Bridges.find t b).dstDomain) = true ∧
       Bridges.ready (Bridges.find t b) = false ∧ (Bridges.find t b).line = [] ∧ (Bridges.find t b).h = none ∧
       Ops.reg t 0x1201 3 = Ops.reg (Ops.add 0x1201 3 32 (x.line.length - x.taken) s) 0x1201 3) ∧
     (was = true → now = false →
       let t := Bridges.followSide b source s
       (if source then (Bridges.find t b).srcDomain else (Bridges.find t b).dstDomain) = false ∧
       ((if source then x.srcReset else x.dstReset) = .out →
         Ops.reg t 0x1201 4 = Ops.reg (Ops.bump 0x1201 4 s) 0x1201 4)))

/-- R321, R322: a data crossing out of reset delivers every value it has captured, once each and in their order, whatever the number
of its slices: what is under way after a capture is what was under way and the new value, a delivery takes the oldest, and the end of
a transfer takes none. -/
def Obligations.DataBridgesKeepOrder : Prop :=
  ∀ (s : State) (b : BridgeId) (v : Nat), b.kind = .data → Bridges.ready (Bridges.find s b) = true →
    let way (x : Bridge) : List Nat := x.line.drop x.taken ++ x.held.toList
    let fits (x : Bridge) : Prop := x.taken ≤ x.line.length ∧ x.taken ≤ Bridges.slices b ∧
      x.line.length ≤ 2 * Bridges.slices b ∧ (x.held ≠ none → x.line.length = 2 * Bridges.slices b)
    let x := Bridges.find s b
    let captured := Bridges.find (Bridges.capture b v s) b
    let delivered := Bridges.find (Bridges.deliver b s) b
    let freed := Bridges.find (Bridges.free b s) b
    fits x →
    (x.held = none → fits captured ∧ way captured = way x ++ [v]) ∧
    (x.taken < Bridges.slices b → x.line[x.taken]? = some v →
      fits delivered ∧ way x = v :: way delivered ∧ delivered.dst = some v) ∧
    (x.taken ≠ 0 → fits freed ∧ way freed = way x)

/-! ### Streller lanes, bonds and Ethernet ports -/

/-- (1) R346 to R352, R355, R362, R371: the steps of training of a lane without an Ethernet port, and what leads back: what each event
does in the states that the rules name. The change of state itself does what LaneChanges says.

(2) The same events in the other states, and on the lanes of an Ethernet port, change nothing; but the checks of a lane in test count
the errors of its pattern, and a port's loss of lock leads all its lanes back to T2.

The model's choices in it: log entry 53. -/
def Obligations.LaneTraining : Prop :=
  (∀ (s : State) (n : Fin 64), Awake s → Lanes.streller s n = true →
     let u := Ops.begin s
     let x := Lanes.lane s n
     let set (y : Lane) : State := Lanes.setLane n y u
     let makes (c : Instr) (y : State) : Prop := exec c s = .next (after s y)
     let back := Lanes.enter n .t0 (set { x with rate := 0, fec := false, fecLine := [] })
     (x.st = .t0 → makes (.t0Burst n) (Lanes.send n (List.replicate 8 (0b01, 0)) u)) ∧
     (s.modes.cur = .m5 → x.st = .t0 → makes (.signalDetect n) (Lanes.enter n .t1 u)) ∧
     (s.modes.cur = .m5 → x.st = .t7 ∨ x.st = .lp1 → x.partnerLp = 1 → makes (.signalDetect n) (set { x with partnerLp := 0 })) ∧
     (s.modes.cur = .m5 → x.st = .t7 ∨ x.st = .lp1 → x.partnerLp = 2 → makes (.signalDetect n)
       (let y := Lanes.enter n .t2 (set { x with partnerLp := 0 })
        Lanes.setLane n { Lanes.lane y n with fromLoss := false, refDue := true } y)) ∧
     (x.st = .t1 → makes (.cdrLock n) (Lanes.enter n .t2 u)) ∧
     (x.st = .t2 →
       (x.fromLoss = true → makes (.blockLock n) (Lanes.enter n .t7 (set { x with locked := true }))) ∧
       (x.fromLoss = false → x.marked = true → makes (.blockLock n) (Lanes.enter n .t3 (set { x with locked := true }))) ∧
       (x.fromLoss = false → x.marked = false → makes (.blockLock n) (set { x with locked := true }))) ∧
     (x.st = .t5 → x.run < 8 → makes (.equaliserConverged n) (set { x with converged := true })) ∧
     (x.st = .t5 → 8 ≤ x.run → makes (.equaliserConverged n) (Lanes.enter n .t6 (set { x with converged := true }))) ∧
     (∀ e : W32, x.st = .t6 →
       let pass := decide (e.toNat ≤ Lanes.allowed x.rate x.fec)
       let y := Lanes.setLane n { x with ownPass := some pass } (Ops.setReg (0x7100 + n) 0x0C (min e.toNat 0xFFFFFFFF) u)
       (x.partnerPass = none → makes (.prbsCheckEnd n e) y) ∧
       (x.partnerPass = some true → pass = true → makes (.prbsCheckEnd n e) (Lanes.passed n y)) ∧
       (x.partnerPass = some false ∨ x.partnerPass = some true ∧ pass = false →
         makes (.prbsCheckEnd n e) (Lanes.failure n y))) ∧
     ((x.st = .t1 ∨ x.st = .t2 ∨ x.st = .t3 ∨ x.st = .t4) → makes (.trainingTimeout n) back) ∧
     ((x.st = .t5 ∨ x.st = .t6) → makes (.trainingTimeout n) (Lanes.failure n u)) ∧
     (x.st ∈ [LaneSt.t1, .t2, .t3, .t4, .t5, .t6, .t7] → x.partnerLp = 0 → makes (.lossOfSignal n) back) ∧
     (x.st = .t0 → x.absent = false → makes (.absentTimeout n) (Lanes.cause n 2 (set { x with absent := true }))) ∧
     (x.st = .t7 → x.partnerLp = 0 → makes (.lossOfLock n) (Lanes.enter n .t2
       (Ops.observe (Ops.channel 4 n 0) (Lanes.cause n 9 (Ops.bump (0x7100 + n) 8 u)))))) ∧
  (∀ (s : State) (n : Fin 64), Awake s →
     let x := Lanes.lane s n
     let eth := Lanes.streller s n = false
     let nothing (c : Instr) : Prop := exec c s = .next (after s (Ops.begin s))
     (eth ∨ x.st ≠ .t0 → nothing (.t0Burst n)) ∧
     (s.modes.cur ≠ .m5 ∨ (x.st ≠ .t7 ∧ x.st ≠ .lp1 ∨ x.partnerLp = 0) ∧ (eth ∨ x.st ≠ .t0) → nothing (.signalDetect n)) ∧
     (eth ∨ x.st ≠ .t1 → nothing (.cdrLock n)) ∧ (eth ∨ x.st ≠ .t2 → nothing (.blockLock n)) ∧
     (x.st ≠ .t5 → nothing (.equaliserConverged n)) ∧ (∀ e, x.st ≠ .t6 → x.st ≠ .test → nothing (.prbsCheckEnd n e)) ∧
     (eth ∨ x.st ∉ [LaneSt.t1, .t2, .t3, .t4, .t5, .t6] → nothing (.trainingTimeout n)) ∧
     (eth ∨ x.partnerLp ≠ 0 ∨ x.st ∉ [LaneSt.t1, .t2, .t3, .t4, .t5, .t6, .t7] → nothing (.lossOfSignal n)) ∧
     (eth ∨ x.st ≠ .t0 ∨ x.absent = true → nothing (.absentTimeout n)) ∧
     (x.st ≠ .t7 ∨ x.partnerLp ≠ 0 → nothing (.lossOfLock n)) ∧
     (∀ e : W32, x.st = .test → exec (.prbsCheckEnd n e) s = .next (after s
       (if Lanes.pattern s n = 0 then Ops.begin s else Lanes.patternErrors n e.toNat (Ops.begin s)))) ∧
     (∀ f, Lanes.portOf s n = some f → x.st = .t7 → x.partnerLp = 0 → exec (.lossOfLock n) s = .next (after s
       ((Lanes.portLanes s f).foldl (fun y m => if (Lanes.lane y m).st = .t7 then Lanes.enter m .t2 y else y)
         (Ops.observe (Ops.channel 4 n 0) (Lanes.cause n 9 (Ops.bump (0x7100 + n) 8 (Ops.begin s))))))))

/-- (1) R352, R362, R371, R374: what a change of a lane's state does: the lane is in the new state, with the time, its rate, FEC and cap
as before; entry to T7 counts. Of a lane of no bond it sets cause 0 at the entry to T7, cause 1 on leaving it, and cause 4 into or out
of a low-power state, and every other lane is as it was.

(2) R348, R350: training that fails at rate 0 starts again at T0; at another rate the failure is counted, at the third one that rate is
not used again until the cap is cleared, the rate falls by one, with the FEC that the lower rate last passed with, and training starts
again at T2.

(3) R348 to R350, R357: a T6 that both ends passed keeps the FEC of the rate and the reference margin, and goes on to T4, or to T7 at the
lower of the two rates offered. -/
def Obligations.LaneChanges : Prop :=
  (∀ (s : State) (n : Fin 64) (st : LaneSt), (Lanes.lane s n).st ≠ st →
     let t := Lanes.enter n st s
     let x := Lanes.lane s n
     let y := Lanes.lane t n
     let low (a : LaneSt) : Prop := a = .lp1 ∨ a = .lp2
     let was := Ops.reg s (0x7100 + n) 0x10
     let now := Ops.reg t (0x7100 + n) 0x10
     y.st = st ∧ y.changed = Ops.time80Nat s.time.sec s.time.ns ∧ y.rate = x.rate ∧ y.fec = x.fec ∧ y.cap = x.cap ∧
     (x.st = .t0 → y.absent = false) ∧ (x.st ≠ .t0 → y.absent = x.absent) ∧
     Ops.reg t (0x7100 + n) 0x0F =
       (if st = .t7 then (Ops.reg s (0x7100 + n) 0x0F + 1) % 2 ^ 32 else Ops.reg s (0x7100 + n) 0x0F) ∧
     (Lanes.bondOf s n = none →
       (∀ m, m ≠ n.val → Lanes.lane t m = Lanes.lane s m) ∧
       (st = .t7 → ¬ low x.st → now = Ops.setBit was 0) ∧
       (st = .t7 → low x.st → now = Ops.setBit (Ops.setBit was 0) 4) ∧
       (x.st = .t7 → ¬ low st → now = Ops.setBit was 1) ∧
       (st ≠ .t7 → low st ∨ low x.st → now = Ops.setBit was 4) ∧
       (st ≠ .t7 → x.st ≠ .t7 → ¬ low st → ¬ low x.st → now = was))) ∧
  (∀ (s : State) (n : Fin 64) (r : Fin 4),
     let x := Lanes.lane s n
     let y := Lanes.lane (Lanes.failure n s) n
     let c := x.failures / 2 ^ (8 * r.val) % 256
     (x.rate = 0 → Lanes.failure n s = Ops.observe (Ops.channel 4 n 0) (Lanes.enter n .t0 s)) ∧
     (x.rate = r.val + 1 → (x.st = .t5 ∨ x.st = .t6) →
       y.st = .t2 ∧ y.rate = r.val ∧ y.fec = Ops.bit x.passedFec r.val ∧
       y.cap = (if 3 ≤ c + 1 then min x.cap r.val else x.cap) ∧
       (c < 3 → y.failures / 2 ^ (8 * r.val) % 256 = c + 1) ∧ (3 ≤ c → y.failures = x.failures))) ∧
  (∀ (s : State) (n : Fin 64) (m : Nat),
     let x := Lanes.lane s n
     let y := Lanes.lane (Lanes.passed n s) n
     x.st = .t6 → x.measured = some m → x.rate ≤ 4 →
     y.reference = m ∧ Ops.bit y.passedFec x.rate = x.fec ∧ y.rate = x.rate ∧
     y.st = if x.rate = min x.offer (x.partner.toNat % 8) then .t7 else .t4)

/-- R338, R339, R346 to R350, R355, R362, R363: the link blocks that a lane receives: what each does in the states that listen to it; a
Mark on a lane of a bond names the bond's next transfer as well. On a lane that takes no link blocks, and in the other states, they
change nothing. -/
def Obligations.LinkBlocksReceived : Prop :=
  (∀ (s : State) (n : Fin 64), Awake s → Lanes.listens s n = true →
     let u := Ops.begin s
     let x := Lanes.lane s n
     let makes (c : Instr) (y : State) : Prop := exec c s = .next (after s y)
     let set (y : Lane) : State := Lanes.setLane n y u
     (∀ c q live b, Lanes.bondOf s n = some b →
       let near := (Lanes.bond s b).rxNext
       let y := Lanes.drain b
         (set { x with marked := true, bseq := if live then some (Lanes.fullSeq near q.toNat) else none })
       (x.st ≠ .t2 ∨ x.locked = false → makes (.mark n c q live) y) ∧
       (x.st = .t2 → x.locked = true → makes (.mark n c q live) (Lanes.enter n (if x.fromLoss then .t7 else .t3) y))) ∧
     (∀ c q live, Lanes.bondOf s n = none →
       (x.st ≠ .t2 ∨ x.locked = false → makes (.mark n c q live) (set { x with marked := true })) ∧
       (x.st = .t2 → x.locked = true → makes (.mark n c q live)
         (Lanes.enter n (if x.fromLoss then .t7 else .t3) (set { x with marked := true })))) ∧
     (∀ v,
       let run := if x.partner = v ∧ 0 < x.run then x.run + 1 else 1
       let sent := x.ackSent || decide (4 ≤ run)
       let seen := x.ackSeen || v.getLsbD 23
       let y := set { x with partner := v, run := run, ackSent := sent, ackSeen := seen }
       (x.st ≠ .t3 → makes (.capability n v) (set { x with partner := v })) ∧
       (x.st = .t3 → (sent && seen) = false → makes (.capability n v) y) ∧
       (x.st = .t3 → (sent && seen) = true → makes (.capability n v)
         (Lanes.enter n (if x.rate = min x.offer (v.toNat % 8) then .t7 else .t4) y))) ∧
     (∀ p f,
       (x.st = .t4 → (p.toNat, f) ≠ Lanes.proposal s n → makes (.rate n p f) (set { x with run := 0 })) ∧
       (x.st = .t4 → (p.toNat, f) = Lanes.proposal s n →
         (x.run < 3 ∨ x.sent < 16 → makes (.rate n p f) (set { x with run := x.run + 1 })) ∧
         (3 ≤ x.run → 16 ≤ x.sent → makes (.rate n p f)
           (Lanes.enter n .t5 (Lanes.setRate n p.toNat f (set { x with run := x.run + 1 })))))) ∧
     (∀ v : Byte, x.st = .t5 →
       let run := if v = 1 then x.run + 1 else 0
       (x.converged = false ∨ run < 8 → makes (.verify n v) (set { x with run := run })) ∧
       (x.converged = true → 8 ≤ run → makes (.verify n v) (Lanes.enter n .t6 (set { x with run := run })))) ∧
     (∀ v : Byte, x.st = .t6 →
       let y := set { x with partnerPass := some (v == 2) }
       (v ≠ 2 → v ≠ 3 → makes (.verify n v) u) ∧
       (v = 2 ∨ v = 3 → x.ownPass = none → makes (.verify n v) y) ∧
       (∀ a, v = 2 ∨ v = 3 → x.ownPass = some a →
         makes (.verify n v) (if a && v == 2 then Lanes.passed n y else Lanes.failure n y))) ∧
     (∀ v : Byte,
       (x.st = .t7 ∨ x.st = .lp1 → v = 1 ∨ v = 2 →
         makes (.lowPower n v) (set { x with partnerLp := v.toNat, bseq := none })) ∧
       (x.st ≠ .t7 ∧ x.st ≠ .lp1 ∨ v ≠ 1 ∧ v ≠ 2 → makes (.lowPower n v) u)) ∧
     (∀ ty : Byte,
       (0x80 ≤ ty.toNat → Lanes.knownLink ty.toNat = false →
         makes (.unknownLinkBlock n ty) (Lanes.cause n 13 (Ops.bump (0x7100 + n) 0x13 u))) ∧
       (ty.toNat < 0x80 ∨ Lanes.knownLink ty.toNat = true → makes (.unknownLinkBlock n ty) u))) ∧
  (∀ (s : State) (n : Fin 64), Awake s →
     let x := Lanes.lane s n
     let nothing (c : Instr) : Prop := exec c s = .next (after s (Ops.begin s))
     (Lanes.listens s n = false → (∀ c q live, nothing (.mark n c q live)) ∧ (∀ v, nothing (.capability n v)) ∧
       (∀ v, nothing (.lowPower n v)) ∧ (∀ ty, nothing (.unknownLinkBlock n ty)) ∧ ∀ k tx rx, nothing (.bond n k tx rx)) ∧
     (x.st ≠ .t4 → ∀ p f, nothing (.rate n p f)) ∧ (x.st ≠ .t5 → x.st ≠ .t6 → ∀ v, nothing (.verify n v)))

/-- (1) R140, R339 to R341, R343, R358, R369: the transfer slots of a lane: in T7, outside a bond, a slot sends what the slices have
ready, a link type from the fabric replaced by Idle, or Idle, unless a maintenance transfer is due; a bond, a lane in test and an
Ethernet port have their own, and the other states send nothing. A capture on the crossing of a transmit slice takes what the slice's
channels hold.

(2) R336, R341, R343, R344, R355, R363, R369: a transfer that is received: descrambled, judged for lock, and accepted in T7 and LP1:
data and control blocks as they came, in one transfer, to the fabric interface or to the lane's bond; Idle and link blocks, maintenance
transfers, and what comes out of its turn on an Ethernet port, not at all. What a lane scrambles, its partner's descrambler gives back.

(3) R338, R339, R346, R348, R349, R362, R363: the maintenance transfers: in training, and in T7 when one is due, with the link blocks
that wait.

(4) R356, R357: the samples of the margin, the short retrain they call for, and the slower adaptation of an idle lane.

The model's choices in it: log entry 53. -/
def Obligations.LaneTransfers : Prop :=
  (∀ (s : State) (n : Fin 64), Awake s →
     let u := Ops.begin s
     let x := Lanes.lane s n
     let makes (y : State) : Prop := exec (.laneTxTransfer n) s = .next (after s y)
     let v := Lanes.captureSlices n (Lanes.countSlot n u)
     let link (b : BitVec 2 × W64) : Bool := b.1 == 0b01#2 && decide (0x80 ≤ b.2.toNat % 256)
     (x.st = .t7 → Lanes.portOf s n = none → Lanes.bondOf s n = none →
       (Lanes.due x = true → makes u) ∧
       (Lanes.due x = false →
         (Lanes.readyTransfer v n false = none → makes (Lanes.send n (List.replicate 8 (0b01, 0)) v)) ∧
         (∀ l k, Lanes.readyTransfer v n false = some (l, k) →
           (l.all (fun b => !link b) = true → makes (Lanes.send n l (Lanes.clearTx n v))) ∧
           (l.all (fun b => !link b) = false → makes (Lanes.send n (l.map fun b => if link b then (0b01, 0) else b)
             (Lanes.cause n 12 (Ops.add (0x7100 + n) 0x13 32 (l.filter link).length (Lanes.clearTx n v)))))))) ∧
     (∀ b, x.st = .t7 → Lanes.portOf s n = none → Lanes.bondOf s n = some b →
       makes (if Lanes.due x then u else Lanes.countSlot n (Lanes.bondTransmit b n u))) ∧
     (x.st = .test → makes (Lanes.testSlot n u)) ∧
     (∀ f, x.st = .t7 → Lanes.portOf s n = some f →
       makes (if (Lanes.ethPort s f).tx % Lanes.portWidth (Lanes.portCode s f) ≠ n.val - f then u
         else let r := Lanes.slot n u
           Lanes.portSend f n r.1 r.2.1 r.2.2)) ∧
     (∀ f, x.st = .t0 ∨ x.st = .t1 ∨ x.st = .t2 → Lanes.portOf s n = some f →
       makes (Lanes.send n (List.replicate 8 (0b01, 0x1E)) u)) ∧
     (∀ f, x.st ∉ [LaneSt.t0, .t1, .t2, .t7, .test] → Lanes.portOf s n = some f → makes u) ∧
     (∀ b, x.st ≠ .t7 → x.st ≠ .test → Lanes.portOf s n = none → Lanes.bondOf s n = some b →
       makes (Lanes.bondTransmit b n u)) ∧
     (x.st ≠ .t7 → x.st ≠ .test → Lanes.portOf s n = none → Lanes.bondOf s n = none → makes u) ∧
     ∀ (k : Fin 4) (w : W64), exec (.bridgeCapture (Lanes.txCrossing n k) w) s = .next (after s (Lanes.captureSlice n k u))) ∧
  (∀ (s : State) (n : Fin 64) (l : List Block) (w : List Nat), Awake s → l.length = 8 →
     let u := Ops.begin s
     let st := (Lanes.lane s n).st
     let p := Lanes.unscramble n l u
     let y := Lanes.judge n p.1 w p.2
     let makes (y : State) : Prop := exec (.laneRxTransfer n { blocks := l, words := w }) s = .next (after s y)
     (st ∈ [LaneSt.t2, .t3, .t4, .t5, .t6] ∨ (st = .t7 ∨ st = .lp1) ∧ (Lanes.lane y n).st ≠ st → makes y) ∧
     ((st = .t7 ∨ st = .lp1) ∧ (Lanes.lane y n).st = st → makes (Lanes.accept n p.1 y)) ∧
     (st = .test → makes (Lanes.testReceive n l u)) ∧
     (st ∉ [LaneSt.t2, .t3, .t4, .t5, .t6, .t7, .lp1, .test] → makes u)) ∧
  (∀ (s : State) (n : Fin 64) (l : List Block), Lanes.portOf s n = none → Lanes.bondOf s n = none →
     let x := Lanes.lane s n
     let v := Lanes.setLane n (Lanes.tracked false l x) s
     (l ≠ [] → (∀ b ∈ l, b.fecBad = false ∧ (b.hdr = 0b10#2 ∨ b.hdr = 0b01#2 ∧ b.payload.toNat % 256 < 0x80)) →
       (∃ b ∈ l, b.hdr = 0b10#2 ∨ b.payload.toNat % 256 ≠ 0) →
       Lanes.accept n l s = Lanes.deliver n
         { blocks := l.map fun b => { ctrl := b.hdr == 0b01#2, err := false, payload := b.payload }
           time := Ops.launch s, tsf := false, bseq := 0 } v) ∧
     ((∀ b ∈ l, b.fecBad = false ∧ b.hdr = 0b01#2 ∧
         (b.payload.toNat % 256 = 0 ∨ Lanes.knownLink (b.payload.toNat % 256) = true)) → Lanes.accept n l s = v)) ∧
  (∀ (s : State) (n : Fin 64) (l : List Block),
     let x := Lanes.lane s n
     let eth := (Lanes.portOf s n).isSome
     let v := Lanes.unknowns n l (Lanes.setLane n (Lanes.tracked eth l x) s)
     let t : RxTransfer :=
       { blocks := l.map (Lanes.received eth), time := Ops.launch s
         tsf := eth && l.any (fun b => !Lanes.inError b && Lanes.isStart b.hdr b.payload), bseq := 0 }
     let bare := l.all (fun b => Lanes.empty eth b) = true
     (Lanes.portOf s n = none →
       (bare ∨ Lanes.isMaintenance l = true → Lanes.accept n l s = v) ∧
       (¬ bare → Lanes.isMaintenance l = false →
         (Lanes.bondOf s n = none ∨ x.st ≠ .t7 ∧ x.st ≠ .lp1 → Lanes.accept n l s = Lanes.deliver n t v) ∧
         (∀ b, Lanes.bondOf s n = some b → x.st = .t7 ∨ x.st = .lp1 → Lanes.accept n l s = Lanes.bondReceive b n t v))) ∧
     (∀ f, Lanes.portOf s n = some f →
       let e := Lanes.ethPort s f
       let turn := e.rx % Lanes.portWidth (Lanes.portCode s f) = n.val - f
       let w := Lanes.setEthPort f { e with rx := e.rx + 1 } v
       (¬ turn → Lanes.accept n l s = v) ∧ (turn → bare → Lanes.accept n l s = w) ∧
       (turn → ¬ bare → Lanes.accept n l s = Lanes.deliver n t w))) ∧
  (∀ (k v : Nat) (r : BitVec 58), Line.descramble k r (Line.scramble k r v).1 = (v % 2 ^ k, (Line.scramble k r v).2)) ∧
  (∀ (s : State) (n : Fin 64), Awake s →
     let u := Ops.begin s
     let x := Lanes.lane s n
     let makes (y : State) : Prop := exec (.maintenanceTransfer n) s = .next (after s y)
     let mark := Lanes.markBlock s n
     let count := (x.maintenance + 1) % 256
     let idle : BitVec 2 × W64 := (0b01, 0)
     let sent (l : List (BitVec 2 × W64)) (f : Lane → Lane) : State :=
       let w := Lanes.send n l u
       Lanes.setLane n (f { Lanes.lane w n with maintenance := x.maintenance + 1 }) w
     (Lanes.streller s n = false ∨ x.st ∈ [LaneSt.off, .t0, .lp1, .lp2, .test, .retired] → makes u) ∧
     (Lanes.bondOf s n = none → mark = Lanes.linkBlock 0x80 count) ∧
     (∀ b i k, Lanes.bondOf s n = some b → (Lanes.members s b).idxOf? n.val = some i →
       let y := Lanes.bond s b
       Lanes.nextAt y.txLive y.txSwitch i y.txNext = some k →
       mark = Lanes.linkBlock 0x80 (count + k % 65536 * 2 ^ 8 + if Ops.bit y.txLive i then 2 ^ 24 else 0)) ∧
     (Lanes.streller s n = true →
       (x.st = .t1 ∨ x.st = .t2 → makes (sent (mark :: List.replicate 7 idle) fun y => { y with sent := x.sent, prbs := x.prbs })) ∧
       (x.st = .t3 → makes (sent (mark :: List.replicate 7 (Lanes.linkBlock 0x81 (x.offer + 2 ^ 8 +
           (if x.offerFec then 2 ^ 9 else 0) + (if x.ackSent then 2 ^ 23 else 0) + n * 2 ^ 24 + s.modes.ndId.toNat * 2 ^ 32)))
         fun y => { y with sent := x.sent, prbs := x.prbs })) ∧
       (x.st = .t4 → let q := Lanes.proposal s n
         let y := sent (mark :: List.replicate 7 (Lanes.linkBlock 0x82 (q.1 + if q.2 then 256 else 0)))
           fun y => { y with sent := x.sent + 7, prbs := x.prbs }
         makes (if 16 ≤ x.sent + 7 ∧ 4 ≤ x.run then Lanes.enter n .t5 (Lanes.setRate n q.1 q.2 y) else y)) ∧
       (x.st = .t5 → makes (sent (mark :: List.replicate 6 idle ++ [Lanes.linkBlock 0x84 (if x.converged then 1 else 0)])
         fun y => { y with sent := x.sent, prbs := x.prbs })) ∧
       (x.st = .t6 → let d := Line.dataBlocks 6 x.prbs
         makes (sent (mark :: d.1 ++ [Lanes.linkBlock 0x84 (match x.ownPass with
             | none => 1
             | some true => 2
             | some false => 3)])
           fun y => { y with sent := x.sent, prbs := d.2 })) ∧
       (x.st = .t7 → Lanes.due x = false → makes u) ∧
       (x.st = .t7 → Lanes.due x = true → x.queue = [] →
         makes (sent (mark :: List.replicate 7 idle) fun y => { y with since := 0, queue := [] })) ∧
       (∀ k, x.st = .t7 → Lanes.due x = true → x.queue = [.lowPower k] → k = 1 ∨ k = 2 →
         makes (Lanes.enter n (if k = 1 then .lp1 else .lp2)
           (sent (mark :: Lanes.linkBlock 0x87 k :: List.replicate 6 idle) fun y => { y with since := 0, queue := [] }))) ∧
       (x.st = .t7 → Lanes.due x = true →
         let p := Lanes.fit 7 (Lanes.priority x.queue)
         let y := sent ((mark :: p.1.flatMap (Lanes.spell s) ++ List.replicate 7 idle).take 8)
           fun y => { y with since := 0, queue := p.2 }
         let asked := p.1.any fun b => match b with
           | .time 1 _ => true
           | _ => false
         let z := if asked ∧ s.servo.exchange.length = 2 then
             { y with servo := { y.servo with exchange := y.servo.exchange ++ [Time.units s.time] } }
           else y
         ((∀ k, .lowPower k ∉ p.1) → makes z) ∧
         (∀ l k, p.1 = l ++ [.lowPower k] → (∀ j, .lowPower j ∉ l) → k = 1 ∨ k = 2 →
           makes (Lanes.enter n (if k = 1 then .lp1 else .lp2) z))))) ∧
  (∀ (s : State) (n : Fin 64) (m : W16), Awake s →
     let u := Ops.begin s
     let x := Lanes.lane s n
     let makes (c : Instr) (y : State) : Prop := exec c s = .next (after s y)
     let set (y : Lane) : State := Lanes.setLane n y u
     let weak := 1000 * m.toNat < 850 * x.reference
     let held := x.retraining = true ∨ (Ops.launch s).toNat < x.pauseUntil
     (x.st = .t7 →
       (¬ weak → makes (.marginSample n m) (set { x with margin := m.toNat, low := 0 })) ∧
       (weak → x.low < 2 ∨ held → makes (.marginSample n m) (set { x with margin := m.toNat, low := x.low + 1 })) ∧
       (weak → 2 ≤ x.low → ¬ held →
         makes (.marginSample n m) (set { x with margin := m.toNat, low := 0, retraining := true, slow := false })) ∧
       (x.retraining = true → makes (.shortRetrainEnd n m) (Lanes.cause n 8 (Ops.bump (0x7100 + n) 0x0E
         (set { x with
           margin := m.toNat, retraining := false, low := 0
           pauseUntil := if weak then (Ops.launch s).toNat + 1600000000 else x.pauseUntil })))) ∧
       (x.retraining = false → makes (.adaptationSlowdown n) (set { x with slow := true }))) ∧
     (x.st = .t6 ∨ x.refDue = true ∧ x.st ≠ .t7 →
       makes (.marginSample n m) (set { x with margin := m.toNat, measured := some m.toNat })) ∧
     (x.st ≠ .t6 → x.st ≠ .t7 → x.refDue = false → makes (.marginSample n m) u) ∧
     (x.st ≠ .t7 ∨ x.retraining = false → makes (.shortRetrainEnd n m) u) ∧
     (x.st ≠ .t7 ∨ x.retraining = true → makes (.adaptationSlowdown n) u))

/-- (1) R353, R354, R361, R373: the ten fields of a lane's control word. A legal write puts the field into the word and the lane acts on
the word as (2) says; of a retired lane, or with a field out of its range, it is refused.

(2) R350, R353, R354, R358 to R361, R373: what a lane does on a write of its control word: CLEARCAP and RESTART read as 0, the failure
cap is cleared, and in M5 a lane goes on, goes off, starts again, goes into the test state or leaves it, starts again below a lower
MAXRATE, or changes its low-power state; outside M5 a RESTART waits.

The model's choices in it: log entries 53 and 90. -/
def Obligations.LaneControl : Prop :=
  (∀ (s : State) (t : Transport) (n : Fin 64),
     let i := 0x7100 + n.val
     let old := Lanes.control s n
     let does (c : Instr) (lo w v : Nat) : Prop :=
       let new := Operands.replace old lo w v
       let legal := new / 2 ^ 24 % 8 ≤ 4 ∧ new / 2 ^ 12 % 16 ≤ 7 ∧ new / 2 ^ 27 % 4 ≠ 3 ∧ Lanes.retired s n = false
       new < 2 ^ 32 → Writes s t i 1 (le 4 new) →
         (legal → exec c s = .next (wrote s t i 1 (le 4 new) (Lanes.apply n old new (counted s)))) ∧
         (¬ legal → exec c s = .next (after s (answered s t 2 i 1 (le 4 new) 4 [] (counted s))))
     (∀ v, does (.enable t n v) 31 1 (Operands.ofBool v)) ∧ does (.restart t n) 30 1 1 ∧ does (.clearcap t n) 29 1 1 ∧
     (∀ v, does (.lp t n v) 27 2 v.toNat) ∧ (∀ v, does (.maxrate t n v) 24 3 v.toNat) ∧
     (∀ v, does (.fecReq t n v) 23 1 (Operands.ofBool v)) ∧ (∀ v, does (.txeq t n v) 12 4 v.toNat) ∧
     (∀ v, does (.loop t n v) 21 2 v.toNat) ∧ (∀ v, does (.pattern t n v) 19 2 v.toNat) ∧
     (∀ v, does (.txIdle t n v) 18 1 (Operands.ofBool v))) ∧
  (∀ (s : State) (n : Fin 64) (old new : Nat),
     let v := Ops.setReg (0x7100 + n) 1 (Ops.clearBits new 0x60030FFF) s
     let w := Ops.setReg (0x7100 + n) 0x0C 0
       (if Ops.bit new 29 then Lanes.setLane n { Lanes.lane s n with cap := 4, failures := 0 } v else v)
     let x := Lanes.lane w n
     let restart := Ops.bit new 30
     let lower := Lanes.streller w n = true ∧ Lanes.maxRate w n < old / 2 ^ 24 % 8 ∧ Lanes.maxRate w n < x.rate ∧
       x.st ∉ [LaneSt.t0, .lp1, .lp2]
     let others := x.queue.filter fun b => match b with | .lowPower _ => false | _ => true
     let notices := if Lanes.lp w n = 0 then others else others ++ [.lowPower (Lanes.lp w n)]
     let does (y : State) : Prop := Lanes.apply n old new s = y
     (s.modes.cur ≠ .m5 → does (if restart then Lanes.setLane n { x with restart := true } w else w)) ∧
     (s.modes.cur = .m5 → Lanes.enabled w n = false → does (if x.st = .off then w else Lanes.off n w)) ∧
     (s.modes.cur = .m5 → Lanes.enabled w n = true →
       (x.st = .off → does (Lanes.begin n w)) ∧
       (x.st ≠ .off → restart = true → does (Lanes.toT0 n (Lanes.portDown n w))) ∧
       (x.st ≠ .off → restart = false →
         (Lanes.loopOf w n ≠ 0 ∨ Lanes.pattern w n ≠ 0 → does (Lanes.toTest n w)) ∧
         (Lanes.loopOf w n = 0 → Lanes.pattern w n = 0 →
           (x.st = .test → does (Lanes.toT0 n w)) ∧
           (x.st ≠ .test → lower → does (Lanes.enter n .t0 (Lanes.setRate n 0 false w))) ∧
           (¬ lower →
             (x.st = .t7 → old / 2 ^ 27 % 4 ≠ Lanes.lp w n → does (Lanes.setLane n { x with queue := notices } w)) ∧
             (x.st = .t7 → old / 2 ^ 27 % 4 = Lanes.lp w n → does w) ∧
             (x.st = .lp1 → does (if Lanes.lp w n = 0 then Lanes.enter n .t7 w else w)) ∧
             (x.st = .lp2 → does (if Lanes.lp w n = 0 then Lanes.enter n .t2 w else w)) ∧
             (x.st ∉ [LaneSt.off, .t7, .lp1, .lp2, .test] → does w))))))

/-- (1) R363 to R366: the switch points of a bond's live sets, Bond blocks, the write of its members with its refusals, and a transfer
slot of a member: while the bond is up, transfer k leaves on live position k mod L from member k mod w, and at every other slot Idle.

(2) R369, R370: the write of a port map with its refusals, and the locks and timeouts of the lanes of an Ethernet port, which is up when
all of them are.

(3) R379, R513, R520: the supplies of the lanes and the link as they leave operating conditions and return.

The model's choices in it: log entries 7 and 53. -/
def Obligations.BondsAndPorts : Prop :=
  (∀ (s : State) (t : Transport) (b : Fin 16) (n : Fin 64),
     let u := Ops.begin s
     let x := Lanes.bond s b
     let makes (c : Instr) (y : State) : Prop := exec c s = .next (after s y)
     (Awake s →
       (∀ k m, x.txSwitch = some (k, m) →
         makes (.bondSwitchPoint b false) (if k ≤ x.txNext then Lanes.applyTx b m u else u)) ∧
       (x.txSwitch = none → makes (.bondSwitchPoint b false) u) ∧
       (∀ k m, x.rxSwitch = some (k, m) →
         makes (.bondSwitchPoint b true) (if k ≤ x.rxNext then Lanes.drain b (Lanes.applyRx b m u) else u)) ∧
       (x.rxSwitch = none → makes (.bondSwitchPoint b true) u)) ∧
     (∀ k tx rx : W16, Awake s → Lanes.listens s n = true →
       let y := { x with partnerRx := rx.toNat }
       let now := (x.rxSwitch.map (·.2)).getD x.rxLive
       let j := Lanes.fullSeq x.rxNext k.toNat
       (Lanes.bondOf s n = none → makes (.bond n k tx rx) u) ∧
       (Lanes.bondOf s n = some b.val →
         (tx.toNat = now → makes (.bond n k tx rx) (Lanes.updateBond b (Lanes.setBond b y u))) ∧
         (tx.toNat ≠ now → x.rxLive = 0 ∨ j ≤ x.rxNext →
           makes (.bond n k tx rx) (Lanes.updateBond b (Lanes.applyRx b tx.toNat (Lanes.setBond b y u)))) ∧
         (tx.toNat ≠ now → x.rxLive ≠ 0 → x.rxNext < j → makes (.bond n k tx rx) (Lanes.updateBond b
           (Lanes.setBond b { y with rxSwitch := some (j, tx.toNat) } (Lanes.setBond b y u)))))) ∧
     (∀ v : W64, Writes s t (0x7200 + b) 1 (le 8 v.toNat) →
       let old := Ops.reg s (0x7200 + b) 1
       let l := (List.range 64).filter fun m => Ops.bit v.toNat m
       let free := l.length ≤ 16 ∧
         ∀ m ∈ l, Lanes.retired s m = false ∧ Lanes.portOf s m = none ∧ (Lanes.bondOf s m).all (· == b.val) = true
       let off := ∀ m, m < 64 → Ops.bit v.toNat m ≠ Ops.bit old m → Lanes.enabled s m = false
       let fails (err : Nat) : Prop :=
         makes (.bondMembersWrite t b v) (answered s t 2 (0x7200 + b) 1 (le 8 v.toNat) err [] (counted s))
       let y := Ops.setReg (0x7200 + b) 1 v.toNat (counted s)
       (¬ free → fails 4) ∧ (free → ¬ off → fails 5) ∧
       (free → off → exec (.bondMembersWrite t b v) s = .next (wrote s t (0x7200 + b) 1 (le 8 v.toNat)
         (if v.toNat = old then y else Lanes.updateBond b (Lanes.setBond b {}
           (if x.txLive = 0 ∧ x.rxLive = 0 then y else Lanes.bondCause b (Ops.bump (0x7200 + b) 7 y))))))) ∧
     (let ms := Lanes.members s b
      let k := x.txNext
      let src := ms.getD (k % ms.length) 0
      let live := Lanes.positions x.txLive
      let mine := (live[k % live.length]?).bind fun j => ms[j]?
      let before := x.txSwitch.all (fun e => decide (k < e.1)) = true
      let v := Lanes.captureSlices src s
      let put (l : List (BitVec 2 × W64)) (z : State) : State := if (Lanes.lane z n).st = .t7 then Lanes.send n l z else z
      let idle := List.replicate 8 (0b01#2, (0 : W64))
      (Lanes.bondUp s b = false → Lanes.bondTransmit b n s = put idle s) ∧
      (Lanes.bondUp s b = true →
        (mine ≠ some n.val ∨ ¬ before ∨ Lanes.readyTransfer v src false = none → Lanes.bondTransmit b n s = put idle v) ∧
        (∀ l d, mine = some n.val → before → Lanes.readyTransfer v src false = some (l, d) →
          let r := Lanes.replaceLinks src l (Lanes.clearTx src v)
          Lanes.bondTransmit b n s = put r.1 (Lanes.setBond b { x with txNext := k + 1 } r.2))))) ∧
  (∀ (s : State) (t : Transport) (e : Fin 8) (v : W32), Writes s t (0x7300 + e) 1 (le 4 v.toNat) →
     let off := ∀ p, p < 8 → Lanes.covers v.toNat p ≠ Lanes.covers (Ops.reg s (0x7300 + e) 1) p →
       Lanes.enabled s (8 * e + p) = false
     let fails (err : Nat) : Prop := exec (.portMapWrite t e v) s =
       .next (after s (answered s t 2 (0x7300 + e) 1 (le 4 v.toNat) err [] (counted s)))
     (Lanes.badMap e v.toNat s = true → fails 4) ∧ (Lanes.badMap e v.toNat s = false → ¬ off → fails 5) ∧
     (Lanes.badMap e v.toNat s = false → off → exec (.portMapWrite t e v) s =
       .next (wrote s t (0x7300 + e) 1 (le 4 v.toNat) (Bridges.follow (Ops.setReg (0x7300 + e) 1 v.toNat (counted s)))))) ∧
  (∀ (s : State) (n : Fin 64) (ev : EthEvent), Awake s →
     let u := Ops.begin s
     let y := Lanes.lane s n
     let makes (z : State) : Prop := exec (.ethernetLock n ev) s = .next (after s z)
     (Lanes.portOf s n = none → makes u) ∧
     (∀ f, Lanes.portOf s n = some f →
       let locked := Lanes.setLane n { y with locked := true } u
       let all := (Lanes.portLanes s f).all fun m => m == n.val || (Lanes.lane s m).st == .t2 && (Lanes.lane s m).locked
       (ev = .cdrLocked → makes (if y.st = .t1 then Lanes.enter n .t2 u else u)) ∧
       (ev = .cdrTimeout → makes u) ∧
       (ev = .lockTimeout → makes (if y.st = .t2 then Lanes.enter n .t1 u else u)) ∧
       (ev = .fecLocked → y.st ≠ .t2 → makes u) ∧
       (ev = .fecLocked → y.st = .t2 → makes (if all then
         (Lanes.portLanes s f).foldl (fun x m => Lanes.enter m .t7 x) locked else locked)))) ∧
  (∀ (s : State) (p h : W16), Awake s →
     let measured := { Ops.begin s with sup := { s.sup with vphy := p.toNat, vphyh := h.toNat } }
     let good := Super.phyGood p.toNat h.toNat
     exec (.phySupplyOutOfRange p h) s = .next (after s (if good then measured else HostLink.linkReset .linkDown
       (Bridges.follow (Lanes.allOff { measured with sup := { measured.sup with phyOut := true } })))) ∧
     exec (.phySupplyReturn p h) s = .next (after s (if good && s.sup.phyOut then
       (List.range 64).foldl (fun x m => Lanes.begin m x)
         (Bridges.follow { measured with sup := { measured.sup with phyOut := false } }) else measured)))

/-! ### The host link and its DMA channels -/

/-- (1) R379, R395, R397, R400, R416, R503: the resets of the link and of its functions. A reset of the link, of whichever kind, leaves it
down, with nothing in flight, every vector blocked, no VF and nothing that the host had configured; a reset of one function leaves every
channel of another owner alone and returns its own to their defaults; a change of the link's word is raised, as is one of its power
state.

(2) R379 to R388, R396, R520: the accesses of the host, none of which gets through while the link is down, and any of which brings it
back to L0 in M6: a function's accesses to the region ports it owns, to those it does not own, to its doorbell pages' registers and
its configuration, and to nothing.

The model's choices in it: log entries 7, 51, 93 and 95. -/
def Obligations.LinkAndPorts : Prop :=
  (∀ s : State, Awake s →
     let u := Ops.begin s
     let own (k c : Nat) : Bool := HostLink.owner s c == k
     let code (v : BitVec 13) : Nat := v.toNat / 512 % 8
     let low (v : BitVec 13) : Prop := 2 ≤ code v ∧ code v ≤ 4
     exec .hostLinkReset s = .next (after s (HostLink.linkReset (HostLink.resetKind u) { u with fresh := s.fresh + 1 })) ∧
     (∀ kind, let x := HostLink.linkReset kind s
       x.host.link = 0x0A00 ∧ x.host.reset = some kind ∧ x.host.tags = [] ∧ x.host.chans = [] ∧ x.host.fns = [] ∧
       x.host.msix = [] ∧ x.events.numVfs = 0 ∧ x.events.msixBlocked = BitVec.allOnes 2048 ∧ x.mailbox.busy = false ∧
       x.mailbox.replyArea = []) ∧
     exec (.flr .pf0) s = .next (after s (Ops.raise 403 (HostLink.resetFns (· == 0)
       (HostLink.resetVectors 0 64 (HostLink.resetMailbox (HostLink.abandon (own 0) u)))))) ∧
     exec (.flr .pf1) s = .next (after s (Ops.raise 403
       (let y := HostLink.resetFns (· != 0) (HostLink.resetVectors 64 1984 (HostLink.abandon (fun c => !own 0 c) u))
        { y with events := { y.events with numVfs := 0 } }))) ∧
     (∀ v : Fin 64,
       (v.val < s.events.numVfs → exec (.flr (.vf v)) s = .next (after s (Ops.raise 404 (HostLink.resetFns (· == 2 + v.val)
         (HostLink.resetVectors (1024 + 16 * v) 16 (HostLink.abandon (own (2 + v)) u)))))) ∧
       (s.events.numVfs ≤ v.val → exec (.flr (.vf v)) s = .next (after s u))) ∧
     (∀ (p : Nat → Bool) (c : Nat), let y := HostLink.abandon p s
       (p c = true → HostLink.chan y c = {} ∧ HostLink.tagsOf y c = []) ∧
       (p c = false → HostLink.chan y c = HostLink.chan s c ∧ HostLink.tagsOf y c = HostLink.tagsOf s c)) ∧
     (∀ v : BitVec 13,
       (v = s.host.link → exec (.linkStateChange v) s = .next (after s u)) ∧
       (v ≠ s.host.link →
         let reset := if code v = 5 then some (s.host.reset.getD .linkDown) else none
         let y := Ops.raise 400 (Bridges.follow { u with host := { s.host with link := v, reset := reset } })
         ((low v ↔ low s.host.link) → exec (.linkStateChange v) s = .next (after s y)) ∧
         (¬ (low v ↔ low s.host.link) → exec (.linkStateChange v) s = .next (after s (Ops.raise 407 y))))) ∧
     (∀ c, exec (.aerError c) s = .next (after s (Ops.raise (if c then 401 else 402) u)))) ∧
  (∀ (s : State) (f : Fn) (r : Fin 512) (d : W64) (x : HostAccess) (c : Fin 32), Awake s →
     let u := Ops.begin s
     let v := Ops.toL0 Ops.raise u
     let p := Engines.port s (512 + r)
     let own := HostLink.portOwner s r = HostLink.ownerCode f ∧ HostLink.present s f = true
     let page := HostLink.owner s c = HostLink.ownerCode f ∧ HostLink.present s f = true
     let makes (c : Instr) (y : State) : Prop := exec c s = .next (after s y)
     let back (w : W64) (x : State) : State := { x with out := x.out ++ [.readback w] }
     let lost (x : State) : State := Ops.bump 0x8000 7 x
     let at' (bar : Fin 3) (off : Nat) (data : Option W64) (size : Fin 8) : Instr :=
       .unmappedAccess { fn := f, place := .memory bar (BitVec.ofNat 32 off) size, data := data }
     let door (off : Nat) : Nat := (if f = .pf0 then 0x03800000 else 0) + 4096 * c + off
     let window (off : Nat) : Nat := (if f = .pf1 then 0x18000000 else 0) + 4096 * r + off
     (HostLink.up s = false → makes (.regionPortSend f r d) u ∧ makes (.regionPortRecv f r) u ∧ makes (.unmappedAccess x) u) ∧
     (HostLink.up s = true →
       (own → s.modes.cur = .m5 → p.send = none → makes (.regionPortSend f r d)
         (Fabric.pump (.port (512 + r)) (Engines.setPort (512 + r) { p with send := some d, last := d, offer := {} } v))) ∧
       (own → s.modes.cur ≠ .m5 ∨ p.send.isSome = true →
         makes (.regionPortSend f r d) (Ops.raise 406 (Ops.bump 0x8000 6 v))) ∧
       (∀ w, own → s.modes.cur = .m5 → p.recv = some w → HostLink.portOff s r = false →
         makes (.regionPortRecv f r) (back w (Engines.setPort (512 + r) { p with recv := none } v))) ∧
       (own → s.modes.cur = .m5 → p.recv = none ∨ HostLink.portOff s r = true → makes (.regionPortRecv f r) (back 0 v)) ∧
       (own → s.modes.cur ≠ .m5 → makes (.regionPortRecv f r) (back (BitVec.allOnes 64) v)) ∧
       (¬ own → makes (.regionPortSend f r d) (lost v) ∧ makes (.regionPortRecv f r) (back (BitVec.allOnes 64) (lost v))) ∧
       makes (.unmappedAccess x) (HostMap.access x.fn x.place x.data v) ∧
       (HostLink.present s x.fn = false → makes (.unmappedAccess x) v) ∧
       (page →
         makes (at' 0 (door 0x008) none 3) (back (BitVec.ofNat 64 ((HostLink.chan s c).sqHead % 2 ^ 32)) v) ∧
         makes (at' 0 (door 0x00C) none 3) (back (BitVec.ofNat 64 ((HostLink.chan s c).cqTail % 2 ^ 32)) v) ∧
         makes (at' 0 (door 0x010) none 3) (back (BitVec.ofNat 64 (HostLink.stateCode (HostLink.chan s c).state)) v)) ∧
       (f ≠ .pf0 → own → s.modes.cur = .m5 → makes (at' 1 (window 0x010) none 7) (back (BitVec.ofNat 64
         ((if p.recv.isSome then 1 else 0) + (if p.send.isNone then 2 else 0) + if HostLink.portOff s r then 4 else 0)) v)) ∧
       (∀ (off : BitVec 32) (k : Fin 8), 0x01010000 ≤ off.toNat → off.toNat + k.val + 1 ≤ 0x02000000 →
         makes (.unmappedAccess { fn := .pf0, place := .memory 0 off k, data := none }) (back (BitVec.allOnes 64) (lost v)) ∧
         makes (.unmappedAccess { fn := .pf0, place := .memory 0 off k, data := some d }) (lost v)) ∧
       (∀ n : Nat, n = (match f with | .pf0 => 0x1624 | .pf1 => 0x1625 | .vf _ => 0x1626) → HostLink.present s f = true →
         makes (.unmappedAccess { fn := f, place := .config .ids, data := none })
           (back (BitVec.ofNat 64 (Config.vendorId.toNat + n * 2 ^ 16)) v))))

/-- R388, R389, R393, R394, R396, R398: a channel's doorbells, from the function that owns it and from another; a disabled channel takes
none, and an index past the ring halts it. Its enabling and disabling: the fields that are refused, the busy error while it is not
disabled, and the drain of what it holds.

The model's choices in it: log entries 51, 52 and 92. -/
def Obligations.DmaControl : Prop :=
  ∀ (s : State) (t : Transport) (c : Fin 32),
    let u := Ops.begin s
    let v := Ops.toL0 Ops.raise u
    let x := HostLink.chan s c
    let i := 0x8100 + c.val
    let word (b : Nat) : Nat := Operands.replace (HostLink.control s c) 31 1 b
    let kept (b : Nat) : Nat := word b &&& 0xFFFFE3FF
    let legal (w : Nat) : Prop := w / 2 ^ 24 % 128 ≤ 65 ∧ 4 ≤ w / 2 ^ 20 % 16 ∧ w / 2 ^ 20 % 16 ≤ 12 ∧
      1 ≤ w / 2 ^ 13 % 128 ∧ w / 2 ^ 13 % 128 ≤ 64 ∧ w % 1024 < (HostLink.tableOf (w / 2 ^ 24 % 128)).2
    let same (b : Nat) : Prop := kept b % 2 ^ 31 = HostLink.control s c % 2 ^ 31
    let put (b : Nat) : State := Ops.setReg i 1 (kept b) (counted s)
    (∀ (f : Fn) (k : W32), Awake s →
      let both (y z : State) : Prop := exec (.sqTail f c k) s = .next (after s y) ∧ exec (.cqHead f c k) s = .next (after s z)
      let page := HostLink.owner s c = HostLink.ownerCode f ∧ HostLink.present s f = true
      let halted := Ops.raise 405 (HostLink.setChan c { x with state := .halted, halt := x.sqHead * 256 + 3 } v)
      (HostLink.up s = false → both u u) ∧
      (HostLink.up s = true →
        (¬ page → both (Ops.bump 0x8000 7 v) (Ops.bump 0x8000 7 v)) ∧
        (page → x.state = .disabled → both v v) ∧
        (page → x.state ≠ .disabled → k.toNat < HostLink.ringSize s c →
          both (HostLink.setChan c { x with sqTail := k.toNat } v) (HostLink.setChan c { x with cqHead := k.toNat } v)) ∧
        (page → x.state ≠ .disabled → HostLink.ringSize s c ≤ k.toNat → both halted halted))) ∧
    (∀ (cmd : Instr) (b : Nat), (cmd, b) ∈ [(.dmaEnable t c, 1), (.dmaDisable t c, 0)] →
      Writes s t i 1 (le 4 (word b)) → word b < 2 ^ 32 →
      let fails (e : Nat) : Prop := exec cmd s = .next (after s (answered s t 2 i 1 (le 4 (word b)) e [] (counted s)))
      let makes (y : State) : Prop := exec cmd s = .next (wrote s t i 1 (le 4 (word b)) y)
      let drains := HostLink.setChan c { x with state := .draining } (put 0)
      (¬ legal (kept b) → fails 4) ∧
      (legal (kept b) → ¬ same b → x.state ≠ .disabled → fails 5) ∧
      (legal (kept b) → x.state = .disabled →
        makes (if b = 1 then HostLink.setChan c { x with state := .running } (put 1) else put 0)) ∧
      (legal (kept b) → same b → x.state = .draining → makes (put b)) ∧
      (legal (kept b) → same b → x.state = .running ∨ x.state = .halted →
        (b = 1 → makes (put 1)) ∧
        (b = 0 → HostLink.tagsOf s c ≠ [] → makes drains) ∧
        (b = 0 → HostLink.tagsOf s c = [] → makes (HostLink.setChan c {} drains))))

/-- (1) R389, R391, R393, R396: a descriptor starts in a channel that may start one and whose turn it is, under the lowest free tag; one
that is invalid, not allowed, or not read ends at once and halts its channel. One that has ended writes its record, in its turn, when
the completion ring has space, frees its tag, sends its message, and may be the last of a draining channel.

(2) R390, R393: bytes of host memory, words and records of a descriptor that may go on, in the modes that its operation needs: in M6
nothing moves, in another mode it ends with status 4, and a failed read ends it and halts its channel.

(3) R390: one word of a descriptor: pushed, refused, popped, written to or read from a bank when the array's turn has come round to it,
and the descriptor goes on with the next or ends.

The model's choices in it: log entries 24, 52 and 91. -/
def Obligations.Descriptors : Prop :=
  (∀ (s : State) (c : Fin 32) (raw : Option (List Byte)), Awake s →
     let u := Ops.begin s
     let x := HostLink.chan s c
     let d := HostLink.parse (raw.getD [])
     let may := HostLink.up s = true ∧ s.modes.cur ≠ .m6 ∧ x.state = .running ∧ x.sqHead ≠ x.sqTail ∧
       (HostLink.tagsOf s c).length < HostLink.quota s c ∧ (s.host.short = false ∨ HostLink.turn s = some c.val)
     let bad := HostLink.invalid d (raw.getD []) = true
     let barred := HostLink.notAllowed d (HostLink.owner s c) = true
     let makes (y : State) : Prop := exec (.descriptorStart c raw) s = .next (after s y)
     (¬ may ∨ HostLink.freeTag s = none → makes u) ∧
     (∀ g, may → HostLink.freeTag s = some g →
       let started (st : Option Nat) : State :=
         let v := HostLink.setChan c { x with sqHead := (x.sqHead + 1) % HostLink.ringSize s c } u
         let w := { v with host := { v.host with
           tags := s.host.tags ++ [({ tag := g, chan := c, slot := x.sqHead, desc := d, status := st } : DmaTag)]
           ended := if st.isSome then s.host.ended ++ [g] else s.host.ended
           lastStart := c } }
         { w with host := { w.host with short := s.host.short && (HostLink.turn w).isSome } }
       (raw = none → makes (HostLink.halt c x.sqHead 2 (Ops.bump 0x8000 8 (started (some 2))))) ∧
       (raw ≠ none → bad → makes (HostLink.halt c x.sqHead 3 (started (some 3)))) ∧
       (raw ≠ none → ¬ bad → barred → makes (HostLink.halt c x.sqHead 5 (started (some 5)))) ∧
       (raw ≠ none → ¬ bad → ¬ barred → makes (started none)))) ∧
  (∀ (s : State) (tag : Byte), Awake s →
     let u := Ops.begin s
     let makes (y : State) : Prop := exec (.descriptorFinish tag) s = .next (after s y)
     (s.host.tags.find? (fun y => y.tag == tag.toNat) = none → makes u) ∧
     (∀ t, s.host.tags.find? (fun y => y.tag == tag.toNat) = some t →
       let c := t.chan
       let x := HostLink.chan s c
       let n := HostLink.ringSize s c
       let free := HostLink.up s = true ∧ s.modes.cur ≠ .m6 ∧ HostLink.behind s t = false ∧ (x.cqTail + 1) % n ≠ x.cqHead
       (t.status = none ∨ ¬ free → makes u) ∧
       (∀ e, t.status = some e → free → makes
         (let v := Ops.emit (.hostWrite (Ops.reg s (0x8100 + c) 3 + 16 * x.cqTail) (HostLink.recordBytes t e x.phase)) u
          let w := HostLink.setChan c { x with
            cqTail := (x.cqTail + 1) % n
            phase := if x.cqTail + 1 = n then !x.phase else x.phase } v
          let y := Ops.add (0x8100 + c) 7 64 t.done (Ops.bump (0x8100 + c) 6 w)
          let z := { y with host := { y.host with
            tags := s.host.tags.filter fun z => z.tag != tag.toNat
            ended := s.host.ended.erase tag.toNat
            short := s.host.short || (HostLink.freeTag s).isNone } }
          HostLink.drained c (if Ops.bit t.desc.flags 2 then
            Ops.deliverMsix Ops.raise ((HostLink.tableOf (HostLink.owner s c)).1 + HostLink.vector s c) z else z))))) ∧
  (∀ (s : State) (tag : Byte) (f : PoolFault) (d : Option (List Byte)), Awake s →
     let u := Ops.begin s
     let m := s.modes.cur
     let commands : List (Nat × Instr) := [(1, .hostToQueue tag d), (2, .queueToHost tag f), (3, .hostToBank tag d),
       (4, .bankToHost tag), (5, .hostToStream tag d)]
     (∀ x ∈ commands, HostLink.active s tag.toNat x.1 = none ∨ m = .m6 → exec x.2 s = .next (after s u)) ∧
     (∀ t, ∀ x ∈ commands, HostLink.active s tag.toNat x.1 = some t → m ≠ .m6 →
       let makes (y : State) : Prop := exec x.2 s = .next (after s y)
       let runs : Prop := x.1 = 5 ∨ m = .m5 ∨ (2 < x.1 ∧ m = .m7)
       let k := t.desc.len / 8 + 1
       (¬ runs → makes (HostLink.finish t 4 u)) ∧
       (runs → x.1 = 1 ∨ x.1 = 3 ∨ x.1 = 5 → d = none → makes (HostLink.halt t.chan t.slot 2
         (Ops.bump 0x8000 8 (HostLink.finish t 2 u)))) ∧
       (∀ l, runs → d = some l →
         (x.1 = 1 → makes (HostLink.pushWords k t l u)) ∧
         (x.1 = 3 → makes (HostLink.bankWords k t l u)) ∧
         (x.1 = 5 →
           let l := l.take (t.desc.len - t.done)
           let y := l.foldl (fun y b => Loader.arrive .aperture b y) u
           let t' := { t with done := t.done + l.length }
           makes (if t'.done = t.desc.len then HostLink.finish t' 0 y else HostLink.setTag t' y))) ∧
       (runs → x.1 = 2 → makes (HostLink.popWords k t f u)) ∧
       (runs → x.1 = 4 → makes (HostLink.readWords k t u)))) ∧
  (∀ (s : State) (t : DmaTag) (k : Nat) (d : List Byte), t.done ≠ t.desc.len →
     let q := t.desc.target % 4096
     let off := t.desc.target + t.done
     let n := off / 65536
     let w := off / 8 % 8192
     let v : W64 := BitVec.ofNat 64 (Ops.le (d.take 8))
     let moved : DmaTag := { t with done := t.done + 8 }
     let op : QOp := if Ops.bit t.desc.flags 0 && t.done + 8 == t.desc.len then .pushClose else .push
     let y := Banks.turn n s
     (∀ x z, 8 ≤ d.length →
       Queues.operate (0xC00 + t.chan) { op := op, queue := BitVec.ofNat 12 q, data := v } Queues.sound s = (some x, z) →
       (x.refused = false → HostLink.pushWords (k + 1) t d s =
         HostLink.pushWords k moved (d.drop 8) (Queues.wakeConsumer q z)) ∧
       (x.refused = true → HostLink.pushWords (k + 1) t d s =
         Queues.wakeConsumer q (HostLink.finish { t with reason := x.data.toNat } 1 z))) ∧
     (∀ f x z,
       Queues.operate (0xC00 + t.chan) { op := .pop, queue := BitVec.ofNat 12 q, data := 0 } f s = (some x, z) →
       (x.refused = true → HostLink.popWords (k + 1) t f s = HostLink.finish { t with reason := x.data.toNat } 1 z) ∧
       (x.refused = false → x.valid = false → HostLink.popWords (k + 1) t f s =
         if Ops.bit t.desc.flags 1 then HostLink.setTag { t with holding := true } z else HostLink.finish t 0 z) ∧
       (x.refused = false → x.valid = true →
         let t' := { moved with flags := HostLink.wordFlags t x, holding := false }
         let z' := Ops.emit (.hostWrite (t.desc.host + t.done) (le 8 x.data.toNat)) z
         HostLink.popWords (k + 1) t f s =
           if x.eop || t.done + 8 == t.desc.len then HostLink.finish t' 0 z' else HostLink.popWords k t' Queues.sound z')) ∧
     (∀ f z, Queues.operate (0xC00 + t.chan) { op := .pop, queue := BitVec.ofNat 12 q, data := 0 } f s = (none, z) →
       HostLink.popWords (k + 1) t f s = HostLink.setTag { t with holding := true } z) ∧
     (Ops.refuses s n = true → 8 ≤ d.length →
       HostLink.bankWords (k + 1) t d s = HostLink.finish t 6 (Ops.refuse Ops.raise n s) ∧
       HostLink.readWords (k + 1) t s = HostLink.finish t 6 (Ops.refuse Ops.raise n s)) ∧
     (Ops.refuses s n = false → Banks.entered y n = false → 8 ≤ d.length →
       HostLink.bankWords (k + 1) t d s = HostLink.setTag t (Ops.wakeBank n true y) ∧
       HostLink.readWords (k + 1) t s = HostLink.setTag t (Ops.wakeBank n true y)) ∧
     (Ops.refuses s n = false → Banks.entered y n = true →
       (8 ≤ d.length → HostLink.bankWords (k + 1) t d s =
         HostLink.bankWords k moved (d.drop 8) (Ops.setWord n w (Flags.encode v) y)) ∧
       (∀ x, Ops.word y n w = Flags.encode x → HostLink.readWords (k + 1) t s =
         HostLink.readWords k { moved with flags := t.flags } (Ops.emit (.hostWrite (t.desc.host + t.done) (le 8 x.toNat))
           (Ops.setWord n w (Flags.encode x) y))))) ∧
  (∀ (s : State) (t : DmaTag) (k : Nat) (d : List Byte), t.done = t.desc.len →
     HostLink.pushWords (k + 1) t d s = HostLink.finish t 0 s ∧ HostLink.bankWords (k + 1) t d s = HostLink.finish t 0 s ∧
     HostLink.readWords (k + 1) t s = HostLink.finish t 0 s)

/-! ### Events and pins -/

/-- (1) R496 to R499, R503, R505 to R507: what raising a source does: its RAW becomes 1, and if the source is enabled and its STATUS is
0, STATUS becomes 1 and the destination that the control word names gets one delivery: of MSI-X, sent when nothing blocks the vector and
its function, kept pending when something does, and lost when the VF is not present; a bit set in an engine's event word, at once, when
its bank can be used, or never; a notice on each CAN port that sends notices and has room for it; or the wake from M6.

(2) R496 to R503: the commands of the event block and of MSI-X.

The model's choices in it: log entries 7 and 68. -/
def Obligations.Events : Prop :=
  (∀ (s : State) (n : Nat),
     let c := Ops.control s n
     let x := rawSet n s
     let shown := Ops.bump 0xB000 5 { x with events := { x.events with status := x.events.status ||| BitVec.twoPow 640 n } }
     let once := Ops.bit c 31 = true ∧ s.events.status.getLsbD n = false
     let quiet := Ops.bit c 25 = false ∧ Ops.bit c 29 = false
     let v := c % 2048
     let here := v < 1024 ∨ (v - 1024) / 16 < s.events.numVfs
     (Ops.bit c 31 = false ∨ s.events.status.getLsbD n = true → Ops.raise n s = x) ∧
     (once → quiet → Ops.bit c 11 = false → Ops.bit c 30 = false → Ops.raise n s = shown) ∧
     (once → quiet → Ops.bit c 11 = true → Ops.bit c 30 = false →
       (here → Ops.msixBlocked s v = false → s.modes.cur ≠ .m6 ∨ Ops.inL1 s = false →
         Ops.raise n s = { shown with out := s.out ++ [Ops.message s v] }) ∧
       (here → Ops.msixBlocked s v = true → Ops.raise n s = { shown with events := { shown.events with
         msixPending := s.events.msixPending ||| BitVec.twoPow 2048 v } }) ∧
       (¬ here → Ops.raise n s = Ops.bump 0xB000 6 shown)) ∧
     (once → quiet → Ops.bit c 11 = false → Ops.bit c 30 = true →
       (s.modes.cur = .m6 ∨ s.modes.trans.isSome = true →
         Ops.raise n s = { shown with modes := { s.modes with wakeDue := true } }) ∧
       (s.modes.cur ≠ .m6 → s.modes.trans = none → Ops.raise n s = shown)) ∧
     (once → Ops.bit c 25 = true → Ops.bit c 11 = false → Ops.bit c 29 = false → Ops.bit c 30 = false →
       let e := Ops.reg s 0xB001 (1 + c / 2 ^ 18 % 128)
       let k := e / 8192 % 2048
       let one : W64 := BitVec.twoPow 64 (c / 4096 % 64)
       let live := (s.modes.cur = .m5 ∨ s.modes.cur = .m7) ∧ Ops.bit e 31 = true ∧ Ops.refuses s k = false
       let free := Ops.ready s k = true ∧ Ops.arrayFree (Ops.bank s k) = true
       (¬ live → Ops.raise n s = Ops.bump 0xB000 7 shown) ∧
       (∀ w, live → free → Ops.word s k (e % 8192) = Flags.encode w →
         Ops.raise n s = Ops.setWord k (e % 8192) (Flags.encode (w ||| one)) shown) ∧
       (live → ¬ free → (Ops.bank s k).borrowed = false → Ops.raise n s =
         Ops.hold k { kind := .event, req := { op := 2, addr := BitVec.ofNat 13 (e % 8192), data := one } } shown)) ∧
     (once → Ops.bit c 29 = true → Ops.bit c 11 = false → Ops.bit c 25 = false → Ops.bit c 30 = false →
       let notes (p : Nat) : Prop := Ops.reg s (0x1101 + p) 1 ≠ 0 ∧ Ops.reg s (0x1101 + p) 9 ≠ 0
       let room (p : Nat) : Prop := (Ops.can s p).notices.length < 32
       let sent (p : Nat) (y : State) : State := Ops.setCan p { Ops.can s p with
         notices := (Ops.can s p).notices ++ [{ source := n, sec := s.time.sec, ns := s.time.ns }] } y
       (¬ notes 0 → ¬ notes 1 → Ops.raise n s = shown) ∧
       (∀ p : Fin 2, notes p → ¬ notes (1 - p.val) → room p → Ops.raise n s = sent p shown) ∧
       (notes 0 → notes 1 → room 0 → room 1 → Ops.raise n s = sent 1 (sent 0 shown)) ∧
       (∀ p : Fin 2, notes p → ¬ notes (1 - p.val) → ¬ room p →
         Ops.raise n s = Ops.raiseTurns 639 419 (Ops.bump (0x1101 + p) 8 shown))) ∧
     (Ops.bit c 31 = true → n < 640 → (Ops.raise n s).events.status.getLsbD n = true)) ∧
  (∀ (s : State) (t : Transport) (n : Fin 640),
     let u := Ops.begin s
     let ev (f : EventState → EventState) (x : State) : State := { x with events := f x.events }
     (Awake s → (EventBlock.pulseSource n = true → exec (.pulseRawEnd n) s =
         .next (after s (ev (fun e => { e with raw := e.raw &&& ~~~(BitVec.twoPow 640 n) }) u))) ∧
       (EventBlock.pulseSource n = false → exec (.pulseRawEnd n) s = .next (after s u))) ∧
     (∀ m : List Byte, Writes s t 0xB000 2 m →
       (m.length = 80 → exec (.statusClear t m) s = .next (wrote s t 0xB000 2 m
         (ev (fun e => { e with status := e.status &&& ~~~(BitVec.ofNat 640 (Ops.le m)) }) (counted s)))) ∧
       (m.length ≠ 80 → exec (.statusClear t m) s = .next (after s (answered s t 2 0xB000 2 m 4 [] (counted s))))) ∧
     (∀ v : W32, let i := 0xB100 + n.val / 128
       let k := 1 + n.val % 128
       Writes s t i k (le 4 v.toNat) →
       ((Ops.bit (Ops.control s n) 31 = true ∨ v.getLsbD 31 = false ∨ s.events.raw.getLsbD n = false) →
         exec (.eventControlWrite t n v) s =
           .next (wrote s t i k (le 4 v.toNat) (Ops.setReg i k v.toNat (counted s)))) ∧
       (Ops.bit (Ops.control s n) 31 = false → v.getLsbD 31 = true → s.events.raw.getLsbD n = true →
         exec (.eventControlWrite t n v) s =
           .next (wrote s t i k (le 4 v.toNat) (Ops.raise n (Ops.setReg i k v.toNat (counted s)))))) ∧
     (∀ v : BitVec 11, Awake s →
       let m := BitVec.twoPow 2048 v.toNat
       let here := v.toNat < 1024 ∨ (v.toNat - 1024) / 16 < s.events.numVfs
       let open' := ev (fun e => { e with msixBlocked := e.msixBlocked &&& ~~~m }) u
       let send := s.events.msixPending.getLsbD v.toNat = true ∧ Ops.able s (Ops.ownerOf v.toNat) = true
       (here → send → exec (.msixUnblock (.entry v)) s = .next (after s
         (Ops.emit (Ops.message s v.toNat) (ev (fun e => { e with msixPending := e.msixPending &&& ~~~m }) open')))) ∧
       (here → ¬ send → exec (.msixUnblock (.entry v)) s = .next (after s open')) ∧
       (here → exec (.msixMask (.entry v)) s =
         .next (after s (ev (fun e => { e with msixBlocked := e.msixBlocked ||| m }) u))) ∧
       (¬ here → exec (.msixUnblock (.entry v)) s = .next (after s u) ∧ exec (.msixMask (.entry v)) s = .next (after s u))) ∧
     (∀ (f : Fn) (why : FnBlock), Awake s →
       let l := HostLink.vectors f
       (HostLink.present s f = true →
         exec (.msixMask (.function f why)) s = .next (after s (HostLink.setFn f (HostLink.withBlock why true) u)) ∧
         exec (.msixUnblock (.function f why)) s = .next (after s ((List.range l.2).foldl
           (fun x i => HostLink.release x (l.1 + i)) (HostLink.setFn f (HostLink.withBlock why false) u)))) ∧
       (HostLink.present s f = false → exec (.msixMask (.function f why)) s = .next (after s u) ∧
         exec (.msixUnblock (.function f why)) s = .next (after s u)) ∧
       Ops.able (HostLink.setFn f (HostLink.withBlock why true) s) (HostLink.ownerCode f) = false) ∧
     (∀ k : BitVec 7, Awake s →
       (k.toNat ≤ 64 → exec (.vfEnable k) s = .next (after s (HostLink.resetFns (fun o => decide (2 + k.toNat ≤ o))
         (ev (fun e => { e with numVfs := k.toNat })
           (if k.toNat < s.events.numVfs then
             HostLink.resetVectors (1024 + 16 * k.toNat) (16 * (s.events.numVfs - k.toNat)) u
           else u))))) ∧
       (64 < k.toNat → exec (.vfEnable k) s = .next (after s u))) ∧
     (∀ k : Fin 128, Awake s →
       let taker : Taker := .userEvent (Fin.ofNat 512 (4 * k))
       let v := Fabric.setAck taker true u
       let b := EventBlock.crossing k
       let x := Bridges.find s b
       let makes (y : State) : Prop := exec (.fabricUserEvent k) s = .next (after s y)
       (Fabric.captured s taker = none → makes u) ∧
       (∀ w, Fabric.captured s taker = some w →
         (w ≠ 1 → makes v) ∧
         (w = 1 → x.h ≠ none → makes (Bridges.pulse b v)) ∧
         (w = 1 → x.h = none → Bridges.ready x = true →
           makes (Bridges.free b (Ops.raise (512 + k) (Bridges.deliver b (Bridges.pulse b v))))) ∧
         (w = 1 → x.h = none → Bridges.ready x = false → makes v))))

/-- (1) R440 to R451: a pin's configuration, with its refusals, its latch, its tokens and its input; where nothing is due, nothing
changes.

(2) R435, R462: a bank's supply class, and the supervisor's release of a pin.

The model's choices in it: log entries 88 and 94. -/
def Obligations.Pins : Prop :=
  (∀ (s : State) (t : Transport) (p : Fin 384),
     let u := Ops.begin s
     let x := Pins.pin s p
     let i := 0x9100 + p.val
     let makes (c : Instr) (y : State) : Prop := exec c s = .next (after s y)
     (∀ v : W64, Writes s t i 2 (le 8 v.toNat) →
       let put := Ops.setReg i 2 v.toNat (counted s)
       let bad := Pins.owner (Pins.stored s p) = 2 ∨ Pins.badWord v.toNat = true
       let now := s.modes.cur = .m5 ∧ Pins.present s p = true ∧ v.toNat ≠ Pins.active s p
       (bad → makes (.pinConfigWrite t p v) (answered s t 2 i 2 (le 8 v.toNat) 4 [] (counted s))) ∧
       (¬ bad → ¬ now → exec (.pinConfigWrite t p v) s = .next (wrote s t i 2 (le 8 v.toNat) put)) ∧
       (¬ bad → now → exec (.pinConfigWrite t p v) s = .next (wrote s t i 2 (le 8 v.toNat)
         (Pins.deliver p (Pins.apply p v.toNat put))))) ∧
     (∀ v,
       (Pins.function v = Pins.function (Pins.active s p) → Pins.apply p v s = Pins.setPin p { x with active := some v } s) ∧
       (Pins.function v ≠ Pins.function (Pins.active s p) →
         let y := Pins.pin (Pins.apply p v s) p
         y.latch = some (x.latch.getD (Pins.pad s p)) ∧ y.active = some v ∧ y.srcA = {} ∧ y.srcB = {} ∧
         Ops.reg (Pins.apply p v s) i 6 = Ops.time80Nat s.time.sec s.time.ns ∧
         Pins.pad (Pins.apply p v s) p = (if Pins.present s p then x.latch.getD (Pins.pad s p) else none))) ∧
     (Awake s →
       let holds := s.modes.cur = .m5 ∧ x.latch.isSome = true
       let loose := Pins.setPin p { x with latch := none } u
       (holds → Pins.hasToken x = true → makes (.latchRelease p) (Pins.sample p loose) ∧
         makes (.latchTimeout p) (Pins.sample p loose)) ∧
       (holds → Pins.hasToken x = false → makes (.latchRelease p) u ∧
         makes (.latchTimeout p) (Pins.sample p (Pins.cause p 2 (Ops.bump 0x9000 4 loose)))) ∧
       (¬ holds → makes (.latchRelease p) u ∧ makes (.latchTimeout p) u)) ∧
     (∀ oe : Bool, Awake s →
       let k : Taker := if oe then .pinOe p else .pinOut p
       (∀ w, Fabric.captured s k = some w → makes (.pinOutputToken p oe)
         (Pins.sourceToken 0 0 p (fun y => if oe then { y with oe := some (w == 1) } else { y with val := some (w == 1) })
           (Fabric.setAck k true u))) ∧
       (Fabric.captured s k = none → makes (.pinOutputToken p oe) u)) ∧
     (∀ b, Awake s →
       (Pins.sampling s p = false → makes (.pinInputChange p b) (Pins.setPin p { x with level := b } u)) ∧
       (Pins.sampling s p = true → makes (.pinInputChange p b) (Pins.sample p (Pins.setPin p { x with level := b } u)))) ∧
     (Awake s →
       let ticks := s.modes.cur = .m5 ∧ Pins.sampling s p = true ∧ Pins.inMode (Pins.active s p) = true
       let y := Pins.feed p (Pins.sample p u)
       let room := Bridges.room y (Pins.crossing p)
       let own := 2 ≤ Pins.owner (Pins.active y p)
       (¬ ticks → makes (.pinSample p) u) ∧
       (ticks → own → makes (.pinSample p) y) ∧
       (ticks → ¬ own → room = true → makes (.pinSample p)
         (Pins.feed p (Bridges.capture (Pins.crossing p) (if Pins.ball y p then 1 else 0) y))) ∧
       (ticks → ¬ own → room = false → makes (.pinSample p) (Pins.cause p 3 (Ops.bump 0x9000 5 y))))) ∧
  (∀ (s : State) (t : Transport),
     (∀ (k : Fin 8) (c : VioClass), Awake s →
       let off (c : VioClass) : Prop := c = .absent ∨ c = .outOfRange
       let moved := Bridges.follow { Ops.begin s with vio := Table.put (fun _ => .absent) s.vio k c }
       let y := Pins.cause (48 * k) 4 (Pins.silence k moved)
       let makes (z : State) : Prop := exec (.vioClassChange k c) s = .next (after s z)
       (Pins.vioClass s k = c → makes (Ops.begin s)) ∧
       (Pins.vioClass s k ≠ c → ¬ off (Pins.vioClass s k) ∨ off c → makes y) ∧
       (Pins.vioClass s k ≠ c → off (Pins.vioClass s k) → ¬ off c → makes ((Pins.inUse y).foldl (fun z p =>
         if p / 48 = k.val then
           let z := Pins.settle p z
           Pins.sample p (Pins.setPin p { Pins.pin z p with delivered := none } z)
         else z) y))) ∧
     (∀ (slot : Fin 4) (sig : List Byte) (p : W16), Seals s t slot sig 0x1020 5 (le 2 p.toNat) →
       let v := Pins.stored s p.toNat
       (p.toNat < 384 → Pins.owner v = 2 →
         exec (.supervisorPinRelease t slot sig p) s = .next (unsealed s t slot sig 0x1020 5 (le 2 p.toNat)
           (Ops.raise 378 (Pins.settle p.toNat (Ops.setReg (0x9100 + p.toNat) 2
             (Ops.clearBits v (0xF018000000000000 + 0x3FFFFC00) + 3 * 2 ^ 60 + 0x3FFFFC00) (opened s)))))) ∧
       (384 ≤ p.toNat ∨ Pins.owner v ≠ 2 → exec (.supervisorPinRelease t slot sig p) s = .next (after s
         (answered s t 2 0xC040 2 (Dict.sealedBlob s slot 0x1020 5 (le 2 p.toNat) sig) 4 []
           (Ops.raise 421 (Ops.setReg 0xC040 3 8 (opened s))))))))

/-! ### The supervisor -/

/-- (1) R470: the end of a window steps every region and every engine group and starts the next window; outside M5, and before the
window's end, nothing changes.

(2) R469, R471, R474: what one window does to a region's set value, by its class: it is limited by its outputs, else busy, else idle. A
set value outside its limits comes back by one step; at a target of 0 it goes to the fixed voltage, kept within the limits; frozen, with
the collar isolating, or with the facet retired, nothing steps.

(3) R470, R472: what a region's window measures, and source 375 at the entry to state short.

(4) R473: what one window does to an engine group's set value, which stays from 550 to 850 mV.

The model's choices in it: log entry 64. -/
def Obligations.VoltageWindows : Prop :=
  ∀ (s : State),
    let u := Ops.begin s
    let guard := Ops.reg s 0x1300 3
    let hold := Ops.reg s 0x1300 4
    (∀ p g, Awake s →
      let ends := s.modes.cur = .m5 ∧ s.sup.windowStart + Ops.reg s 0x1300 1 * 16000000 ≤ (Ops.launch s).toNat
      (¬ ends → exec (.voltageWindowEnd p g) s = .next (after s u)) ∧
      (ends → exec (.voltageWindowEnd p g) s = .next (after s (Super.startWindow
        ((List.range 4).foldl (fun x k => Super.groupWindow k (g[k]?.map fun v => v.toNat) x)
          ((List.range 512).foldl (fun x r =>
            Super.regionWindow r ((p.find? fun e => e.1.val == r).map fun e => e.2.toNat) x) u)))))) ∧
    (∀ (r : Nat) (x : Supply),
      let y := Super.step s r x
      let thr := Ops.reg s 0x1300 2
      let still := s.sup.frozen = true ∨ (Fabric.collar s r).isolate = true ∨ (Loader.facet s r).state = .retired
      let tracks := x.floor ≤ x.v ∧ x.v ≤ x.ceiling ∧ x.target ≠ 0
      let limited := thr ≤ x.stall
      let busy := ¬ limited ∧ thr ≤ x.wait
      let idle := ¬ limited ∧ x.wait < thr
      let margin := x.target * (1000 + guard) ≤ 1000 * x.rate
      let drifts := x.prefOk * (1000 + Ops.reg s 0x1300 5) < 1000 * x.pref ∧ x.v < x.ceiling
      (still → y = x) ∧
      (¬ still → x.ceiling < x.v → y = { x with v := x.v - 5, good := 0 }) ∧
      (¬ still → x.v ≤ x.ceiling → x.v < x.floor → y = { x with v := x.v + 5, good := 0 }) ∧
      (¬ still → x.floor ≤ x.v → x.v ≤ x.ceiling → x.target = 0 →
        let want := max x.floor (min x.ceiling x.fixed)
        y.short = false ∧ y.good = 0 ∧ (x.v = want → y.v = x.v) ∧ (x.v < want → y.v = x.v + 5) ∧ (want < x.v → y.v = x.v - 5)) ∧
      (¬ still → tracks →
        (busy → x.rate < x.target →
          (x.v < x.ceiling → y.v = x.v + 5 ∧ y.good = 0 ∧ y.short = (x.short && decide (x.ceiling ≤ y.v))) ∧
          (x.v = x.ceiling → y.v = x.v ∧ y.good = 0 ∧ y.short = true)) ∧
        (busy → x.target ≤ x.rate → y.short = false) ∧
        (busy → x.target ≤ x.rate → margin → hold ≤ x.good + 1 → x.floor < x.v → y.v = x.v - 5 ∧ y.good = 0) ∧
        (busy → x.target ≤ x.rate → margin → x.good + 1 < hold ∨ x.v = x.floor → y.v = x.v ∧ y.good = x.good + 1) ∧
        (busy → x.target ≤ x.rate → ¬ margin → y.v = x.v ∧ y.good = 0 ∧ y.prefOk = x.pref) ∧
        (idle → drifts → y.v = x.v + 5 ∧ y.prefOk = x.pref ∧ y.good = x.good) ∧
        (limited ∨ idle ∧ ¬ drifts → y.v = x.v ∧ y.prefOk = x.prefOk ∧ y.good = x.good) ∧
        (¬ busy → y.short = (x.short && decide (x.ceiling ≤ y.v))))) ∧
    (∀ (r : Nat) (pref : Option Nat),
      let x := Super.supply s r
      let w := Ops.reg s 0x1300 1
      let d (now before : Nat) : Nat := (now + 2 ^ 48 - before) % 2 ^ 48
      let y := Super.step s r { x with
        rate := d (Super.tokens s r) x.tokens0 / (1000 * w)
        stall := 1000 * d (Fabric.lens s r).stallSamples.toNat x.stall0 / (100000 * w)
        wait := 1000 * d (Fabric.lens s r).waitSamples.toNat x.wait0 / (100000 * w)
        pref := pref.getD x.pref }
      let z := Super.countSteps r x.v y.v (Super.setSupply r y s)
      (y.short = true → x.short = false → Super.regionWindow r pref s = Ops.broken 3 0 6 r (Ops.raise 375 z)) ∧
      (y.short = false ∨ x.short = true → Super.regionWindow r pref s = z)) ∧
    (∀ x : GroupSupply,
      let y := Super.groupStep s x
      let run := s.sup.frozen = false ∧ x.target ≠ 0
      let above := x.target < x.pref
      let below := 1000 * x.pref < x.target * (1000 - guard)
      (s.sup.frozen = true → y = x) ∧
      (s.sup.frozen = false → x.target = 0 → y.short = false ∧ y.good = 0 ∧
        (x.v = x.fixed → y.v = x.v) ∧ (x.v < x.fixed → y.v = x.v + 5) ∧ (x.fixed < x.v → y.v = x.v - 5)) ∧
      (run → above → x.v < 850 → y = { x with v := x.v + 5, good := 0, short := false }) ∧
      (run → above → 850 ≤ x.v → y = { x with good := 0, short := true }) ∧
      (run → ¬ above → below → hold ≤ x.good + 1 → 550 < x.v → y = { x with v := x.v - 5, good := 0, short := false }) ∧
      (run → ¬ above → below → x.good + 1 < hold ∨ x.v ≤ 550 → y = { x with good := x.good + 1, short := false }) ∧
      (run → ¬ above → ¬ below → y = { x with good := 0, short := false }) ∧
      (550 ≤ x.v → x.v ≤ 850 → x.v % 5 = 0 → 550 ≤ x.fixed → x.fixed ≤ 850 → x.fixed % 5 = 0 →
        550 ≤ y.v ∧ y.v ≤ 850 ∧ y.v % 5 = 0))

/-- R469, R474: a region's set value that starts within its floor and ceiling stays within them over a window, and moves by no
more than 5 mV. -/
def Obligations.VoltageStaysInRange : Prop :=
  ∀ (s : State) (r : Nat) (x : Supply), x.floor ≤ x.v → x.v ≤ x.ceiling → x.v % 5 = 0 → x.floor % 5 = 0 →
    x.ceiling % 5 = 0 → x.fixed % 5 = 0 →
    let y := Super.step s r x
    x.floor ≤ y.v ∧ y.v ≤ x.ceiling ∧ y.v % 5 = 0 ∧ (y.v = x.v ∨ y.v = x.v + 5 ∨ x.v = y.v + 5) ∧
    y.floor = x.floor ∧ y.ceiling = x.ceiling

/-- (1) R483, R484, R488: a first observation of a channel opens a window, a second one makes the fault permanent; a retry at its time
that fails again makes it permanent, one that passes is counted; a window that closes leaves a transient fault; before its time, and
with no window open, a retry and a close do nothing. A retire request makes its channel's fault permanent, or is refused.

(2) R483, R485, R487, R489: what a permanent fault leaves: its count, its record, source 372, and the channel's retirement with its
entry of origin run-time; a bank column takes the lowest free spare, waits while its bank is rebuilt, or takes the bank with it.

(3) R489 to R491: a repair in force is fused, in whatever kind; the reply waits for the blow, which makes its ORIGIN 2 and, for a
column, turns its soft steering into a fused one. The refusals, in the order of their errors; without a blow its end does nothing, and
a warning ends it: its row is spent and the write fails with the busy error.

The model's choices in it: log entries 58 and 63. -/
def Obligations.FaultsAndRepairs : Prop :=
  (∀ (s : State) (ch : FaultChannel),
     let u := Ops.begin s
     let e := Super.entryOf ch
     let watch := s.sup.watches.find? (fun x => x.entry == e)
     let now := (Ops.launch s).toNat
     let makes (c : Instr) (y : State) : Prop := exec c s = .next (after s y)
     (Awake s → watch = none → (∀ b, makes (.faultRetry ch b) u) ∧ makes (.faultWindowClose ch) u) ∧
     (∀ w : Watch, Awake s → watch = some w →
       let due := w.retries < 3 ∧ w.opened + 4 ^ w.retries * 16000000 ≤ now
       let closes := w.opened + Ops.reg s 0xA010 1 * 16000000 ≤ now
       let l := s.sup.watches.map fun (x : Watch) => if x.entry = e then { x with retries := x.retries + 1 } else x
       (due → makes (.faultRetry ch true) (Super.permanent e (w.retries + 1) u) ∧
         makes (.faultRetry ch false) { u with sup := { s.sup with watches := l } }) ∧
       (¬ due → ∀ b, makes (.faultRetry ch b) u) ∧
       (closes → makes (.faultWindowClose ch) (Ops.raise 371 (Super.recordFault e 0 w.retries
         (Ops.bump 0xA010 2 { u with sup := { s.sup with watches := s.sup.watches.filter fun x => x.entry != e } })))) ∧
       (¬ closes → makes (.faultWindowClose ch) u)) ∧
     (let c := if Super.kind e = 1 ∧ Super.freeSpare s (Super.unit e) = none then Ops.channel 2 (Super.unit e) 0 else e
      let held := s.sup.watches.find? (fun x => x.entry == c)
      (Super.gone s c = true → Super.observed e s = s) ∧
      (Super.gone s c = false → held = none → Super.observed e s =
        { s with sup := { s.sup with watches := s.sup.watches ++ [{ entry := c, opened := now, retries := 0 }] } }) ∧
      (∀ w, Super.gone s c = false → held = some w → Super.observed e s = Super.permanent c w.retries s)) ∧
     (∀ (t : Transport) (v : W64), Writes s t 0xA010 5 (le 8 v.toNat) →
       let k := Super.kind v.toNat
       let c := Ops.channel k (Super.unit v.toNat) (if k = 1 then Super.position v.toNat else 0)
       let bad := Super.outOfRange v.toNat = true ∨ Super.gone s c = true ∨
         k = 3 ∧ Super.lastEngine s (Super.unit v.toNat) = true
       (¬ bad → exec (.retireRequest t v) s = .next (wrote s t 0xA010 5 (le 8 v.toNat) (Super.permanent c 0 (counted s)))) ∧
       (bad → makes (.retireRequest t v) (answered s t 2 0xA010 5 (le 8 v.toNat) 4 [] (counted s))))) ∧
  (∀ (s : State) (e k : Nat),
     Super.permanent e k s = Ops.raise 372 (Super.retire e 1 (Super.recordFault e 1 k (Ops.bump 0xA010 3
       { s with sup := { s.sup with watches := s.sup.watches.filter fun w => w.entry != e } }))) ∧
     (let n := Super.unit e
      let mine := Super.kind e * 2 ^ 60 + 2 ^ 58 + n * 2 ^ 32
      let b := Super.position e
      (Super.kind e = 2 → Super.retire e 1 s = Super.enter mine (Banks.retire n s)) ∧
      (Super.kind e = 3 → Super.retire e 1 s = Super.enter mine (Engines.retirePhysical n s)) ∧
      (Super.kind e = 4 → Super.retire e 1 s = Super.enter mine (Super.retireLane n s)) ∧
      (Super.kind e = 5 → Super.retire e 1 s = Super.enter mine (Queues.retireSubBank n s)) ∧
      (Super.kind e = 6 → Super.retire e 1 s = Super.enter mine (Super.retireFacet n s)) ∧
      (Super.kind e = 1 → (Ops.bank s n).rebuild ≠ none → Super.retire e 1 s =
        { s with sup := { s.sup with waiting := s.sup.waiting ++ [Super.withOrigin e 1] } }) ∧
      (Super.kind e = 1 → (Ops.bank s n).rebuild = none →
        (Super.freeSpare s n = none → Super.retire e 1 s =
          Super.enter (2 * 2 ^ 60 + 2 ^ 58 + n * 2 ^ 32) (Banks.retire n s)) ∧
        (∀ j, Super.freeSpare s n = some j → Super.retire e 1 s =
          Super.enter (2 ^ 60 + 2 ^ 58 + n * 2 ^ 32 + j * 256 + b) (Banks.applyRepair n
            (Ops.clearBits (Ops.reg s (0x4800 + n) 9) (0xFF * 2 ^ (8 * j)) + (128 + b) * 2 ^ (8 * j)) s))))) ∧
  (∀ (s : State) (t : Transport) (slot : Fin 4) (sig : List Byte) (v : W64),
     let fails (e : Nat) : Prop := exec (.fuseRepair t slot sig v) s = .next (after s
       (answered s t 2 0xC040 2 (Dict.sealedBlob s slot 0xA030 5 (le 8 v.toNat) sig) e []
         (Ops.raise 421 (Ops.setReg 0xC040 3 8 (opened s)))))
     let busy := Super.warned s = true ∨ s.sec.revoking ≠ [] ∨
       Super.kind v.toNat = 1 ∧ (Ops.bank s (Super.unit v.toNat)).rebuild ≠ none
     (Seals s t slot sig 0xA030 5 (le 8 v.toNat) →
       (Super.matching s v.toNat = none → fails 4) ∧
       (∀ x, Super.matching s v.toNat = some x →
         let refused := Super.origin x = 2 ∨ Super.kind v.toNat = 6 ∨ Super.freeRows s = 0
         (refused → fails 4) ∧
         (¬ refused → busy → fails 5) ∧
         (¬ refused → ¬ busy → exec (.fuseRepair t slot sig v) s =
           .next (after s { opened s with sup := { s.sup with blowing := some (x, t) } })))) ∧
     (Awake s → s.sup.blowing = none → exec .fuseBlowComplete s = .next (after s (Ops.begin s))) ∧
     (∀ x, s.sup.blowing = some (x, t) →
       (Awake s → exec .fuseBlowComplete s = .next (after s
         (Transports.fuseReply t 0 (Ops.setReg 0xC040 3 1 (Super.blown x (Ops.begin s)))))) ∧
       Transports.fuseCut s = Transports.fuseReply t 5 (Ops.raise 421 (Ops.setReg 0xC040 3 8
         { s with sup := { s.sup with blowing := none }, nv := { s.nv with wasted := s.nv.wasted + 1 } }))) ∧
     (∀ x,
       let n := Super.unit x
       let m := 0xFF * 2 ^ (8 * (x / 256 % 4))
       let y := { s with
         sup := { s.sup with blowing := none, repairs := s.sup.repairs.erase x }
         nv := { s.nv with repairs := s.nv.repairs ++ [Super.withOrigin x 2] } }
       (Super.kind x ≠ 1 → Super.blown x s = Ops.raise 374 y) ∧
       (Super.kind x = 1 → Super.blown x s = Ops.raise 374
         (Ops.setBank n { Ops.bank s n with steer := Ops.clearBits (Ops.bank s n).steer m }
           (Ops.setReg (0x4800 + n) 9 (Ops.clearBits (Ops.reg s (0x4800 + n) 9) m) y)))))

/-! ### The dictionary -/

/-- (1) R403, R405, R406, R407, R408, R410: a request that the server takes: the order of its checks, what a read, a write and a
description answer, and which operations an access class accepts; R404: a write of the wrong owner class is counted and raises source
420.

(2) R411, R415, R419, R427: a request that no transport has captured, of a transport that cannot deliver one, does nothing.

The model's choices in it: log entries 56 and 57. -/
def Obligations.Requests : Prop :=
  ∀ (s : State) (t : Transport) (i : W16) (k : Byte) (d : List Byte),
    let u := counted s
    let c := Transports.context u t
    let row := Dict.row u i.toNat k.toNat
    let fails (e : Nat) (x : State) : Prop := exec (.write t i k d) s = .next (afterTime s (answered s t 2 i.toNat k.toNat d e [] x))
    let unread (e : Nat) : Prop := exec (.read t i k) s = .next (after s (answered s t 1 i.toNat k.toNat [] e [] u))
    let told (e : Nat) (b : List Byte) : Prop :=
      exec (.describe t i k) s = .next (after s (answered s t 3 i.toNat k.toNat [] e b u))
    (∀ x, Reads s t i.toNat k.toNat x → i.toNat < 0xF000 → Objects.sizeOf x.ty ≠ none ∨ k = 0 →
      exec (.read t i k) s = .next (readOut s t i.toNat k.toNat (Dict.valueBytes x (Dict.value u c i.toNat k.toNat))
        (Dict.afterRead t i.toNat k.toNat u))) ∧
    (∀ x, Reads s t i.toNat k.toNat x → i.toNat < 0xF000 → Objects.sizeOf x.ty = none → k ≠ 0 →
      (∀ b, Dict.blob u c i.toNat k.toNat = some (.inr b) →
        exec (.read t i k) s = .next (readOut s t i.toNat k.toNat b (Dict.afterRead t i.toNat k.toNat u))) ∧
      (∀ e, Dict.blob u c i.toNat k.toNat = some (.inl e) → unread e) ∧
      (Dict.blob u c i.toNat k.toNat = none → exec (.read t i k) s = .next (readOut s t i.toNat k.toNat
        (Dict.valueBytes x (Dict.value u c i.toNat k.toNat)) (Dict.afterRead t i.toNat k.toNat u)))) ∧
    (Awake s → Served s t 1 i.toNat k.toNat [] →
      (row = none → unread 1) ∧
      (∀ x, row = some x → x.acc = .wo → unread 2) ∧
      (∀ x, row = some x → x.acc ≠ .wo → Dict.reachable s x = false → unread 3)) ∧
    (Awake s → Served s t 3 i.toNat k.toNat [] → (row = none → told 1 []) ∧
      ∀ x, row = some x → told 0 (Dict.description u x i.toNat k.toNat)) ∧
    (∀ x, Writes s t i.toNat k.toNat d → row = some x → i.toNat < 0xF000 → i.toNat ≠ 0xC040 →
      Dict.chapterWrite t i.toNat k.toNat d u = none →
      exec (.write t i k d) s = .next (wroteTime s t i.toNat k.toNat d
        (Ops.setReg i.toNat k.toNat (Ops.le d &&& x.bits) u))) ∧
    (Awake s → Served s t 2 i.toNat k.toNat d → row = none → fails 1 u) ∧
    (Awake s → Served s t 2 i.toNat k.toNat d → ∀ x, row = some x →
      let sealed := Dict.needsSeal u x i.toNat k.toNat (Ops.le d) = true ∨ x.own = .field ∧ Dict.fieldLocked u = true
      (Dict.badLength x d = true → fails 6 u) ∧
      (Dict.badLength x d = false → x.acc = .ro → fails 2 u) ∧
      (Dict.badLength x d = false → x.acc ≠ .ro → sealed → fails 7 (Ops.raise 420 (Ops.bump 0x1100 5 u))) ∧
      (Dict.badLength x d = false → x.acc ≠ .ro → ¬ sealed → Dict.wrongMode u x = true → fails 3 u) ∧
      (Dict.badLength x d = false → x.acc ≠ .ro → ¬ sealed → Dict.wrongMode u x = false → i.toNat < 0xF000 → i.toNat ≠ 0xC040 →
        x.ty = .bool ∧ 1 < Ops.le d ∨ x.ty = .blob ∧ x.len < d.length ∧ ¬(i = 0x6000 ∧ k = 3) → fails 4 u)) ∧
    (∀ e, Writes s t i.toNat k.toNat d → i.toNat < 0xF000 → i.toNat ≠ 0xC040 →
      Dict.chapterWrite t i.toNat k.toNat d u = some (.inl e) → fails e u) ∧
    (∀ y, Writes s t i.toNat k.toNat d → i.toNat < 0xF000 → i.toNat ≠ 0xC040 →
      Dict.chapterWrite t i.toNat k.toNat d u = some (.inr y) →
      exec (.write t i k d) s = .next (wroteTime s t i.toNat k.toNat d y)) ∧
    (∀ x, Dict.wrongMode u x = true ↔
      Dict.reachable u x = false ∨ x.acc = .rwh ∧ s.modes.cur ≠ .m1 ∧ s.modes.cur ≠ .m3) ∧
    (Awake s → Transports.live s t = false →
      ((Transports.captured s t (Transports.names 1 i.toNat k.toNat [])) = none →
        exec (.read t i k) s = .next (after s (Ops.begin s))) ∧
      ((Transports.captured s t (Transports.names 2 i.toNat k.toNat d)) = none →
        exec (.write t i k d) s = .next (afterTime s (Ops.begin s))) ∧
      ((Transports.captured s t (Transports.names 3 i.toNat k.toNat [])) = none →
        exec (.describe t i k) s = .next (after s (Ops.begin s))))

/-- R425, R426: a sealed command whose checks pass makes its inner write, whose reply a fuse repair holds back until its blow ends
(R491); one that fails a check makes none: it answers with the sealing error, or at the last check with the inner write's own, and
keeps the number of the check; one of a wrong length is refused, and one while another is in progress is busy. In every case the
challenge is drawn again.

The model's choices in it: log entry 58. -/
def Obligations.SealedCommands : Prop :=
  ∀ (s : State) (t : Transport) (slot : Fin 4) (sig : List Byte) (i k : Nat) (v d : List Byte),
    let long := d.length = 424 + Dict.field d 36 4 ∧ Dict.field d 36 4 ≤ 1024
    let b := Dict.sealedBlob s slot i k v sig
    let refused (e : Nat) (x : State) : Prop := exec (.sealedCommand t d) s = .next (after s (answered s t 2 0xC040 2 d e [] x))
    (∀ x, Seals s t slot sig i k v → Dict.innerWrite t i k v (opened s) = .inr x →
      (x.sup.blowing = none → exec (.sealedCommand t b) s = .next (unsealed s t slot sig i k v x)) ∧
      (x.sup.blowing ≠ none → exec (.sealedCommand t b) s = .next (after s x))) ∧
    (∀ e, Seals s t slot sig i k v → Dict.innerWrite t i k v (opened s) = .inl e →
      exec (.sealedCommand t b) s = .next (after s
        (answered s t 2 0xC040 2 b e [] (Ops.raise 421 (Ops.setReg 0xC040 3 8 (opened s)))))) ∧
    (Writes s t 0xC040 2 d →
      (¬ long → refused 4 (opened s)) ∧
      (long → s.sup.blowing ≠ none → refused 5 (opened s)) ∧
      (∀ c, long → s.sup.blowing = none → Dict.sealChecks d (counted s) = some c →
        refused 8 (Ops.raise 421 (Ops.setReg 0xC040 3 c (opened s))))) ∧
    (opened s).sec.challenge = Config.challenge s.fresh ∧ (opened s).fresh = s.fresh + 1

/-- (1) R411, R415, R416: a doorbell captures the request area, or is answered at once where the request fails by itself, or is discarded
while the mailbox is busy; in M6 it brings the link back to L0, and with the link down it does nothing.

(2) R420 to R423: a frame that is not for this device does nothing; a single frame, a first frame and a later segment join, open, go on
with, end or abandon a request, with the replies and counts of each.

(3) R418, R419, R422, R424, R427: the other commands of a CAN port: the time-out of a segment, a notice, the port's disabling, its error
counters and its recovery, with their events and with nothing done where nothing is due.

(4) R428, R429: a write of an entry of the publication table, refused where the entry would be valid and its fields are not.

(5) R401, R430, R431: an access to a published object answers what the words of its bank give, or their failure; a description answers
its row.

(6) R184, R430, R431: one word of a published sub of at most 8 bytes, in an On bank, when the array's turn has come round to the server:
read, written, and its notice bit set; a word in error, an Off and a retired bank fail with the data error, counted with source 422; a
bank that cannot serve yet is busy.

The model's choices in it: log entries 24, 51, 54, 55, 56 and 59. -/
def Obligations.Transports : Prop :=
  (∀ (s : State) (v : W32) (a : List Byte), Awake s →
     let u := Ops.toL0 Ops.raise (Ops.begin s)
     let makes (y : State) : Prop := exec (.doorbell v a) s = .next (after s y)
     let op := Dict.field a 2 1
     let i := Dict.field a 4 2
     let k := Dict.field a 6 1
     let len := Dict.field a 8 4
     let q : Request :=
       { client := 0, tag := v.toNat % 65536, op := op, index := i, sub := k, data := (a.drop 16).take len }
     let took : State := { u with mailbox := { s.mailbox with busy := true, request := some q } }
     let ends (e : Nat) : Prop := makes (Transports.answer .mailbox (some q) { op := op, index := i, sub := k, err := e, data := [] }
       (Ops.bump 0x1100 3 took))
     let bad := 65536 ≤ v.toNat ∨ Dict.field a 0 2 ≠ v.toNat ∨ op < 1 ∨ 3 < op ∨ Dict.field a 3 1 ≠ 0 ∨ Dict.field a 7 1 ≠ 0 ∨
       Dict.field a 12 4 ≠ 0
     let long := 28656 < len ∨ op ≠ 2 ∧ len ≠ 0
     (HostLink.up s = false → makes (Ops.begin s)) ∧
     (HostLink.up s = true → s.mailbox.busy = true →
       makes (Ops.bump 0x1100 4 { u with mailbox := { s.mailbox with overrun := true } })) ∧
     (HostLink.up s = true → s.mailbox.busy = false →
       (bad → ends 0x0A) ∧
       (¬ bad → long → Dict.row took i k = none → ends 1) ∧
       (¬ bad → long → Dict.row took i k ≠ none → ends 6) ∧
       (¬ bad → ¬ long → makes took))) ∧
  (∀ (s : State) (p : Fin 2) (f : CanFrame), Awake s →
     let i := 0x1101 + p.val
     let y := Ops.bump i 4 (Ops.begin s)
     let c := Ops.can s p
     let client := f.ident.toNat / 1024 % 128
     let mine := Transports.canLive s p = true ∧ f.ident.toNat = 2 ^ 24 + s.modes.ndId.toNat * 2 ^ 17 + client * 2 ^ 10
     let makes (z : State) : Prop := exec (.canRequestFrame p f) s = .next (after s z)
     let kind := Dict.field f.data 0 1 / 64
     let h := Dict.header client f.data
     let reply (r : Reassembly) (e : Nat) (z : State) : State := Transports.sendReply p r.client r.tid
       { op := r.op, index := r.index, sub := r.sub, err := e, data := [] } z
     let lost (r : Reassembly) (z : State) : State := Ops.bump i 6 (reply r 9 z)
     let joins (r : Reassembly) (z : State) : Prop :=
       let q : Request :=
         { client := r.client, tag := r.tid, op := r.op, index := r.index, sub := r.sub, data := r.data.take r.len }
       (Dict.early z r.op r.index r.sub r.len r.bad = none →
         makes (Ops.setCan p { Ops.can z p with waiting := (Ops.can z p).waiting ++ [q] } z)) ∧
       (∀ e, Dict.early z r.op r.index r.sub r.len r.bad = some e → makes (Transports.answer (Transports.ofPort p) (some q)
         { op := r.op, index := r.index, sub := r.sub, err := e, data := [] } (Ops.bump 0x1100 3 z)))
     let others := c.ignored.filter fun x => x != client
     (¬ mine → makes (Ops.begin s)) ∧
     (mine → kind = 0 → (h.data.length < h.len → makes (reply h 6 y)) ∧ (h.len ≤ h.data.length → joins h y)) ∧
     (mine → kind = 1 →
       (c.reassembly ≠ none → makes (Ops.bump i 7 (reply h 5 y))) ∧
       (c.reassembly = none → 28656 < h.len → makes (reply h 6 (Ops.setCan p { c with ignored := client :: others } y))) ∧
       (c.reassembly = none → h.len ≤ 28656 →
         let z := Ops.setCan p { c with ignored := others } y
         (h.len ≤ 52 ∨ h.data.length < 52 → makes (lost h z)) ∧
         (52 < h.len → 52 ≤ h.data.length → makes (Ops.setCan p { Ops.can z p with reassembly := some h } z)))) ∧
     (mine → 2 ≤ kind →
       (client ∈ c.ignored → makes y) ∧
       (client ∉ c.ignored → (∀ r, c.reassembly = some r → r.client ≠ client) → makes (lost
         { client := client, tid := Dict.field f.data 1 1, op := 0, index := 0, sub := 0, len := 0, nextSegment := 0
           bad := false, data := [] } y)) ∧
       (∀ r, client ∉ c.ignored → c.reassembly = some r → r.client = client →
         let part := (f.data.drop 2).take (min 62 (r.len - r.data.length))
         let whole := r.len ≤ r.data.length + 62
         let good := Dict.field f.data 1 1 = r.tid ∧ Dict.field f.data 0 1 % 64 = r.nextSegment % 64 ∧ (whole ↔ kind = 3) ∧
           min 62 (r.len - r.data.length) ≤ part.length
         let r' := { r with data := r.data ++ part, nextSegment := r.nextSegment + 1 }
         let z := Ops.setCan p { c with reassembly := none } y
         (¬ good → makes (lost r z)) ∧
         (good → kind = 3 → joins r' z) ∧
         (good → kind ≠ 3 → makes (Ops.setCan p { c with reassembly := some r' } y))))) ∧
  (∀ (s : State) (p : Fin 2),
     let u := Ops.begin s
     let c := Ops.can s p
     let i := 0x1101 + p.val
     let live := Transports.canLive s p = true
     let makes (k : Instr) (y : State) : Prop := exec k s = .next (after s y)
     let moved (k : Instr) (y : State) : Prop :=
       (Transports.canState y p = Transports.canState s p → makes k y) ∧
       (Transports.canState y p ≠ Transports.canState s p → makes k (Ops.raise (417 + p) y))
     (Awake s → c.reassembly = none → makes (.canSegmentTimeout p) u) ∧
     (∀ r, Awake s → c.reassembly = some r → makes (.canSegmentTimeout p)
       (Ops.bump i 6 (Transports.sendReply p r.client r.tid { op := r.op, index := r.index, sub := r.sub, err := 9, data := [] }
         (Ops.setCan p { c with reassembly := none } u)))) ∧
     (Awake s → ¬ live ∨ c.notices = [] → makes (.notice p) u) ∧
     (∀ n l, Awake s → live → c.notices = n :: l → makes (.notice p)
       (Transports.sendFrame p (3 * 2 ^ 24 + s.modes.ndId.toNat * 2 ^ 10)
         (le 2 0 ++ le 1 0x10 ++ le 1 0 ++ le 2 n.source ++ le 2 0 ++ Ops.time80 n.sec n.ns ++ le 2 0)
         (Ops.setCan p { c with notices := l } u))) ∧
     (∀ t, Writes s t i 1 (le 1 0) →
       (Transports.portOf t = some p.val →
         makes (.canPortDisable t p) (answered s t 2 i 1 (le 1 0) 4 [] (counted s))) ∧
       (Transports.portOf t ≠ some p.val →
         let y := Ops.setReg i 1 0 (Ops.setCan p { c with reassembly := none, notices := [] } (counted s))
         let off := Transports.canState s p = 0
         (off → exec (.canPortDisable t p) s = .next (wrote s t i 1 (le 1 0) (Bridges.follow y))) ∧
         (¬ off → exec (.canPortDisable t p) s =
           .next (wrote s t i 1 (le 1 0) (Bridges.follow (Ops.raise (417 + p) y)))))) ∧
     (∀ tec rxe : W16, Awake s →
       let idle := Transports.enabled s p = false ∨ c.busOff = true
       (idle → makes (.busError p tec rxe) u) ∧
       (¬ idle → tec.toNat ≤ 255 → moved (.busError p tec rxe)
         (Ops.setCan p { c with txErr := tec.toNat, rxErr := rxe.toNat, busOff := false } u)) ∧
       (¬ idle → 255 < tec.toNat → moved (.busError p tec rxe)
         (Ops.setCan p { c with txErr := 256, rxErr := rxe.toNat, busOff := true } (Ops.bump i 0x0A u)))) ∧
     (Awake s → c.busOff = false → makes (.busOffRecovery p) u) ∧
     (Awake s → c.busOff = true → moved (.busOffRecovery p)
       (Ops.setCan p { c with txErr := 0, rxErr := 0, busOff := false } u))) ∧
  (∀ (s : State) (t : Transport) (e : Fin 128) (v : W64), Writes s t 0x1103 (1 + e) (le 8 v.toNat) →
     let bad := v.getLsbD 63 = true ∧ Dict.badEntry (counted s) e v.toNat = true
     (bad → exec (.publicationEntryWrite t e v) s =
       .next (after s (answered s t 2 0x1103 (1 + e) (le 8 v.toNat) 4 [] (counted s)))) ∧
     (¬ bad → exec (.publicationEntryWrite t e v) s =
       .next (wrote s t 0x1103 (1 + e) (le 8 v.toNat) (Ops.setReg 0x1103 (1 + e) v.toNat (counted s))))) ∧
  (∀ (s : State) (t : Transport) (i : BitVec 12) (k : Byte) (d : List Byte) (x : Row),
     let u := counted s
     let j := 0xF000 + i.toNat
     let ends (op : ReqOp) (n : Nat) (b : List Byte) (e : Nat) (r : List Byte) (y : State) : Prop :=
       exec (.publishedAccess t op i k d) s = .next (after s (answered s t n j k.toNat b e r y))
     (Reads s t j k.toNat x →
       (∀ b y, Dict.readPublished j k.toNat u = (.inr b, y) → ends .read 1 [] 0 b y) ∧
       (∀ e y, Dict.readPublished j k.toNat u = (.inl e, y) → ends .read 1 [] e [] y)) ∧
     (∀ e y, Writes s t j k.toNat d → Dict.writePublished j k.toNat d u = (e, y) → ends .write 2 d e [] y) ∧
     (Awake s → Served s t 3 j k.toNat [] →
       (Dict.row u j k.toNat = some x → ends .describe 3 [] 0 (Dict.description u x j k.toNat) u) ∧
       (Dict.row u j k.toNat = none → ends .describe 3 [] 1 [] u))) ∧
  (∀ (s : State) (t : Transport) (i : BitVec 12) (k : Byte) (e m : Nat) (x : Row) (b : List Byte), k ≠ 0 →
     let u := counted s
     let v := Dict.entry u e
     let n := Dict.bankOf v
     let w := Dict.wordOf v
     let j := 0xF000 + i.toNat
     let y := Banks.turn n (Banks.turn n u)
     let served (z : State) : State := Ops.bump 0x1103 0x82 z
     let fails (op : ReqOp) (o : Nat) (d : List Byte) (z : State) : Prop := exec (.publishedAccess t op i k d) s =
       .next (after s (answered s t o j k.toNat d 0x0B [] (served (Ops.raise 422 (Ops.bump 0x1100 6 z)))))
     Dict.entryFor u j k.toNat = some e → Objects.sizeOf (Dict.typeOf (Dict.typeCode v)) = some m → m ≤ 8 →
       (BankOn s n → Banks.entered y n = true →
         (∀ d, Reads s t j k.toNat x → Ops.word y n w = Flags.encode d → exec (.publishedAccess t .read i k []) s =
           .next (readOut s t j k.toNat ((le 8 d.toNat).take m) (served (Ops.setWord n w (Flags.encode d) y)))) ∧
         (let p := Ops.bankAccess Ops.raise n { op := 0, addr := BitVec.ofNat 13 w, data := 0 } 0 y
          Reads s t j k.toNat x → p.2.bad = true → fails .read 1 [] p.1) ∧
         (Writes s t j k.toNat b → Dict.notify v = false → exec (.publishedAccess t .write i k b) s =
           .next (wrote s t j k.toNat b (served (Ops.setWord n w (Flags.encode (BitVec.ofNat 64 (Ops.le b))) y)))) ∧
         (Writes s t j k.toNat b → Dict.notify v = true →
           let z := Ops.setWord n w (Flags.encode (BitVec.ofNat 64 (Ops.le b))) y
           let a := Ops.reg z 0x1103 0x81
           let o := a / 8192 % 2048
           let l := a % 8192 + e / 64
           let z := Banks.turn o (Banks.turn o z)
           ∀ d, l < 8192 → Banks.entered z o = true → Ops.word z o l = Flags.encode d →
             exec (.publishedAccess t .write i k b) s = .next (wrote s t j k.toNat b
               (served (Ops.setWord o l (Flags.encode (d ||| BitVec.twoPow 64 (e % 64))) z))))) ∧
       (Ops.refuses s n = true →
         (Reads s t j k.toNat x → fails .read 1 [] (Ops.refuse Ops.raise n u)) ∧
         (Writes s t j k.toNat b → fails .write 2 b (Ops.refuse Ops.raise n u))) ∧
       (let z := Banks.turn n (Banks.wakeComplete n (Ops.wakeBank n true (Banks.turn n u)))
        let busy (op : ReqOp) (o : Nat) (d : List Byte) : Prop := exec (.publishedAccess t op i k d) s =
          .next (after s (answered s t o j k.toNat d 5 [] (served z)))
        Ops.refuses s n = false → Banks.entered z n = false →
          (Reads s t j k.toNat x → busy .read 1 []) ∧ (Writes s t j k.toNat b → busy .write 2 b)))
end

