-- ==== Sys2Proof/Laws/Bytes.lean ====
section
/-!
SUPPORT. Numbers and their bytes, lowest first (R10).
-/

namespace Sys2Proof.Laws

open Sys2Proof.Machine

@[simp] theorem length_bytes (n v : Nat) : (Ops.bytes n v).length = n := by
  induction n generalizing v with
  | zero => rfl
  | succ n ih => simp [Ops.bytes, Crypto.bytesLE]; exact ih _

/-- The number that `n` bytes of `v` spell. -/
theorem le_bytes (n v : Nat) : Ops.le (Ops.bytes n v) = v % 256 ^ n := by
  induction n generalizing v with
  | zero => simp [Ops.bytes, Ops.le, Crypto.bytesLE, Crypto.natLE, Nat.mod_one]
  | succ n ih =>
    have h := ih (v / 256)
    simp only [Ops.bytes, Ops.le] at h
    simp only [Ops.bytes, Ops.le, Crypto.bytesLE, Crypto.natLE, h, BitVec.toNat_ofNat]
    rw [show (256 : Nat) ^ (n + 1) = 256 * 256 ^ n from Nat.pow_succ', Nat.mod_mul]

/-- A number below the range of its bytes. -/
theorem le_bytes_lt {n v : Nat} (h : v < 256 ^ n) : Ops.le (Ops.bytes n v) = v := by rw [le_bytes, Nat.mod_eq_of_lt h]

/-- The bytes of an operand of `8 n` bits. -/
theorem le_bytes_word {n w : Nat} (h : w = 8 * n) (v : BitVec w) : Ops.le (Ops.bytes n v.toNat) = v.toNat := by
  apply le_bytes_lt
  have := v.isLt
  subst h
  rwa [show (256 : Nat) = 2 ^ 8 from rfl, ← pow_mul]

/-- Bytes spell a number below their range. -/
theorem le_lt (d : List Byte) : Ops.le d < 256 ^ d.length := by
  induction d with
  | nil => simp [Ops.le, Crypto.natLE]
  | cons b d ih =>
    have hb := b.isLt
    simp only [Ops.le, Crypto.natLE, List.length_cons, pow_succ] at ih ⊢
    have : (2 : Nat) ^ 8 = 256 := rfl
    nlinarith

/-- The bytes of the number that bytes spell. -/
theorem bytes_le (d : List Byte) : Ops.bytes d.length (Ops.le d) = d := by
  induction d with
  | nil => rfl
  | cons b d ih =>
    simp only [Ops.bytes, Ops.le] at ih
    simp only [Ops.bytes, Ops.le, List.length_cons, Crypto.bytesLE, Crypto.natLE]
    have hb := b.isLt
    congr 1
    · apply BitVec.eq_of_toNat_eq; simp; omega
    · rw [show (b.toNat + 256 * Crypto.natLE d) / 256 = Crypto.natLE d by omega, ih]

end Sys2Proof.Laws
end

