-- ==== Sys2Proof/Laws/State.lean ====
section
/-!
SUPPORT. What each update of the state leaves alone: one statement for an update, true by definition, that the simplifier
splits into one rule for a field.
-/

namespace Sys2Proof.Machine

@[simp] theorem Ops.begin_frame (s : State) :
    (Ops.begin s).modes = s.modes ∧ (Ops.begin s).regs = s.regs ∧ (Ops.begin s).mailbox = s.mailbox ∧
    (Ops.begin s).can0 = s.can0 ∧ (Ops.begin s).can1 = s.can1 ∧ (Ops.begin s).ctxMailbox = s.ctxMailbox ∧
    (Ops.begin s).ctxCan0 = s.ctxCan0 ∧ (Ops.begin s).ctxCan1 = s.ctxCan1 ∧ (Ops.begin s).events = s.events ∧
    (Ops.begin s).time = s.time ∧ (Ops.begin s).servo = s.servo ∧ (Ops.begin s).keepers = s.keepers ∧
    (Ops.begin s).gates = s.gates ∧ (Ops.begin s).entries = s.entries ∧ (Ops.begin s).banks = s.banks ∧
    (Ops.begin s).bankBase = s.bankBase ∧ (Ops.begin s).bankMem = s.bankMem ∧ (Ops.begin s).bankSpare = s.bankSpare ∧
    (Ops.begin s).pool = s.pool ∧ (Ops.begin s).queues = s.queues ∧ (Ops.begin s).qports = s.qports ∧
    (Ops.begin s).rings = s.rings ∧ (Ops.begin s).ringMem = s.ringMem ∧ (Ops.begin s).eng = s.eng ∧
    (Ops.begin s).ports = s.ports ∧ (Ops.begin s).fab = s.fab ∧ (Ops.begin s).laneOut = s.laneOut ∧
    (Ops.begin s).pinIn = s.pinIn ∧ (Ops.begin s).pins = s.pins ∧ (Ops.begin s).pinBase = s.pinBase ∧
    (Ops.begin s).vio = s.vio ∧ (Ops.begin s).tap = s.tap ∧ (Ops.begin s).loader = s.loader ∧
    (Ops.begin s).facets = s.facets ∧ (Ops.begin s).facetBase = s.facetBase ∧ (Ops.begin s).scrub = s.scrub ∧
    (Ops.begin s).sec = s.sec ∧ (Ops.begin s).nv = s.nv ∧ (Ops.begin s).domains = s.domains ∧
    (Ops.begin s).bridges = s.bridges ∧ (Ops.begin s).lanes = s.lanes ∧ (Ops.begin s).bonds = s.bonds ∧
    (Ops.begin s).ethPorts = s.ethPorts ∧ (Ops.begin s).host = s.host ∧ (Ops.begin s).sup = s.sup ∧
    (Ops.begin s).fresh = s.fresh ∧ (Ops.begin s).pending = s.pending := by
  and_intros <;> rfl

@[simp] theorem Ops.setReg_frame (i k v : Nat) (s : State) :
    (Ops.setReg i k v s).modes = s.modes ∧ (Ops.setReg i k v s).mailbox = s.mailbox ∧
    (Ops.setReg i k v s).can0 = s.can0 ∧ (Ops.setReg i k v s).can1 = s.can1 ∧
    (Ops.setReg i k v s).ctxMailbox = s.ctxMailbox ∧ (Ops.setReg i k v s).ctxCan0 = s.ctxCan0 ∧
    (Ops.setReg i k v s).ctxCan1 = s.ctxCan1 ∧ (Ops.setReg i k v s).events = s.events ∧
    (Ops.setReg i k v s).time = s.time ∧ (Ops.setReg i k v s).servo = s.servo ∧
    (Ops.setReg i k v s).keepers = s.keepers ∧ (Ops.setReg i k v s).gates = s.gates ∧
    (Ops.setReg i k v s).entries = s.entries ∧ (Ops.setReg i k v s).banks = s.banks ∧
    (Ops.setReg i k v s).bankBase = s.bankBase ∧ (Ops.setReg i k v s).bankMem = s.bankMem ∧
    (Ops.setReg i k v s).bankSpare = s.bankSpare ∧ (Ops.setReg i k v s).pool = s.pool ∧
    (Ops.setReg i k v s).queues = s.queues ∧ (Ops.setReg i k v s).qports = s.qports ∧
    (Ops.setReg i k v s).rings = s.rings ∧ (Ops.setReg i k v s).ringMem = s.ringMem ∧
    (Ops.setReg i k v s).eng = s.eng ∧ (Ops.setReg i k v s).ports = s.ports ∧ (Ops.setReg i k v s).fab = s.fab ∧
    (Ops.setReg i k v s).laneOut = s.laneOut ∧ (Ops.setReg i k v s).pinIn = s.pinIn ∧
    (Ops.setReg i k v s).pins = s.pins ∧ (Ops.setReg i k v s).pinBase = s.pinBase ∧
    (Ops.setReg i k v s).vio = s.vio ∧ (Ops.setReg i k v s).tap = s.tap ∧ (Ops.setReg i k v s).loader = s.loader ∧
    (Ops.setReg i k v s).facets = s.facets ∧ (Ops.setReg i k v s).facetBase = s.facetBase ∧
    (Ops.setReg i k v s).scrub = s.scrub ∧ (Ops.setReg i k v s).sec = s.sec ∧ (Ops.setReg i k v s).nv = s.nv ∧
    (Ops.setReg i k v s).domains = s.domains ∧ (Ops.setReg i k v s).bridges = s.bridges ∧
    (Ops.setReg i k v s).lanes = s.lanes ∧ (Ops.setReg i k v s).bonds = s.bonds ∧
    (Ops.setReg i k v s).ethPorts = s.ethPorts ∧ (Ops.setReg i k v s).host = s.host ∧
    (Ops.setReg i k v s).sup = s.sup ∧ (Ops.setReg i k v s).fresh = s.fresh ∧ (Ops.setReg i k v s).out = s.out ∧
    (Ops.setReg i k v s).pending = s.pending := by
  and_intros <;> rfl

@[simp] theorem Ops.add_frame (i k w v : Nat) (s : State) :
    (Ops.add i k w v s).modes = s.modes ∧ (Ops.add i k w v s).mailbox = s.mailbox ∧
    (Ops.add i k w v s).can0 = s.can0 ∧ (Ops.add i k w v s).can1 = s.can1 ∧
    (Ops.add i k w v s).ctxMailbox = s.ctxMailbox ∧ (Ops.add i k w v s).ctxCan0 = s.ctxCan0 ∧
    (Ops.add i k w v s).ctxCan1 = s.ctxCan1 ∧ (Ops.add i k w v s).events = s.events ∧
    (Ops.add i k w v s).time = s.time ∧ (Ops.add i k w v s).servo = s.servo ∧
    (Ops.add i k w v s).keepers = s.keepers ∧ (Ops.add i k w v s).gates = s.gates ∧
    (Ops.add i k w v s).entries = s.entries ∧ (Ops.add i k w v s).banks = s.banks ∧
    (Ops.add i k w v s).bankBase = s.bankBase ∧ (Ops.add i k w v s).bankMem = s.bankMem ∧
    (Ops.add i k w v s).bankSpare = s.bankSpare ∧ (Ops.add i k w v s).pool = s.pool ∧
    (Ops.add i k w v s).queues = s.queues ∧ (Ops.add i k w v s).qports = s.qports ∧
    (Ops.add i k w v s).rings = s.rings ∧ (Ops.add i k w v s).ringMem = s.ringMem ∧ (Ops.add i k w v s).eng = s.eng ∧
    (Ops.add i k w v s).ports = s.ports ∧ (Ops.add i k w v s).fab = s.fab ∧ (Ops.add i k w v s).laneOut = s.laneOut ∧
    (Ops.add i k w v s).pinIn = s.pinIn ∧ (Ops.add i k w v s).pins = s.pins ∧
    (Ops.add i k w v s).pinBase = s.pinBase ∧ (Ops.add i k w v s).vio = s.vio ∧ (Ops.add i k w v s).tap = s.tap ∧
    (Ops.add i k w v s).loader = s.loader ∧ (Ops.add i k w v s).facets = s.facets ∧
    (Ops.add i k w v s).facetBase = s.facetBase ∧ (Ops.add i k w v s).scrub = s.scrub ∧
    (Ops.add i k w v s).sec = s.sec ∧ (Ops.add i k w v s).nv = s.nv ∧ (Ops.add i k w v s).domains = s.domains ∧
    (Ops.add i k w v s).bridges = s.bridges ∧ (Ops.add i k w v s).lanes = s.lanes ∧
    (Ops.add i k w v s).bonds = s.bonds ∧ (Ops.add i k w v s).ethPorts = s.ethPorts ∧
    (Ops.add i k w v s).host = s.host ∧ (Ops.add i k w v s).sup = s.sup ∧ (Ops.add i k w v s).fresh = s.fresh ∧
    (Ops.add i k w v s).out = s.out ∧ (Ops.add i k w v s).pending = s.pending := by
  and_intros <;> rfl

@[simp] theorem Ops.bump_frame (i k : Nat) (s : State) :
    (Ops.bump i k s).modes = s.modes ∧ (Ops.bump i k s).mailbox = s.mailbox ∧ (Ops.bump i k s).can0 = s.can0 ∧
    (Ops.bump i k s).can1 = s.can1 ∧ (Ops.bump i k s).ctxMailbox = s.ctxMailbox ∧
    (Ops.bump i k s).ctxCan0 = s.ctxCan0 ∧ (Ops.bump i k s).ctxCan1 = s.ctxCan1 ∧
    (Ops.bump i k s).events = s.events ∧ (Ops.bump i k s).time = s.time ∧ (Ops.bump i k s).servo = s.servo ∧
    (Ops.bump i k s).keepers = s.keepers ∧ (Ops.bump i k s).gates = s.gates ∧ (Ops.bump i k s).entries = s.entries ∧
    (Ops.bump i k s).banks = s.banks ∧ (Ops.bump i k s).bankBase = s.bankBase ∧
    (Ops.bump i k s).bankMem = s.bankMem ∧ (Ops.bump i k s).bankSpare = s.bankSpare ∧
    (Ops.bump i k s).pool = s.pool ∧ (Ops.bump i k s).queues = s.queues ∧ (Ops.bump i k s).qports = s.qports ∧
    (Ops.bump i k s).rings = s.rings ∧ (Ops.bump i k s).ringMem = s.ringMem ∧ (Ops.bump i k s).eng = s.eng ∧
    (Ops.bump i k s).ports = s.ports ∧ (Ops.bump i k s).fab = s.fab ∧ (Ops.bump i k s).laneOut = s.laneOut ∧
    (Ops.bump i k s).pinIn = s.pinIn ∧ (Ops.bump i k s).pins = s.pins ∧ (Ops.bump i k s).pinBase = s.pinBase ∧
    (Ops.bump i k s).vio = s.vio ∧ (Ops.bump i k s).tap = s.tap ∧ (Ops.bump i k s).loader = s.loader ∧
    (Ops.bump i k s).facets = s.facets ∧ (Ops.bump i k s).facetBase = s.facetBase ∧
    (Ops.bump i k s).scrub = s.scrub ∧ (Ops.bump i k s).sec = s.sec ∧ (Ops.bump i k s).nv = s.nv ∧
    (Ops.bump i k s).domains = s.domains ∧ (Ops.bump i k s).bridges = s.bridges ∧ (Ops.bump i k s).lanes = s.lanes ∧
    (Ops.bump i k s).bonds = s.bonds ∧ (Ops.bump i k s).ethPorts = s.ethPorts ∧ (Ops.bump i k s).host = s.host ∧
    (Ops.bump i k s).sup = s.sup ∧ (Ops.bump i k s).fresh = s.fresh ∧ (Ops.bump i k s).out = s.out ∧
    (Ops.bump i k s).pending = s.pending := by
  and_intros <;> rfl

@[simp] theorem Ops.defaults_frame (lo hi : Nat) (k : Nat → Bool) (s : State) :
    (Ops.defaults lo hi k s).modes = s.modes ∧ (Ops.defaults lo hi k s).mailbox = s.mailbox ∧
    (Ops.defaults lo hi k s).can0 = s.can0 ∧ (Ops.defaults lo hi k s).can1 = s.can1 ∧
    (Ops.defaults lo hi k s).ctxMailbox = s.ctxMailbox ∧ (Ops.defaults lo hi k s).ctxCan0 = s.ctxCan0 ∧
    (Ops.defaults lo hi k s).ctxCan1 = s.ctxCan1 ∧ (Ops.defaults lo hi k s).events = s.events ∧
    (Ops.defaults lo hi k s).time = s.time ∧ (Ops.defaults lo hi k s).servo = s.servo ∧
    (Ops.defaults lo hi k s).keepers = s.keepers ∧ (Ops.defaults lo hi k s).gates = s.gates ∧
    (Ops.defaults lo hi k s).entries = s.entries ∧ (Ops.defaults lo hi k s).banks = s.banks ∧
    (Ops.defaults lo hi k s).bankBase = s.bankBase ∧ (Ops.defaults lo hi k s).bankMem = s.bankMem ∧
    (Ops.defaults lo hi k s).bankSpare = s.bankSpare ∧ (Ops.defaults lo hi k s).pool = s.pool ∧
    (Ops.defaults lo hi k s).queues = s.queues ∧ (Ops.defaults lo hi k s).qports = s.qports ∧
    (Ops.defaults lo hi k s).rings = s.rings ∧ (Ops.defaults lo hi k s).ringMem = s.ringMem ∧
    (Ops.defaults lo hi k s).eng = s.eng ∧ (Ops.defaults lo hi k s).ports = s.ports ∧
    (Ops.defaults lo hi k s).fab = s.fab ∧ (Ops.defaults lo hi k s).laneOut = s.laneOut ∧
    (Ops.defaults lo hi k s).pinIn = s.pinIn ∧ (Ops.defaults lo hi k s).pins = s.pins ∧
    (Ops.defaults lo hi k s).pinBase = s.pinBase ∧ (Ops.defaults lo hi k s).vio = s.vio ∧
    (Ops.defaults lo hi k s).tap = s.tap ∧ (Ops.defaults lo hi k s).loader = s.loader ∧
    (Ops.defaults lo hi k s).facets = s.facets ∧ (Ops.defaults lo hi k s).facetBase = s.facetBase ∧
    (Ops.defaults lo hi k s).scrub = s.scrub ∧ (Ops.defaults lo hi k s).sec = s.sec ∧
    (Ops.defaults lo hi k s).nv = s.nv ∧ (Ops.defaults lo hi k s).domains = s.domains ∧
    (Ops.defaults lo hi k s).bridges = s.bridges ∧ (Ops.defaults lo hi k s).lanes = s.lanes ∧
    (Ops.defaults lo hi k s).bonds = s.bonds ∧ (Ops.defaults lo hi k s).ethPorts = s.ethPorts ∧
    (Ops.defaults lo hi k s).host = s.host ∧ (Ops.defaults lo hi k s).sup = s.sup ∧
    (Ops.defaults lo hi k s).fresh = s.fresh ∧ (Ops.defaults lo hi k s).out = s.out ∧
    (Ops.defaults lo hi k s).pending = s.pending := by
  and_intros <;> rfl

@[simp] theorem Ops.emit_frame (o : Output) (s : State) :
    (Ops.emit o s).modes = s.modes ∧ (Ops.emit o s).regs = s.regs ∧ (Ops.emit o s).mailbox = s.mailbox ∧
    (Ops.emit o s).can0 = s.can0 ∧ (Ops.emit o s).can1 = s.can1 ∧ (Ops.emit o s).ctxMailbox = s.ctxMailbox ∧
    (Ops.emit o s).ctxCan0 = s.ctxCan0 ∧ (Ops.emit o s).ctxCan1 = s.ctxCan1 ∧ (Ops.emit o s).events = s.events ∧
    (Ops.emit o s).time = s.time ∧ (Ops.emit o s).servo = s.servo ∧ (Ops.emit o s).keepers = s.keepers ∧
    (Ops.emit o s).gates = s.gates ∧ (Ops.emit o s).entries = s.entries ∧ (Ops.emit o s).banks = s.banks ∧
    (Ops.emit o s).bankBase = s.bankBase ∧ (Ops.emit o s).bankMem = s.bankMem ∧
    (Ops.emit o s).bankSpare = s.bankSpare ∧ (Ops.emit o s).pool = s.pool ∧ (Ops.emit o s).queues = s.queues ∧
    (Ops.emit o s).qports = s.qports ∧ (Ops.emit o s).rings = s.rings ∧ (Ops.emit o s).ringMem = s.ringMem ∧
    (Ops.emit o s).eng = s.eng ∧ (Ops.emit o s).ports = s.ports ∧ (Ops.emit o s).fab = s.fab ∧
    (Ops.emit o s).laneOut = s.laneOut ∧ (Ops.emit o s).pinIn = s.pinIn ∧ (Ops.emit o s).pins = s.pins ∧
    (Ops.emit o s).pinBase = s.pinBase ∧ (Ops.emit o s).vio = s.vio ∧ (Ops.emit o s).tap = s.tap ∧
    (Ops.emit o s).loader = s.loader ∧ (Ops.emit o s).facets = s.facets ∧ (Ops.emit o s).facetBase = s.facetBase ∧
    (Ops.emit o s).scrub = s.scrub ∧ (Ops.emit o s).sec = s.sec ∧ (Ops.emit o s).nv = s.nv ∧
    (Ops.emit o s).domains = s.domains ∧ (Ops.emit o s).bridges = s.bridges ∧ (Ops.emit o s).lanes = s.lanes ∧
    (Ops.emit o s).bonds = s.bonds ∧ (Ops.emit o s).ethPorts = s.ethPorts ∧ (Ops.emit o s).host = s.host ∧
    (Ops.emit o s).sup = s.sup ∧ (Ops.emit o s).fresh = s.fresh ∧ (Ops.emit o s).pending = s.pending := by
  and_intros <;> rfl

@[simp] theorem Ops.tickFresh_frame (s : State) :
    (Ops.tickFresh s).modes = s.modes ∧ (Ops.tickFresh s).regs = s.regs ∧ (Ops.tickFresh s).mailbox = s.mailbox ∧
    (Ops.tickFresh s).can0 = s.can0 ∧ (Ops.tickFresh s).can1 = s.can1 ∧ (Ops.tickFresh s).ctxMailbox = s.ctxMailbox ∧
    (Ops.tickFresh s).ctxCan0 = s.ctxCan0 ∧ (Ops.tickFresh s).ctxCan1 = s.ctxCan1 ∧
    (Ops.tickFresh s).events = s.events ∧ (Ops.tickFresh s).time = s.time ∧ (Ops.tickFresh s).servo = s.servo ∧
    (Ops.tickFresh s).keepers = s.keepers ∧ (Ops.tickFresh s).gates = s.gates ∧
    (Ops.tickFresh s).entries = s.entries ∧ (Ops.tickFresh s).banks = s.banks ∧
    (Ops.tickFresh s).bankBase = s.bankBase ∧ (Ops.tickFresh s).bankMem = s.bankMem ∧
    (Ops.tickFresh s).bankSpare = s.bankSpare ∧ (Ops.tickFresh s).pool = s.pool ∧
    (Ops.tickFresh s).queues = s.queues ∧ (Ops.tickFresh s).qports = s.qports ∧ (Ops.tickFresh s).rings = s.rings ∧
    (Ops.tickFresh s).ringMem = s.ringMem ∧ (Ops.tickFresh s).eng = s.eng ∧ (Ops.tickFresh s).ports = s.ports ∧
    (Ops.tickFresh s).fab = s.fab ∧ (Ops.tickFresh s).laneOut = s.laneOut ∧ (Ops.tickFresh s).pinIn = s.pinIn ∧
    (Ops.tickFresh s).pins = s.pins ∧ (Ops.tickFresh s).pinBase = s.pinBase ∧ (Ops.tickFresh s).vio = s.vio ∧
    (Ops.tickFresh s).tap = s.tap ∧ (Ops.tickFresh s).loader = s.loader ∧ (Ops.tickFresh s).facets = s.facets ∧
    (Ops.tickFresh s).facetBase = s.facetBase ∧ (Ops.tickFresh s).scrub = s.scrub ∧ (Ops.tickFresh s).sec = s.sec ∧
    (Ops.tickFresh s).nv = s.nv ∧ (Ops.tickFresh s).domains = s.domains ∧ (Ops.tickFresh s).bridges = s.bridges ∧
    (Ops.tickFresh s).lanes = s.lanes ∧ (Ops.tickFresh s).bonds = s.bonds ∧ (Ops.tickFresh s).ethPorts = s.ethPorts ∧
    (Ops.tickFresh s).host = s.host ∧ (Ops.tickFresh s).sup = s.sup ∧ (Ops.tickFresh s).out = s.out ∧
    (Ops.tickFresh s).pending = s.pending := by
  and_intros <;> rfl

@[simp] theorem Ops.setBank_frame (n : Nat) (b : Bank) (s : State) :
    (Ops.setBank n b s).modes = s.modes ∧ (Ops.setBank n b s).regs = s.regs ∧
    (Ops.setBank n b s).mailbox = s.mailbox ∧ (Ops.setBank n b s).can0 = s.can0 ∧ (Ops.setBank n b s).can1 = s.can1 ∧
    (Ops.setBank n b s).ctxMailbox = s.ctxMailbox ∧ (Ops.setBank n b s).ctxCan0 = s.ctxCan0 ∧
    (Ops.setBank n b s).ctxCan1 = s.ctxCan1 ∧ (Ops.setBank n b s).events = s.events ∧
    (Ops.setBank n b s).time = s.time ∧ (Ops.setBank n b s).servo = s.servo ∧
    (Ops.setBank n b s).keepers = s.keepers ∧ (Ops.setBank n b s).gates = s.gates ∧
    (Ops.setBank n b s).entries = s.entries ∧ (Ops.setBank n b s).bankBase = s.bankBase ∧
    (Ops.setBank n b s).bankMem = s.bankMem ∧ (Ops.setBank n b s).bankSpare = s.bankSpare ∧
    (Ops.setBank n b s).pool = s.pool ∧ (Ops.setBank n b s).queues = s.queues ∧
    (Ops.setBank n b s).qports = s.qports ∧ (Ops.setBank n b s).rings = s.rings ∧
    (Ops.setBank n b s).ringMem = s.ringMem ∧ (Ops.setBank n b s).eng = s.eng ∧ (Ops.setBank n b s).ports = s.ports ∧
    (Ops.setBank n b s).fab = s.fab ∧ (Ops.setBank n b s).laneOut = s.laneOut ∧ (Ops.setBank n b s).pinIn = s.pinIn ∧
    (Ops.setBank n b s).pins = s.pins ∧ (Ops.setBank n b s).pinBase = s.pinBase ∧ (Ops.setBank n b s).vio = s.vio ∧
    (Ops.setBank n b s).tap = s.tap ∧ (Ops.setBank n b s).loader = s.loader ∧ (Ops.setBank n b s).facets = s.facets ∧
    (Ops.setBank n b s).facetBase = s.facetBase ∧ (Ops.setBank n b s).scrub = s.scrub ∧
    (Ops.setBank n b s).sec = s.sec ∧ (Ops.setBank n b s).nv = s.nv ∧ (Ops.setBank n b s).domains = s.domains ∧
    (Ops.setBank n b s).bridges = s.bridges ∧ (Ops.setBank n b s).lanes = s.lanes ∧
    (Ops.setBank n b s).bonds = s.bonds ∧ (Ops.setBank n b s).ethPorts = s.ethPorts ∧
    (Ops.setBank n b s).host = s.host ∧ (Ops.setBank n b s).sup = s.sup ∧ (Ops.setBank n b s).fresh = s.fresh ∧
    (Ops.setBank n b s).out = s.out ∧ (Ops.setBank n b s).pending = s.pending := by
  and_intros <;> rfl

@[simp] theorem Ops.setPower_frame (n : Nat) (p : Power) (s : State) :
    (Ops.setPower n p s).modes = s.modes ∧ (Ops.setPower n p s).regs = s.regs ∧
    (Ops.setPower n p s).mailbox = s.mailbox ∧ (Ops.setPower n p s).can0 = s.can0 ∧
    (Ops.setPower n p s).can1 = s.can1 ∧ (Ops.setPower n p s).ctxMailbox = s.ctxMailbox ∧
    (Ops.setPower n p s).ctxCan0 = s.ctxCan0 ∧ (Ops.setPower n p s).ctxCan1 = s.ctxCan1 ∧
    (Ops.setPower n p s).events = s.events ∧ (Ops.setPower n p s).time = s.time ∧
    (Ops.setPower n p s).servo = s.servo ∧ (Ops.setPower n p s).keepers = s.keepers ∧
    (Ops.setPower n p s).gates = s.gates ∧ (Ops.setPower n p s).entries = s.entries ∧
    (Ops.setPower n p s).bankBase = s.bankBase ∧ (Ops.setPower n p s).bankMem = s.bankMem ∧
    (Ops.setPower n p s).bankSpare = s.bankSpare ∧ (Ops.setPower n p s).pool = s.pool ∧
    (Ops.setPower n p s).queues = s.queues ∧ (Ops.setPower n p s).qports = s.qports ∧
    (Ops.setPower n p s).rings = s.rings ∧ (Ops.setPower n p s).ringMem = s.ringMem ∧
    (Ops.setPower n p s).eng = s.eng ∧ (Ops.setPower n p s).ports = s.ports ∧ (Ops.setPower n p s).fab = s.fab ∧
    (Ops.setPower n p s).laneOut = s.laneOut ∧ (Ops.setPower n p s).pinIn = s.pinIn ∧
    (Ops.setPower n p s).pins = s.pins ∧ (Ops.setPower n p s).pinBase = s.pinBase ∧
    (Ops.setPower n p s).vio = s.vio ∧ (Ops.setPower n p s).tap = s.tap ∧ (Ops.setPower n p s).loader = s.loader ∧
    (Ops.setPower n p s).facets = s.facets ∧ (Ops.setPower n p s).facetBase = s.facetBase ∧
    (Ops.setPower n p s).scrub = s.scrub ∧ (Ops.setPower n p s).sec = s.sec ∧ (Ops.setPower n p s).nv = s.nv ∧
    (Ops.setPower n p s).domains = s.domains ∧ (Ops.setPower n p s).bridges = s.bridges ∧
    (Ops.setPower n p s).lanes = s.lanes ∧ (Ops.setPower n p s).bonds = s.bonds ∧
    (Ops.setPower n p s).ethPorts = s.ethPorts ∧ (Ops.setPower n p s).host = s.host ∧
    (Ops.setPower n p s).sup = s.sup ∧ (Ops.setPower n p s).fresh = s.fresh ∧ (Ops.setPower n p s).out = s.out ∧
    (Ops.setPower n p s).pending = s.pending := by
  and_intros <;> rfl

@[simp] theorem Ops.setWord_frame (n w : Nat) (v : BitVec 72) (s : State) :
    (Ops.setWord n w v s).modes = s.modes ∧ (Ops.setWord n w v s).regs = s.regs ∧
    (Ops.setWord n w v s).mailbox = s.mailbox ∧ (Ops.setWord n w v s).can0 = s.can0 ∧
    (Ops.setWord n w v s).can1 = s.can1 ∧ (Ops.setWord n w v s).ctxMailbox = s.ctxMailbox ∧
    (Ops.setWord n w v s).ctxCan0 = s.ctxCan0 ∧ (Ops.setWord n w v s).ctxCan1 = s.ctxCan1 ∧
    (Ops.setWord n w v s).events = s.events ∧ (Ops.setWord n w v s).time = s.time ∧
    (Ops.setWord n w v s).servo = s.servo ∧ (Ops.setWord n w v s).keepers = s.keepers ∧
    (Ops.setWord n w v s).gates = s.gates ∧ (Ops.setWord n w v s).entries = s.entries ∧
    (Ops.setWord n w v s).banks = s.banks ∧ (Ops.setWord n w v s).bankBase = s.bankBase ∧
    (Ops.setWord n w v s).pool = s.pool ∧ (Ops.setWord n w v s).queues = s.queues ∧
    (Ops.setWord n w v s).qports = s.qports ∧ (Ops.setWord n w v s).rings = s.rings ∧
    (Ops.setWord n w v s).ringMem = s.ringMem ∧ (Ops.setWord n w v s).eng = s.eng ∧
    (Ops.setWord n w v s).ports = s.ports ∧ (Ops.setWord n w v s).fab = s.fab ∧
    (Ops.setWord n w v s).laneOut = s.laneOut ∧ (Ops.setWord n w v s).pinIn = s.pinIn ∧
    (Ops.setWord n w v s).pins = s.pins ∧ (Ops.setWord n w v s).pinBase = s.pinBase ∧
    (Ops.setWord n w v s).vio = s.vio ∧ (Ops.setWord n w v s).tap = s.tap ∧ (Ops.setWord n w v s).loader = s.loader ∧
    (Ops.setWord n w v s).facets = s.facets ∧ (Ops.setWord n w v s).facetBase = s.facetBase ∧
    (Ops.setWord n w v s).scrub = s.scrub ∧ (Ops.setWord n w v s).sec = s.sec ∧ (Ops.setWord n w v s).nv = s.nv ∧
    (Ops.setWord n w v s).domains = s.domains ∧ (Ops.setWord n w v s).bridges = s.bridges ∧
    (Ops.setWord n w v s).lanes = s.lanes ∧ (Ops.setWord n w v s).bonds = s.bonds ∧
    (Ops.setWord n w v s).ethPorts = s.ethPorts ∧ (Ops.setWord n w v s).host = s.host ∧
    (Ops.setWord n w v s).sup = s.sup ∧ (Ops.setWord n w v s).fresh = s.fresh ∧ (Ops.setWord n w v s).out = s.out ∧
    (Ops.setWord n w v s).pending = s.pending := by
  and_intros <;> rfl

@[simp] theorem Ops.observe_frame (c : Nat) (s : State) :
    (Ops.observe c s).modes = s.modes ∧ (Ops.observe c s).regs = s.regs ∧ (Ops.observe c s).mailbox = s.mailbox ∧
    (Ops.observe c s).can0 = s.can0 ∧ (Ops.observe c s).can1 = s.can1 ∧ (Ops.observe c s).ctxMailbox = s.ctxMailbox ∧
    (Ops.observe c s).ctxCan0 = s.ctxCan0 ∧ (Ops.observe c s).ctxCan1 = s.ctxCan1 ∧
    (Ops.observe c s).events = s.events ∧ (Ops.observe c s).time = s.time ∧ (Ops.observe c s).servo = s.servo ∧
    (Ops.observe c s).keepers = s.keepers ∧ (Ops.observe c s).gates = s.gates ∧
    (Ops.observe c s).entries = s.entries ∧ (Ops.observe c s).banks = s.banks ∧
    (Ops.observe c s).bankBase = s.bankBase ∧ (Ops.observe c s).bankMem = s.bankMem ∧
    (Ops.observe c s).bankSpare = s.bankSpare ∧ (Ops.observe c s).pool = s.pool ∧
    (Ops.observe c s).queues = s.queues ∧ (Ops.observe c s).qports = s.qports ∧ (Ops.observe c s).rings = s.rings ∧
    (Ops.observe c s).ringMem = s.ringMem ∧ (Ops.observe c s).eng = s.eng ∧ (Ops.observe c s).ports = s.ports ∧
    (Ops.observe c s).fab = s.fab ∧ (Ops.observe c s).laneOut = s.laneOut ∧ (Ops.observe c s).pinIn = s.pinIn ∧
    (Ops.observe c s).pins = s.pins ∧ (Ops.observe c s).pinBase = s.pinBase ∧ (Ops.observe c s).vio = s.vio ∧
    (Ops.observe c s).tap = s.tap ∧ (Ops.observe c s).loader = s.loader ∧ (Ops.observe c s).facets = s.facets ∧
    (Ops.observe c s).facetBase = s.facetBase ∧ (Ops.observe c s).scrub = s.scrub ∧ (Ops.observe c s).sec = s.sec ∧
    (Ops.observe c s).nv = s.nv ∧ (Ops.observe c s).domains = s.domains ∧ (Ops.observe c s).bridges = s.bridges ∧
    (Ops.observe c s).lanes = s.lanes ∧ (Ops.observe c s).bonds = s.bonds ∧ (Ops.observe c s).ethPorts = s.ethPorts ∧
    (Ops.observe c s).host = s.host ∧ (Ops.observe c s).fresh = s.fresh ∧ (Ops.observe c s).out = s.out ∧
    (Ops.observe c s).pending = s.pending := by
  and_intros <;> rfl

@[simp] theorem Modes.setModes_frame (f : ModeState → ModeState) (s : State) :
    (Modes.setModes f s).regs = s.regs ∧ (Modes.setModes f s).mailbox = s.mailbox ∧
    (Modes.setModes f s).can0 = s.can0 ∧ (Modes.setModes f s).can1 = s.can1 ∧
    (Modes.setModes f s).ctxMailbox = s.ctxMailbox ∧ (Modes.setModes f s).ctxCan0 = s.ctxCan0 ∧
    (Modes.setModes f s).ctxCan1 = s.ctxCan1 ∧ (Modes.setModes f s).events = s.events ∧
    (Modes.setModes f s).time = s.time ∧ (Modes.setModes f s).servo = s.servo ∧
    (Modes.setModes f s).keepers = s.keepers ∧ (Modes.setModes f s).gates = s.gates ∧
    (Modes.setModes f s).entries = s.entries ∧ (Modes.setModes f s).banks = s.banks ∧
    (Modes.setModes f s).bankBase = s.bankBase ∧ (Modes.setModes f s).bankMem = s.bankMem ∧
    (Modes.setModes f s).bankSpare = s.bankSpare ∧ (Modes.setModes f s).pool = s.pool ∧
    (Modes.setModes f s).queues = s.queues ∧ (Modes.setModes f s).qports = s.qports ∧
    (Modes.setModes f s).rings = s.rings ∧ (Modes.setModes f s).ringMem = s.ringMem ∧
    (Modes.setModes f s).eng = s.eng ∧ (Modes.setModes f s).ports = s.ports ∧ (Modes.setModes f s).fab = s.fab ∧
    (Modes.setModes f s).laneOut = s.laneOut ∧ (Modes.setModes f s).pinIn = s.pinIn ∧
    (Modes.setModes f s).pins = s.pins ∧ (Modes.setModes f s).pinBase = s.pinBase ∧
    (Modes.setModes f s).vio = s.vio ∧ (Modes.setModes f s).tap = s.tap ∧ (Modes.setModes f s).loader = s.loader ∧
    (Modes.setModes f s).facets = s.facets ∧ (Modes.setModes f s).facetBase = s.facetBase ∧
    (Modes.setModes f s).scrub = s.scrub ∧ (Modes.setModes f s).sec = s.sec ∧ (Modes.setModes f s).nv = s.nv ∧
    (Modes.setModes f s).domains = s.domains ∧ (Modes.setModes f s).bridges = s.bridges ∧
    (Modes.setModes f s).lanes = s.lanes ∧ (Modes.setModes f s).bonds = s.bonds ∧
    (Modes.setModes f s).ethPorts = s.ethPorts ∧ (Modes.setModes f s).host = s.host ∧
    (Modes.setModes f s).sup = s.sup ∧ (Modes.setModes f s).fresh = s.fresh ∧ (Modes.setModes f s).out = s.out ∧
    (Modes.setModes f s).pending = s.pending := by
  and_intros <;> rfl

@[simp] theorem Transports.setContext_frame (t : Transport) (c : Context) (s : State) :
    (Transports.setContext t c s).modes = s.modes ∧ (Transports.setContext t c s).regs = s.regs ∧
    (Transports.setContext t c s).mailbox = s.mailbox ∧ (Transports.setContext t c s).can0 = s.can0 ∧
    (Transports.setContext t c s).can1 = s.can1 ∧ (Transports.setContext t c s).events = s.events ∧
    (Transports.setContext t c s).time = s.time ∧ (Transports.setContext t c s).servo = s.servo ∧
    (Transports.setContext t c s).keepers = s.keepers ∧ (Transports.setContext t c s).gates = s.gates ∧
    (Transports.setContext t c s).entries = s.entries ∧ (Transports.setContext t c s).banks = s.banks ∧
    (Transports.setContext t c s).bankBase = s.bankBase ∧ (Transports.setContext t c s).bankMem = s.bankMem ∧
    (Transports.setContext t c s).bankSpare = s.bankSpare ∧ (Transports.setContext t c s).pool = s.pool ∧
    (Transports.setContext t c s).queues = s.queues ∧ (Transports.setContext t c s).qports = s.qports ∧
    (Transports.setContext t c s).rings = s.rings ∧ (Transports.setContext t c s).ringMem = s.ringMem ∧
    (Transports.setContext t c s).eng = s.eng ∧ (Transports.setContext t c s).ports = s.ports ∧
    (Transports.setContext t c s).fab = s.fab ∧ (Transports.setContext t c s).laneOut = s.laneOut ∧
    (Transports.setContext t c s).pinIn = s.pinIn ∧ (Transports.setContext t c s).pins = s.pins ∧
    (Transports.setContext t c s).pinBase = s.pinBase ∧ (Transports.setContext t c s).vio = s.vio ∧
    (Transports.setContext t c s).tap = s.tap ∧ (Transports.setContext t c s).loader = s.loader ∧
    (Transports.setContext t c s).facets = s.facets ∧ (Transports.setContext t c s).facetBase = s.facetBase ∧
    (Transports.setContext t c s).scrub = s.scrub ∧ (Transports.setContext t c s).sec = s.sec ∧
    (Transports.setContext t c s).nv = s.nv ∧ (Transports.setContext t c s).domains = s.domains ∧
    (Transports.setContext t c s).bridges = s.bridges ∧ (Transports.setContext t c s).lanes = s.lanes ∧
    (Transports.setContext t c s).bonds = s.bonds ∧ (Transports.setContext t c s).ethPorts = s.ethPorts ∧
    (Transports.setContext t c s).host = s.host ∧ (Transports.setContext t c s).sup = s.sup ∧
    (Transports.setContext t c s).fresh = s.fresh ∧ (Transports.setContext t c s).out = s.out ∧
    (Transports.setContext t c s).pending = s.pending := by
  cases t <;> and_intros <;> rfl

@[simp] theorem Ops.setCan_frame (p : Nat) (c : CanPort) (s : State) :
    (Ops.setCan p c s).modes = s.modes ∧ (Ops.setCan p c s).regs = s.regs ∧ (Ops.setCan p c s).mailbox = s.mailbox ∧
    (Ops.setCan p c s).ctxMailbox = s.ctxMailbox ∧ (Ops.setCan p c s).ctxCan0 = s.ctxCan0 ∧
    (Ops.setCan p c s).ctxCan1 = s.ctxCan1 ∧ (Ops.setCan p c s).events = s.events ∧
    (Ops.setCan p c s).time = s.time ∧ (Ops.setCan p c s).servo = s.servo ∧ (Ops.setCan p c s).keepers = s.keepers ∧
    (Ops.setCan p c s).gates = s.gates ∧ (Ops.setCan p c s).entries = s.entries ∧
    (Ops.setCan p c s).banks = s.banks ∧ (Ops.setCan p c s).bankBase = s.bankBase ∧
    (Ops.setCan p c s).bankMem = s.bankMem ∧ (Ops.setCan p c s).bankSpare = s.bankSpare ∧
    (Ops.setCan p c s).pool = s.pool ∧ (Ops.setCan p c s).queues = s.queues ∧ (Ops.setCan p c s).qports = s.qports ∧
    (Ops.setCan p c s).rings = s.rings ∧ (Ops.setCan p c s).ringMem = s.ringMem ∧ (Ops.setCan p c s).eng = s.eng ∧
    (Ops.setCan p c s).ports = s.ports ∧ (Ops.setCan p c s).fab = s.fab ∧ (Ops.setCan p c s).laneOut = s.laneOut ∧
    (Ops.setCan p c s).pinIn = s.pinIn ∧ (Ops.setCan p c s).pins = s.pins ∧ (Ops.setCan p c s).pinBase = s.pinBase ∧
    (Ops.setCan p c s).vio = s.vio ∧ (Ops.setCan p c s).tap = s.tap ∧ (Ops.setCan p c s).loader = s.loader ∧
    (Ops.setCan p c s).facets = s.facets ∧ (Ops.setCan p c s).facetBase = s.facetBase ∧
    (Ops.setCan p c s).scrub = s.scrub ∧ (Ops.setCan p c s).sec = s.sec ∧ (Ops.setCan p c s).nv = s.nv ∧
    (Ops.setCan p c s).domains = s.domains ∧ (Ops.setCan p c s).bridges = s.bridges ∧
    (Ops.setCan p c s).lanes = s.lanes ∧ (Ops.setCan p c s).bonds = s.bonds ∧
    (Ops.setCan p c s).ethPorts = s.ethPorts ∧ (Ops.setCan p c s).host = s.host ∧ (Ops.setCan p c s).sup = s.sup ∧
    (Ops.setCan p c s).fresh = s.fresh ∧ (Ops.setCan p c s).out = s.out ∧
    (Ops.setCan p c s).pending = s.pending := by
  unfold Ops.setCan
  split <;> and_intros <;> rfl

@[simp] theorem Time.setKeeper_frame (r : Nat) (k : Keeper) (s : State) :
    (Time.setKeeper r k s).modes = s.modes ∧ (Time.setKeeper r k s).regs = s.regs ∧
    (Time.setKeeper r k s).mailbox = s.mailbox ∧ (Time.setKeeper r k s).can0 = s.can0 ∧
    (Time.setKeeper r k s).can1 = s.can1 ∧ (Time.setKeeper r k s).ctxMailbox = s.ctxMailbox ∧
    (Time.setKeeper r k s).ctxCan0 = s.ctxCan0 ∧ (Time.setKeeper r k s).ctxCan1 = s.ctxCan1 ∧
    (Time.setKeeper r k s).events = s.events ∧ (Time.setKeeper r k s).time = s.time ∧
    (Time.setKeeper r k s).servo = s.servo ∧ (Time.setKeeper r k s).gates = s.gates ∧
    (Time.setKeeper r k s).entries = s.entries ∧ (Time.setKeeper r k s).banks = s.banks ∧
    (Time.setKeeper r k s).bankBase = s.bankBase ∧ (Time.setKeeper r k s).bankMem = s.bankMem ∧
    (Time.setKeeper r k s).bankSpare = s.bankSpare ∧ (Time.setKeeper r k s).pool = s.pool ∧
    (Time.setKeeper r k s).queues = s.queues ∧ (Time.setKeeper r k s).qports = s.qports ∧
    (Time.setKeeper r k s).rings = s.rings ∧ (Time.setKeeper r k s).ringMem = s.ringMem ∧
    (Time.setKeeper r k s).eng = s.eng ∧ (Time.setKeeper r k s).ports = s.ports ∧
    (Time.setKeeper r k s).fab = s.fab ∧ (Time.setKeeper r k s).laneOut = s.laneOut ∧
    (Time.setKeeper r k s).pinIn = s.pinIn ∧ (Time.setKeeper r k s).pins = s.pins ∧
    (Time.setKeeper r k s).pinBase = s.pinBase ∧ (Time.setKeeper r k s).vio = s.vio ∧
    (Time.setKeeper r k s).tap = s.tap ∧ (Time.setKeeper r k s).loader = s.loader ∧
    (Time.setKeeper r k s).facets = s.facets ∧ (Time.setKeeper r k s).facetBase = s.facetBase ∧
    (Time.setKeeper r k s).scrub = s.scrub ∧ (Time.setKeeper r k s).sec = s.sec ∧ (Time.setKeeper r k s).nv = s.nv ∧
    (Time.setKeeper r k s).domains = s.domains ∧ (Time.setKeeper r k s).bridges = s.bridges ∧
    (Time.setKeeper r k s).lanes = s.lanes ∧ (Time.setKeeper r k s).bonds = s.bonds ∧
    (Time.setKeeper r k s).ethPorts = s.ethPorts ∧ (Time.setKeeper r k s).host = s.host ∧
    (Time.setKeeper r k s).sup = s.sup ∧ (Time.setKeeper r k s).fresh = s.fresh ∧
    (Time.setKeeper r k s).out = s.out ∧ (Time.setKeeper r k s).pending = s.pending := by
  and_intros <;> rfl

@[simp] theorem Time.setGate_frame (g : Nat) (x : Gate) (s : State) :
    (Time.setGate g x s).modes = s.modes ∧ (Time.setGate g x s).regs = s.regs ∧
    (Time.setGate g x s).mailbox = s.mailbox ∧ (Time.setGate g x s).can0 = s.can0 ∧
    (Time.setGate g x s).can1 = s.can1 ∧ (Time.setGate g x s).ctxMailbox = s.ctxMailbox ∧
    (Time.setGate g x s).ctxCan0 = s.ctxCan0 ∧ (Time.setGate g x s).ctxCan1 = s.ctxCan1 ∧
    (Time.setGate g x s).events = s.events ∧ (Time.setGate g x s).time = s.time ∧
    (Time.setGate g x s).servo = s.servo ∧ (Time.setGate g x s).keepers = s.keepers ∧
    (Time.setGate g x s).entries = s.entries ∧ (Time.setGate g x s).banks = s.banks ∧
    (Time.setGate g x s).bankBase = s.bankBase ∧ (Time.setGate g x s).bankMem = s.bankMem ∧
    (Time.setGate g x s).bankSpare = s.bankSpare ∧ (Time.setGate g x s).pool = s.pool ∧
    (Time.setGate g x s).queues = s.queues ∧ (Time.setGate g x s).qports = s.qports ∧
    (Time.setGate g x s).rings = s.rings ∧ (Time.setGate g x s).ringMem = s.ringMem ∧
    (Time.setGate g x s).eng = s.eng ∧ (Time.setGate g x s).ports = s.ports ∧ (Time.setGate g x s).fab = s.fab ∧
    (Time.setGate g x s).laneOut = s.laneOut ∧ (Time.setGate g x s).pinIn = s.pinIn ∧
    (Time.setGate g x s).pins = s.pins ∧ (Time.setGate g x s).pinBase = s.pinBase ∧
    (Time.setGate g x s).vio = s.vio ∧ (Time.setGate g x s).tap = s.tap ∧ (Time.setGate g x s).loader = s.loader ∧
    (Time.setGate g x s).facets = s.facets ∧ (Time.setGate g x s).facetBase = s.facetBase ∧
    (Time.setGate g x s).scrub = s.scrub ∧ (Time.setGate g x s).sec = s.sec ∧ (Time.setGate g x s).nv = s.nv ∧
    (Time.setGate g x s).domains = s.domains ∧ (Time.setGate g x s).bridges = s.bridges ∧
    (Time.setGate g x s).lanes = s.lanes ∧ (Time.setGate g x s).bonds = s.bonds ∧
    (Time.setGate g x s).ethPorts = s.ethPorts ∧ (Time.setGate g x s).host = s.host ∧
    (Time.setGate g x s).sup = s.sup ∧ (Time.setGate g x s).fresh = s.fresh ∧ (Time.setGate g x s).out = s.out ∧
    (Time.setGate g x s).pending = s.pending := by
  and_intros <;> rfl

@[simp] theorem Queues.setQueue_frame (q : Nat) (x : Queue) (s : State) :
    (Queues.setQueue q x s).modes = s.modes ∧ (Queues.setQueue q x s).regs = s.regs ∧
    (Queues.setQueue q x s).mailbox = s.mailbox ∧ (Queues.setQueue q x s).can0 = s.can0 ∧
    (Queues.setQueue q x s).can1 = s.can1 ∧ (Queues.setQueue q x s).ctxMailbox = s.ctxMailbox ∧
    (Queues.setQueue q x s).ctxCan0 = s.ctxCan0 ∧ (Queues.setQueue q x s).ctxCan1 = s.ctxCan1 ∧
    (Queues.setQueue q x s).events = s.events ∧ (Queues.setQueue q x s).time = s.time ∧
    (Queues.setQueue q x s).servo = s.servo ∧ (Queues.setQueue q x s).keepers = s.keepers ∧
    (Queues.setQueue q x s).gates = s.gates ∧ (Queues.setQueue q x s).entries = s.entries ∧
    (Queues.setQueue q x s).banks = s.banks ∧ (Queues.setQueue q x s).bankBase = s.bankBase ∧
    (Queues.setQueue q x s).bankMem = s.bankMem ∧ (Queues.setQueue q x s).bankSpare = s.bankSpare ∧
    (Queues.setQueue q x s).pool = s.pool ∧ (Queues.setQueue q x s).qports = s.qports ∧
    (Queues.setQueue q x s).rings = s.rings ∧ (Queues.setQueue q x s).ringMem = s.ringMem ∧
    (Queues.setQueue q x s).eng = s.eng ∧ (Queues.setQueue q x s).ports = s.ports ∧
    (Queues.setQueue q x s).fab = s.fab ∧ (Queues.setQueue q x s).laneOut = s.laneOut ∧
    (Queues.setQueue q x s).pinIn = s.pinIn ∧ (Queues.setQueue q x s).pins = s.pins ∧
    (Queues.setQueue q x s).pinBase = s.pinBase ∧ (Queues.setQueue q x s).vio = s.vio ∧
    (Queues.setQueue q x s).tap = s.tap ∧ (Queues.setQueue q x s).loader = s.loader ∧
    (Queues.setQueue q x s).facets = s.facets ∧ (Queues.setQueue q x s).facetBase = s.facetBase ∧
    (Queues.setQueue q x s).scrub = s.scrub ∧ (Queues.setQueue q x s).sec = s.sec ∧
    (Queues.setQueue q x s).nv = s.nv ∧ (Queues.setQueue q x s).domains = s.domains ∧
    (Queues.setQueue q x s).bridges = s.bridges ∧ (Queues.setQueue q x s).lanes = s.lanes ∧
    (Queues.setQueue q x s).bonds = s.bonds ∧ (Queues.setQueue q x s).ethPorts = s.ethPorts ∧
    (Queues.setQueue q x s).host = s.host ∧ (Queues.setQueue q x s).sup = s.sup ∧
    (Queues.setQueue q x s).fresh = s.fresh ∧ (Queues.setQueue q x s).out = s.out ∧
    (Queues.setQueue q x s).pending = s.pending := by
  and_intros <;> rfl

@[simp] theorem Queues.setQPort_frame (p : Nat) (x : QPort) (s : State) :
    (Queues.setQPort p x s).modes = s.modes ∧ (Queues.setQPort p x s).regs = s.regs ∧
    (Queues.setQPort p x s).mailbox = s.mailbox ∧ (Queues.setQPort p x s).can0 = s.can0 ∧
    (Queues.setQPort p x s).can1 = s.can1 ∧ (Queues.setQPort p x s).ctxMailbox = s.ctxMailbox ∧
    (Queues.setQPort p x s).ctxCan0 = s.ctxCan0 ∧ (Queues.setQPort p x s).ctxCan1 = s.ctxCan1 ∧
    (Queues.setQPort p x s).events = s.events ∧ (Queues.setQPort p x s).time = s.time ∧
    (Queues.setQPort p x s).servo = s.servo ∧ (Queues.setQPort p x s).keepers = s.keepers ∧
    (Queues.setQPort p x s).gates = s.gates ∧ (Queues.setQPort p x s).entries = s.entries ∧
    (Queues.setQPort p x s).banks = s.banks ∧ (Queues.setQPort p x s).bankBase = s.bankBase ∧
    (Queues.setQPort p x s).bankMem = s.bankMem ∧ (Queues.setQPort p x s).bankSpare = s.bankSpare ∧
    (Queues.setQPort p x s).pool = s.pool ∧ (Queues.setQPort p x s).queues = s.queues ∧
    (Queues.setQPort p x s).rings = s.rings ∧ (Queues.setQPort p x s).ringMem = s.ringMem ∧
    (Queues.setQPort p x s).eng = s.eng ∧ (Queues.setQPort p x s).ports = s.ports ∧
    (Queues.setQPort p x s).fab = s.fab ∧ (Queues.setQPort p x s).laneOut = s.laneOut ∧
    (Queues.setQPort p x s).pinIn = s.pinIn ∧ (Queues.setQPort p x s).pins = s.pins ∧
    (Queues.setQPort p x s).pinBase = s.pinBase ∧ (Queues.setQPort p x s).vio = s.vio ∧
    (Queues.setQPort p x s).tap = s.tap ∧ (Queues.setQPort p x s).loader = s.loader ∧
    (Queues.setQPort p x s).facets = s.facets ∧ (Queues.setQPort p x s).facetBase = s.facetBase ∧
    (Queues.setQPort p x s).scrub = s.scrub ∧ (Queues.setQPort p x s).sec = s.sec ∧
    (Queues.setQPort p x s).nv = s.nv ∧ (Queues.setQPort p x s).domains = s.domains ∧
    (Queues.setQPort p x s).bridges = s.bridges ∧ (Queues.setQPort p x s).lanes = s.lanes ∧
    (Queues.setQPort p x s).bonds = s.bonds ∧ (Queues.setQPort p x s).ethPorts = s.ethPorts ∧
    (Queues.setQPort p x s).host = s.host ∧ (Queues.setQPort p x s).sup = s.sup ∧
    (Queues.setQPort p x s).fresh = s.fresh ∧ (Queues.setQPort p x s).out = s.out ∧
    (Queues.setQPort p x s).pending = s.pending := by
  and_intros <;> rfl

@[simp] theorem Queues.setRing_frame (r : Nat) (x : Ring) (s : State) :
    (Queues.setRing r x s).modes = s.modes ∧ (Queues.setRing r x s).regs = s.regs ∧
    (Queues.setRing r x s).mailbox = s.mailbox ∧ (Queues.setRing r x s).can0 = s.can0 ∧
    (Queues.setRing r x s).can1 = s.can1 ∧ (Queues.setRing r x s).ctxMailbox = s.ctxMailbox ∧
    (Queues.setRing r x s).ctxCan0 = s.ctxCan0 ∧ (Queues.setRing r x s).ctxCan1 = s.ctxCan1 ∧
    (Queues.setRing r x s).events = s.events ∧ (Queues.setRing r x s).time = s.time ∧
    (Queues.setRing r x s).servo = s.servo ∧ (Queues.setRing r x s).keepers = s.keepers ∧
    (Queues.setRing r x s).gates = s.gates ∧ (Queues.setRing r x s).entries = s.entries ∧
    (Queues.setRing r x s).banks = s.banks ∧ (Queues.setRing r x s).bankBase = s.bankBase ∧
    (Queues.setRing r x s).bankMem = s.bankMem ∧ (Queues.setRing r x s).bankSpare = s.bankSpare ∧
    (Queues.setRing r x s).pool = s.pool ∧ (Queues.setRing r x s).queues = s.queues ∧
    (Queues.setRing r x s).qports = s.qports ∧ (Queues.setRing r x s).ringMem = s.ringMem ∧
    (Queues.setRing r x s).eng = s.eng ∧ (Queues.setRing r x s).ports = s.ports ∧
    (Queues.setRing r x s).fab = s.fab ∧ (Queues.setRing r x s).laneOut = s.laneOut ∧
    (Queues.setRing r x s).pinIn = s.pinIn ∧ (Queues.setRing r x s).pins = s.pins ∧
    (Queues.setRing r x s).pinBase = s.pinBase ∧ (Queues.setRing r x s).vio = s.vio ∧
    (Queues.setRing r x s).tap = s.tap ∧ (Queues.setRing r x s).loader = s.loader ∧
    (Queues.setRing r x s).facets = s.facets ∧ (Queues.setRing r x s).facetBase = s.facetBase ∧
    (Queues.setRing r x s).scrub = s.scrub ∧ (Queues.setRing r x s).sec = s.sec ∧ (Queues.setRing r x s).nv = s.nv ∧
    (Queues.setRing r x s).domains = s.domains ∧ (Queues.setRing r x s).bridges = s.bridges ∧
    (Queues.setRing r x s).lanes = s.lanes ∧ (Queues.setRing r x s).bonds = s.bonds ∧
    (Queues.setRing r x s).ethPorts = s.ethPorts ∧ (Queues.setRing r x s).host = s.host ∧
    (Queues.setRing r x s).sup = s.sup ∧ (Queues.setRing r x s).fresh = s.fresh ∧
    (Queues.setRing r x s).out = s.out ∧ (Queues.setRing r x s).pending = s.pending := by
  and_intros <;> rfl

@[simp] theorem Engines.setEngine_frame (n : Nat) (e : Engine) (s : State) :
    (Engines.setEngine n e s).modes = s.modes ∧ (Engines.setEngine n e s).regs = s.regs ∧
    (Engines.setEngine n e s).mailbox = s.mailbox ∧ (Engines.setEngine n e s).can0 = s.can0 ∧
    (Engines.setEngine n e s).can1 = s.can1 ∧ (Engines.setEngine n e s).ctxMailbox = s.ctxMailbox ∧
    (Engines.setEngine n e s).ctxCan0 = s.ctxCan0 ∧ (Engines.setEngine n e s).ctxCan1 = s.ctxCan1 ∧
    (Engines.setEngine n e s).events = s.events ∧ (Engines.setEngine n e s).time = s.time ∧
    (Engines.setEngine n e s).servo = s.servo ∧ (Engines.setEngine n e s).keepers = s.keepers ∧
    (Engines.setEngine n e s).gates = s.gates ∧ (Engines.setEngine n e s).entries = s.entries ∧
    (Engines.setEngine n e s).banks = s.banks ∧ (Engines.setEngine n e s).bankBase = s.bankBase ∧
    (Engines.setEngine n e s).bankMem = s.bankMem ∧ (Engines.setEngine n e s).bankSpare = s.bankSpare ∧
    (Engines.setEngine n e s).pool = s.pool ∧ (Engines.setEngine n e s).queues = s.queues ∧
    (Engines.setEngine n e s).qports = s.qports ∧ (Engines.setEngine n e s).rings = s.rings ∧
    (Engines.setEngine n e s).ringMem = s.ringMem ∧ (Engines.setEngine n e s).ports = s.ports ∧
    (Engines.setEngine n e s).fab = s.fab ∧ (Engines.setEngine n e s).laneOut = s.laneOut ∧
    (Engines.setEngine n e s).pinIn = s.pinIn ∧ (Engines.setEngine n e s).pins = s.pins ∧
    (Engines.setEngine n e s).pinBase = s.pinBase ∧ (Engines.setEngine n e s).vio = s.vio ∧
    (Engines.setEngine n e s).tap = s.tap ∧ (Engines.setEngine n e s).loader = s.loader ∧
    (Engines.setEngine n e s).facets = s.facets ∧ (Engines.setEngine n e s).facetBase = s.facetBase ∧
    (Engines.setEngine n e s).scrub = s.scrub ∧ (Engines.setEngine n e s).sec = s.sec ∧
    (Engines.setEngine n e s).nv = s.nv ∧ (Engines.setEngine n e s).domains = s.domains ∧
    (Engines.setEngine n e s).bridges = s.bridges ∧ (Engines.setEngine n e s).lanes = s.lanes ∧
    (Engines.setEngine n e s).bonds = s.bonds ∧ (Engines.setEngine n e s).ethPorts = s.ethPorts ∧
    (Engines.setEngine n e s).host = s.host ∧ (Engines.setEngine n e s).sup = s.sup ∧
    (Engines.setEngine n e s).fresh = s.fresh ∧ (Engines.setEngine n e s).out = s.out ∧
    (Engines.setEngine n e s).pending = s.pending := by
  and_intros <;> rfl

@[simp] theorem Engines.setDmem_frame (n a : Nat) (b : Byte) (s : State) :
    (Engines.setDmem n a b s).modes = s.modes ∧ (Engines.setDmem n a b s).regs = s.regs ∧
    (Engines.setDmem n a b s).mailbox = s.mailbox ∧ (Engines.setDmem n a b s).can0 = s.can0 ∧
    (Engines.setDmem n a b s).can1 = s.can1 ∧ (Engines.setDmem n a b s).ctxMailbox = s.ctxMailbox ∧
    (Engines.setDmem n a b s).ctxCan0 = s.ctxCan0 ∧ (Engines.setDmem n a b s).ctxCan1 = s.ctxCan1 ∧
    (Engines.setDmem n a b s).events = s.events ∧ (Engines.setDmem n a b s).time = s.time ∧
    (Engines.setDmem n a b s).servo = s.servo ∧ (Engines.setDmem n a b s).keepers = s.keepers ∧
    (Engines.setDmem n a b s).gates = s.gates ∧ (Engines.setDmem n a b s).entries = s.entries ∧
    (Engines.setDmem n a b s).banks = s.banks ∧ (Engines.setDmem n a b s).bankBase = s.bankBase ∧
    (Engines.setDmem n a b s).bankMem = s.bankMem ∧ (Engines.setDmem n a b s).bankSpare = s.bankSpare ∧
    (Engines.setDmem n a b s).pool = s.pool ∧ (Engines.setDmem n a b s).queues = s.queues ∧
    (Engines.setDmem n a b s).qports = s.qports ∧ (Engines.setDmem n a b s).rings = s.rings ∧
    (Engines.setDmem n a b s).ringMem = s.ringMem ∧ (Engines.setDmem n a b s).ports = s.ports ∧
    (Engines.setDmem n a b s).fab = s.fab ∧ (Engines.setDmem n a b s).laneOut = s.laneOut ∧
    (Engines.setDmem n a b s).pinIn = s.pinIn ∧ (Engines.setDmem n a b s).pins = s.pins ∧
    (Engines.setDmem n a b s).pinBase = s.pinBase ∧ (Engines.setDmem n a b s).vio = s.vio ∧
    (Engines.setDmem n a b s).tap = s.tap ∧ (Engines.setDmem n a b s).loader = s.loader ∧
    (Engines.setDmem n a b s).facets = s.facets ∧ (Engines.setDmem n a b s).facetBase = s.facetBase ∧
    (Engines.setDmem n a b s).scrub = s.scrub ∧ (Engines.setDmem n a b s).sec = s.sec ∧
    (Engines.setDmem n a b s).nv = s.nv ∧ (Engines.setDmem n a b s).domains = s.domains ∧
    (Engines.setDmem n a b s).bridges = s.bridges ∧ (Engines.setDmem n a b s).lanes = s.lanes ∧
    (Engines.setDmem n a b s).bonds = s.bonds ∧ (Engines.setDmem n a b s).ethPorts = s.ethPorts ∧
    (Engines.setDmem n a b s).host = s.host ∧ (Engines.setDmem n a b s).sup = s.sup ∧
    (Engines.setDmem n a b s).fresh = s.fresh ∧ (Engines.setDmem n a b s).out = s.out ∧
    (Engines.setDmem n a b s).pending = s.pending := by
  and_intros <;> rfl

@[simp] theorem Engines.setInstaller_frame (i : Installer) (s : State) :
    (Engines.setInstaller i s).modes = s.modes ∧ (Engines.setInstaller i s).regs = s.regs ∧
    (Engines.setInstaller i s).mailbox = s.mailbox ∧ (Engines.setInstaller i s).can0 = s.can0 ∧
    (Engines.setInstaller i s).can1 = s.can1 ∧ (Engines.setInstaller i s).ctxMailbox = s.ctxMailbox ∧
    (Engines.setInstaller i s).ctxCan0 = s.ctxCan0 ∧ (Engines.setInstaller i s).ctxCan1 = s.ctxCan1 ∧
    (Engines.setInstaller i s).events = s.events ∧ (Engines.setInstaller i s).time = s.time ∧
    (Engines.setInstaller i s).servo = s.servo ∧ (Engines.setInstaller i s).keepers = s.keepers ∧
    (Engines.setInstaller i s).gates = s.gates ∧ (Engines.setInstaller i s).entries = s.entries ∧
    (Engines.setInstaller i s).banks = s.banks ∧ (Engines.setInstaller i s).bankBase = s.bankBase ∧
    (Engines.setInstaller i s).bankMem = s.bankMem ∧ (Engines.setInstaller i s).bankSpare = s.bankSpare ∧
    (Engines.setInstaller i s).pool = s.pool ∧ (Engines.setInstaller i s).queues = s.queues ∧
    (Engines.setInstaller i s).qports = s.qports ∧ (Engines.setInstaller i s).rings = s.rings ∧
    (Engines.setInstaller i s).ringMem = s.ringMem ∧ (Engines.setInstaller i s).ports = s.ports ∧
    (Engines.setInstaller i s).fab = s.fab ∧ (Engines.setInstaller i s).laneOut = s.laneOut ∧
    (Engines.setInstaller i s).pinIn = s.pinIn ∧ (Engines.setInstaller i s).pins = s.pins ∧
    (Engines.setInstaller i s).pinBase = s.pinBase ∧ (Engines.setInstaller i s).vio = s.vio ∧
    (Engines.setInstaller i s).tap = s.tap ∧ (Engines.setInstaller i s).loader = s.loader ∧
    (Engines.setInstaller i s).facets = s.facets ∧ (Engines.setInstaller i s).facetBase = s.facetBase ∧
    (Engines.setInstaller i s).scrub = s.scrub ∧ (Engines.setInstaller i s).sec = s.sec ∧
    (Engines.setInstaller i s).nv = s.nv ∧ (Engines.setInstaller i s).domains = s.domains ∧
    (Engines.setInstaller i s).bridges = s.bridges ∧ (Engines.setInstaller i s).lanes = s.lanes ∧
    (Engines.setInstaller i s).bonds = s.bonds ∧ (Engines.setInstaller i s).ethPorts = s.ethPorts ∧
    (Engines.setInstaller i s).host = s.host ∧ (Engines.setInstaller i s).sup = s.sup ∧
    (Engines.setInstaller i s).fresh = s.fresh ∧ (Engines.setInstaller i s).out = s.out ∧
    (Engines.setInstaller i s).pending = s.pending := by
  and_intros <;> rfl

@[simp] theorem Engines.setPort_frame (i : Nat) (p : ChanPort) (s : State) :
    (Engines.setPort i p s).modes = s.modes ∧ (Engines.setPort i p s).regs = s.regs ∧
    (Engines.setPort i p s).mailbox = s.mailbox ∧ (Engines.setPort i p s).can0 = s.can0 ∧
    (Engines.setPort i p s).can1 = s.can1 ∧ (Engines.setPort i p s).ctxMailbox = s.ctxMailbox ∧
    (Engines.setPort i p s).ctxCan0 = s.ctxCan0 ∧ (Engines.setPort i p s).ctxCan1 = s.ctxCan1 ∧
    (Engines.setPort i p s).events = s.events ∧ (Engines.setPort i p s).time = s.time ∧
    (Engines.setPort i p s).servo = s.servo ∧ (Engines.setPort i p s).keepers = s.keepers ∧
    (Engines.setPort i p s).gates = s.gates ∧ (Engines.setPort i p s).entries = s.entries ∧
    (Engines.setPort i p s).banks = s.banks ∧ (Engines.setPort i p s).bankBase = s.bankBase ∧
    (Engines.setPort i p s).bankMem = s.bankMem ∧ (Engines.setPort i p s).bankSpare = s.bankSpare ∧
    (Engines.setPort i p s).pool = s.pool ∧ (Engines.setPort i p s).queues = s.queues ∧
    (Engines.setPort i p s).qports = s.qports ∧ (Engines.setPort i p s).rings = s.rings ∧
    (Engines.setPort i p s).ringMem = s.ringMem ∧ (Engines.setPort i p s).eng = s.eng ∧
    (Engines.setPort i p s).fab = s.fab ∧ (Engines.setPort i p s).laneOut = s.laneOut ∧
    (Engines.setPort i p s).pinIn = s.pinIn ∧ (Engines.setPort i p s).pins = s.pins ∧
    (Engines.setPort i p s).pinBase = s.pinBase ∧ (Engines.setPort i p s).vio = s.vio ∧
    (Engines.setPort i p s).tap = s.tap ∧ (Engines.setPort i p s).loader = s.loader ∧
    (Engines.setPort i p s).facets = s.facets ∧ (Engines.setPort i p s).facetBase = s.facetBase ∧
    (Engines.setPort i p s).scrub = s.scrub ∧ (Engines.setPort i p s).sec = s.sec ∧
    (Engines.setPort i p s).nv = s.nv ∧ (Engines.setPort i p s).domains = s.domains ∧
    (Engines.setPort i p s).bridges = s.bridges ∧ (Engines.setPort i p s).lanes = s.lanes ∧
    (Engines.setPort i p s).bonds = s.bonds ∧ (Engines.setPort i p s).ethPorts = s.ethPorts ∧
    (Engines.setPort i p s).host = s.host ∧ (Engines.setPort i p s).sup = s.sup ∧
    (Engines.setPort i p s).fresh = s.fresh ∧ (Engines.setPort i p s).out = s.out ∧
    (Engines.setPort i p s).pending = s.pending := by
  and_intros <;> rfl

@[simp] theorem Engines.retire_frame (n : Nat) (pc : W32) (e : Engine) (s : State) :
    (Engines.retire n pc e s).modes = s.modes ∧ (Engines.retire n pc e s).regs = s.regs ∧
    (Engines.retire n pc e s).mailbox = s.mailbox ∧ (Engines.retire n pc e s).can0 = s.can0 ∧
    (Engines.retire n pc e s).can1 = s.can1 ∧ (Engines.retire n pc e s).ctxMailbox = s.ctxMailbox ∧
    (Engines.retire n pc e s).ctxCan0 = s.ctxCan0 ∧ (Engines.retire n pc e s).ctxCan1 = s.ctxCan1 ∧
    (Engines.retire n pc e s).events = s.events ∧ (Engines.retire n pc e s).time = s.time ∧
    (Engines.retire n pc e s).servo = s.servo ∧ (Engines.retire n pc e s).keepers = s.keepers ∧
    (Engines.retire n pc e s).gates = s.gates ∧ (Engines.retire n pc e s).entries = s.entries ∧
    (Engines.retire n pc e s).banks = s.banks ∧ (Engines.retire n pc e s).bankBase = s.bankBase ∧
    (Engines.retire n pc e s).bankMem = s.bankMem ∧ (Engines.retire n pc e s).bankSpare = s.bankSpare ∧
    (Engines.retire n pc e s).pool = s.pool ∧ (Engines.retire n pc e s).queues = s.queues ∧
    (Engines.retire n pc e s).qports = s.qports ∧ (Engines.retire n pc e s).rings = s.rings ∧
    (Engines.retire n pc e s).ringMem = s.ringMem ∧ (Engines.retire n pc e s).ports = s.ports ∧
    (Engines.retire n pc e s).fab = s.fab ∧ (Engines.retire n pc e s).laneOut = s.laneOut ∧
    (Engines.retire n pc e s).pinIn = s.pinIn ∧ (Engines.retire n pc e s).pins = s.pins ∧
    (Engines.retire n pc e s).pinBase = s.pinBase ∧ (Engines.retire n pc e s).vio = s.vio ∧
    (Engines.retire n pc e s).tap = s.tap ∧ (Engines.retire n pc e s).loader = s.loader ∧
    (Engines.retire n pc e s).facets = s.facets ∧ (Engines.retire n pc e s).facetBase = s.facetBase ∧
    (Engines.retire n pc e s).scrub = s.scrub ∧ (Engines.retire n pc e s).sec = s.sec ∧
    (Engines.retire n pc e s).nv = s.nv ∧ (Engines.retire n pc e s).domains = s.domains ∧
    (Engines.retire n pc e s).bridges = s.bridges ∧ (Engines.retire n pc e s).lanes = s.lanes ∧
    (Engines.retire n pc e s).bonds = s.bonds ∧ (Engines.retire n pc e s).ethPorts = s.ethPorts ∧
    (Engines.retire n pc e s).host = s.host ∧ (Engines.retire n pc e s).sup = s.sup ∧
    (Engines.retire n pc e s).fresh = s.fresh ∧ (Engines.retire n pc e s).out = s.out ∧
    (Engines.retire n pc e s).pending = s.pending := by
  and_intros <;> rfl

@[simp] theorem Fabric.setStage_frame (u : StageRef) (x : Stage) (s : State) :
    (Fabric.setStage u x s).modes = s.modes ∧ (Fabric.setStage u x s).regs = s.regs ∧
    (Fabric.setStage u x s).mailbox = s.mailbox ∧ (Fabric.setStage u x s).can0 = s.can0 ∧
    (Fabric.setStage u x s).can1 = s.can1 ∧ (Fabric.setStage u x s).ctxMailbox = s.ctxMailbox ∧
    (Fabric.setStage u x s).ctxCan0 = s.ctxCan0 ∧ (Fabric.setStage u x s).ctxCan1 = s.ctxCan1 ∧
    (Fabric.setStage u x s).events = s.events ∧ (Fabric.setStage u x s).time = s.time ∧
    (Fabric.setStage u x s).servo = s.servo ∧ (Fabric.setStage u x s).keepers = s.keepers ∧
    (Fabric.setStage u x s).gates = s.gates ∧ (Fabric.setStage u x s).entries = s.entries ∧
    (Fabric.setStage u x s).banks = s.banks ∧ (Fabric.setStage u x s).bankBase = s.bankBase ∧
    (Fabric.setStage u x s).bankMem = s.bankMem ∧ (Fabric.setStage u x s).bankSpare = s.bankSpare ∧
    (Fabric.setStage u x s).pool = s.pool ∧ (Fabric.setStage u x s).queues = s.queues ∧
    (Fabric.setStage u x s).qports = s.qports ∧ (Fabric.setStage u x s).rings = s.rings ∧
    (Fabric.setStage u x s).ringMem = s.ringMem ∧ (Fabric.setStage u x s).eng = s.eng ∧
    (Fabric.setStage u x s).ports = s.ports ∧ (Fabric.setStage u x s).laneOut = s.laneOut ∧
    (Fabric.setStage u x s).pinIn = s.pinIn ∧ (Fabric.setStage u x s).pins = s.pins ∧
    (Fabric.setStage u x s).pinBase = s.pinBase ∧ (Fabric.setStage u x s).vio = s.vio ∧
    (Fabric.setStage u x s).tap = s.tap ∧ (Fabric.setStage u x s).loader = s.loader ∧
    (Fabric.setStage u x s).facets = s.facets ∧ (Fabric.setStage u x s).facetBase = s.facetBase ∧
    (Fabric.setStage u x s).scrub = s.scrub ∧ (Fabric.setStage u x s).sec = s.sec ∧
    (Fabric.setStage u x s).nv = s.nv ∧ (Fabric.setStage u x s).domains = s.domains ∧
    (Fabric.setStage u x s).bridges = s.bridges ∧ (Fabric.setStage u x s).lanes = s.lanes ∧
    (Fabric.setStage u x s).bonds = s.bonds ∧ (Fabric.setStage u x s).ethPorts = s.ethPorts ∧
    (Fabric.setStage u x s).host = s.host ∧ (Fabric.setStage u x s).sup = s.sup ∧
    (Fabric.setStage u x s).fresh = s.fresh ∧ (Fabric.setStage u x s).out = s.out ∧
    (Fabric.setStage u x s).pending = s.pending := by
  and_intros <;> rfl

@[simp] theorem Fabric.setCollar_frame (r : Nat) (c : Collar) (s : State) :
    (Fabric.setCollar r c s).modes = s.modes ∧ (Fabric.setCollar r c s).regs = s.regs ∧
    (Fabric.setCollar r c s).mailbox = s.mailbox ∧ (Fabric.setCollar r c s).can0 = s.can0 ∧
    (Fabric.setCollar r c s).can1 = s.can1 ∧ (Fabric.setCollar r c s).ctxMailbox = s.ctxMailbox ∧
    (Fabric.setCollar r c s).ctxCan0 = s.ctxCan0 ∧ (Fabric.setCollar r c s).ctxCan1 = s.ctxCan1 ∧
    (Fabric.setCollar r c s).events = s.events ∧ (Fabric.setCollar r c s).time = s.time ∧
    (Fabric.setCollar r c s).servo = s.servo ∧ (Fabric.setCollar r c s).keepers = s.keepers ∧
    (Fabric.setCollar r c s).gates = s.gates ∧ (Fabric.setCollar r c s).entries = s.entries ∧
    (Fabric.setCollar r c s).banks = s.banks ∧ (Fabric.setCollar r c s).bankBase = s.bankBase ∧
    (Fabric.setCollar r c s).bankMem = s.bankMem ∧ (Fabric.setCollar r c s).bankSpare = s.bankSpare ∧
    (Fabric.setCollar r c s).pool = s.pool ∧ (Fabric.setCollar r c s).queues = s.queues ∧
    (Fabric.setCollar r c s).qports = s.qports ∧ (Fabric.setCollar r c s).rings = s.rings ∧
    (Fabric.setCollar r c s).ringMem = s.ringMem ∧ (Fabric.setCollar r c s).eng = s.eng ∧
    (Fabric.setCollar r c s).ports = s.ports ∧ (Fabric.setCollar r c s).laneOut = s.laneOut ∧
    (Fabric.setCollar r c s).pinIn = s.pinIn ∧ (Fabric.setCollar r c s).pins = s.pins ∧
    (Fabric.setCollar r c s).pinBase = s.pinBase ∧ (Fabric.setCollar r c s).vio = s.vio ∧
    (Fabric.setCollar r c s).tap = s.tap ∧ (Fabric.setCollar r c s).loader = s.loader ∧
    (Fabric.setCollar r c s).facets = s.facets ∧ (Fabric.setCollar r c s).facetBase = s.facetBase ∧
    (Fabric.setCollar r c s).scrub = s.scrub ∧ (Fabric.setCollar r c s).sec = s.sec ∧
    (Fabric.setCollar r c s).nv = s.nv ∧ (Fabric.setCollar r c s).domains = s.domains ∧
    (Fabric.setCollar r c s).bridges = s.bridges ∧ (Fabric.setCollar r c s).lanes = s.lanes ∧
    (Fabric.setCollar r c s).bonds = s.bonds ∧ (Fabric.setCollar r c s).ethPorts = s.ethPorts ∧
    (Fabric.setCollar r c s).host = s.host ∧ (Fabric.setCollar r c s).sup = s.sup ∧
    (Fabric.setCollar r c s).fresh = s.fresh ∧ (Fabric.setCollar r c s).out = s.out ∧
    (Fabric.setCollar r c s).pending = s.pending := by
  and_intros <;> rfl

@[simp] theorem Fabric.setLens_frame (r : Nat) (x : Lens) (s : State) :
    (Fabric.setLens r x s).modes = s.modes ∧ (Fabric.setLens r x s).regs = s.regs ∧
    (Fabric.setLens r x s).mailbox = s.mailbox ∧ (Fabric.setLens r x s).can0 = s.can0 ∧
    (Fabric.setLens r x s).can1 = s.can1 ∧ (Fabric.setLens r x s).ctxMailbox = s.ctxMailbox ∧
    (Fabric.setLens r x s).ctxCan0 = s.ctxCan0 ∧ (Fabric.setLens r x s).ctxCan1 = s.ctxCan1 ∧
    (Fabric.setLens r x s).events = s.events ∧ (Fabric.setLens r x s).time = s.time ∧
    (Fabric.setLens r x s).servo = s.servo ∧ (Fabric.setLens r x s).keepers = s.keepers ∧
    (Fabric.setLens r x s).gates = s.gates ∧ (Fabric.setLens r x s).entries = s.entries ∧
    (Fabric.setLens r x s).banks = s.banks ∧ (Fabric.setLens r x s).bankBase = s.bankBase ∧
    (Fabric.setLens r x s).bankMem = s.bankMem ∧ (Fabric.setLens r x s).bankSpare = s.bankSpare ∧
    (Fabric.setLens r x s).pool = s.pool ∧ (Fabric.setLens r x s).queues = s.queues ∧
    (Fabric.setLens r x s).qports = s.qports ∧ (Fabric.setLens r x s).rings = s.rings ∧
    (Fabric.setLens r x s).ringMem = s.ringMem ∧ (Fabric.setLens r x s).eng = s.eng ∧
    (Fabric.setLens r x s).ports = s.ports ∧ (Fabric.setLens r x s).laneOut = s.laneOut ∧
    (Fabric.setLens r x s).pinIn = s.pinIn ∧ (Fabric.setLens r x s).pins = s.pins ∧
    (Fabric.setLens r x s).pinBase = s.pinBase ∧ (Fabric.setLens r x s).vio = s.vio ∧
    (Fabric.setLens r x s).tap = s.tap ∧ (Fabric.setLens r x s).loader = s.loader ∧
    (Fabric.setLens r x s).facets = s.facets ∧ (Fabric.setLens r x s).facetBase = s.facetBase ∧
    (Fabric.setLens r x s).scrub = s.scrub ∧ (Fabric.setLens r x s).sec = s.sec ∧ (Fabric.setLens r x s).nv = s.nv ∧
    (Fabric.setLens r x s).domains = s.domains ∧ (Fabric.setLens r x s).bridges = s.bridges ∧
    (Fabric.setLens r x s).lanes = s.lanes ∧ (Fabric.setLens r x s).bonds = s.bonds ∧
    (Fabric.setLens r x s).ethPorts = s.ethPorts ∧ (Fabric.setLens r x s).host = s.host ∧
    (Fabric.setLens r x s).sup = s.sup ∧ (Fabric.setLens r x s).fresh = s.fresh ∧
    (Fabric.setLens r x s).out = s.out ∧ (Fabric.setLens r x s).pending = s.pending := by
  and_intros <;> rfl

@[simp] theorem Pins.setPin_frame (p : Nat) (x : Pin) (s : State) :
    (Pins.setPin p x s).modes = s.modes ∧ (Pins.setPin p x s).regs = s.regs ∧
    (Pins.setPin p x s).mailbox = s.mailbox ∧ (Pins.setPin p x s).can0 = s.can0 ∧ (Pins.setPin p x s).can1 = s.can1 ∧
    (Pins.setPin p x s).ctxMailbox = s.ctxMailbox ∧ (Pins.setPin p x s).ctxCan0 = s.ctxCan0 ∧
    (Pins.setPin p x s).ctxCan1 = s.ctxCan1 ∧ (Pins.setPin p x s).events = s.events ∧
    (Pins.setPin p x s).time = s.time ∧ (Pins.setPin p x s).servo = s.servo ∧
    (Pins.setPin p x s).keepers = s.keepers ∧ (Pins.setPin p x s).gates = s.gates ∧
    (Pins.setPin p x s).entries = s.entries ∧ (Pins.setPin p x s).banks = s.banks ∧
    (Pins.setPin p x s).bankBase = s.bankBase ∧ (Pins.setPin p x s).bankMem = s.bankMem ∧
    (Pins.setPin p x s).bankSpare = s.bankSpare ∧ (Pins.setPin p x s).pool = s.pool ∧
    (Pins.setPin p x s).queues = s.queues ∧ (Pins.setPin p x s).qports = s.qports ∧
    (Pins.setPin p x s).rings = s.rings ∧ (Pins.setPin p x s).ringMem = s.ringMem ∧ (Pins.setPin p x s).eng = s.eng ∧
    (Pins.setPin p x s).ports = s.ports ∧ (Pins.setPin p x s).fab = s.fab ∧ (Pins.setPin p x s).laneOut = s.laneOut ∧
    (Pins.setPin p x s).pinIn = s.pinIn ∧ (Pins.setPin p x s).pinBase = s.pinBase ∧ (Pins.setPin p x s).vio = s.vio ∧
    (Pins.setPin p x s).tap = s.tap ∧ (Pins.setPin p x s).loader = s.loader ∧ (Pins.setPin p x s).facets = s.facets ∧
    (Pins.setPin p x s).facetBase = s.facetBase ∧ (Pins.setPin p x s).scrub = s.scrub ∧
    (Pins.setPin p x s).sec = s.sec ∧ (Pins.setPin p x s).nv = s.nv ∧ (Pins.setPin p x s).domains = s.domains ∧
    (Pins.setPin p x s).bridges = s.bridges ∧ (Pins.setPin p x s).lanes = s.lanes ∧
    (Pins.setPin p x s).bonds = s.bonds ∧ (Pins.setPin p x s).ethPorts = s.ethPorts ∧
    (Pins.setPin p x s).host = s.host ∧ (Pins.setPin p x s).sup = s.sup ∧ (Pins.setPin p x s).fresh = s.fresh ∧
    (Pins.setPin p x s).out = s.out ∧ (Pins.setPin p x s).pending = s.pending := by
  and_intros <;> rfl

@[simp] theorem Loader.setFacet_frame (r : Nat) (x : Facet) (s : State) :
    (Loader.setFacet r x s).modes = s.modes ∧ (Loader.setFacet r x s).regs = s.regs ∧
    (Loader.setFacet r x s).mailbox = s.mailbox ∧ (Loader.setFacet r x s).can0 = s.can0 ∧
    (Loader.setFacet r x s).can1 = s.can1 ∧ (Loader.setFacet r x s).ctxMailbox = s.ctxMailbox ∧
    (Loader.setFacet r x s).ctxCan0 = s.ctxCan0 ∧ (Loader.setFacet r x s).ctxCan1 = s.ctxCan1 ∧
    (Loader.setFacet r x s).events = s.events ∧ (Loader.setFacet r x s).time = s.time ∧
    (Loader.setFacet r x s).servo = s.servo ∧ (Loader.setFacet r x s).keepers = s.keepers ∧
    (Loader.setFacet r x s).gates = s.gates ∧ (Loader.setFacet r x s).entries = s.entries ∧
    (Loader.setFacet r x s).banks = s.banks ∧ (Loader.setFacet r x s).bankBase = s.bankBase ∧
    (Loader.setFacet r x s).bankMem = s.bankMem ∧ (Loader.setFacet r x s).bankSpare = s.bankSpare ∧
    (Loader.setFacet r x s).pool = s.pool ∧ (Loader.setFacet r x s).queues = s.queues ∧
    (Loader.setFacet r x s).qports = s.qports ∧ (Loader.setFacet r x s).rings = s.rings ∧
    (Loader.setFacet r x s).ringMem = s.ringMem ∧ (Loader.setFacet r x s).eng = s.eng ∧
    (Loader.setFacet r x s).ports = s.ports ∧ (Loader.setFacet r x s).fab = s.fab ∧
    (Loader.setFacet r x s).laneOut = s.laneOut ∧ (Loader.setFacet r x s).pinIn = s.pinIn ∧
    (Loader.setFacet r x s).pins = s.pins ∧ (Loader.setFacet r x s).pinBase = s.pinBase ∧
    (Loader.setFacet r x s).vio = s.vio ∧ (Loader.setFacet r x s).tap = s.tap ∧
    (Loader.setFacet r x s).loader = s.loader ∧ (Loader.setFacet r x s).facetBase = s.facetBase ∧
    (Loader.setFacet r x s).scrub = s.scrub ∧ (Loader.setFacet r x s).sec = s.sec ∧
    (Loader.setFacet r x s).nv = s.nv ∧ (Loader.setFacet r x s).domains = s.domains ∧
    (Loader.setFacet r x s).bridges = s.bridges ∧ (Loader.setFacet r x s).lanes = s.lanes ∧
    (Loader.setFacet r x s).bonds = s.bonds ∧ (Loader.setFacet r x s).ethPorts = s.ethPorts ∧
    (Loader.setFacet r x s).host = s.host ∧ (Loader.setFacet r x s).sup = s.sup ∧
    (Loader.setFacet r x s).fresh = s.fresh ∧ (Loader.setFacet r x s).out = s.out ∧
    (Loader.setFacet r x s).pending = s.pending := by
  and_intros <;> rfl

@[simp] theorem Bridges.setDomain_frame (n : Nat) (x : Domain) (s : State) :
    (Bridges.setDomain n x s).modes = s.modes ∧ (Bridges.setDomain n x s).regs = s.regs ∧
    (Bridges.setDomain n x s).mailbox = s.mailbox ∧ (Bridges.setDomain n x s).can0 = s.can0 ∧
    (Bridges.setDomain n x s).can1 = s.can1 ∧ (Bridges.setDomain n x s).ctxMailbox = s.ctxMailbox ∧
    (Bridges.setDomain n x s).ctxCan0 = s.ctxCan0 ∧ (Bridges.setDomain n x s).ctxCan1 = s.ctxCan1 ∧
    (Bridges.setDomain n x s).events = s.events ∧ (Bridges.setDomain n x s).time = s.time ∧
    (Bridges.setDomain n x s).servo = s.servo ∧ (Bridges.setDomain n x s).keepers = s.keepers ∧
    (Bridges.setDomain n x s).gates = s.gates ∧ (Bridges.setDomain n x s).entries = s.entries ∧
    (Bridges.setDomain n x s).banks = s.banks ∧ (Bridges.setDomain n x s).bankBase = s.bankBase ∧
    (Bridges.setDomain n x s).bankMem = s.bankMem ∧ (Bridges.setDomain n x s).bankSpare = s.bankSpare ∧
    (Bridges.setDomain n x s).pool = s.pool ∧ (Bridges.setDomain n x s).queues = s.queues ∧
    (Bridges.setDomain n x s).qports = s.qports ∧ (Bridges.setDomain n x s).rings = s.rings ∧
    (Bridges.setDomain n x s).ringMem = s.ringMem ∧ (Bridges.setDomain n x s).eng = s.eng ∧
    (Bridges.setDomain n x s).ports = s.ports ∧ (Bridges.setDomain n x s).fab = s.fab ∧
    (Bridges.setDomain n x s).laneOut = s.laneOut ∧ (Bridges.setDomain n x s).pinIn = s.pinIn ∧
    (Bridges.setDomain n x s).pins = s.pins ∧ (Bridges.setDomain n x s).pinBase = s.pinBase ∧
    (Bridges.setDomain n x s).vio = s.vio ∧ (Bridges.setDomain n x s).tap = s.tap ∧
    (Bridges.setDomain n x s).loader = s.loader ∧ (Bridges.setDomain n x s).facets = s.facets ∧
    (Bridges.setDomain n x s).facetBase = s.facetBase ∧ (Bridges.setDomain n x s).scrub = s.scrub ∧
    (Bridges.setDomain n x s).sec = s.sec ∧ (Bridges.setDomain n x s).nv = s.nv ∧
    (Bridges.setDomain n x s).bridges = s.bridges ∧ (Bridges.setDomain n x s).lanes = s.lanes ∧
    (Bridges.setDomain n x s).bonds = s.bonds ∧ (Bridges.setDomain n x s).ethPorts = s.ethPorts ∧
    (Bridges.setDomain n x s).host = s.host ∧ (Bridges.setDomain n x s).sup = s.sup ∧
    (Bridges.setDomain n x s).fresh = s.fresh ∧ (Bridges.setDomain n x s).out = s.out ∧
    (Bridges.setDomain n x s).pending = s.pending := by
  and_intros <;> rfl

@[simp] theorem Lanes.setLane_frame (n : Nat) (x : Lane) (s : State) :
    (Lanes.setLane n x s).modes = s.modes ∧ (Lanes.setLane n x s).regs = s.regs ∧
    (Lanes.setLane n x s).mailbox = s.mailbox ∧ (Lanes.setLane n x s).can0 = s.can0 ∧
    (Lanes.setLane n x s).can1 = s.can1 ∧ (Lanes.setLane n x s).ctxMailbox = s.ctxMailbox ∧
    (Lanes.setLane n x s).ctxCan0 = s.ctxCan0 ∧ (Lanes.setLane n x s).ctxCan1 = s.ctxCan1 ∧
    (Lanes.setLane n x s).events = s.events ∧ (Lanes.setLane n x s).time = s.time ∧
    (Lanes.setLane n x s).servo = s.servo ∧ (Lanes.setLane n x s).keepers = s.keepers ∧
    (Lanes.setLane n x s).gates = s.gates ∧ (Lanes.setLane n x s).entries = s.entries ∧
    (Lanes.setLane n x s).banks = s.banks ∧ (Lanes.setLane n x s).bankBase = s.bankBase ∧
    (Lanes.setLane n x s).bankMem = s.bankMem ∧ (Lanes.setLane n x s).bankSpare = s.bankSpare ∧
    (Lanes.setLane n x s).pool = s.pool ∧ (Lanes.setLane n x s).queues = s.queues ∧
    (Lanes.setLane n x s).qports = s.qports ∧ (Lanes.setLane n x s).rings = s.rings ∧
    (Lanes.setLane n x s).ringMem = s.ringMem ∧ (Lanes.setLane n x s).eng = s.eng ∧
    (Lanes.setLane n x s).ports = s.ports ∧ (Lanes.setLane n x s).fab = s.fab ∧
    (Lanes.setLane n x s).laneOut = s.laneOut ∧ (Lanes.setLane n x s).pinIn = s.pinIn ∧
    (Lanes.setLane n x s).pins = s.pins ∧ (Lanes.setLane n x s).pinBase = s.pinBase ∧
    (Lanes.setLane n x s).vio = s.vio ∧ (Lanes.setLane n x s).tap = s.tap ∧ (Lanes.setLane n x s).loader = s.loader ∧
    (Lanes.setLane n x s).facets = s.facets ∧ (Lanes.setLane n x s).facetBase = s.facetBase ∧
    (Lanes.setLane n x s).scrub = s.scrub ∧ (Lanes.setLane n x s).sec = s.sec ∧ (Lanes.setLane n x s).nv = s.nv ∧
    (Lanes.setLane n x s).domains = s.domains ∧ (Lanes.setLane n x s).bridges = s.bridges ∧
    (Lanes.setLane n x s).bonds = s.bonds ∧ (Lanes.setLane n x s).ethPorts = s.ethPorts ∧
    (Lanes.setLane n x s).host = s.host ∧ (Lanes.setLane n x s).sup = s.sup ∧ (Lanes.setLane n x s).fresh = s.fresh ∧
    (Lanes.setLane n x s).out = s.out ∧ (Lanes.setLane n x s).pending = s.pending := by
  and_intros <;> rfl

@[simp] theorem Lanes.setBond_frame (b : Nat) (x : Bond) (s : State) :
    (Lanes.setBond b x s).modes = s.modes ∧ (Lanes.setBond b x s).regs = s.regs ∧
    (Lanes.setBond b x s).mailbox = s.mailbox ∧ (Lanes.setBond b x s).can0 = s.can0 ∧
    (Lanes.setBond b x s).can1 = s.can1 ∧ (Lanes.setBond b x s).ctxMailbox = s.ctxMailbox ∧
    (Lanes.setBond b x s).ctxCan0 = s.ctxCan0 ∧ (Lanes.setBond b x s).ctxCan1 = s.ctxCan1 ∧
    (Lanes.setBond b x s).events = s.events ∧ (Lanes.setBond b x s).time = s.time ∧
    (Lanes.setBond b x s).servo = s.servo ∧ (Lanes.setBond b x s).keepers = s.keepers ∧
    (Lanes.setBond b x s).gates = s.gates ∧ (Lanes.setBond b x s).entries = s.entries ∧
    (Lanes.setBond b x s).banks = s.banks ∧ (Lanes.setBond b x s).bankBase = s.bankBase ∧
    (Lanes.setBond b x s).bankMem = s.bankMem ∧ (Lanes.setBond b x s).bankSpare = s.bankSpare ∧
    (Lanes.setBond b x s).pool = s.pool ∧ (Lanes.setBond b x s).queues = s.queues ∧
    (Lanes.setBond b x s).qports = s.qports ∧ (Lanes.setBond b x s).rings = s.rings ∧
    (Lanes.setBond b x s).ringMem = s.ringMem ∧ (Lanes.setBond b x s).eng = s.eng ∧
    (Lanes.setBond b x s).ports = s.ports ∧ (Lanes.setBond b x s).fab = s.fab ∧
    (Lanes.setBond b x s).laneOut = s.laneOut ∧ (Lanes.setBond b x s).pinIn = s.pinIn ∧
    (Lanes.setBond b x s).pins = s.pins ∧ (Lanes.setBond b x s).pinBase = s.pinBase ∧
    (Lanes.setBond b x s).vio = s.vio ∧ (Lanes.setBond b x s).tap = s.tap ∧ (Lanes.setBond b x s).loader = s.loader ∧
    (Lanes.setBond b x s).facets = s.facets ∧ (Lanes.setBond b x s).facetBase = s.facetBase ∧
    (Lanes.setBond b x s).scrub = s.scrub ∧ (Lanes.setBond b x s).sec = s.sec ∧ (Lanes.setBond b x s).nv = s.nv ∧
    (Lanes.setBond b x s).domains = s.domains ∧ (Lanes.setBond b x s).bridges = s.bridges ∧
    (Lanes.setBond b x s).lanes = s.lanes ∧ (Lanes.setBond b x s).ethPorts = s.ethPorts ∧
    (Lanes.setBond b x s).host = s.host ∧ (Lanes.setBond b x s).sup = s.sup ∧ (Lanes.setBond b x s).fresh = s.fresh ∧
    (Lanes.setBond b x s).out = s.out ∧ (Lanes.setBond b x s).pending = s.pending := by
  and_intros <;> rfl

@[simp] theorem HostLink.setChan_frame (c : Nat) (x : Dma) (s : State) :
    (HostLink.setChan c x s).modes = s.modes ∧ (HostLink.setChan c x s).regs = s.regs ∧
    (HostLink.setChan c x s).mailbox = s.mailbox ∧ (HostLink.setChan c x s).can0 = s.can0 ∧
    (HostLink.setChan c x s).can1 = s.can1 ∧ (HostLink.setChan c x s).ctxMailbox = s.ctxMailbox ∧
    (HostLink.setChan c x s).ctxCan0 = s.ctxCan0 ∧ (HostLink.setChan c x s).ctxCan1 = s.ctxCan1 ∧
    (HostLink.setChan c x s).events = s.events ∧ (HostLink.setChan c x s).time = s.time ∧
    (HostLink.setChan c x s).servo = s.servo ∧ (HostLink.setChan c x s).keepers = s.keepers ∧
    (HostLink.setChan c x s).gates = s.gates ∧ (HostLink.setChan c x s).entries = s.entries ∧
    (HostLink.setChan c x s).banks = s.banks ∧ (HostLink.setChan c x s).bankBase = s.bankBase ∧
    (HostLink.setChan c x s).bankMem = s.bankMem ∧ (HostLink.setChan c x s).bankSpare = s.bankSpare ∧
    (HostLink.setChan c x s).pool = s.pool ∧ (HostLink.setChan c x s).queues = s.queues ∧
    (HostLink.setChan c x s).qports = s.qports ∧ (HostLink.setChan c x s).rings = s.rings ∧
    (HostLink.setChan c x s).ringMem = s.ringMem ∧ (HostLink.setChan c x s).eng = s.eng ∧
    (HostLink.setChan c x s).ports = s.ports ∧ (HostLink.setChan c x s).fab = s.fab ∧
    (HostLink.setChan c x s).laneOut = s.laneOut ∧ (HostLink.setChan c x s).pinIn = s.pinIn ∧
    (HostLink.setChan c x s).pins = s.pins ∧ (HostLink.setChan c x s).pinBase = s.pinBase ∧
    (HostLink.setChan c x s).vio = s.vio ∧ (HostLink.setChan c x s).tap = s.tap ∧
    (HostLink.setChan c x s).loader = s.loader ∧ (HostLink.setChan c x s).facets = s.facets ∧
    (HostLink.setChan c x s).facetBase = s.facetBase ∧ (HostLink.setChan c x s).scrub = s.scrub ∧
    (HostLink.setChan c x s).sec = s.sec ∧ (HostLink.setChan c x s).nv = s.nv ∧
    (HostLink.setChan c x s).domains = s.domains ∧ (HostLink.setChan c x s).bridges = s.bridges ∧
    (HostLink.setChan c x s).lanes = s.lanes ∧ (HostLink.setChan c x s).bonds = s.bonds ∧
    (HostLink.setChan c x s).ethPorts = s.ethPorts ∧ (HostLink.setChan c x s).sup = s.sup ∧
    (HostLink.setChan c x s).fresh = s.fresh ∧ (HostLink.setChan c x s).out = s.out ∧
    (HostLink.setChan c x s).pending = s.pending := by
  and_intros <;> rfl

end Sys2Proof.Machine
end

