-- ==== Sys2Proof/Laws/Table.lean ====
section
/-!
SUPPORT. What the operations of a table do: reading after writing, and that each keeps the canonical form.
-/

namespace Sys2Proof.Table

variable {α : Type} {d : Nat → α}

theorem get_erase_same (t : Table α) (k : Nat) : get d (erase t k) k = d k := by
  induction t with
  | nil => rfl
  | cons e t ih =>
    obtain ⟨j, v⟩ := e
    simp only [erase]
    split
    · exact ih
    · simp [get, *]

theorem get_erase_other (t : Table α) {k j : Nat} (h : j ≠ k) : get d (erase t k) j = get d t j := by
  induction t with
  | nil => rfl
  | cons e t ih =>
    obtain ⟨i, v⟩ := e
    simp only [erase]
    split
    · subst_vars; simp [get, ih, Ne.symm h]
    · simp [get, ih]

theorem get_place_other (t : Table α) (v : α) {k j : Nat} (h : j ≠ k) : get d (place t k v) j = get d t j := by
  induction t with
  | nil => simp [place, get, Ne.symm h]
  | cons e t ih =>
    obtain ⟨i, w⟩ := e
    simp only [place]
    split <;> simp [get, ih, Ne.symm h]

theorem get_place_erase (t : Table α) (k : Nat) (v : α) : get d (place (erase t k) k v) k = v := by
  induction t with
  | nil => simp [erase, place, get]
  | cons e t ih =>
    obtain ⟨i, w⟩ := e
    simp only [erase]
    split
    · exact ih
    · next h =>
      simp only [place]
      split
      · simp [get]
      · simp [get, h, ih]

/-- A read of the key just written. -/
@[simp] theorem get_put_same [DecidableEq α] (t : Table α) (k : Nat) (v : α) : get d (put d t k v) k = v := by
  unfold put
  split
  · next h => rw [get_erase_same, h]
  · exact get_place_erase t k v

/-- A read of another key. -/
theorem get_put_other [DecidableEq α] (t : Table α) (v : α) {k j : Nat} (h : j ≠ k) :
    get d (put d t k v) j = get d t j := by
  unfold put
  split
  · exact get_erase_other t h
  · rw [get_place_other _ _ h, get_erase_other t h]

theorem get_put [DecidableEq α] (t : Table α) (v : α) (k j : Nat) :
    get d (put d t k v) j = if j = k then v else get d t j := by
  split
  · next h => subst h; simp
  · next h => exact get_put_other t v h

/-! ### The canonical form -/

theorem rises_mono {a b : Nat} (h : a ≤ b) (t : Table α) (w : rises (some b) t = true) : rises (some a) t = true := by
  cases t with
  | nil => rfl
  | cons e t =>
    obtain ⟨j, v⟩ := e
    simp only [rises, Bool.and_eq_true, decide_eq_true_eq] at w ⊢
    exact ⟨by omega, w.2⟩

theorem rises_none (t : Table α) (o : Option Nat) (w : rises o t = true) : rises none t = true := by
  cases t with
  | nil => rfl
  | cons e t =>
    obtain ⟨j, v⟩ := e
    simp only [rises, Bool.and_eq_true] at w ⊢
    exact ⟨trivial, w.2⟩

theorem rises_erase (t : Table α) (k : Nat) (o : Option Nat) (w : rises o t = true) : rises o (erase t k) = true := by
  induction t generalizing o with
  | nil => rfl
  | cons e t ih =>
    obtain ⟨j, v⟩ := e
    simp only [rises, Bool.and_eq_true] at w
    simp only [erase]
    split
    · have h := ih (some j) w.2
      cases o with
      | none => exact rises_none _ _ h
      | some i => exact rises_mono (by have := of_decide_eq_true w.1; omega) _ h
    · simp only [rises, Bool.and_eq_true]
      exact ⟨w.1, ih _ w.2⟩

theorem rises_place (t : Table α) (k : Nat) (v : α) (o : Option Nat) (w : rises o t = true)
    (hb : ∀ i, o = some i → i < k) (hk : ∀ e ∈ t, e.1 ≠ k) : rises o (place t k v) = true := by
  induction t generalizing o with
  | nil =>
    cases o with
    | none => rfl
    | some i => simp [place, rises, hb i rfl]
  | cons e t ih =>
    obtain ⟨j, x⟩ := e
    simp only [rises, Bool.and_eq_true] at w
    simp only [place]
    split
    · next h =>
      simp only [rises, Bool.and_eq_true, decide_eq_true_eq]
      refine ⟨?_, h, w.2⟩
      cases o with
      | none => rfl
      | some i => exact decide_eq_true (hb i rfl)
    · next h =>
      have hne : j ≠ k := hk (j, x) (by simp)
      simp only [rises, Bool.and_eq_true]
      refine ⟨w.1, ih (some j) w.2 ?_ (fun e he => hk e (by simp [he]))⟩
      rintro i ⟨rfl⟩
      omega

theorem mem_erase {t : Table α} {k : Nat} {e : Nat × α} (h : e ∈ erase t k) : e ∈ t ∧ e.1 ≠ k := by
  induction t with
  | nil => simp [erase] at h
  | cons x t ih =>
    obtain ⟨j, v⟩ := x
    simp only [erase] at h
    split at h
    · have := ih h; exact ⟨by simp [this.1], this.2⟩
    · next hj =>
      rcases List.mem_cons.1 h with rfl | h
      · exact ⟨by simp, hj⟩
      · have := ih h; exact ⟨by simp [this.1], this.2⟩

theorem mem_place {t : Table α} {k : Nat} {v : α} {e : Nat × α} (h : e ∈ place t k v) : e = (k, v) ∨ e ∈ t := by
  induction t with
  | nil => simpa [place] using h
  | cons x t ih =>
    obtain ⟨j, w⟩ := x
    simp only [place] at h
    split at h
    · simpa using h
    · rcases List.mem_cons.1 h with rfl | h
      · simp
      · rcases ih h with h | h <;> simp [h]

/-- A write keeps the canonical form. -/
theorem wf_put [DecidableEq α] (t : Table α) (k : Nat) (v : α) (w : wf d t = true) : wf d (put d t k v) = true := by
  simp only [wf, Bool.and_eq_true, List.all_eq_true, decide_eq_true_eq] at w ⊢
  have hall : ∀ e ∈ erase t k, e.2 ≠ d e.1 := fun e he => w.2 e (mem_erase he).1
  unfold put
  split
  · exact ⟨rises_erase _ _ _ w.1, hall⟩
  · next hv =>
    refine ⟨rises_place _ _ _ _ (rises_erase _ _ _ w.1) (by simp) (fun e he => (mem_erase he).2), ?_⟩
    intro e he
    rcases mem_place he with rfl | he
    · exact hv
    · exact hall e he

theorem rises_filter (p : Nat × α → Bool) (t : Table α) (o : Option Nat) (w : rises o t = true) :
    rises o (t.filter p) = true := by
  induction t generalizing o with
  | nil => rfl
  | cons e t ih =>
    obtain ⟨j, v⟩ := e
    simp only [rises, Bool.and_eq_true] at w
    simp only [List.filter]
    split
    · simp only [rises, Bool.and_eq_true]; exact ⟨w.1, ih _ w.2⟩
    · have h := ih (some j) w.2
      cases o with
      | none => exact rises_none _ _ h
      | some i => exact rises_mono (by have := of_decide_eq_true w.1; omega) _ h

/-- Returning keys to their defaults keeps the canonical form. -/
theorem wf_clear [DecidableEq α] (p : Nat → Bool) (t : Table α) (w : wf d t = true) : wf d (clear p t) = true := by
  simp only [wf, Bool.and_eq_true, List.all_eq_true] at w ⊢
  refine ⟨rises_filter _ _ _ w.1, fun e he => w.2 e ?_⟩
  exact (List.mem_filter.1 he).1

/-- A change of one value keeps the canonical form. -/
theorem wf_modify [DecidableEq α] (t : Table α) (k : Nat) (f : α → α) (w : wf d t = true) :
    wf d (modify d t k f) = true := wf_put t k _ w

end Sys2Proof.Table
end

