-- ==== Sys2Proof/Laws/Run.lean ====
section
/-!
SUPPORT. The frame of a command in a calm state: nothing happens beside the command's own effect.
-/

namespace Sys2Proof.Laws

open Sys2Proof.Machine Sys2Proof.Safety

theorem advance_calm {s : State} (h : Calm s) : Modes.advance s = none := by
  obtain ⟨hp, ⟨h1, h2, h3, h4, h5, h6, h7, h8, h9⟩, hr, -, -, -, -⟩ := h
  unfold Modes.advance
  cases hc : s.modes.cur <;> simp_all [Modes.drains]

theorem advanceAll_calm {s : State} (h : Calm s) (k : Nat) : Modes.advanceAll k s = s := by
  cases k <;> simp [Modes.advanceAll, advance_calm h]

/-- Nothing is due in a calm state. -/
theorem settle_calm {s : State} (h : Calm s) : Modes.settle s = s := by
  have hd : Super.drain s = s := by simp [Super.drain, h.seen, h.tests, h.waiting]
  have hq : Queues.relax s = s := by simp only [Queues.relax, h.pool]; rfl
  simp only [Modes.settle, hd, hq, h.due.2.1]
  exact advanceAll_calm h _

theorem begin_calm {s : State} (h : Calm s) : Modes.begin' s = Ops.begin s := by
  have : Modes.released (Ops.begin s) = false := h.stays
  simp [Modes.begin', this]

/-- A command with effect `f` in a calm state, when the effect leaves a calm state. -/
theorem run_calm {s : State} (h : Calm s) {f : State → State} (hf : Calm (f (Ops.begin s))) :
    Run.run f s = .next (Run.commit s (f (Ops.begin s))) := by
  simp [Run.run, h.powered, Run.effect, begin_calm h, settle_calm hf]

theorem runTime_calm {s : State} (h : Calm s) {f : State → State} (hf : Calm (f (Ops.begin s))) :
    Run.runTime f s = .next (Run.commitTime s (f (Ops.begin s))) := by
  simp [Run.runTime, h.powered, Run.effect, begin_calm h, settle_calm hf]

/-- Time and the queue are kept where the effect kept them. -/
theorem commit_eq {s t : State} (ht : t.time = s.time) (hp : t.pending = s.pending) : Run.commit s t = t := by
  cases t; simp_all [Run.commit]

/-- M1 is left on account of the modes, the supplies and the hold latch alone. -/
theorem released_congr {s t : State} (hm : t.modes = s.modes) (h1 : t.sup.coreReset = s.sup.coreReset)
    (h2 : t.sup.auxReset = s.sup.auxReset) (hr : Ops.reg t 0x1000 8 = Ops.reg s 0x1000 8) :
    Modes.released t = Modes.released s := by
  simp [Modes.released, Ops.modeIn, hm, h1, h2, hr]

/-- A state that differs from a calm one in nothing that can be due is calm. -/
theorem calm_of_eq {s t : State} (h : Calm s) (hm : t.modes = s.modes) (hs : t.sup = s.sup) (he : t.events = s.events)
    (hr : Ops.reg t 0x1000 8 = Ops.reg s 0x1000 8) : Calm t :=
  ⟨hm ▸ h.powered, hm ▸ h.due, (released_congr hm (by rw [hs]) (by rw [hs]) hr).trans h.stays, hs ▸ h.seen, hs ▸ h.tests,
    hs ▸ h.waiting, he ▸ h.pool⟩

/-- The same, where the stored subs are untouched. -/
theorem calm_of_regs {s t : State} (h : Calm s) (hm : t.modes = s.modes) (hs : t.sup = s.sup) (he : t.events = s.events)
    (hr : t.regs = s.regs) : Calm t := calm_of_eq h hm hs he (by simp [Ops.reg, hr])

theorem calm_begin {s : State} (h : Calm s) : Calm (Ops.begin s) := calm_of_regs h rfl rfl rfl rfl

/-! ### Stored subs -/

@[simp] theorem reg_setReg_same (i k v : Nat) (s : State) : Ops.reg (Ops.setReg i k v s) i k = v := by
  simp [Ops.reg, Ops.setReg]

theorem reg_setReg_other {i k j l : Nat} (h : 256 * j + l ≠ 256 * i + k) (v : Nat) (s : State) :
    Ops.reg (Ops.setReg i k v s) j l = Ops.reg s j l := Table.get_put_other _ _ h

/-- Storing a sub other than the hold latch keeps a state calm. -/
theorem calm_setReg {s : State} (h : Calm s) {i k : Nat} (hk : 256 * 0x1000 + 8 ≠ 256 * i + k) (v : Nat) :
    Calm (Ops.setReg i k v s) := calm_of_eq h rfl rfl rfl (reg_setReg_other hk v s)

theorem calm_bump {s : State} (h : Calm s) {i k : Nat} (hk : 256 * 0x1000 + 8 ≠ 256 * i + k) : Calm (Ops.bump i k s) :=
  calm_setReg h hk _

/-! ### Awake states -/

theorem begin_awake {s : State} (h : Awake s) : Modes.begin' s = Ops.begin s := by
  have : Modes.released (Ops.begin s) = false := h.stays
  simp [Modes.begin', this]

/-- A command with effect `f` in an awake state. -/
theorem run_awake {s : State} (h : Awake s) (f : State → State) :
    Run.run f s = .next (after s (f (Ops.begin s))) := by
  simp [Run.run, h.powered, Run.effect, begin_awake h, after]

theorem runTime_awake {s : State} (h : Awake s) (f : State → State) :
    Run.runTime f s = .next (afterTime s (f (Ops.begin s))) := by
  simp [Run.runTime, h.powered, Run.effect, begin_awake h, afterTime]

theorem runSupply_awake {s : State} (h : Awake s) (f : State → State) :
    Run.runSupply f s = .next (afterTime s (f (Ops.begin s))) := by
  simp [Run.runSupply, h.powered, Run.effect, begin_awake h, afterTime]

end Sys2Proof.Laws
end

