-- ==== Sys2Proof/Laws/Engines.lean ====
section
/-!
SUPPORT. The shape of a Prism instruction that has its own effect.
-/

namespace Sys2Proof.Laws

open Sys2Proof.Machine Sys2Proof.Safety

/-- An engine at a legal word of the instruction's own OP, with its sources there, runs the instruction's body. -/
theorem issue_body {o : Nat} {s : State} {n : Fin 128} {w : W32} (h : Issues o s n w)
    (body : Engine → W32 → State → State) :
    Engines.issue o n body (Ops.begin s) = body (Engines.engine s n) w (Ops.begin s) := by
  have hr : Engines.running (Ops.begin s) n = true := by
    simp [Engines.running, Ops.modeIn, h.m5]; exact h.state
  have he : Engines.engine (Ops.begin s) n = Engines.engine s n := rfl
  have hi : Engines.imem (Ops.begin s) n ((Engines.engine s n).pc.toNat / 4) = w := h.word
  have hq : ((Engines.sources w).any fun g => Engines.pends (Engines.engine s n) g) = false := by
    simp only [List.any_eq_false]; intro g hg; simp [h.ready g hg]
  have hp := h.pc
  simp [Engines.issue, hr, he, hi, h.legal, h.op, hq]
  intro hh; omega

/-- Such an instruction whose body leaves a calm state. -/
theorem run_issue {o : Nat} {s : State} {n : Fin 128} {w : W32} (h : Issues o s n w)
    {body : Engine → W32 → State → State} {t : State} (hb : body (Engines.engine s n) w (Ops.begin s) = t) (hc : Calm t)
    (ht : t.time = s.time) (hp : t.pending = s.pending) : Run.run (Engines.issue o n body) s = .next t := by
  have he := (issue_body h body).trans hb
  rw [run_calm h.toCalm (by rw [he]; exact hc), he, commit_eq ht hp]

/-- One whose body retires it with the registers of `e` at `pc`. -/
theorem run_retire {o : Nat} {s : State} {n : Fin 128} {w : W32} (h : Issues o s n w)
    {body : Engine → W32 → State → State} {e : Engine} {pc : W32}
    (hb : body (Engines.engine s n) w (Ops.begin s) = Engines.retire n pc e (Ops.begin s)) :
    Run.run (Engines.issue o n body) s = .next (retired s n e pc) :=
  run_issue h hb (calm_of_regs h.toCalm rfl rfl rfl rfl) rfl rfl

end Sys2Proof.Laws
end

