-- ==== Sys2Proof/Laws/Memory.lean ====
section
/-!
SUPPORT. Every operation that writes a memory keeps the canonical form of all of them.
-/

namespace Sys2Proof.Safety

open Sys2Proof.Machine

variable {s : State}

theorem Memory.wf_iff : Memory.wf s = true ↔
    Table.wf (fun _ => 0) s.bankMem = true ∧ Table.wf (fun _ => 0) s.bankSpare = true ∧ Table.wf (fun _ => 0) s.ringMem = true ∧
      Table.wf (fun _ => 0) s.entries = true ∧ Table.wf (fun _ => 0) s.fab.frames = true ∧
        Table.wf (fun _ => 0) s.fab.incoming = true ∧ Table.wf (fun _ => 0) s.eng.imem = true ∧
          Table.wf (fun _ => 0) s.eng.dmem = true := by
  simp only [Memory.wf, Bool.and_eq_true, and_assoc]

theorem Memory.wf_reset : Memory.wf State.reset = true := by decide

/-- A table that is kept, or is canonical. -/
abbrev Memory.Keeps {α : Type} [DecidableEq α] (d : Nat → α) (t u : Table α) : Prop := u = t ∨ Table.wf d u = true

/-- The memory after an operation is canonical when each table is one of those before it, or a canonical one. -/
theorem Memory.wf_of {t : State} (h : Memory.wf s = true)
    (bank : Keeps (fun _ => 0) s.bankMem t.bankMem := by exact .inl rfl)
    (spare : Keeps (fun _ => 0) s.bankSpare t.bankSpare := by exact .inl rfl)
    (ring : Keeps (fun _ => 0) s.ringMem t.ringMem := by exact .inl rfl)
    (entry : Keeps (fun _ => 0) s.entries t.entries := by exact .inl rfl)
    (frame : Keeps (fun _ => 0) s.fab.frames t.fab.frames := by exact .inl rfl)
    (incoming : Keeps (fun _ => 0) s.fab.incoming t.fab.incoming := by exact .inl rfl)
    (imem : Keeps (fun _ => 0) s.eng.imem t.eng.imem := by exact .inl rfl)
    (dmem : Keeps (fun _ => 0) s.eng.dmem t.eng.dmem := by exact .inl rfl) : Memory.wf t = true := by
  rw [Memory.wf_iff] at h ⊢
  obtain ⟨h1, h2, h3, h4, h5, h6, h7, h8⟩ := h
  exact ⟨bank.elim (· ▸ h1) id, spare.elim (· ▸ h2) id, ring.elim (· ▸ h3) id, entry.elim (· ▸ h4) id,
    frame.elim (· ▸ h5) id, incoming.elim (· ▸ h6) id, imem.elim (· ▸ h7) id, dmem.elim (· ▸ h8) id⟩

/-! ### The operations -/

theorem Memory.wf_setWord (n w : Nat) (v : BitVec 72) (h : Memory.wf s = true) : Memory.wf (Ops.setWord n w v s) = true :=
  have c := Memory.wf_iff.1 h
  Memory.wf_of h (bank := .inr (Table.wf_put _ _ _ c.1)) (spare := .inr (Table.wf_put _ _ _ c.2.1))

/-- Words are lost, or read 0 from now on: a bank that comes up (R188), a retirement (R187), a full reload (R41). -/
theorem Memory.wf_clearWords (p : Nat → Bool) (h : Memory.wf s = true) : Memory.wf (Ops.clearWords p s) = true :=
  have c := Memory.wf_iff.1 h
  Memory.wf_of h (bank := .inr (Table.wf_clear p _ c.1)) (spare := .inr (Table.wf_clear p _ c.2.1))

theorem Memory.wf_lose (n : Nat) (h : Memory.wf s = true) : Memory.wf (Banks.lose n s) = true :=
  Memory.wf_clearWords _ (Memory.wf_of h)

theorem Memory.wf_putEntries (g : Nat) (b : Bool) (l : List W64) (i : Nat) (h : Memory.wf s = true) :
    Memory.wf (Time.putEntries g b i l s) = true := by
  induction l generalizing i s with
  | nil => exact h
  | cons e l ih =>
    exact ih (i + 1) (Memory.wf_of h (entry := .inr (Table.wf_put _ _ _ (Memory.wf_iff.1 h).2.2.2.1)))

theorem Memory.wf_ringEntry (k : Nat) (d : W64) (h : Memory.wf s = true) :
    Memory.wf { s with ringMem := Table.put (fun _ => 0) s.ringMem k d } = true :=
  Memory.wf_of h (ring := .inr (Table.wf_put _ _ _ (Memory.wf_iff.1 h).2.2.1))

/-- What the configuration frames route takes effect (R116). -/
theorem Memory.wf_reroute (f : Frames.FrameMap) (w : Table.wf (fun _ => 0) f = true) (h : Memory.wf s = true) :
    Memory.wf (Fabric.reroute f s) = true := Memory.wf_of h (frame := .inr w)

theorem Memory.wf_defaultFrames (r : Nat) (h : Memory.wf s = true) : Memory.wf (Loader.defaultFrames r s) = true :=
  have c := (Memory.wf_iff.1 h).2.2.2.2
  Memory.wf_of h (frame := .inr (Table.wf_clear _ _ c.1)) (incoming := .inr (Table.wf_clear _ _ c.2.1))

/-- The frames of a partial load take effect (R301 step 4). -/
theorem Memory.wf_takeEffect (r : Nat) (h : Memory.wf s = true) : Memory.wf (Loader.takeEffect r s) = true := by
  have puts (l f : Table (BitVec 4096)) (w : Table.wf (fun _ => 0) f = true) :
      Table.wf (fun _ => 0) (l.foldl (fun f e => Table.put (fun _ => 0) f e.1 e.2) f) = true := by
    induction l generalizing f with
    | nil => exact w
    | cons e l ih => exact ih _ (Table.wf_put _ _ _ w)
  exact Memory.wf_of h (frame := .inr (puts _ _ (Table.wf_clear _ _ (Memory.wf_iff.1 h).2.2.2.2.1))) (incoming := .inr rfl)

theorem wf_clearFields (r col minor : Nat) (l : List (Nat × Nat)) (f : Frames.FrameMap) (h : Table.wf (fun _ => 0) f = true) :
    Table.wf (fun _ => 0) (Frames.clearFields f r col minor l) = true := by
  induction l generalizing f with
  | nil => exact h
  | cons e l ih =>
    refine ih _ ?_
    dsimp only
    split
    · exact Table.wf_modify _ _ _ h
    · split
      · exact Table.wf_modify _ _ _ h
      · exact Table.wf_modify _ _ _ (Table.wf_modify _ _ _ h)

theorem Memory.wf_writeFabric (onlyFacet : Bool) (a : Nat) (v : BitVec 4096) (crc : W32) (h : Memory.wf s = true) :
    Memory.wf (Loader.writeFabric onlyFacet a v crc s) = true := by
  have c := Memory.wf_iff.1 h
  cases onlyFacet
  · exact Memory.wf_of h (frame := .inr (wf_clearFields _ _ _ _ _ (Table.wf_put _ _ _ c.2.2.2.2.1)))
  · exact Memory.wf_of h (incoming := .inr (wf_clearFields _ _ _ _ _ (Table.wf_put _ _ _ c.2.2.2.2.2.1)))

theorem Memory.wf_setDmem (n a : Nat) (b : Byte) (h : Memory.wf s = true) : Memory.wf (Engines.setDmem n a b s) = true :=
  Memory.wf_of h (dmem := .inr (Table.wf_put _ _ _ (Memory.wf_iff.1 h).2.2.2.2.2.2.2))

theorem Memory.wf_clearPads (n : Nat) (h : Memory.wf s = true) : Memory.wf (Engines.clearPads n s) = true :=
  have c := (Memory.wf_iff.1 h).2.2.2.2.2.2
  Memory.wf_of h (imem := .inr (Table.wf_clear (fun k => k / 8192 == n) _ c.1))
    (dmem := .inr (Table.wf_clear (fun k => k / 65536 == n) _ c.2))

theorem wf_putCode (n fuel w : Nat) (d : List Byte) (t : Table W32) (h : Table.wf (fun _ => 0) t = true) :
    Table.wf (fun _ => 0) (Engines.putCode n fuel w d t) = true := by
  induction fuel generalizing w d t with
  | zero => exact h
  | succ k ih => exact ih _ _ _ (Table.wf_put _ _ _ h)

theorem wf_putBytes (n a : Nat) (d : List Byte) (t : Table Byte) (h : Table.wf (fun _ => 0) t = true) :
    Table.wf (fun _ => 0) (Engines.putBytes n a d t) = true := by
  induction d generalizing a t with
  | nil => exact h
  | cons b d ih => exact ih _ _ (Table.wf_put _ _ _ h)

theorem Memory.wf_load1 (n : Nat) (h : Memory.wf s = true) : Memory.wf (Engines.load1 n s) = true :=
  have c := (Memory.wf_iff.1 (Memory.wf_clearPads n h)).2.2.2.2.2.2
  Memory.wf_of h (imem := .inr (wf_putCode _ _ _ _ _ c.1)) (dmem := .inr (wf_putBytes _ _ _ _ c.2))

end Sys2Proof.Safety
end

