-- ==== Sys2Proof/Laws/Raise.lean ====
section
/-!
SUPPORT. What raising a source can change: the event block, what the block sends, the banks that an engine's event word lies in
with what they count, the CAN ports' notices, the supervisor's observations, and a wake that is due.
-/

namespace Sys2Proof.Laws

open Sys2Proof.Machine Sys2Proof.Safety

/-- An object that no delivery writes. -/
def Far (i : Nat) : Prop :=
  i ≠ 0x1101 ∧ i ≠ 0x1102 ∧ i ≠ 0x4000 ∧ i ≠ 0xA000 ∧ i ≠ 0xA040 ∧ i ≠ 0xB000 ∧ (i < 0x4800 ∨ 0x5000 ≤ i)

/-- `s` with what a delivery can change taken from `t`. -/
def spare (s t : State) : State :=
  { s with
    events := t.events, regs := t.regs, out := t.out, banks := t.banks, bankMem := t.bankMem, bankSpare := t.bankSpare
    can0 := t.can0, can1 := t.can1
    sup := { s.sup with observed := t.sup.observed, tests := t.sup.tests }
    modes := { s.modes with wakeDue := t.modes.wakeDue }
    host := { s.host with link := t.host.link } }

/-- `t` is `s` but for what a delivery can change. -/
def Spares (s t : State) : Prop := t = spare s t ∧ ∀ i k, Far i → k < 256 → Ops.reg t i k = Ops.reg s i k

namespace Spares

theorem refl (s : State) : Spares s s := ⟨rfl, fun _ _ _ _ => rfl⟩

theorem trans {s t u : State} (h : Spares s t) (g : Spares t u) : Spares s u :=
  have e : spare t u = spare (spare s t) u := congrArg (spare · u) h.1
  ⟨g.1.trans e, fun i k a b => (g.2 i k a b).trans (h.2 i k a b)⟩

/-- A step that is taken or not. -/
theorem cond {c : Prop} [Decidable c] {s t u : State} (h : Spares s t) (g : Spares t u) : Spares s (if c then u else t) := by
  split
  · exact h.trans g
  · exact h

theorem either {c : Prop} [Decidable c] {s t u : State} (h : Spares s t) (g : Spares s u) : Spares s (if c then t else u) := by
  split
  · exact h
  · exact g

/-- A change that leaves the stored subs alone. -/
theorem same {s t : State} (h : t = spare s t) (r : t.regs = s.regs) : Spares s t :=
  ⟨h, fun i k _ _ => by unfold Ops.reg; rw [r]⟩

theorem setReg {i k : Nat} (hi : ¬ Far i) (hk : k < 256) (v : Nat) (s : State) : Spares s (Ops.setReg i k v s) :=
  ⟨rfl, fun j l hj hl =>
    reg_setReg_other (fun e => hi (by have : j = i := by omega
                                      exact this ▸ hj)) v s⟩

theorem bump {i k : Nat} (hi : ¬ Far i) (hk : k < 256) (s : State) : Spares s (Ops.bump i k s) := setReg hi hk _ s

theorem setBank (n : Nat) (b : Bank) (s : State) : Spares s (Ops.setBank n b s) := same rfl rfl

theorem setPower (n : Nat) (p : Power) (s : State) : Spares s (Ops.setPower n p s) := setBank _ _ s

theorem setWord (n w : Nat) (v : BitVec 72) (s : State) : Spares s (Ops.setWord n w v s) :=
  same rfl rfl

theorem observe (c : Nat) (s : State) : Spares s (Ops.observe c s) := same rfl rfl

theorem emit (o : Output) (s : State) : Spares s (Ops.emit o s) := same rfl rfl

theorem events (e : EventState) (s : State) : Spares s { s with events := e } := same rfl rfl

theorem setCan (p : Nat) (c : CanPort) (s : State) : Spares s (Ops.setCan p c s) := by
  unfold Ops.setCan
  split
  · exact same rfl rfl
  · exact same rfl rfl

variable {again : Nat → State → State} (ha : ∀ n s, Spares s (again n s))
include ha

theorem level (n : Nat) (b : Bool) (s : State) : Spares s (Ops.level again n b s) := by
  unfold Ops.level
  split
  · split
    · exact refl s
    · exact ha n s
  · exact events _ s

theorem bankCause {n : Nat} (hn : n < 2048) (c : Nat) (s : State) : Spares s (Ops.bankCause again n c s) :=
  (setReg (by unfold Far; omega) (by omega) _ s).trans (level ha _ _ _)

theorem brokenBy {g : Nat} (hg : g < 256) (p c u : Nat) (s : State) : Spares s (Ops.brokenBy again g p c u s) :=
  ((bump (by unfold Far; omega) hg s).trans (setReg (by unfold Far; omega) (by omega) _ _)).trans (ha _ _)

theorem claim (n : Nat) (s : State) : Spares s (Ops.claim again n s) := by
  have ht : ∀ (l : List TestRun) (s : State), Spares s { s with sup := { s.sup with tests := l } } := fun _ s =>
    same rfl rfl
  exact either ((((setBank _ _ s).trans (ht _ _)).trans (bump (by unfold Far; omega) (by omega) _)).trans
    (brokenBy ha (by omega) _ _ _ _)) (refl s)

theorem noteAccess {n : Nat} (hn : n < 2048) (w : Nat) (v : BitVec 72) (a : Flags.Access) (s : State) :
    Spares s (Ops.noteAccess again n w v a s) := by
  have hf : ¬ Far (0x4800 + n) := by unfold Far; omega
  have h4 : ¬ Far 0x4000 := by unfold Far; omega
  have h1 : ∀ s : State, Spares s (Ops.bankCause again n 1 (Ops.setReg (0x4800 + n) 6 w
      (Ops.bump 0x4000 1 (Ops.bump (0x4800 + n) 4 s)))) := fun s =>
    (((bump hf (by omega) s).trans (bump h4 (by omega) _)).trans (setReg hf (by omega) _ _)).trans (bankCause ha hn _ _)
  have h2 : ∀ s : State, Spares s (Ops.bankCause again n 0 (Ops.setReg (0x4800 + n) 6 (0x8000 + w)
      (Ops.bump 0x4000 2 (Ops.bump (0x4800 + n) 5 s)))) := fun s =>
    (((bump hf (by omega) s).trans (bump h4 (by omega) _)).trans (setReg hf (by omega) _ _)).trans (bankCause ha hn _ _)
  exact cond (cond (either (observe _ s) (either (observe _ s) (refl s))) (h1 _)) (h2 _)

theorem bankAccess {n : Nat} (hn : n < 2048) (q : BankReq) (f : BitVec 72) (s : State) :
    Spares s (Ops.bankAccess again n q f s).1 := by
  have h := noteAccess ha hn q.addr.toNat (Ops.word s n q.addr.toNat ^^^ f)
    (Flags.access q.op q.data (Ops.word s n q.addr.toNat ^^^ f))
    (Ops.setWord n q.addr.toNat (Flags.access q.op q.data (Ops.word s n q.addr.toNat ^^^ f)).word s)
  exact (setWord n q.addr.toNat _ s).trans h

omit ha in
theorem wakeBank (n : Nat) (m : Bool) (s : State) : Spares s (Ops.wakeBank n m s) := by
  unfold Ops.wakeBank
  repeat' split
  all_goals first | exact refl s | exact setPower _ _ s

omit ha in
theorem hold (n : Nat) (m : MaintReq) (s : State) : Spares s (Ops.hold n m s) :=
  (setBank n _ s).trans (wakeBank n true _)

theorem toL0 (s : State) : Spares s (Ops.toL0 again s) :=
  either (((same rfl rfl : Spares s { s with host := { s.host with link := s.host.link &&& 0x11FF } }).trans (ha _ _)).trans
    (ha _ _)) (refl s)

theorem deliverMsix (v : Nat) (s : State) : Spares s (Ops.deliverMsix again v s) :=
  either (bump (by unfold Far; omega) (by omega) s) (either (events _ s) ((toL0 ha s).trans (emit _ _)))

theorem deliverEngine (e b : Nat) (s : State) : Spares s (Ops.deliverEngine again e b s) := by
  have h7 : ∀ s, Spares s (Ops.bump 0xB000 7 s) := fun s => bump (by unfold Far; omega) (by omega) s
  have hn : Ops.reg s 0xB001 (1 + e) / 8192 % 2048 < 2048 := by omega
  have hc := claim ha (Ops.reg s 0xB001 (1 + e) / 8192 % 2048) s
  exact either (h7 s) (either (either (hc.trans ((bankAccess ha hn _ _ _).trans (h7 _))) (hc.trans (bankAccess ha hn _ _ _)))
    (hc.trans (hold _ _ _)))

theorem queueNotice (n : Nat) {p : Nat} (hp : p < 2) (s : State) : Spares s (Ops.queueNotice again n p s) := by
  unfold Ops.queueNotice
  simp only
  split
  · exact refl s
  · split
    · exact setCan _ _ s
    · exact (bump (by unfold Far; omega) (by omega) s).trans (ha _ _)

theorem deliver (n : Nat) (s : State) : Spares s (Ops.deliver again n s) := by
  have h1 : Spares s (Ops.bump 0xB000 5
      { s with events := { s.events with status := s.events.status ||| BitVec.twoPow 640 n } }) :=
    (events _ s).trans (bump (by unfold Far; omega) (by omega) _)
  have hw : ∀ s : State, Spares s { s with modes := { s.modes with wakeDue := true } } := fun s =>
    same rfl rfl
  exact cond (cond (cond (cond h1 (deliverMsix ha _ _)) (deliverEngine ha _ _ _))
    ((queueNotice ha n (by omega) _).trans (queueNotice ha n (by omega) _))) (hw _)

end Spares

theorem spares_raiseTurns (k n : Nat) (s : State) : Spares s (Ops.raiseTurns k n s) := by
  induction k generalizing n s with
  | zero => exact Spares.refl s
  | succ k ih =>
    exact Spares.cond (Spares.events _ s) (Spares.deliver ih _ _)

/-- Raising a source. -/
theorem spares_raise (n : Nat) (s : State) : Spares s (Ops.raise n s) := spares_raiseTurns 640 n s

theorem spares_track (n : Nat) (b : Bool) (s : State) : Spares s (Ops.track n b s) := Spares.level spares_raise n b s

@[simp] theorem raise_frame (n : Nat) (s : State) :
    (Ops.raise n s).mailbox = s.mailbox ∧ (Ops.raise n s).time = s.time ∧ (Ops.raise n s).servo = s.servo ∧
    (Ops.raise n s).keepers = s.keepers ∧ (Ops.raise n s).gates = s.gates ∧ (Ops.raise n s).entries = s.entries ∧
    (Ops.raise n s).pool = s.pool ∧ (Ops.raise n s).queues = s.queues ∧ (Ops.raise n s).qports = s.qports ∧
    (Ops.raise n s).rings = s.rings ∧ (Ops.raise n s).ringMem = s.ringMem ∧ (Ops.raise n s).eng = s.eng ∧
    (Ops.raise n s).ports = s.ports ∧ (Ops.raise n s).fab = s.fab ∧ (Ops.raise n s).laneOut = s.laneOut ∧
    (Ops.raise n s).pinIn = s.pinIn ∧ (Ops.raise n s).pins = s.pins ∧ (Ops.raise n s).pinBase = s.pinBase ∧
    (Ops.raise n s).vio = s.vio ∧ (Ops.raise n s).tap = s.tap ∧ (Ops.raise n s).loader = s.loader ∧ (Ops.raise n s).facets = s.facets ∧
    (Ops.raise n s).facetBase = s.facetBase ∧ (Ops.raise n s).scrub = s.scrub ∧ (Ops.raise n s).sec = s.sec ∧
    (Ops.raise n s).nv = s.nv ∧ (Ops.raise n s).domains = s.domains ∧ (Ops.raise n s).bridges = s.bridges ∧
    (Ops.raise n s).lanes = s.lanes ∧ (Ops.raise n s).bonds = s.bonds ∧ (Ops.raise n s).ethPorts = s.ethPorts ∧
    (Ops.raise n s).host.fns = s.host.fns ∧ (Ops.raise n s).host.msix = s.host.msix ∧
    (Ops.raise n s).host.ended = s.host.ended ∧ (Ops.raise n s).host.short = s.host.short ∧
    (Ops.raise n s).host.lastStart = s.host.lastStart ∧ (Ops.raise n s).host.chans = s.host.chans ∧
    (Ops.raise n s).host.tags = s.host.tags ∧ (Ops.raise n s).host.orphans = s.host.orphans ∧
    (Ops.raise n s).host.owners = s.host.owners ∧ (Ops.raise n s).host.reset = s.host.reset ∧ (Ops.raise n s).fresh = s.fresh ∧ (Ops.raise n s).pending = s.pending ∧
    (Ops.raise n s).ctxMailbox = s.ctxMailbox ∧ (Ops.raise n s).ctxCan0 = s.ctxCan0 ∧
    (Ops.raise n s).ctxCan1 = s.ctxCan1 ∧ (Ops.raise n s).bankBase = s.bankBase ∧
    (Ops.raise n s).modes.cur = s.modes.cur := by
  rw [(spares_raise n s).1]
  simp [spare]

/-- The stored subs that no delivery writes. -/
theorem reg_raise (n : Nat) (s : State) {i k : Nat} (hi : Far i) (hk : k < 256) :
    Ops.reg (Ops.raise n s) i k = Ops.reg s i k := (spares_raise n s).2 i k hi hk

/-- A source that is not enabled, or whose STATUS is 1, is raised without a delivery. -/
theorem raise_quiet {n : Nat} {s : State} (h : Ops.bit (Ops.control s n) 31 = false ∨ s.events.status.getLsbD n = true) :
    Ops.raise n s = rawSet n s := by
  show Ops.raiseTurns (639 + 1) n s = _
  unfold Ops.raiseTurns
  simp only
  rw [if_neg]
  · rfl
  · show ¬ (Ops.bit (Ops.control s n) 31 && !s.events.status.getLsbD n) = true
    rcases h with h | h <;> simp [h]

end Sys2Proof.Laws
end

