-- ==== Sys2Proof/Laws/Serve.lean ====
section
/-!
SUPPORT. What a request to the dictionary comes to, once it is served: one statement for a write that succeeds, for one that the
owning chapter refuses, for a sealed one, and for a read.
-/

namespace Sys2Proof.Laws

open Sys2Proof.Machine Sys2Proof.Safety

/-- A served request is executed, and its outcome answered. -/
theorem serve_answers {s : State} {t : Transport} {op i k : Nat} {d : List Byte} (h : Served s t op i k d) {err : Nat}
    {data : List Byte} {x : State} (he : Dict.execute t op i k d (counted s) = (some (err, data), x)) :
    Dict.serve t op i k d (Ops.begin s) = answered s t op i k d err data x := by
  have hq : Transports.captured (Ops.begin s) t (Transports.names op i k d) =
      Transports.captured s t (Transports.names op i k d) := by cases t <;> rfl
  have hl : Transports.live (Ops.begin s) t = Transports.live s t := by cases t <;> rfl
  have hn : ((Transports.captured s t (Transports.names op i k d)).isNone && !Transports.live s t) = false := by
    rcases h with h | h
    · simp [h]
    · simp [Option.isSome_iff_exists] at h; obtain ⟨a, h⟩ := h; simp [h]
  have hb : Ops.bump 0x1100 3 (Ops.begin s) = counted s := rfl
  simp only [Dict.serve, hq, hl, hn, hb, he]
  rfl

/-- One whose reply waits (R411, R491). -/
theorem serve_waits {s : State} {t : Transport} {op i k : Nat} {d : List Byte} (h : Served s t op i k d) {x : State}
    (he : Dict.execute t op i k d (counted s) = (none, x)) : Dict.serve t op i k d (Ops.begin s) = x := by
  have hq : Transports.captured (Ops.begin s) t (Transports.names op i k d) =
      Transports.captured s t (Transports.names op i k d) := by cases t <;> rfl
  have hl : Transports.live (Ops.begin s) t = Transports.live s t := by cases t <;> rfl
  have hn : ((Transports.captured s t (Transports.names op i k d)).isNone && !Transports.live s t) = false := by
    rcases h with h | h
    · simp [h]
    · simp [Option.isSome_iff_exists] at h; obtain ⟨a, h⟩ := h; simp [h]
  have hb : Ops.bump 0x1100 3 (Ops.begin s) = counted s := rfl
  simp only [Dict.serve, hq, hl, hn, hb, he]
  rfl

/-- What a write comes to whose checks pass (R410). -/
theorem write_accepted {s : State} {t : Transport} {i k : Nat} {d : List Byte} (h : Accepts s i k d = true) (hi : i < 0xF000)
    (hc : i ≠ 0xC040) {x : State} (he : Dict.chapterWrite t i k d s = some (.inr x)) :
    Dict.write t i k d s = (some (0, []), x) := by
  unfold Accepts at h
  unfold Dict.write
  split at h
  · simp at h
  · next r hr =>
    simp only [Bool.and_eq_true, Bool.not_eq_true', bne_iff_ne] at h
    obtain ⟨⟨⟨⟨⟨⟨h1, h2⟩, h3⟩, h4⟩, h5⟩, h6⟩, h7⟩ := h
    have e : Dict.effect t r i k d s = .inr x := by
      unfold Dict.effect
      rw [if_neg, if_neg, he]
      · rintro ⟨a, b⟩; simp [a, b] at h7
      · rintro ⟨a, b⟩; simp [a, b] at h6
    simp only [hr, h1, h2, h3, h4, h5, hc, e]
    simp
    omega

/-- What a write comes to that only stores (R410). -/
theorem write_stores {s : State} {t : Transport} {i k : Nat} {d : List Byte} (h : Accepts s i k d = true) (hi : i < 0xF000)
    (hc : i ≠ 0xC040) {r : Row} (hr : Dict.row s i k = some r) (he : Dict.chapterWrite t i k d s = none) :
    Dict.write t i k d s = (some (0, []), Ops.setReg i k (Ops.le d &&& r.bits) s) := by
  unfold Accepts at h
  unfold Dict.write
  rw [hr] at h ⊢
  simp only [Bool.and_eq_true, Bool.not_eq_true', bne_iff_ne] at h
  obtain ⟨⟨⟨⟨⟨⟨h1, h2⟩, h3⟩, h4⟩, h5⟩, h6⟩, h7⟩ := h
  have e : Dict.effect t r i k d s = .inr (Ops.setReg i k (Ops.le d &&& r.bits) s) := by
    unfold Dict.effect
    rw [if_neg, if_neg, he]
    · rintro ⟨a, b⟩; simp [a, b] at h7
    · rintro ⟨a, b⟩; simp [a, b] at h6
  simp only [h1, h2, h3, h4, h5, hc, e]
  simp
  omega

/-- What a write comes to that the owning chapter refuses. -/
theorem write_refused {s : State} {t : Transport} {i k : Nat} {d : List Byte} (h : Accepts s i k d = true) (hi : i < 0xF000)
    (hc : i ≠ 0xC040) {e : Nat} (he : Dict.chapterWrite t i k d s = some (.inl e)) :
    Dict.write t i k d s = (some (e, []), s) := by
  unfold Accepts at h
  unfold Dict.write
  split at h
  · simp at h
  · next r hr =>
    simp only [Bool.and_eq_true, Bool.not_eq_true', bne_iff_ne] at h
    obtain ⟨⟨⟨⟨⟨⟨h1, h2⟩, h3⟩, h4⟩, h5⟩, h6⟩, h7⟩ := h
    have e : Dict.effect t r i k d s = .inl e := by
      unfold Dict.effect
      rw [if_neg, if_neg, he]
      · rintro ⟨a, b⟩; simp [a, b] at h7
      · rintro ⟨a, b⟩; simp [a, b] at h6
    simp only [hr, h1, h2, h3, h4, h5, hc, e]
    simp
    omega

/-- A WRITE whose effect is `x`. -/
theorem run_write {s : State} {t : Transport} {i k : Nat} {d : List Byte} (h : Writes s t i k d) (hi : i < 0xF000)
    (hc : i ≠ 0xC040) {x : State} (he : Dict.chapterWrite t i k d (counted s) = some (.inr x)) :
    Run.run (Dict.serve t 2 i k d) s = .next (wrote s t i k d x) := by
  rw [run_awake h.toAwake, serve_answers h.served]
  · rfl
  · simp [Dict.execute, write_accepted h.accepted hi hc he]

/-- The same for a command that can step Lydan time. -/
theorem runTime_write {s : State} {t : Transport} {i k : Nat} {d : List Byte} (h : Writes s t i k d) (hi : i < 0xF000)
    (hc : i ≠ 0xC040) {x : State} (he : Dict.chapterWrite t i k d (counted s) = some (.inr x)) :
    Run.runTime (Dict.serve t 2 i k d) s = .next (wroteTime s t i k d x) := by
  rw [runTime_awake h.toAwake, serve_answers h.served]
  · rfl
  · simp [Dict.execute, write_accepted h.accepted hi hc he]

/-- A WRITE that only stores. -/
theorem run_store {s : State} {t : Transport} {i k : Nat} {d : List Byte} (h : Writes s t i k d) (hi : i < 0xF000)
    (hc : i ≠ 0xC040) {r : Row} (hr : Dict.row (counted s) i k = some r)
    (he : Dict.chapterWrite t i k d (counted s) = none) :
    Run.run (Dict.serve t 2 i k d) s = .next (wrote s t i k d (Ops.setReg i k (Ops.le d &&& r.bits) (counted s))) := by
  rw [run_awake h.toAwake, serve_answers h.served]
  · rfl
  · simp [Dict.execute, write_stores h.accepted hi hc hr he]

theorem runTime_store {s : State} {t : Transport} {i k : Nat} {d : List Byte} (h : Writes s t i k d) (hi : i < 0xF000)
    (hc : i ≠ 0xC040) {r : Row} (hr : Dict.row (counted s) i k = some r)
    (he : Dict.chapterWrite t i k d (counted s) = none) :
    Run.runTime (Dict.serve t 2 i k d) s =
      .next (wroteTime s t i k d (Ops.setReg i k (Ops.le d &&& r.bits) (counted s))) := by
  rw [runTime_awake h.toAwake, serve_answers h.served]
  · rfl
  · simp [Dict.execute, write_stores h.accepted hi hc hr he]

/-- A WRITE that the owning chapter refuses. -/
theorem run_refused {s : State} {t : Transport} {i k : Nat} {d : List Byte} (h : Writes s t i k d) (hi : i < 0xF000)
    (hc : i ≠ 0xC040) {e : Nat} (he : Dict.chapterWrite t i k d (counted s) = some (.inl e)) :
    Run.run (Dict.serve t 2 i k d) s = .next (after s (answered s t 2 i k d e [] (counted s))) := by
  rw [run_awake h.toAwake, serve_answers h.served]
  simp [Dict.execute, write_refused h.accepted hi hc he]

/-- A READ. -/
theorem run_read {s : State} {t : Transport} {i k : Nat} {r : Row} (h : Reads s t i k r) {data : List Byte} {x : State}
    (he : Dict.read t i k (counted s) = (.inr data, x)) :
    Run.run (Dict.serve t 1 i k []) s = .next (readOut s t i k data x) := by
  rw [run_awake h.toAwake, serve_answers h.served]
  · rfl
  · simp [Dict.execute, he]

end Sys2Proof.Laws
end

