-- ==== Sys2Proof/Laws/Sealed.lean ====
section
/-!
SUPPORT. The fields of a sealed command, and what one comes to whose checks pass (R425, R426).
-/

namespace Sys2Proof.Laws

open Sys2Proof.Machine Sys2Proof.Safety

/-- A field that starts behind `a`. -/
theorem field_skip (a b : List Byte) (off n : Nat) (h : a.length ≤ off) :
    Dict.field (a ++ b) off n = Dict.field b (off - a.length) n := by
  simp only [Dict.field, List.drop_append, List.drop_eq_nil_of_le h, List.nil_append]

/-- A field at the start of `bytes n v`. -/
theorem field_here (n v : Nat) (b : List Byte) : Dict.field (Ops.bytes n v ++ b) 0 n = v % 256 ^ n := by
  have : (Ops.bytes n v ++ b).take n = Ops.bytes n v := by
    exact List.take_left' (length_bytes n v)
  simp only [Dict.field, List.drop_zero, this, le_bytes]

variable (s : State) (slot index sub : Nat) (v sig : List Byte)

theorem blob_length : (Dict.sealedBlob s slot index sub v sig).length = 40 + v.length + sig.length := by
  simp [Dict.sealedBlob]; omega

theorem blob_index (h : index < 2 ^ 16) : Dict.field (Dict.sealedBlob s slot index sub v sig) 32 2 = index := by
  simp only [Dict.sealedBlob, List.append_assoc]
  iterate 6 rw [field_skip _ _ _ _ (by simp)]
  simp only [length_bytes]
  rw [field_here]
  omega

theorem blob_sub (h : sub < 2 ^ 8) : Dict.field (Dict.sealedBlob s slot index sub v sig) 34 1 = sub := by
  simp only [Dict.sealedBlob, List.append_assoc]
  iterate 7 rw [field_skip _ _ _ _ (by simp)]
  simp only [length_bytes]
  rw [field_here]
  omega

theorem blob_len (h : v.length ≤ 1024) : Dict.field (Dict.sealedBlob s slot index sub v sig) 36 4 = v.length := by
  simp only [Dict.sealedBlob, List.append_assoc]
  iterate 9 rw [field_skip _ _ _ _ (by simp)]
  simp only [length_bytes]
  rw [field_here]
  omega

theorem blob_value : ((Dict.sealedBlob s slot index sub v sig).drop 40).take v.length = v := by
  simp [Dict.sealedBlob, List.drop_append, List.drop_eq_nil_of_le]

variable {s : State} {t : Transport} {slot : Fin 4} {sig : List Byte} {index sub : Nat} {v : List Byte}

/-- The sealed write, up to its inner write. -/
theorem sealed_write (h : Seals s t slot sig index sub v) {x : State}
    (he : Dict.innerWrite t index sub v (opened s) = .inr x) :
    Dict.write t 0xC040 2 (Dict.sealedBlob s slot index sub v sig) (counted s) =
      if x.sup.blowing.isSome then (none, x) else (some (0, []), Ops.setReg 0xC040 3 1 x) := by
  have ha := h.accepted
  unfold Accepts at ha
  unfold Dict.write
  split at ha
  · simp at ha
  · next r hr =>
    simp only [Bool.and_eq_true, Bool.not_eq_true', bne_iff_ne] at ha
    obtain ⟨⟨⟨⟨⟨⟨h1, h2⟩, h3⟩, h4⟩, h5⟩, h6⟩, h7⟩ := ha
    have hw : Dict.sealedWrite t (Dict.sealedBlob s slot index sub v sig) (counted s) =
        if x.sup.blowing.isSome then (none, x) else (some (0, []), Ops.setReg 0xC040 3 1 x) := by
      have hb : (opened s).sup.blowing.isSome = false := by
        show s.sup.blowing.isSome = false
        simp [h.idle]
      have hl : ¬ ((Dict.sealedBlob s slot index sub v sig).length ≠ 424 + v.length ∨ 1024 < v.length) := by
        have := h.short
        rw [blob_length, h.sigLength]; omega
      unfold Dict.sealedWrite
      simp only [blob_len _ _ _ _ _ _ h.short, blob_index _ _ _ _ _ _ h.number, blob_sub _ _ _ _ _ _ h.place, blob_value]
      rw [if_neg hl]
      show (if (opened s).sup.blowing.isSome = true then _ else _) = _
      rw [hb, h.sealed]
      show (match Dict.innerWrite t index sub v (opened s) with | .inl e => _ | .inr s => _) = _
      rw [he]
    simp only [hr, h1, h2, h3, h4, h5]
    simp [hw]

/-- A sealed command whose inner write makes `x`. -/
theorem run_sealed (h : Seals s t slot sig index sub v) {x : State}
    (he : Dict.innerWrite t index sub v (opened s) = .inr x) (hb : x.sup.blowing = none) :
    Run.run (Dict.serve t 2 0xC040 2 (Dict.sealedBlob s slot index sub v sig)) s =
      .next (unsealed s t slot sig index sub v x) := by
  rw [run_awake h.toAwake, serve_answers h.served]
  · rfl
  · simp [Dict.execute, sealed_write h he, hb]

/-- The inner write, where the owning chapter accepts it. -/
theorem inner_accepted (h : Seals s t slot sig index sub v) {x : State}
    (he : Dict.chapterWrite t index sub v (opened s) = some (.inr x)) :
    Dict.innerWrite t index sub v (opened s) = .inr x := by
  have ha := h.inner
  unfold InnerAccepts at ha
  unfold Dict.innerWrite
  split at ha
  · simp at ha
  · next r hr =>
    simp only [Bool.and_eq_true, Bool.not_eq_true'] at ha
    obtain ⟨⟨⟨h1, h2⟩, h3⟩, h4⟩ := ha
    simp only [hr, h1, h2]
    simp only [Bool.false_eq_true, if_false]
    unfold Dict.effect
    rw [if_neg, if_neg, he]
    · rintro ⟨a, b⟩; simp [a, b] at h4
    · rintro ⟨a, b⟩; simp [a, b] at h3

end Sys2Proof.Laws
end

