-- ==== Sys2Proof/WellFormed.lean ====
section
/-!
DEFINITION. What a command's operands must satisfy beyond their types. A sender of commands keeps to it; `exec` is total, and
says what it does with the rest as well.
-/

namespace Sys2Proof

/-- A signature of RSA-3072 (R425). -/
def isSignature (sig : List Byte) : Bool := sig.length == 384

/-- Bytes from an offset of a host window, at least one, that end within it (R185, R273). -/
def inWindow (off : Nat) (data : List Byte) (size : Nat) : Bool := !data.isEmpty && decide (off + data.length ≤ size)

/-- The two sides of a bridge differ (R317). -/
def twoSided (b : BridgeId) : Bool := b.src != b.dst

/-- The blocks that a kind of background test has (R478, R482). -/
def targets : TestKind → Nat
  | .bank => 2048
  | .engine => 132
  | .lane => 64
  | .pll | .monitor | .sensor => 4096

/-- The command is well formed. -/
def wellFormed (i : Instr) : Bool :=
  match i with
  | .drainLimitExpiry active => decide active.Nodup
  | .temperatureSweep readings => readings.length == 72 && readings.all fun v => decide (-2147483648 ≤ v) && decide (v < 2147483648)
  | .quarantine _ _ sig => isSignature sig
  | .securityIsolate _ _ sig _ => isSignature sig
  | .securityRelease _ _ sig _ => isSignature sig
  | .stageInputsSpacer k => k != .nowhere
  | .timeMessage _ kind _ _ => decide (kind.toNat ≤ 2)
  | .hostBankRead off len => decide (1 ≤ len.toNat) && decide (off.toNat + len.toNat ≤ 2 ^ 29)
  | .hostBankWrite off data => inWindow off.toNat data (2 ^ 27)
  | .hostBankSet off data => inWindow off.toNat data (2 ^ 27)
  | .hostBankClear off data => inWindow off.toNat data (2 ^ 27)
  | .imageWindowWrite off data => inWindow off.toNat data 99328
  | .streamApertureWrite data => !data.isEmpty
  | .revokeSlot _ _ sig _ => isSignature sig
  | .batteryKeyWrite _ _ sig _ => isSignature sig
  | .batteryKeyErase _ _ sig => isSignature sig
  | .bridgeCapture b _ => twoSided b && b.kind != .pulse
  | .bridgeDeliver b => twoSided b
  | .bridgeFree b => twoSided b
  | .sourcePulse b => twoSided b && b.kind == .pulse
  | .bridgeReset b _ _ => twoSided b
  | .lowPower _ st => st == 1 || st == 2
  | .laneRxTransfer _ x => x.blocks.length == 8 && x.words.all fun w => decide (w ≤ 544)
  | .descriptorStart _ fetched => fetched.all fun d => d.length == 32
  | .doorbell _ area => decide (area.length ≤ 28672)
  | .canRequestFrame _ f => [0, 1, 2, 3, 4, 5, 6, 7, 8, 12, 16, 20, 24, 32, 48, 64].contains f.data.length
  | .publishedAccess _ op _ _ data => op == .write || data.isEmpty
  | .supervisorPinRelease _ _ sig _ => isSignature sig
  | .voltageWindowEnd pref groupPref => decide (pref.map fun e => e.1).Nodup && groupPref.length == 4
  | .selftestSlice sl => decide (sl.target.toNat < targets sl.kind)
  | .fuseRepair _ _ sig _ => isSignature sig
  | .vfEnable n => decide (n.toNat ≤ 64)
  | .powerUp _ _ _ | .supplyRemoval | .pwrgdLow | .resetNLow | .resetNHigh _ _ | .railBelowReset _ _
  | .vcoreWarning _ _ | .sagRecovered _ _ | .resetRequest _ | .fullReloadRequest _ | .runRequest _
  | .sentinelRequest _ | .holdLatchWrite _ _ | .sentinelDrainQuiet | .thermalTrip | .thermalTripClear
  | .integrityCheck _ | .surveyStepDone _ | .stageCapture _ | .stageOffer _ | .stageAcknowledged _
  | .transparentEvaluate _ | .illegalCode _ _ | .regionReset _ _ | .lensSample _ | .noProgressWindowEnd _
  | .noProgressWindowWrite _ _ | .collarIsolate _ _ | .collarIsolationComplete _ | .collarOpen _ _
  | .collarPolicyWrite _ _ _ | .inboundDrain _ _ | .setTime _ _ | .phaseCorrection _ _ | .rateAdjust _ _
  | .disciplineSelect _ _ | .ppsInEdge | .ppsHoldover | .ppsOutRise | .ppsOutFall | .twoStepEntryRead _
  | .wavefrontTick | .timeWord _ _ | .wavefrontCalibration _ _ _ | .gateConfigWrite _ _ _ | .epochOriginWrite _ _ _
  | .bankWrite _ _ | .commit _ _ _ _ | .uncommit _ _ _ | .decisionInstant _ | .epochStart _ | .overlapLimit _
  | .gateCapture _ | .gateSetup _ | .gateRelease _ | .lateRelease _ | .timeMessageSend | .followerHoldover
  | .bankRequest _ _ | .bankGrant _ | .dualPortCycle _ | .bankAccessComplete _ _ | .targetOn _ _ | .targetRetain _ _
  | .targetOff _ _ | .targetDeepRetain _ _ | .bankIdleExpiry _ | .bankWakeComplete _ | .softRepairWrite _ _ _
  | .columnRebuildAccess _ | .bankCauseEnableWrite _ _ | .push _ _ _ | .pushAndClose _ _ _ | .pop _ _ _ | .peek _ _ _
  | .abort _ _ | .queueFlush _ _ | .queueControlWrite _ _ _ | .limitsWrite _ _ _ | .linkSweep | .traceWrite _
  | .tracePop _ | .tracePeek _ | .traceHostPop _ _ | .add _ | .sub _ | .and _ | .ior _ | .eor _ | .mlo _ | .cmps _
  | .cmpu _ | .shl _ | .shr _ | .sha _ | .addk _ | .andk _ | .iork _ | .eork _ | .high _ | .shlk _ | .shrk _
  | .shak _ | .jeq _ | .jne _ | .jls _ | .jgs _ | .jlu _ | .jgu _ | .call _ | .jumpr _ | .ldw _ | .ldb _ | .ldp _
  | .stw _ | .stb _ | .stp _ | .qpush _ | .qpushc _ | .qpop _ | .qpeek _ | .qabort _ | .bset _ | .bclr _ | .trd _
  | .twait _ | .twaitTargetReached _ | .gent _ | .garm _ | .send _ | .recv _ | .poll _ | .evr _ | .fence _
  | .rdspec _ | .halt _ | .tagCompletion _ _ _ | .portReceiveCapture _ | .portSendAcknowledged _ | .start _ _
  | .stop _ _ | .resume _ _ | .stagingWrite _ _ _ | .stagingClear _ | .install _ _ | .installComplete | .rotation
  | .migrationCopyDone _ | .cfgPortByte _ | .discardRunEnd _ | .headerFirstByte _ _ | .streamHeader | .frame
  | .loadSilence | .loaderResync | .loadAbort _ | .endChecksComplete | .signerKeyWrite _ _ _ | .revocationBlown
  | .scrubFrame _ _ _ | .attestationStart _ _ | .attestationReady | .clockDeparture _ | .clockRecovery _ _
  | .t0Burst _ | .signalDetect _ | .cdrLock _ | .blockLock _ | .lossOfLock _ | .lossOfSignal _ | .trainingTimeout _
  | .absentTimeout _ | .equaliserConverged _ | .prbsCheckEnd _ _ | .mark _ _ _ _ | .capability _ _ | .rate _ _ _
  | .verify _ _ | .bond _ _ _ _ | .unknownLinkBlock _ _ | .maintenanceTransfer _ | .laneTxTransfer _
  | .marginSample _ _ | .shortRetrainEnd _ _ | .adaptationSlowdown _ | .bondSwitchPoint _ _ | .enable _ _ _
  | .restart _ _ | .clearcap _ _ | .lp _ _ _ | .maxrate _ _ _ | .fecReq _ _ _ | .txeq _ _ _ | .loop _ _ _
  | .pattern _ _ _ | .txIdle _ _ _ | .bondMembersWrite _ _ _ | .portMapWrite _ _ _ | .ethernetLock _ _
  | .hostLinkReset | .flr _ | .linkStateChange _ | .regionPortSend _ _ _ | .regionPortRecv _ _ | .unmappedAccess _
  | .sqTail _ _ _ | .cqHead _ _ _ | .hostToQueue _ _ | .queueToHost _ _ | .hostToBank _ _ | .bankToHost _
  | .hostToStream _ _ | .descriptorFinish _ | .dmaEnable _ _ | .dmaDisable _ _ | .read _ _ _ | .write _ _ _ _
  | .describe _ _ _ | .canSegmentTimeout _ | .notice _ | .canPortDisable _ _ | .busOffRecovery _ | .sealedCommand _ _
  | .publicationEntryWrite _ _ _ | .pinConfigWrite _ _ _ | .latchRelease _ | .latchTimeout _ | .pinOutputToken _ _
  | .pinInputChange _ _ | .pinSample _ | .vioClassChange _ _ | .lendableWrite _ _ | .faultRetry _ _
  | .faultWindowClose _ | .retireRequest _ _ | .fuseBlowComplete | .fabricUserEvent _ | .pulseRawEnd _
  | .statusClear _ _ | .eventControlWrite _ _ _ | .msixUnblock _ | .phySupplyOutOfRange _ _ | .phySupplyReturn _ _
  | .vbatLoss _ | .busError _ _ _ | .aerError _ | .msixMask _ => true

end Sys2Proof
end

