-- ==== Sys2Proof/Tests/Slice0.lean ====
section
/-!
SUPPORT. Tests: an ill-formed command for each check of well-formedness; for every statement, states and operands that meet the
hypotheses of each of its clauses; and the values that the spec's examples work out.
-/

set_option Elab.async false

namespace Sys2Proof.Tests

open Sys2Proof.Machine Sys2Proof.Safety

/-- A state in M5 with the host link up, every facet loaded and every bank On, the challenge at a fixed value. -/
def m5 : State :=
  { modes := { cur := .m5, prev := .m4, cause := 0x13, resetN := true, surveyStep := 4 }
    host := { link := 0 }, facetBase := { state := .loaded }, bankBase := .on, sec := { challenge := 7 } }

/-- The same in another mode. -/
def inMode (m : Mode) : State := { m5 with modes := { m5.modes with cur := m } }

/-- With a change of the mode record. -/
def modes (f : ModeState → ModeState) (s : State) : State := { s with modes := f s.modes }

/-- Command `c` answers a next state in `s`. -/
def Goes (c : Instr) (s : State) : Prop := ∃ t, exec c s = .next t

theorem goes {c : Instr} {s t : State} (h : exec c s = .next t) : Goes c s := ⟨t, h⟩

theorem awake {s : State} (h : (decide (s.modes.cur ≠ .m0) && !Modes.released s) = true) : Awake s := by
  simp at h; exact ⟨h.1, h.2⟩

theorem up {s : State} (h : decide (s.modes.cur = .m5) = true) : Up s := by
  simp at h; exact ⟨⟨by simp [h], by simp [Modes.released, Ops.modeIn, h]⟩, h⟩

theorem awake5 : Awake m5 := awake (by decide +kernel)

theorem served {s : State} {t : Transport} {op i k : Nat} {d : List Byte} (h : Transports.live s t = true) :
    Served s t op i k d := .inl h

theorem writes {s : State} {t : Transport} {i k : Nat} {d : List Byte}
    (h : (decide (s.modes.cur ≠ .m0) && !Modes.released s && Transports.live s t && Accepts (counted s) i k d) = true) :
    Writes s t i k d := by
  simp at h; exact ⟨⟨h.1.1.1, h.1.1.2⟩, .inl h.1.2, h.2⟩

/-- A row of the dictionary, where it exists. -/
def rowOf (i k : Nat) : Row := (Objects.row i k).getD (Objects.r 0 0 .u8 .ro)

theorem reads {s : State} {t : Transport} {i k : Nat}
    (h : (decide (s.modes.cur ≠ .m0) && !Modes.released s && Transports.live s t &&
      decide (Dict.row (counted s) i k = some (rowOf i k)) && decide ((rowOf i k).acc ≠ .wo) &&
      Dict.reachable s (rowOf i k)) = true) : Reads s t i k (rowOf i k) := by
  simp only [Bool.and_eq_true, decide_eq_true_eq, Bool.not_eq_true'] at h
  exact ⟨⟨h.1.1.1.1.1, h.1.1.1.1.2⟩, .inl h.1.1.1.2, h.1.1.2, h.1.2, h.2⟩

/-! ### Well-formedness: an ill-formed command for each check -/

theorem test_wf_nodup : wellFormed (.drainLimitExpiry [7, 7]) = false := by decide
theorem test_wf_sweep_short : wellFormed (.temperatureSweep [250]) = false := by decide
theorem test_wf_sweep_range : wellFormed (.temperatureSweep (List.replicate 72 2147483648)) = false := by decide
theorem test_wf_signature : wellFormed (.quarantine .mailbox 0 [1]) = false := by decide
theorem test_wf_nowhere : wellFormed (.stageInputsSpacer .nowhere) = false := by decide
theorem test_wf_time_message : wellFormed (.timeMessage 0 3 0 0) = false := by decide
theorem test_wf_no_bytes : wellFormed (.hostBankRead 0 0) = false := by decide
theorem test_wf_bank_window : wellFormed (.hostBankWrite 0x7FFFFF8 (List.replicate 9 0)) = false := by decide
theorem test_wf_image_window : wellFormed (.imageWindowWrite 99328 [0]) = false := by decide
theorem test_wf_stream : wellFormed (.streamApertureWrite []) = false := by decide
theorem test_wf_two_sides : wellFormed (.bridgeFree { kind := .data, src := some 9, dst := some 9, slot := 0 }) = false := by decide
theorem test_wf_pulse_value : wellFormed (.bridgeCapture { kind := .pulse, src := none, dst := some 9, slot := 0 } 1) = false := by
  decide
theorem test_wf_source_pulse : wellFormed (.sourcePulse { kind := .data, src := none, dst := some 9, slot := 0 }) = false := by decide
theorem test_wf_low_power : wellFormed (.lowPower 0 3) = false := by decide
theorem test_wf_eight_blocks : wellFormed (.laneRxTransfer 0 { blocks := [], words := [] }) = false := by decide
theorem test_wf_descriptor : wellFormed (.descriptorStart 0 (some (List.replicate 31 0))) = false := by decide
theorem test_wf_request_area : wellFormed (.doorbell 1 (List.replicate 28673 0)) = false := by decide +kernel
theorem test_wf_frame : wellFormed (.canRequestFrame 0 { ident := 0, data := List.replicate 9 0 }) = false := by decide
theorem test_wf_read_data : wellFormed (.publishedAccess .can0 .read 0 1 [0]) = false := by decide
theorem test_wf_window_once : wellFormed (.voltageWindowEnd [(5, 1), (5, 2)] [0, 0, 0, 0]) = false := by decide
theorem test_wf_four_groups : wellFormed (.voltageWindowEnd [] [0, 0, 0]) = false := by decide
def badSlice : Slice :=
  { kind := .lane, target := 64, starts := true, last := false, coverage := 0, misr := 0, wantSlices := 0, wantCoverage := 0
    wantMisr := 0, position := 0 }

theorem test_wf_target : wellFormed (.selftestSlice badSlice) = false := by decide
theorem test_wf_vfs : wellFormed (.vfEnable 65) = false := by decide
theorem test_wf_codeword : wellFormed (.laneRxTransfer 63
    { blocks := List.replicate 8 { hdr := 1, payload := 0, fecBad := false }, words := [545] }) = false := by decide
theorem test_wf_good : wellFormed (.laneRxTransfer 63
    { blocks := List.replicate 8 { hdr := 1, payload := 0, fecBad := false }, words := [544] }) = true := by decide

/-! ### Sealed commands -/

/-- The modulus of the key staged in slot 0. -/
def modulus : Nat := 0xddc3cb902d6e256d50baa13fe07fd93b864c43e96b3a5ec6b2921a6acf3930a573f40d1fbc124ff237a600202a25a4f35a9c7481e906252c5b83784f699e8574006899ea6e8dd3067ee5af4e64271307240b22009b22c0b7d57d20b86f46e282065f250089af221267838a29210f8ba150a78b6b71c794f794c4ed545dd612cc7519576cfe057a7010bcddd94cffdf5a7e99f669abfa7b5f45be08a9069796041f8179d2030b830aa31bf1ab1e24006095f211a227ae28f38b346aa3c429520ca5e40e7c74fc58b10acfa66c049a4502817734fceb60099fbd1b37e647d59378ad275a4829187b0e2d096b83de08e2d864cffd1da42c73032148e51803f9a027dcc09f8d89fb235877ddbd1a213955597a55237d609a46e61523d54f5c3df6090a64ddfd726f2d50b4663ffe339b587648bd9191d00da6fde2213b840824f3eaf70d34f1131d66feecf2f4489283d7bc0cde25d58e0ebdefc551a420012f815eacff9694cbc40dee1e741980eb36fd17ad539506b337e0d9aaae9cad61f4aea5

def sigQuarantine : Nat := 0x87786c714b40644db31eab84a3412f3588ccdfc4cfbd88032c7e4a5ae2f31dbed7bc48d4c5722bad3f50cc73f039552d4ec7974e73e0017e38f5f8c25414d7c7cd0052ad343b27bbe92fae7754515267a7fb54dacc835f287304a3ee39c54e8e129926f5539a641c6d71e16785663aeb8c0096b62cf6d484d1e14f92f9aff2180152bc2d2e9f8328cecca6a618ae8f1e75eccd6d11e6c292eb3763441751b65d1dc11513f6e9b9d4babd88d9fa5be028e36c9557a89ec923c6b70c649326f8a9ec1e0b82c06847491c89cb939c689f00ca547c78125b02489c1ee62741c1a58700891224d483364b4cb4c074130536af96daa28eda7ff9ee4649e998df6927823fd9ffd918f6d83091085c4dbb1a897f177a8ca64fd9363ae4b96f64900cd262a1e4901f303d984fecae60b84a6f7138cd396f3953ead4e8f0fe1bd23bb11ca8b0bb83d9678f2428844875699b28b9297d5a10e735b3921915b6955812cf40c3744a15df44faf9c90ff8cdacbe3fd43067a889fabf51feee859fc882c84184fc
def sigIsolate : Nat := 0x4e47dd273aa1e66583bca5a59b8226440fe10ca2917b140588501c0f81da18c57021b1bf471010007422e55e7edaadd95aeb909c4942df8c8d463ddba12ae79e87f03da9cde85ec969df925b168b99145da0ec36ff2b06d974e708a85cd8da62f82f1c7b9f1d196a24035909ca7bd17d4d27c97a3f10fcd2d99a51eb653f06a8e0ac85f6dce5791fdddff76b615f60a2689c9b3518418227ebca1fecf33667c6e31afa2af9f9f1acd1257d973d5aa7183c4104c55e1a41d255b102bcd06edb5e80e390c317df7b7280a339476d6fe33eb63c752202ef7faee4f7523b92cf18bf5e77831ba16cfa485d61751ac12091f365f6703892c064c09f83f7cb1de1f3cb2f0c7c4d63dabb296983e67d327226787770052c9e844e5f57c379c463df56dec942b967e8ee64e4d43af2c3e3e9d07592f038cb505ab31c3f7f84fd825ee82b066f2fc75a8279ff2284559a85a1b02f63b5f0c42bb8e212074245b34a02fd06991002133bfa68dd4fd17a25372d2ee266b734a9668cd8431f977ce0dda91de
def sigRelease : Nat := 0x8d460fdae485a528df72b4d9633c7fdad5ff3e7dcb92ff551b4ced6ef7361d99f186b42d6e55c23aeafaf4c1dddb0e20863ba15be7ba474dcf123dc6d45a33d214fddc6cca26ca59033d8619581f6b05c0207764eccf038f7b9fa601b07b8a621e2e160686b19704458bf3cab1038cb2f2d92b96f25f8ea007a8d836b7f18de96fe193d39ea5cc6d351750a6e659139a95b01e7eb3021ce814b686b0f8501eec6e6c570cb7ecfe4812da1f4a0999efc3566a3b92052ca101036a0707b42e36d5f59ee14ac5153f88ce0d193a374275085203ea0a040450091baa1af115550cb6cbb3c1395589f3b79cb4acb4b338e99afedaaa2e6c4050cc4e0018f8c15fd32901135c518efe8086b631a08a9cc058f87bf926c4176acd0a7fe41ae124d7826a7a8429453473fec99fbcb65bfe1af7c8510db6ba3f94ba72fa72836398ec421e247fc8aa4da7bef71f7804dec03667410ecab33b2983d019d7e0bbf0b14fe2fda5b80051663afe279d7d790d735b0aba009a5439490345471c6a982486face1b
def sigRevoke : Nat := 0x9fe678f8e18da21340f811cba8e088f1be38a1b40a5b9b5589bf9f480a11517cab883cde0fe09e45948266ad5e8f3b0a3d682db1b2282801c348081a81e1a7506de550dda4daed020dc4a25e24ed41b94d8f3571984c016c1bff29c0785dd58cf20fe0fcb5ffb5471bdedf2ae8177fbfba343cf1e77ad982d41deed295f526b97ce8b0413c5ea33b07dea84cfb1bcb9ec37a4dda729ee9c2d1a3d0f6ab2eb5c5b1e3c1df30680786c6515534ae7d3f709231d316edab600a250187cd40058518f34cac0dbf6b074474a46ecf80e7db8140f6f396cef408850251a8fbdb5fe47705fe9a94753a43bdbbdb2d61aaaa203c5a40acb0a4cdccf06ba3b534a7240034f34075ad26bc7d94f362e7ef3dcd328d7254df3dea48848e2486bb0f07bcd1ae09c5140c6ed9abc4fc103bc89cdafab0738705ff1cd389dae9a447dea550f6308f88d2d149c59b0fc6013bc05c1c67aeaeb1404f7db613b6f0bd0bc40a244acb1d6c2babffa32a841e9e03e66f4b1ae0f733c392b6cea2d11f005685758c754b
def sigBattery : Nat := 0x917f5950082c1374afc69294c7fd4f5d3a7f819e518b789453fd5911f654ef676bdace7f781e865ae8599ce075ccf972056f0ea585bda1efe1436ce06d46e9b280ea38fa87e5840d2d91e37704a3d8b074529546846403e484f0564349f6fe24322f9f4164b7bfa6ec1e0dfb712b5a3b18b379676645aa7ef5a42ee02e7f264dc8619b13c52143f4293b6f97bee09823512ae68a4ecf54d8f1dc0a07b00b915e9e54edbd3944be41af317f59c0f13c43741e8b0ebc7a2fc9e17b8ac877d67546d78af48b9749206f83dc9f788323a0c9230c06772efc511f8d734b5d70022549dc07c43030a066f346edebb470d419fbd0cdd58cb1c126651c8f1a519aeed023fce1dc91d1b6d6ae2699438e473c84c6ddb7454410ed006bb4ab598b706afcf7d815f861a47d76f1e969dfd8841c293946887bb6a83f1eb58f301345ad073fb6d9d35172f3a38713405b3a2f22c4a993abadeb5d42d2609d0d69c527e49fd3374e53ac4b8f27bbcbb7551b41b6489d51037ac2614862f9341ec07a2233730b6a
def sigErase : Nat := 0xb2621c8c94163478f7b27a4452783c4fe0e30a49dd23847be029108a2424e92fc379ea360ea61a67e5ba5e6991c452d2988f74232e21820e7168f28251ccf8fbae4b93933b1e11f7edb7a95adccc84d347b5ef29f44650822e33d18506d098afa6ff52b30b7b4030bd09b5beeb19b4cfdc151281c4addd0b9c54d6b8efb76bda9ab87667d99c7ac174ca186925cb213959b6be8cd507f522b7885a870ed8548499475165dc9df2e7b6d1fe0e9510868608cfa511cab45059f2f78d40e3297b8af3e564a7db20e52ebc924a3a9ff6f410e53fdb67aa58ccd805dd3ada9a62ad05d93f2a407ce6b7754f54b14de51fb7df6685c8b535afbf5868181317bcf71a9072cb4fcc8067724725c7dc593a9654d4601b40c96eb8d51646e80d229e3503de74184bad83d2acb483170811940c668476b3f80797d9c03f3c014679e56db29fb2ff27be2135187b9c2fa3c695a71cb179a36916e6d6c8a581a57a49d605bdfc30fee943af24bfa09399f432db5afa72594d39c6e5e49f5d5d7c47b53b9407fb
def sigPin : Nat := 0xc1328c49ec9ec3fc6e69f9c6941ce97b099f0913e922fb9514a5766604f3a512700f4ec869c2bd5d6c4b83c8d536ce3cd8f775922bf5bc2d13486b181ab9f558a9e6a6a351975ca6b18c0cc12c051e6f3b88a895c5c25658931b8262fc1dad8a0cc9975b798355df1d2cdda3e5af4f6337cee4a2bbc00c198564fd04172a2da336753e4b4999d9f52181d2df1e15229fbbdcee445e5ab046529837ce37a33413df70a8bf2d1d949793bc760afc38321d0d5864a52488bc9224e0188840f1715ccd40482f8beb59bb34ccb65131846fcc610d4c6da4d19236fee9da46b4c61c43ce2d7147b225046e499cc2364c1c2a492e20ca364aa367095a6c54b218f5790f9132ddfd8e9d0bdebb771587b04d30fedc91e9f1de61849d218c6ef4687b8a242698162d93d4f6980efc2f79702be74931e1d542228c663824dd6197d9630927f9e649a48e4263e6abe50094948c143a0d0fea4da7c21af96e0c7695d98b6b0d1717dc46ff880b68dd2fb16b9a5d6a945c2c4b6d9fefe642aecab25e32a72eb4
def sigFuse : Nat := 0xa466e3fbe5ab356723057023dbdaacfe4a1023d51a8480b5176180850c1fa9c4f7f24f4dd09f774243764fcc880a2f57ee50243783ad5400391ac85327aeb1f33f6456271089b9545773d730f05840b67b9cd491e0534e3a527e9ca8843f544583c8dc0552bdcc532570a7c91c8d401867bdb23fce7607d96da45a61cda53e14c38d66b1bbc27415ef55e1ff49224c9926d10dabbf49b99cf1bdbee62beba5b3a2c61d2b65e8388d905cfb6081ad92f2d555363bf90e93edc05ec37a76bee0d8eac473b0556544c1f01ba4b536f1425151b5698f8e0b83ff3f81df0fd6ab0a2e77969e2a0654f8c2ed9bb49529b328e6886c28f92d72943d5d3b7b133318eb23e2a40d851813bdd9564c13c478e2027bc96e98d8000a86329e59c9ca91464b7bbdce7e178654da962274ef664bf38f4443aaa66a6029afe7a74fbdf69722d6023d385d632139662908bece89a915a61e44a1b65a9fabc1b7a70a47c323ebbea5d485ff72b367aa1f04bada48ac49d650defe8987372180e5fb720408002d7991

def sigStream : Nat := 0x4fb3fa5c65665effa17bdca8fa6b59c4e55f5ffd94ab9b54196bed23f45d197b62c56f2487ea5761d6107479e7d20b2cabd420c494a6319dfd35deb5a5e13da28c66d1d29a51e811b187b7d79a6c386cbecdb2fd12b46d770238d97202b9e16887bab54e6b9952eca2e1e414e12f10a80f881e9e18ca7f91dc4a587a78ed0bcd63889ea20a30bf04914e8ad4abe156283cb93abe3d6322e764c0c370cd5bd9d3e7a74a5a1a43371c98d343d8fe3b705c505e059b261eab7a694787b3048a5f7ec5ea67839a7b6c7473d61df8f99d90f301d01e56851d12128500f0aaf77d908cad28413b520ad70f17f31f9d38ab466942be30648b2d12cfeb5a1f5e0d1890f63b4df79f987cd0a2feeb1af3deedf51fbf0029fd0b7a03bdce01a4e54747302b3a0ba762450dc7ec49d19f35b41a01e12ee5758538bd9064699929f7e9b78fdaab18bc469dd411aa70ef3e3f5f31fcf092e01fe7271f1c1a6f4d67abcd1514394e50ecbe1761038f235722f8c9c325fd108c0a5f658f84f564ddd1be97e25df4

/-- M5 with the key in slot 0 fused and staged. -/
def keyed : State :=
  { m5 with
    sec := { m5.sec with key0 := Crypto.bytesBE 384 modulus ++ Ops.bytes 4 65537 }
    nv := { m5.nv with hashes := [(0, 1)], batteryAllowed := true } }

/-- A signature as its bytes. -/
def sigBytes (n : Nat) : List Byte := Crypto.bytesBE 384 n

theorem seals {s : State} {t : Transport} {slot : Fin 4} {sig : List Byte} {i k : Nat} {v : List Byte}
    (h : (decide (s.modes.cur ≠ .m0) && !Modes.released s && Transports.live s t &&
      Accepts (counted s) 0xC040 2 (Dict.sealedBlob s slot i k v sig) && decide (sig.length = 384) &&
      decide (v.length ≤ 1024) && decide (i < 2 ^ 16) && decide (k < 2 ^ 8) && s.sup.blowing.isNone &&
      (Dict.sealChecks (Dict.sealedBlob s slot i k v sig) (counted s)).isNone && InnerAccepts (opened s) i k v) = true) :
    Seals s t slot sig i k v := by
  simp at h
  exact ⟨⟨h.1.1.1.1.1.1.1.1.1.1, h.1.1.1.1.1.1.1.1.1.2⟩, .inl h.1.1.1.1.1.1.1.1.2, h.1.1.1.1.1.1.1.2, h.1.1.1.1.1.1.2,
    h.1.1.1.1.1.2, h.1.1.1.1.2, h.1.1.1.2, h.1.1.2, h.1.2, h.2⟩

/-! ### The hypotheses of each statement are met -/

theorem met_StepRunsFront : Obligations.StepRunsFront → step { m5 with pending := [.rotation] } = exec .rotation m5 ∧
    ∃ t, exec .rotation m5 = .next t ∧ t.pending = m5.pending := by
  intro h
  exact ⟨h.1 _ _ _ rfl, h.2 .rotation m5⟩

theorem met_EmptyQueueAndM0 : Obligations.EmptyQueueAndM0 →
    step (inMode .m0) = .next (inMode .m0) ∧ (∃ t, step m5 = .next t) ∧
    exec .rotation (inMode .m0) = .next (inMode .m0) := by
  intro h
  have a2 := (h.1 m5 rfl).2 awake5
  have a3 := h.2 .rotation (inMode .m0) rfl nofun nofun nofun nofun
  exact ⟨(h.1 _ rfl).1 rfl, ⟨_, a2⟩, a3⟩

theorem met_TimeStaysLegal : Obligations.TimeStaysLegal → ∃ t, step m5 = .next t ∧ TimeLegal t.time := by
  intro h
  have a1 := h.1 m5 _ ⟨by decide, by decide, by decide⟩ rfl
  have a2 := h.2.2.2 { sec := 2 ^ 48 - 1, ns := 999999999, sub := 0 } ⟨by decide, by decide, by decide⟩
  exact ⟨_, rfl, a1⟩

/-- Mode `m` with one thing due, for each kind of thing. -/
def resetting : State := modes (fun m => { m with resetDue := some 6 }) m5
def attacked : State := modes (fun m => { m with securityDue := true }) (inMode .m6)
def badFuses : State := modes (fun m => { m with fuseDue := true }) (inMode .m2)
def failing : State := modes (fun m => { m with failDue := some 0x40 }) (inMode .m3)
def loadDue (m : Mode) : State := modes (fun m => { m with loadDue := some 0x30 }) (inMode m)
def waking (run : Bool) : State := modes (fun m => { m with runDue := run, wakeDue := true }) (inMode .m6)

theorem calm : Calm m5 :=
  ⟨by decide, ⟨rfl, rfl, rfl, rfl, rfl, rfl, rfl, rfl, rfl⟩, by decide +kernel, rfl, rfl, rfl, by decide +kernel⟩

theorem met_TransitionsAreTaken : Obligations.TransitionsAreTaken →
    Entered resetting (Modes.settle resetting) .m1 6 ∧ Entered attacked (Modes.settle attacked) .m7 0x42 ∧
    Entered badFuses (Modes.settle badFuses) .m7 0x43 ∧ Entered failing (Modes.settle failing) .m7 0x40 ∧
    Entered (loadDue .m2) (Modes.settle (loadDue .m2)) .m3 0x30 ∧ Entered (loadDue .m3) (Modes.settle (loadDue .m3)) .m4 0x30 ∧
    Entered (loadDue .m4) (Modes.settle (loadDue .m4)) .m5 0x30 ∧ Entered (loadDue .m5) (Modes.settle (loadDue .m5)) .m3 0x30 ∧
    Entered (loadDue .m7) (Modes.settle (loadDue .m7)) .m3 0x30 ∧ Entered (waking true) (Modes.settle (waking true)) .m5 0x22 ∧
    Entered (waking false) (Modes.settle (waking false)) .m5 0x23 ∧ after m5 m5 = m5 := by
  intro h
  have q (s : State) (hm : s.events = m5.events) : s.events.raw.getLsbD 304 = false := by rw [hm]; decide +kernel
  obtain ⟨a1, -⟩ := h.1 resetting rfl rfl rfl (q _ rfl)
  obtain ⟨-, a2, -⟩ := h.1 attacked rfl rfl rfl (q _ rfl)
  obtain ⟨-, -, a3, -⟩ := h.1 badFuses rfl rfl rfl (q _ rfl)
  obtain ⟨-, -, -, a4, -⟩ := h.1 failing rfl rfl rfl (q _ rfl)
  obtain ⟨-, -, -, -, b2, -⟩ := h.1 (loadDue .m2) rfl rfl rfl (q _ rfl)
  obtain ⟨-, -, -, -, b3, -⟩ := h.1 (loadDue .m3) rfl rfl rfl (q _ rfl)
  obtain ⟨-, -, -, -, b4, -⟩ := h.1 (loadDue .m4) rfl rfl rfl (q _ rfl)
  obtain ⟨-, -, -, -, b5, -⟩ := h.1 (loadDue .m5) rfl rfl rfl (q _ rfl)
  obtain ⟨-, -, -, -, -, b7, -⟩ := h.1 (loadDue .m7) rfl rfl rfl (q _ rfl)
  obtain ⟨-, -, -, -, -, -, c1⟩ := h.1 (waking true) rfl rfl rfl (q _ rfl)
  obtain ⟨-, -, -, -, -, -, c2⟩ := h.1 (waking false) rfl rfl rfl (q _ rfl)
  have a1 := a1 6 rfl
  have a2 := a2 rfl rfl (by decide)
  have a3 := a3 rfl rfl rfl rfl
  have a4 := a4 rfl rfl (by decide) 0x40 rfl
  have b2 := (b2 0x30 rfl rfl rfl rfl rfl rfl).1 rfl rfl
  have b3 := (b3 0x30 rfl rfl rfl rfl rfl rfl).2.1 rfl
  have b4 := (b4 0x30 rfl rfl rfl rfl rfl rfl).2.2.1 rfl
  have b5 := (b5 0x30 rfl rfl rfl rfl rfl rfl).2.2.2 rfl
  have b7 := b7 0x30 rfl rfl rfl rfl rfl
  have c1 := (c1 rfl rfl rfl (by decide)).1 rfl
  have c2 := (c2 rfl rfl rfl (by decide)).2 rfl rfl
  have c3 := h.2 m5 m5 calm rfl rfl
  exact ⟨a1, a2, a3, a4, b2, b3, b4, b5, b7, c1, c2, c3⟩

theorem met_PowerAndReset : Obligations.PowerAndReset →
    Goes (.powerUp 1 2 true) (inMode .m0) ∧ Goes (.powerUp 1 2 true) m5 ∧ Goes .supplyRemoval m5 ∧ Goes .resetNLow (inMode .m0) ∧
    Goes (.resetNHigh 1 2) (inMode .m0) ∧ Goes .pwrgdLow m5 ∧ Goes .resetNLow m5 ∧ Goes .resetNLow State.reset ∧
    Goes (.resetNHigh 1 2) m5 ∧ Goes (.resetNHigh 1 2) State.reset ∧ Goes (.resetRequest .mailbox) m5 ∧
    Goes (.holdLatchWrite .mailbox 1) m5 ∧ Goes (.holdLatchWrite .mailbox 2) m5 := by
  intro h
  obtain ⟨a1, -, -⟩ := h.1 (inMode .m0) 1 2 true
  obtain ⟨-, a2, a3⟩ := h.1 m5 1 2 true
  obtain ⟨b1, b2⟩ := h.2.1 (inMode .m0) rfl
  obtain ⟨c1, c2, -, c3, -, c4, c5, c6⟩ := h.2.2 m5 awake5
  obtain ⟨-, -, d1, -, d2, -⟩ := h.2.2 State.reset (awake (by decide +kernel))
  have a1 := a1 rfl
  have a2 := a2 awake5
  have a3 := a3 awake5
  have b2 := b2 1 2
  have c2 := c2 rfl
  have d1 := d1 rfl
  have c3 := c3 rfl 1 2
  have d2 := d2 rfl 1 2
  have c4 := c4 .mailbox (writes (by decide +kernel))
  have c5 := c5 .mailbox 1 (writes (by decide +kernel))
  have c6 := c6 .mailbox 2 (served (by decide +kernel)) (by decide)
  exact ⟨goes a1.1, goes a2, goes a3, goes b1, goes b2, goes c1, goes c2, goes d1, goes c3, goes d2, goes c4, goes c5, goes c6⟩

/-- A partial load of region 511, under ENC 2. -/
def partial2 : Load :=
  { header := { facetOnly := true, perFrame := true, signer := 3, enc := 2, facet := 511, frames := 768, iv := [], tag := []
                endCrc := 0, version := 0, head := [], signature := [] } }

/-- A state with that load in progress; and M5 while it drains. -/
def partly (s : State) : State := { s with loader := { phase := .frames, load := some partial2 } }
def drainingNow : State := modes (fun m => { m with trans := some (.draining 0x20) }) m5

theorem met_ModeRequestsAndDrain : Obligations.ModeRequestsAndDrain →
    Goes (.fullReloadRequest .mailbox) m5 ∧ Goes (.fullReloadRequest .mailbox) (inMode .m7) ∧
    Goes (.fullReloadRequest .mailbox) drainingNow ∧ Goes (.fullReloadRequest .mailbox) (inMode .m6) ∧
    Goes (.fullReloadRequest .mailbox) (partly m5) ∧ Goes (.runRequest .mailbox) (inMode .m6) ∧
    Goes (.runRequest .mailbox) m5 ∧ Goes (.runRequest .mailbox) drainingNow ∧ Goes (.sentinelRequest .mailbox) m5 ∧
    Goes (.sentinelRequest .mailbox) (partly m5) ∧ Goes (.sentinelRequest .mailbox) (inMode .m7) ∧
    Goes (.sentinelRequest .mailbox) drainingNow ∧ Goes .sentinelDrainQuiet drainingNow ∧ Goes .sentinelDrainQuiet m5 ∧
    Goes (.drainLimitExpiry [3]) drainingNow ∧ Goes (.drainLimitExpiry []) drainingNow ∧ Goes (.drainLimitExpiry [3]) m5 := by
  intro h
  have w {s : State} {v : Nat} (hw : (decide (s.modes.cur ≠ .m0) && !Modes.released s && Transports.live s .mailbox &&
    Accepts (counted s) 0x1000 4 (le 1 v)) = true) : Writes s .mailbox 0x1000 4 (le 1 v) := writes hw
  obtain ⟨p5, q5, r5⟩ := h.1 m5 .mailbox
  obtain ⟨p6, q6, r6⟩ := h.1 (inMode .m6) .mailbox
  obtain ⟨p7, q7, r7⟩ := h.1 (inMode .m7) .mailbox
  obtain ⟨pd, qd, rd⟩ := h.1 drainingNow .mailbox
  obtain ⟨pl, ql, rl⟩ := h.1 (partly m5) .mailbox
  have a1 := (p5 (w (by decide +kernel))).2.2.2 rfl (.inl ⟨rfl, rfl⟩)
  have a2 := (p7 (w (by decide +kernel))).2.2.2 rfl (.inr ⟨rfl, rfl⟩)
  have a3 := (pd (w (by decide +kernel))).1 (by decide)
  have a4 := (p6 (w (by decide +kernel))).2.1 rfl (by decide) (by decide)
  have a5 := (pl (w (by decide +kernel))).2.2.1 rfl (.inl ⟨rfl, by decide⟩)
  have b1 := (q6 (w (by decide +kernel))).2.2 rfl rfl
  have b2 := (q5 (w (by decide +kernel))).2.1 rfl (by decide)
  have b3 := (qd (w (by decide +kernel))).1 (by decide)
  have c1 := (r5 (w (by decide +kernel))).2.2.2 rfl rfl rfl
  have c2 := (rl (w (by decide +kernel))).2.2.1 rfl rfl (by decide)
  have c3 := (r7 (w (by decide +kernel))).2.1 rfl (by decide)
  have c4 := (rd (w (by decide +kernel))).1 (by decide)
  have d := (h.2 drainingNow 0x20 (awake (by decide +kernel))).1 rfl
  have e := (h.2 m5 0x20 awake5).2.1 nofun
  have d1 := d.1
  have d2 := d.2 [3]
  have d3 := d.2 []
  have e1 := e.1
  have e2 := e.2 [3]
  exact ⟨goes a1, goes a2, goes a3, goes a4, goes a5, goes b1, goes b2, goes b3, goes c1, goes c2, goes c3, goes c4, goes d1, goes e1,
    goes d2, goes d3, goes e2⟩

/-- A state with a trip, and one at 95 °C. -/
def hot : State := { m5 with sup := { m5.sup with hottest := 950 } }

theorem met_TripsSweepsAndIntegrity : Obligations.TripsSweepsAndIntegrity →
    Goes .thermalTrip m5 ∧ Goes .thermalTripClear m5 ∧ Goes .thermalTripClear hot ∧ Goes (.integrityCheck false) m5 ∧
    Goes (.integrityCheck true) m5 ∧ Goes (.temperatureSweep []) m5 ∧ Goes (.temperatureSweep [250, 850, 850]) m5 := by
  intro h
  obtain ⟨a1, a2, -, a4, a5, a6⟩ := h.1 m5 awake5
  have a2 := a2 (by decide)
  have a3 := (h.1 hot (awake (by decide +kernel))).2.2.1 (by decide)
  have a7 := h.2 m5 [250, 850, 850] 1 850 awake5 rfl (by decide) (by
    rintro (_ | j) w hj hw
    · simp at hw; omega
    · omega)
  have a8 := h.2 m5 [120] 0 120 awake5 rfl (by decide) (by omega)
  exact ⟨goes a1, goes a2, goes a3, goes a4, goes a5, goes a6, goes a7⟩

/-- Both rails warn. -/
def sagging : State := { m5 with sup := { m5.sup with auxWarn := true, coreWarn := true } }

theorem met_RailWarnings : Obligations.RailWarnings →
    Goes (.vcoreWarning .vcore 719) m5 ∧ Goes (.vcoreWarning .vcore 720) m5 ∧ Goes (.sagRecovered .vaux 1730) sagging ∧
    Goes (.sagRecovered .vaux 1729) sagging ∧ Goes (.railBelowReset .vcore 659) m5 ∧ Goes (.railBelowReset .vaux 1620) m5 := by
  intro h
  have w := awake (s := sagging) (by decide +kernel)
  have a1 := (h m5 .vcore 719 awake5).1 (by decide) rfl
  have a2 := (h m5 .vcore 720 awake5).2.1 (.inl (by decide))
  have a3 := (h sagging .vaux 1730 w).2.2.1 (by decide) rfl
  have a4 := (h sagging .vaux 1729 w).2.2.2.1 (.inl (by decide))
  have a5 := (h m5 .vcore 659 awake5).2.2.2.2.1 (by decide)
  have a6 := (h m5 .vaux 1620 awake5).2.2.2.2.2 (by decide)
  exact ⟨goes a1, goes a2, goes a3, goes a4, goes a5, goes a6⟩

/-- M2 at step `k` of Survey. -/
def survey (k : Nat) : State := modes (fun m => { m with surveyStep := k }) (inMode .m2)

/-- Survey's results when nothing is wrong but `fuses` and `mirror`. -/
def found (fuses mirror : Bool) : SurveyResult :=
  { fuseGood := fuses, mirrorGood := mirror, columns := [], subBanks := [], engines := [], lanes := [] }

/-- A slice of a test of bank 2047, which finds the signature `misr`. -/
def slice' (starts last : Bool) (misr : W64 := 6) (coverage : W32 := 5) : Slice :=
  { kind := .bank, target := 2047, starts := starts, last := last, coverage := coverage, misr := misr, wantSlices := 2
    wantCoverage := 5, wantMisr := 6, position := 0 }

/-- Bank 2047 may be tested; a slice of its test runs. -/
def lendable : State := { m5 with regs := [(0xA00001, 2)], sup := { m5.sup with lendable := BitVec.allOnes 2048 } }
def testing : State :=
  { lendable with
    banks := [(2047, { borrowed := true })]
    sup := { lendable.sup with tests := [{ kind := .bank, target := 2047, slices := 1, running := true }] } }

theorem met_SurveyAndSelfTest : Obligations.SurveyAndSelfTest →
    Goes (.surveyStepDone (found true true)) (survey 0) ∧ Goes (.surveyStepDone (found false true)) (survey 0) ∧
    Goes (.surveyStepDone (found true false)) (survey 3) ∧ Goes (.surveyStepDone (found true true)) (survey 3) ∧
    Goes (.surveyStepDone (found true true)) (survey 4) ∧ Goes (.selftestSlice (slice' true false)) lendable ∧
    Goes (.selftestSlice (slice' true false)) m5 ∧ Goes (.selftestSlice (slice' false false)) lendable ∧
    Goes (.selftestSlice (slice' false false)) testing ∧ Goes (.selftestSlice (slice' false true)) testing ∧
    Goes (.selftestSlice (slice' false true 7)) testing ∧ Goes (.selftestSlice (slice' false true 6 4)) testing ∧
    Goes (.lendableWrite .mailbox (List.replicate 256 1)) testing ∧ Goes (.lendableWrite .mailbox [1]) m5 := by
  intro h
  have w (k : Nat) : Awake (survey k) := ⟨by simp [survey, modes, inMode], by simp [Modes.released, Ops.modeIn, survey, modes, inMode]⟩
  have wl := awake (s := lendable) (by decide +kernel)
  have wt := awake (s := testing) (by decide +kernel)
  obtain ⟨-, p⟩ := h.1 (survey 0) (found true true) (w _) rfl
  obtain ⟨-, q⟩ := h.1 (survey 0) (found false true) (w _) rfl
  obtain ⟨-, r⟩ := h.1 (survey 3) (found true false) (w _) rfl
  obtain ⟨-, t⟩ := h.1 (survey 3) (found true true) (w _) rfl
  have a1 := (p rfl rfl).1 (by decide) (by decide)
  have a2 := (q rfl rfl).2.1 rfl rfl
  have a3 := (r rfl rfl).2.2.1 rfl rfl
  have a4 := (t rfl rfl).2.2.2 rfl rfl
  have a5 := (h.1 (survey 4) (found true true) (w _) rfl).1 (.inr (.inr (by decide)))
  have b1 := (h.2.1 lendable (slice' true false) wl).1 rfl (by decide +kernel) nofun
  have b2 := (h.2.1 m5 (slice' true false) awake5).2.1 rfl (.inl (by decide +kernel))
  have b3 := (h.2.1 lendable (slice' false false) wl).2.2.1 rfl nofun
  have b4 := ((h.2.1 testing (slice' false false) wt).2.2.2 _ rfl rfl).1 rfl
  have b5 := ((h.2.1 testing (slice' false true) wt).2.2.2 _ rfl rfl).2.1 rfl ⟨rfl, rfl⟩ rfl
  have b6 := ((h.2.1 testing (slice' false true 7) wt).2.2.2 _ rfl rfl).2.2.1 rfl ⟨rfl, rfl⟩ (by decide)
  have b7 := ((h.2.1 testing (slice' false true 6 4) wt).2.2.2 _ rfl rfl).2.2.2 rfl (by decide)
  have c1 := (h.2.2 testing .mailbox (List.replicate 256 1) (writes (by decide +kernel))).1 List.length_replicate
  have c2 := (h.2.2 m5 .mailbox [1] (writes (by decide +kernel))).2 (by decide)
  exact ⟨goes a1, goes a2, goes a3, goes a4, goes a5, goes b1, goes b2, goes b3, goes b4, goes b5, goes b6, goes b7, goes c1, goes c2⟩

/-- `keyed` with region 511 isolated for security, a battery-backed key, and slot 3 fused. -/
def armed : State :=
  { keyed with
    fab := { keyed.fab with collars := [(511, { isolate := true, cause := 5 })] }
    nv := { keyed.nv with hashes := [(0, 1), (3, 1)], battery := some 9 } }

/-- The same two in M7, where the battery-backed key can be written. -/
def keyed7 : State := modes (fun m => { m with cur := .m7 }) keyed
def armed7 : State := modes (fun m => { m with cur := .m7 }) armed

theorem seals_quarantine : Seals keyed .mailbox 0 (sigBytes sigQuarantine) 0xC050 2 (le 1 1) := seals (by decide +kernel)
theorem seals_isolate : Seals keyed .mailbox 0 (sigBytes sigIsolate) 0xC050 1 (le 2 511) := seals (by decide +kernel)
theorem seals_release : Seals armed .mailbox 0 (sigBytes sigRelease) 0xC050 1 (le 2 (0x8000 + 511)) := seals (by decide +kernel)
theorem seals_revoke : Seals armed .mailbox 0 (sigBytes sigRevoke) 0xC001 7 (le 1 3) := seals (by decide +kernel)
theorem seals_replace : Seals armed7 .mailbox 0 (sigBytes sigBattery) 0xC020 1 (le 32 5) := seals (by decide +kernel)
theorem seals_battery : Seals keyed7 .mailbox 0 (sigBytes sigBattery) 0xC020 1 (le 32 5) := seals (by decide +kernel)
theorem seals_erase : Seals armed .mailbox 0 (sigBytes sigErase) 0xC020 3 (le 1 1) := seals (by decide +kernel)

/-- Slot 3 is the last but one whose fuse is being blown; and no battery-backed key may be written. -/
def lastOne : State := { armed with sec := { armed.sec with revoking := [0] } }
def barred7 : State := { keyed7 with nv := { keyed7.nv with batteryAllowed := false } }

/-- A signer key: the modulus and the exponent 65537. -/
def signerKey : List Byte := List.replicate 384 0xC5 ++ Ops.bytes 4 65537

/-- Slot 3 holds the hash of that key. -/
def slotted : State := { m5 with nv := { m5.nv with hashes := [(3, BitVec.ofNat 256 (Ops.le (Crypto.sha256 signerKey)))] } }

theorem met_SecurityAndKeys : Obligations.SecurityAndKeys →
    Goes (.quarantine .mailbox 0 (sigBytes sigQuarantine)) keyed ∧ Goes (.securityIsolate .mailbox 0 (sigBytes sigIsolate) 511) keyed ∧
    Goes (.securityRelease .mailbox 0 (sigBytes sigRelease) 511) armed ∧
    Goes (.securityRelease .mailbox 0 (sigBytes sigRelease) 511) keyed ∧ Goes (.signerKeyWrite .mailbox 3 signerKey) slotted ∧
    Goes (.signerKeyWrite .mailbox 3 [1]) slotted ∧ Goes (.signerKeyWrite .mailbox 3 signerKey) (partly slotted) ∧
    Goes (.revokeSlot .mailbox 0 (sigBytes sigRevoke) 3) armed ∧ Goes (.revokeSlot .mailbox 0 (sigBytes sigRevoke) 3) lastOne ∧
    Goes (.revokeSlot .mailbox 0 (sigBytes sigRevoke) 3) (partly armed) ∧ Goes .revocationBlown lastOne ∧ Goes .revocationBlown m5 ∧
    Goes (.batteryKeyWrite .mailbox 0 (sigBytes sigBattery) 5) armed7 ∧ Goes (.batteryKeyWrite .mailbox 0 (sigBytes sigBattery) 5) keyed7 ∧
    Goes (.batteryKeyWrite .mailbox 0 (sigBytes sigBattery) 5) barred7 ∧
    Goes (.batteryKeyWrite .mailbox 0 (sigBytes sigBattery) 5) (partly keyed7) ∧
    Goes (.batteryKeyErase .mailbox 0 (sigBytes sigErase)) armed ∧ Goes (.batteryKeyErase .mailbox 0 (sigBytes sigErase)) (partly armed) ∧
    Goes (.vbatLoss 1999) armed ∧ Goes (.vbatLoss 3601) armed ∧ Goes (.vbatLoss 3600) armed ∧ Goes (.vbatLoss 1999) (inMode .m0) := by
  intro h
  have a1 := (h.1 keyed .mailbox 0 (sigBytes sigQuarantine) 0).1 seals_quarantine
  have a2 := (h.1 keyed .mailbox 0 (sigBytes sigIsolate) 511).2.1 seals_isolate
  have a3 := ((h.1 armed .mailbox 0 (sigBytes sigRelease) 511).2.2 seals_release).1 ⟨rfl, rfl⟩
  have a4 := ((h.1 keyed .mailbox 0 (sigBytes sigRelease) 511).2.2 (seals (by decide +kernel))).2 (by decide)
  have b1 := (h.2.1 slotted .mailbox 3 signerKey (writes (by decide +kernel))).2.2
    ⟨by decide +kernel, by decide +kernel, rfl, by decide +kernel, by decide +kernel⟩ rfl
  have b2 := (h.2.1 slotted .mailbox 3 [1] (writes (by decide +kernel))).1 (by decide)
  have b3 := (h.2.1 (partly slotted) .mailbox 3 signerKey (writes (by decide +kernel))).2.1
    ⟨by decide +kernel, by decide +kernel, rfl, by decide +kernel, by decide +kernel⟩ rfl
  obtain ⟨p, -, -⟩ := h.2.2.1 armed .mailbox 0 (sigBytes sigRevoke)
  obtain ⟨q, r, -⟩ := h.2.2.1 lastOne .mailbox 0 (sigBytes sigRevoke)
  obtain ⟨p', -, -⟩ := h.2.2.1 (partly armed) .mailbox 0 (sigBytes sigRevoke)
  have c1 := (p 3 seals_revoke).2.2 (by decide +kernel) (by decide +kernel)
  have c2 := (q 3 (seals (by decide +kernel))).1 (.inr (by decide +kernel))
  have c3 := (p' 3 (seals (by decide +kernel))).2.1 (by decide +kernel) (.inl rfl)
  have c4 := r 0 [] (awake (by decide +kernel)) rfl
  have c5 := (h.2.2.1 m5 .mailbox 0 []).2.2 awake5 rfl
  have d1 := ((h.2.2.2 armed7 .mailbox 0 (sigBytes sigBattery)).1 5 seals_replace).2.2 rfl (by decide)
  have d2 := ((h.2.2.2 keyed7 .mailbox 0 (sigBytes sigBattery)).1 5 seals_battery).2.2 rfl (by decide)
  have d3 := ((h.2.2.2 barred7 .mailbox 0 (sigBytes sigBattery)).1 5 (seals (by decide +kernel))).1 rfl
  have d4 := ((h.2.2.2 (partly keyed7) .mailbox 0 (sigBytes sigBattery)).1 5 (seals (by decide +kernel))).2.1 rfl rfl
  have d5 := ((h.2.2.2 armed .mailbox 0 (sigBytes sigErase)).2.1 seals_erase).2 (by decide)
  have d6 := ((h.2.2.2 (partly armed) .mailbox 0 (sigBytes sigErase)).2.1 (seals (by decide +kernel))).1 rfl
  obtain ⟨-, -, v⟩ := h.2.2.2 armed .mailbox 0 []
  have w := awake (s := armed) (by decide +kernel)
  have e1 := (v 1999).1 w
  have e2 := (v 3601).1 w
  have e3 := (v 3600).1 w
  have e4 := ((h.2.2.2 (inMode .m0) .mailbox 0 []).2.2 1999).2 rfl
  exact ⟨goes a1, goes a2, goes a3, goes a4, goes b1, goes b2, goes b3, goes c1, goes c2, goes c3, goes c4, goes c5, goes d1, goes d2,
    goes d3, goes d4, goes d5, goes d6, goes e1, goes e2, goes e3, goes e4⟩

/-- The array with some frames and stages. -/
def array (f : Table (BitVec 4096)) (l : Table Stage) : State := { m5 with fab := { frames := f, stages := l } }

/-- Unit 0 with its inputs tied to 1 and a table that gives 1, storing or transparent; and the gate of cluster 24.0, which takes
unit 0 of its cluster. -/
def storing : Table (BitVec 4096) := [(0, 0x20000AA)]
def passing : Table (BitVec 4096) := [(0, 0x20003AA)]
def gated : Table (BitVec 4096) := [(17, BitVec.twoPow 4096 3883)]

/-- A token on unit 0's channel left outside region 511 by a reset; port A of bank 2047 with its response offered to no one; the channel of unit
0 in the illegal code. -/
def left : State := { m5 with fab := { orphans := [{ chan := .unit 0, region := 511, live := false, value := some true }] } }
def offering : State := { m5 with banks := [(2047, { portA := { resp := some {}, offer := { sent := 1 } } })] }
def wrongCode : State := { m5 with fab := { illegal := [(.unit 0, 0)] } }

theorem met_StageMoves : Obligations.StageMoves →
    Goes (.stageCapture (.unit 0)) (array storing []) ∧
    Goes (.stageCapture (.link 511 127 3)) (array [] [(17047550, { rails := some true })]) ∧
    Goes (.stageCapture (.unit 0)) (array storing [(0, { held := some true })]) ∧
    Goes (.stageOffer (.unit 0)) (array storing [(0, { held := some true })]) ∧ 
    Goes (.stageOffer (.unit 0)) (array storing [(0, { held := some true, rails := some true })]) ∧
    Goes (.stageAcknowledged (.unit 0)) (array storing [(0, { held := some true, rails := some true })]) ∧
    Goes (.stageAcknowledged (.unit 0)) m5 ∧ Goes (.stageAcknowledged (.unit 0)) left ∧
    Goes (.stageAcknowledged (.unit 0)) (array passing [(0, { rails := some true })]) ∧
    Goes (.stageAcknowledged (.bankResp 2047 false 0)) offering ∧
    Goes (.stageInputsSpacer (.unit 0)) (array storing [(0, { inAck := true })]) ∧ Goes (.stageInputsSpacer (.unit 0)) m5 ∧
    Goes (.stageInputsSpacer (.collar 511 (.unit 0))) m5 ∧ Goes (.transparentEvaluate 0) m5 ∧
    Goes (.transparentEvaluate 0) (array passing []) ∧ Goes (.transparentEvaluate 0) (array passing [(0, { rails := some true })]) ∧
    Goes (.transparentEvaluate 0) (array passing [(0, { rails := some true, inAck := true })]) ∧
    Goes (.transparentEvaluate 0) (array passing [(0, { inAck := true })]) ∧
    Goes (.illegalCode (.unit 0) 511) m5 ∧ Goes (.illegalCode (.unit 0) 511) wrongCode ∧
    Goes (.stageOffer (.gate 3)) (inMode .m7) := by
  intro h
  obtain ⟨p, q, a, b, c, d⟩ := h
  have a1 := (p (array storing []) (.unit 0) (up rfl)).1 (.unit 0) [] nofun (by decide +kernel) rfl (by decide +kernel) rfl rfl
    (by decide +kernel)
  have a2 := (p (array [] [(17047550, { rails := some true })]) (.link 511 127 3) (up rfl)).1 (.link 511 127 3) [(0, true)]
    nofun (by decide +kernel) (by decide +kernel) (by decide +kernel) rfl rfl (by decide +kernel)
  have a3 := (p (array storing [(0, { held := some true })]) (.unit 0) (up rfl)).2.1 nofun (.inr (.inl (by decide +kernel)))
  have a4 := (p (array storing [(0, { held := some true })]) (.unit 0) (up rfl)).2.2.1
    ⟨by decide +kernel, by decide +kernel, nofun⟩
  have a5 := (p (array storing [(0, { held := some true, rails := some true })]) (.unit 0) (up rfl)).2.2.2 fun w => absurd w.2.1 (by decide +kernel)
  obtain ⟨b1, -⟩ := a (array storing [(0, { held := some true, rails := some true })]) (.unit 0) true (up rfl)
    (by decide +kernel) (by decide +kernel)
  have b1 := b1 (.unit 0) (by decide +kernel) rfl (by intro n h; cases h; decide +kernel)
  have b2 := q m5 (.unit 0) (up rfl) (.inl fun v => by cases v <;> decide +kernel)
  obtain ⟨-, -, -, b3⟩ := a left (.unit 0) true (up rfl) (by decide +kernel) (by decide +kernel)
  have b3 := b3 (by decide +kernel)
  obtain ⟨-, b4, -⟩ := a (array passing [(0, { rails := some true })]) (.unit 0) true (up rfl) (by decide +kernel) (by decide +kernel)
  have b4 := b4 0 rfl (by decide +kernel) (by decide +kernel)
  obtain ⟨-, -, b5, -⟩ := a offering (.bankResp 2047 false 0) false (up rfl) (by decide +kernel) (by decide +kernel)
  have b5 := b5 _ _ (by decide +kernel) rfl rfl
  have c1 := (b (array storing [(0, { inAck := true })]) (.unit 0) (up rfl) nofun).1 ⟨by intro n h; cases h; decide +kernel,
    by decide +kernel, rfl, by decide +kernel⟩
  have c2 := (b m5 (.unit 0) (up rfl) nofun).2 fun w => absurd w.2.2.1 (by decide +kernel)
  have c3 := c m5 511 (.unit 0) awake5
  have d1 := ((d m5).1 0 (up rfl)).1 fun w => absurd w.1 (by decide +kernel)
  have d2 := (((d (array passing [])).1 0 (up rfl)).2.1 ⟨by decide +kernel, by decide +kernel⟩ rfl rfl).1 [] (by decide +kernel)
    (by decide +kernel) (by decide +kernel)
  have d3 := (((d (array passing [(0, { rails := some true })])).1 0 (up rfl)).2.2.1 ⟨by decide +kernel, by decide +kernel⟩ rfl
    (by decide)).1 (by decide +kernel)
  have d4 := (((d (array passing [(0, { rails := some true, inAck := true })])).1 0 (up rfl)).2.2.2.1
    ⟨by decide +kernel, by decide +kernel⟩ rfl (by decide)).1 (by decide +kernel)
  have d5 := (((d (array passing [(0, { inAck := true })])).1 0 (up rfl)).2.2.2.2 ⟨by decide +kernel, by decide +kernel⟩ rfl rfl).1
    (by decide +kernel)
  have e1 := ((d m5).2.1 (.unit 0) 511 awake5).1 nofun
  have e2 := ((d wrongCode).2.1 (.unit 0) 511 (awake (by decide +kernel))).2 ⟨_, .head _, rfl⟩
  have e3 := (d (inMode .m7)).2.2 (awake (by decide +kernel)) (by decide)
  have e4 := e3.2.1 (.gate 3)
  exact ⟨goes a1, goes a2, goes a3, goes a4, goes a5, goes b1, goes b2, goes b3, goes b4, goes b5, goes c1, goes c2, goes c3, goes d1,
    goes d2, goes d3, goes d4, goes d5, goes e1, goes e2, goes e4⟩

/-- Region 1 isolated with the drain policy; unit 992 of region 0 drives a line into it. -/
def drained : State :=
  { m5 with
    regs := [(0x260102, 1)]
    fab := {
      frames := [(744, BitVec.twoPow 4096 2397), (768, 262#4096 <<< 832)]
      stages := [(992, { held := some true, rails := some true })]
      collars := [(1, { isolate := true, cause := 1 })] } }

theorem met_CollarCommands : Obligations.CollarCommands →
    Goes (.regionReset .mailbox 511) m5 ∧ Goes (.regionReset .mailbox 512) m5 ∧ Goes (.regionReset .mailbox 511) (inMode .m7) ∧
    Goes (.regionReset .mailbox 511) (partly m5) ∧ Goes (.collarIsolate .mailbox 511) m5 ∧
    Goes (.collarIsolationComplete 511) m5 ∧ Goes (.collarIsolationComplete 511) left ∧ Goes (.collarOpen .mailbox 1) drained ∧
    Goes (.collarOpen .mailbox 511) m5 ∧ Goes (.collarOpen .mailbox 511) (partly m5) ∧ Goes (.collarPolicyWrite .mailbox 511 1) m5 ∧
    Goes (.collarPolicyWrite .mailbox 511 2) m5 ∧ Goes (.inboundDrain 1 (.unit 992)) drained ∧ Goes (.inboundDrain 511 (.unit 992)) m5 := by
  intro h
  obtain ⟨p, a4, -, a5, a6, a7, a8, a9⟩ := h m5 .mailbox 511
  have a1 := (p 511 (writes (by decide +kernel))).2.2.2 (by decide) rfl (by decide)
  have a2 := (p 512 (writes (by decide +kernel))).1 (by decide)
  have a3 := ((h (inMode .m7) .mailbox 0).1 511 (writes (by decide +kernel))).2.1 (by decide) (by decide)
  have b1 := ((h (partly m5) .mailbox 0).1 511 (writes (by decide +kernel))).2.2.1 (by decide) rfl (.inr rfl)
  have a4 := a4 (writes (by decide +kernel))
  have a5 := a5 rfl
  have a6 := (a6 awake5).1 nofun nofun rfl
  have a7 := (a7 (writes (by decide +kernel))).2.1 (by decide +kernel) rfl
  have c1 := (a8 1 (writes (by decide +kernel))).1 (by decide)
  have c2 := (a8 2 (writes (by decide +kernel))).2 (by decide)
  have c3 := (a9 (.unit 992) awake5).2 (by decide +kernel)
  obtain ⟨-, -, d1, -, -, d2, -, d3⟩ := h drained .mailbox 1
  have d1 := d1 rfl
  have d2 := (d2 (writes (by decide +kernel))).2.2 (by decide +kernel) rfl
  have d3 := (d3 (.unit 992) (awake (by decide +kernel))).1 ⟨rfl, by decide +kernel, by decide +kernel, .inl (by decide +kernel),
    by decide +kernel, by decide +kernel, true, by decide +kernel⟩
  obtain ⟨-, -, -, -, e1, -⟩ := h left .mailbox 511
  have e1 := (e1 (awake (by decide +kernel))).2 (.inr (.inl (by decide +kernel)))
  obtain ⟨-, -, -, -, -, e2, -⟩ := h (partly m5) .mailbox 511
  have e2 := (e2 (writes (by decide +kernel))).1 (.inl rfl)
  exact ⟨goes a1, goes a2, goes a3, goes b1, goes a4, goes a6, goes e1, goes d2, goes a7, goes e2, goes c1, goes c2, goes d3, goes c3⟩

/-- M5, one ms later, with a sample of region 511 that has seen nothing move. -/
def stalled : State :=
  { m5 with time := { ns := 1000000 }, regs := [(0x250001, 1)], fab := { lenses := [(511, { sampled := true })] } }

theorem met_LensAndWatch : Obligations.LensAndWatch →
    Goes (.lensSample 511) m5 ∧ Goes (.lensSample 511) (inMode .m7) ∧ Goes (.noProgressWindowEnd 511) stalled ∧
    Goes (.noProgressWindowEnd 511) m5 ∧ Goes (.noProgressWindowWrite .mailbox 60000) m5 ∧
    Goes (.noProgressWindowWrite .mailbox 60001) m5 ∧ Goes (.noProgressWindowWrite .mailbox 0) m5 := by
  intro h
  obtain ⟨a1, -, a3, -, a5, a6⟩ := h m5 511
  have a1 := a1 (up rfl)
  have a2 := (h stalled 511).2.1 (up rfl) (by decide +kernel)
  have a3 := a3 (up rfl) (by decide +kernel)
  have a4 := ((h (inMode .m7) 511).2.2.2.1 (awake (by decide +kernel)) (by decide)).1
  have a5 := a5 .mailbox 60000 (writes (by decide +kernel)) (by decide) (by decide)
  have a7 := a6 .mailbox 60001 (writes (by decide +kernel)) (.inr (by decide))
  have a8 := a6 .mailbox 0 (writes (by decide +kernel)) (.inl rfl)
  exact ⟨goes a1, goes a4, goes a2, goes a3, goes a5, goes a7, goes a8⟩

theorem met_TimebasePeriod : Obligations.TimebasePeriod → TimeLegal (Time.period m5).time := by
  intro h
  have a1 := (h m5 ⟨by decide, by decide, by decide⟩).2.1
  have a2 := (h { m5 with time := { sec := 2 ^ 48 - 1, ns := 999999999, sub := 2 ^ 40 - 1 } } ⟨by decide, by decide, by decide⟩)
  exact a1

/-- PPS_OUT is enabled, and a second has passed; PPS, or the follower, is the source, in holdover or not. -/
def pulsing : State := { m5 with time := { sec := 1 }, regs := [(0x300106, 1)] }
def following (k : Nat) : State :=
  { m5 with regs := [(0x300008, k)], servo := { m5.servo with first := false, state := 2, rates := [5, -8] } }
def high : State := { m5 with servo := { ppsHigh := true } }

theorem met_TimeWrites : Obligations.TimeWrites →
    Goes (.setTime .mailbox 999999999) (inMode .m3) ∧ Goes (.setTime .mailbox 1000000000) (inMode .m3) ∧
    Goes (.phaseCorrection .mailbox 0x7FFFFFFF) m5 ∧ Goes (.phaseCorrection .mailbox 1) { m5 with servo := { remain := 2 ^ 67 } } ∧
    Goes (.phaseCorrection .mailbox 1) (following 1) ∧ Goes (.rateAdjust .mailbox 0xFFFFFFFF) m5 ∧
    Goes (.rateAdjust .mailbox 1) (following 1) ∧ Goes (.disciplineSelect .mailbox 2) m5 ∧
    Goes (.disciplineSelect .mailbox 3) m5 ∧ Goes (.twoStepEntryRead .mailbox) m5 ∧
    Goes .ppsInEdge m5 ∧ Goes .ppsInEdge (following 1) ∧ Goes .ppsHoldover (following 1) ∧ Goes .ppsHoldover m5 ∧
    Goes .followerHoldover (following 2) ∧ Goes .followerHoldover m5 ∧ Goes .ppsOutRise pulsing ∧ Goes .ppsOutRise m5 ∧
    Goes .ppsOutFall high ∧ Goes .ppsOutFall m5 := by
  intro h
  obtain ⟨p, q⟩ := h
  obtain ⟨-, a2, a3, -, a5, a5', a6⟩ := p m5 .mailbox
  have a0 := ((p (inMode .m3) .mailbox).1 1000000000 (writes (by decide +kernel))).2 (by decide)
  have a1 := (p (inMode .m3) .mailbox).1 999999999 (writes (by decide +kernel)) |>.1 (by decide)
  have a2 := (a2 0x7FFFFFFF (writes (by decide +kernel))).1 (by decide +kernel) (by decide +kernel) (by decide +kernel)
  have b2 := ((p { m5 with servo := { remain := 2 ^ 67 } } .mailbox).2.1 1 (writes (by decide +kernel))).2.1 (by decide +kernel)
    (.inr (by decide +kernel))
  have a3 := a3 0xFFFFFFFF (writes (by decide +kernel)) (by decide +kernel)
  obtain ⟨-, b3, -, a4, -⟩ := p (following 1) .mailbox
  have b3 := (b3 1 (writes (by decide +kernel))).2.2 (by decide +kernel)
  have a4 := a4 1 (writes (by decide +kernel)) (by decide +kernel)
  have a5 := a5 2 (writes (by decide +kernel)) (by decide)
  have a5' := a5' 3 (writes (by decide +kernel)) (by decide)
  have a6 := a6 (rowOf 0x3002 2) (reads (by decide +kernel)) (by decide)
  obtain ⟨c1, -, -, c2, c3, -, c4, -, c5⟩ := q m5 awake5
  have c1 := c1 (by decide +kernel)
  have c2 := c2.2 (.inl (by decide +kernel))
  have c3 := c3.2 (.inl (by decide +kernel))
  have c4 := c4 (by decide +kernel)
  have c5 := c5 (by decide +kernel)
  obtain ⟨-, d1, -, d2, -⟩ := q (following 1) (awake (by decide +kernel))
  have d1 := d1 (by decide +kernel) (.inl rfl)
  have d2 := d2.1 (by decide +kernel) (by decide)
  have d3 := (q (following 2) (awake (by decide +kernel))).2.2.2.2.1.1 (by decide +kernel) (by decide)
  have d4 := (q pulsing (awake (by decide +kernel))).2.2.2.2.2.1 (by decide +kernel)
  have d5 := (q high (awake (by decide +kernel))).2.2.2.2.2.2.2.1 (by decide +kernel)
  have d6 := (q { inMode .m3 with time := { ns := 400000000 }, regs := [(0x300008, 1)] } (awake (by decide +kernel))).2.2.1
    (by decide +kernel) (by decide +kernel)
  exact ⟨goes a1, goes a0, goes a2, goes b2, goes b3, goes a3, goes a4, goes a5, goes a5', goes a6, goes c1, goes d1, goes d2, goes c2,
    goes d3, goes c3, goes d4, goes c4, goes d5, goes c5⟩

/-- Region 511's keeper in a given state. -/
def keeping (k : Keeper) : State := { m5 with keepers := [(511, k)] }

/-- A Streller lane that is Up, the time master or follower of it. -/
def timing (l : Table Nat) : State := { m5 with regs := l, time := { ns := 1000000 }, lanes := [(3, { st := .t7 })] }

/-- The follower of lane 3, with sync and delay request exchanged. -/
def exchanged : State := { timing [(0x300008, 2), (0x300301, 3)] with servo := { exchange := [9, 16000000, 16000000] } }

theorem met_KeepersAndMessages : Obligations.KeepersAndMessages →
    Goes (.timeWord 511 8192) (keeping { last := some 4096 }) ∧ Goes (.timeWord 511 8192) (keeping {}) ∧
    Goes (.timeWord 511 8192) (keeping { locked := true, expect := 8192 }) ∧
    Goes (.timeWord 511 8192) (keeping { locked := true, odd := some 4096 }) ∧
    Goes (.timeWord 511 8192) (keeping { locked := true }) ∧ Goes (.wavefrontCalibration 511 true 7) m5 ∧
    Goes (.wavefrontCalibration 511 false 7) m5 ∧ Goes (.wavefrontCalibration 511 true 7) (inMode .m3) ∧
    Goes .wavefrontTick (timing []) ∧ Goes .wavefrontTick m5 ∧
    Goes .timeMessageSend (timing [(0x300302, 1)]) ∧ Goes .timeMessageSend m5 ∧ Goes (.timeMessage 3 0 0 0) m5 ∧
    Goes (.timeMessage 3 1 0 0) (timing [(0x300302, 1), (0x300303, 8)]) ∧ Goes (.timeMessage 3 1 0 0) (timing []) ∧
    Goes (.timeMessage 3 2 0 0) (timing []) ∧ Goes (.timeMessage 3 3 0 0) exchanged ∧
    Goes (.timeMessage 3 2 0 0) (timing [(0x300008, 2), (0x300301, 3)]) ∧
    Goes (.timeMessage 3 0 9 0) (timing [(0x300008, 2), (0x300301, 3)]) ∧ Goes (.timeMessage 3 2 1000000 0) exchanged := by
  intro h
  obtain ⟨p, q⟩ := h
  have a1 := (p (keeping { last := some 4096 }) 511 8192 (awake (by decide +kernel))).1 rfl (by decide +kernel)
  have a2 := (p (keeping {}) 511 8192 (awake (by decide +kernel))).2.1 rfl (by decide +kernel)
  have a3 := (p (keeping { locked := true, expect := 8192 }) 511 8192 (awake (by decide +kernel))).2.2.1 rfl rfl
  have a4 := (p (keeping { locked := true, odd := some 4096 }) 511 8192 (awake (by decide +kernel))).2.2.2.1 rfl
    (by decide +kernel) (by decide +kernel)
  have a5 := (p (keeping { locked := true }) 511 8192 (awake (by decide +kernel))).2.2.2.2.1 rfl (by decide +kernel)
    (by decide +kernel)
  obtain ⟨-, -, -, -, -, -, a6, a7, -⟩ := p m5 511 0 awake5
  obtain ⟨a6, b6⟩ := a6 7 (.inr (.inl rfl))
  have a7 := a7 (by decide +kernel)
  have a8 := (p (inMode .m3) 511 0 (awake (by decide +kernel))).2.2.2.2.2.1 true 7 nofun nofun nofun
  have a9 := (p (timing []) 511 0 (awake (by decide +kernel))).2.2.2.2.2.2.2.2 (by decide +kernel)
  obtain ⟨b1, -, b2, -⟩ := q m5 3 0 0 awake5
  have b1 := b1 (.inl (by decide +kernel))
  have b2 := b2 (.inl (by decide +kernel)) 0
  obtain ⟨-, b3, -, -, -, -, -, b4, -⟩ := q (timing [(0x300302, 1), (0x300303, 8)]) 3 0 0 (awake (by decide +kernel))
  have b3 := b3 (by decide +kernel) (by decide +kernel)
  have b4 := b4 rfl (by decide +kernel) (by decide +kernel) (by decide +kernel)
  have b5 := (q (timing [(0x300302, 1)]) 3 0 0 (awake (by decide +kernel))).2.1 (by decide +kernel) (by decide +kernel)
  obtain ⟨-, -, -, c1, c2, -⟩ := q (timing []) 3 0 0 (awake (by decide +kernel))
  have c1 := c1 (.inl (by decide +kernel))
  have c2 := c2 (.inl (by decide +kernel)) 2 (by decide)
  obtain ⟨-, -, -, -, -, -, c3, -, c4⟩ := q (timing [(0x300008, 2), (0x300301, 3)]) 3 9 0 (awake (by decide +kernel))
  have c3' := (q (timing [(0x300008, 2), (0x300301, 3)]) 3 0 0 (awake (by decide +kernel))).2.2.2.2.2.2.1 (by decide)
  have c3 := c3 (by decide)
  have c4 := (c4 rfl (by decide +kernel) (by decide +kernel) (by decide +kernel)).1
  have d1 := (q exchanged 3 0 0 (awake (by decide +kernel))).2.2.2.2.2.1 3 (by decide)
  obtain ⟨-, -, -, -, -, -, -, -, d2⟩ := q exchanged 3 1000000 0 (awake (by decide +kernel))
  have d2 := ((d2 rfl (by decide +kernel) (by decide +kernel) (by decide +kernel)).2 9 16000000 16000000 rfl).1 (.inl rfl)
  obtain ⟨-, -, -, -, -, -, -, -, d3⟩ := q { exchanged with modes := (inMode .m3).modes } 3 1000000 0 (awake (by decide +kernel))
  have d3 := ((d3 rfl (by decide +kernel) (by decide +kernel) (by decide +kernel)).2 9 16000000 16000000 rfl).2 (by decide +kernel)
  exact ⟨goes a1, goes a2, goes a3, goes a4, goes a5, goes a6, goes b6, goes a8, goes a9, goes a7, goes b5, goes b1, goes b2, goes b4,
    goes c1, goes c2, goes d1, goes c3', goes c4, goes d2⟩

/-- Gate 8191 timed with epochs of 1 µs, its bank 1 as given, its region's keeper locked; `e` is entry 0 of bank 1. -/
def scheduled (x : Gate) (held : Option Bool) (e : W64) (ns : Nat) : State :=
  { m5 with
    time := { ns := ns }
    regs := [(0x33FF10, 2 ^ 62 + 125 * 2 ^ 30 + 1000)]
    gates := [(8191, x)]
    entries := [(1048512, e)]
    keepers := [(511, { locked := true })]
    fab := { stages := match held with | none => [] | some b => [(16785407, { held := some b })] } }

/-- An entry due 500 ns into its epoch, valid; bank 1 committed for epoch 1. -/
def dueEntry : W64 := 0x8000000000001F40
def committed : Gate := { bank1 := { phase := .committed 1 false } }

theorem met_GateWrites : Obligations.GateWrites →
    Goes (.gateConfigWrite .mailbox 8191 0) m5 ∧ Goes (.gateConfigWrite .mailbox 8191 0x40000000000003E8) m5 ∧
    Goes (.gateConfigWrite .mailbox 8191 0xC000000000000000) m5 ∧
    Goes (.gateConfigWrite .mailbox 8191 0x40000000000003E8) (scheduled {} none 0 0) ∧
    Goes (.gateConfigWrite .mailbox 8191 0x1F400003E8) (scheduled { bank1 := { phase := .active 1 } } none 0 0) ∧
    Goes (.epochOriginWrite .mailbox 511 1) m5 ∧ Goes (.epochOriginWrite .mailbox 511 1) (scheduled {} none 0 0) ∧
    (∃ d, Goes (.bankWrite .mailbox d) m5) ∧ (∃ d, Goes (.bankWrite .mailbox d) (scheduled committed none 0 0)) ∧
    Goes (.bankWrite .mailbox []) m5 ∧ Goes (.commit .mailbox 8191 1 1) (scheduled {} none dueEntry 0) ∧
    Goes (.commit .mailbox 8191 1 1) m5 ∧ Goes (.commit .mailbox 8191 1 2) (scheduled {} none dueEntry 0) ∧
    Goes (.commit .mailbox 8192 1 2) m5 ∧ Goes (.commit .mailbox 8191 1 1) (scheduled {} none dueEntry 500) ∧
    Goes (.uncommit .mailbox 8191 1) (scheduled committed none dueEntry 0) ∧
    Goes (.commit .mailbox 8191 1 0xFFFFFFFF) (scheduled committed none dueEntry 500) ∧
    Goes (.uncommit .mailbox 8191 1) (scheduled { bank1 := { phase := .active 1 } } none 0 0) ∧
    Goes (.uncommit .mailbox 8191 1) m5 := by
  intro h
  obtain ⟨p, q⟩ := h
  obtain ⟨a1, a2, a3, a4⟩ := p m5 .mailbox 8191 true
  have b1 := (a1 0 (writes (by decide +kernel))).2.2 (by decide +kernel) (by decide +kernel)
  have b2 := (a1 0x40000000000003E8 (writes (by decide +kernel))).2.2 (by decide +kernel) (by decide +kernel)
  have b3 := (a1 0xC000000000000000 (writes (by decide +kernel))).1 (by decide +kernel)
  have a2 := (a2 63 [dueEntry] (writes (by decide +kernel)) nofun (by decide)).1 rfl
  have a3 := (a3 1 (writes (by decide +kernel)) (by decide)).2.1 (by decide +kernel)
  have a4 := (a4 (writes (by decide +kernel)) _ (.head _)).2.2.2 rfl
  obtain ⟨c1, -, -, -⟩ := p (scheduled {} none 0 0) .mailbox 8191 true
  have c1 := (c1 0x40000000000003E8 (writes (by decide +kernel))).2.1 (by decide +kernel) (by decide +kernel)
  obtain ⟨c2, -, -, c3⟩ := p (scheduled { bank1 := { phase := .active 1 } } none 0 0) .mailbox 8191 true
  have c2 := (c2 0x1F400003E8 (writes (by decide +kernel))).2.2 (by decide +kernel) (by decide +kernel)
  have c3 := (c3 (writes (by decide +kernel)) _ (.head _)).2.2.1 1 (.inl rfl)
  obtain ⟨-, -, d1, -⟩ := p (scheduled {} none dueEntry 0) .mailbox 8191 true
  have d2 := (d1 1 (writes (by decide +kernel)) (by decide)).1 (by decide +kernel) (by decide +kernel) (by decide +kernel)
  have d3 := (d1 2 (writes (by decide +kernel)) (by decide)).2.2.2 (by decide +kernel) (by decide +kernel) (by decide +kernel)
  obtain ⟨-, -, d4, -⟩ := p (scheduled {} none dueEntry 500) .mailbox 8191 true
  have d4 := (d4 1 (writes (by decide +kernel)) (by decide)).2.2.1 (by decide +kernel) (by decide +kernel)
  obtain ⟨-, e1, -, e2⟩ := p (scheduled committed none dueEntry 0) .mailbox 8191 true
  have e1 := (e1 0 [0] (writes (by decide +kernel)) nofun (by decide)).2 (by decide +kernel)
  have e2 := (e2 (writes (by decide +kernel)) _ (.head _)).1 1 false rfl (by decide +kernel)
  obtain ⟨-, -, -, e3⟩ := p (scheduled committed none dueEntry 500) .mailbox 8191 true
  have e3 := (e3 (writes (by decide +kernel)) _ (.tail _ (.head _))).2.1 1 false rfl (by decide +kernel)
  obtain ⟨f1, f2, f3⟩ := q m5 .mailbox
  have f1 := (f1 511 1 (writes (by decide +kernel))).1 (by decide +kernel)
  have f2 := f2 [] (writes (by decide +kernel)) (.inl (by decide))
  have f3 := (f3 8192 1 2 (writes (by decide +kernel)) (.inl (by decide))).1
  have f4 := ((q (scheduled {} none 0 0) .mailbox).1 511 1 (writes (by decide +kernel))).2 (by decide +kernel)
  have e1' := (p (scheduled committed none 0 0) .mailbox 8191 true).2.1 0 [0] (writes (by decide +kernel)) nofun (by decide) |>.2
    (by decide +kernel)
  exact ⟨goes b1, goes b2, goes b3, goes c1, goes c2, goes f1, goes f4, ⟨_, goes a2⟩, ⟨_, goes e1'⟩, goes f2, goes d2, goes a3, goes d3,
    goes f3, goes d4, goes e2, goes e3, goes c3, goes a4⟩

/-- Bank 1 active in epoch 1 or held after it, and the firing loop. -/
def live (f : FirePhase) : Gate := { bank1 := { phase := .active 1 }, next := 2, fire := f }

/-- The same gate with the token that it has offered before still outside a region that was reset. -/
def blocking (f : FirePhase) : State :=
  { scheduled (live f) (some true) dueEntry 1500 with fab := {
      stages := [(16785407, { held := some true })]
      orphans := [{ chan := .gate 8191, region := 511, live := false, value := some true }] } }

theorem met_GateEvents : Obligations.GateEvents →
    Goes (.decisionInstant 8191) (scheduled { committed with next := 1 } none 0 500) ∧
    Goes (.decisionInstant 8191) (scheduled { next := 1 } none 0 500) ∧ Goes (.decisionInstant 8191) m5 ∧
    Goes (.decisionInstant 8191) (inMode .m6) ∧
    Goes (.epochStart 8191) (scheduled (live .idle) none 0 2000) ∧
    Goes (.overlapLimit 8191) (scheduled { bank1 := { phase := .tail 1 } } none 0 2125) ∧
    Goes (.gateSetup 8191) (scheduled (live .idle) (some true) dueEntry 1492) ∧
    Goes (.gateSetup 8191) (scheduled (live .idle) none dueEntry 1492) ∧
    Goes (.gateSetup 8191) (scheduled (live .idle) none dueEntry 1491) ∧ Goes (.gateSetup 8191) m5 ∧
    Goes (.gateRelease 8191) (scheduled (live (.armed true 0 false)) (some true) dueEntry 1500) ∧
    Goes (.gateRelease 8191) (scheduled (live (.armed true 0 false)) none dueEntry 1500) ∧
    Goes (.gateRelease 8191) (scheduled (live (.armed true 0 false)) none dueEntry 1499) ∧
    Goes (.gateRelease 8191) (blocking (.armed true 0 false)) ∧ Goes (.gateRelease 8191) (blocking .releasing) ∧
    Goes (.gateRelease 8191) (scheduled (live .releasing) (some true) dueEntry 1500) ∧
    Goes (.gateRelease 8191) (scheduled (live .releasing) none dueEntry 1500) ∧ Goes (.gateRelease 8191) m5 ∧
    Goes (.lateRelease 8191) (scheduled (live (.waiting true 0)) (some true) dueEntry 1500) ∧
    Goes (.lateRelease 8191) (scheduled (live (.waiting true 0)) none dueEntry 1500) ∧ Goes (.lateRelease 8191) m5 ∧
    Goes (.gateCapture 0) (array gated [(24576, { rails := some true })]) ∧ Goes (.gateCapture 0) (inMode .m7) := by
  intro h
  obtain ⟨p, q, f, g⟩ := h
  have a1 := (p (scheduled { committed with next := 1 } none 0 500) 8191 (awake (by decide +kernel)) (by decide)).1
    (by decide +kernel) rfl
  have a2 := (p (scheduled { next := 1 } none 0 500) 8191 (awake (by decide +kernel)) (by decide)).2.1 (by decide +kernel)
    (by decide +kernel)
  have a3 := (p m5 8191 awake5 (by decide)).2.2.1 (by decide +kernel)
  have a4 := (p (scheduled (live .idle) none 0 2000) 8191 (awake (by decide +kernel)) (by decide)).2.2.2.1
  have a5 := (p (scheduled { bank1 := { phase := .tail 1 } } none 0 2125) 8191 (awake (by decide +kernel)) (by decide)).2.2.2.2
  have b1 := (q (scheduled { bank1 := { phase := .committed 1 true } } none 0 1000) 8191 true 1).2.1 true rfl (by decide +kernel)
  have b2 := (q (scheduled (live .idle) none 0 2000) 8191 true 1).2.2.1 rfl (by decide +kernel)
  have b3 := (q m5 8191 true 0).2.2.2 (.inr (.inr (.inr rfl)))
  have b4 := (q (scheduled { bank1 := { phase := .tail 1 } } none dueEntry 2125) 8191 true 1).1
  obtain ⟨c1, -⟩ := f (scheduled (live .idle) (some true) dueEntry 1492) 8191 (awake (by decide +kernel))
  have c1 := (((c1 (by decide)).1 true 0 24000).1 rfl (by decide +kernel)).1 (by decide +kernel)
  obtain ⟨c2, -⟩ := f (scheduled (live .idle) none dueEntry 1492) 8191 (awake (by decide +kernel))
  have c2 := (((c2 (by decide)).1 true 0 24000).1 rfl (by decide +kernel)).1 (by decide +kernel)
  obtain ⟨c3, -⟩ := f (scheduled (live .idle) none dueEntry 1491) 8191 (awake (by decide +kernel))
  have c3 := (((c3 (by decide)).1 true 0 24000).1 rfl (by decide +kernel)).2 (by decide +kernel)
  obtain ⟨c4, -⟩ := f { scheduled (live .idle) none dueEntry 1492 with regs := [(0x33FF10, 2 ^ 62 + 2 ^ 61 + 1000)] } 8191
    (awake (by decide +kernel))
  have c4 := (((c4 (by decide)).1 true 0 24000).1 rfl (by decide +kernel)).1 (by decide +kernel)
  obtain ⟨d1, -⟩ := f (scheduled (live (.armed true 0 false)) (some true) dueEntry 1500) 8191 (awake (by decide +kernel))
  have d1 := (((d1 (by decide)).1 true 0 24000).2.1 false rfl (by decide +kernel)).1 (by decide +kernel) (by decide +kernel)
  obtain ⟨d2, -⟩ := f (scheduled (live (.armed true 0 false)) none dueEntry 1500) 8191 (awake (by decide +kernel))
  have d2 := (((d2 (by decide)).1 true 0 24000).2.1 false rfl (by decide +kernel)).2.1 (by decide +kernel) (by decide +kernel)
  obtain ⟨d3, -⟩ := f (scheduled (live (.armed true 0 false)) none dueEntry 1499) 8191 (awake (by decide +kernel))
  have d3 := (((d3 (by decide)).1 true 0 24000).2.1 false rfl (by decide +kernel)).2.2 (by decide +kernel)
  obtain ⟨d4, -⟩ := f (blocking (.armed true 0 false)) 8191 (awake (by decide +kernel))
  have d4 := (((d4 (by decide)).1 true 0 24000).2.1 false rfl (by decide +kernel)).1 (by decide +kernel) (by decide +kernel)
  obtain ⟨d5, -⟩ := f (blocking .releasing) 8191 (awake (by decide +kernel))
  have d5 := ((d5 (by decide)).2 rfl).2.2 (by decide +kernel) (by decide +kernel)
  obtain ⟨d6, -⟩ := f (scheduled (live .releasing) (some true) dueEntry 1500) 8191 (awake (by decide +kernel))
  have d6 := ((d6 (by decide)).2 rfl).2.1 (by decide +kernel) (by decide +kernel)
  obtain ⟨d7, -⟩ := f (scheduled (live .releasing) none dueEntry 1500) 8191 (awake (by decide +kernel))
  have d7 := ((d7 (by decide)).2 rfl).1 (by decide +kernel)
  obtain ⟨e1, -⟩ := f (scheduled (live (.waiting true 0)) (some true) dueEntry 1500) 8191 (awake (by decide +kernel))
  have e1 := (((e1 (by decide)).1 true 0 24000).2.2 rfl (by decide +kernel)).1 (by decide +kernel)
  obtain ⟨e2, -⟩ := f (scheduled (live (.waiting true 0)) none dueEntry 1500) 8191 (awake (by decide +kernel))
  have e2 := (((e2 (by decide)).1 true 0 24000).2.2 rfl (by decide +kernel)).2 (by decide +kernel)
  obtain ⟨-, e3, e4, e5, -⟩ := f m5 8191 awake5
  have e3 := e3 (.inr (.inr (by decide +kernel)))
  have e4 := e4 (.inr ⟨nofun, nofun⟩)
  have e5 := e5 (.inr nofun)
  obtain ⟨-, -, -, -, e6⟩ := f (inMode .m6) 8191 (awake (by decide +kernel))
  have e6 := e6 rfl _ (.head _)
  have g1 := (g (array gated [(24576, { rails := some true })]) 0 (awake (by decide +kernel))).1 [(0, true)] (by decide +kernel)
    rfl rfl (by decide +kernel) _ (.head _)
  have g2 := (g (inMode .m7) 0 (awake (by decide +kernel))).2 (.inl (.inl (by decide))) _ (.head _)
  exact ⟨goes a1, goes a2, goes a3, goes e6, goes a4, goes a5, goes c1, goes c2, goes c3, goes e3, goes d1, goes d2, goes d3, goes d4,
    goes d5, goes d6, goes d7, goes e4, goes e1, goes e2, goes e5, goes g1, goes g2⟩

theorem met_CheckBits : Obligations.CheckBits → (Flags.encode 1).getLsbD 71 = true ∧ (Flags.encode 1).getLsbD 70 = false := by
  intro h
  have a1 := (h.2 1).2.1 6 (by decide)
  have a2 := (h.2 1).2.2
  exact ⟨by rw [a2]; decide +kernel, by rw [a1]; decide +kernel⟩

/-- A stored word with the bits of a list set. -/
def bits (l : List Nat) : BitVec 72 := l.foldl (fun a i => a ^^^ BitVec.twoPow 72 i) 0

theorem met_SyndromeTable : Obligations.SyndromeTable →
    Flags.decode 0 = .good ∧ Flags.decode (bits [71]) = .corrected 0 ∧ Flags.decode (bits [70]) = .corrected 0 ∧
    Flags.decode (bits [63]) = .corrected 0 ∧ Flags.decode (bits [57, 68, 69]) = .bad ∧ Flags.decode (bits [0, 1]) = .bad ∧
    (Flags.access 3 1 (bits [63])).corrected = true := by
  intro h
  have a1 := (h 0).1 (by decide +kernel) (by decide +kernel)
  have a2 := (h (bits [71])).2.1 (by decide +kernel) (by decide +kernel)
  have a3 := (h (bits [70])).2.2.1 6 (by decide) (by decide +kernel) (by decide +kernel)
  have a4 := (h (bits [63])).2.2.2.1 63 (by decide) (by decide +kernel) (by decide +kernel)
  have a5 := (h (bits [57, 68, 69])).2.2.2.2.1 (by decide +kernel) (by decide +kernel) (by decide +kernel) (by decide +kernel)
  have a6 := (h (bits [0, 1])).2.2.2.2.2.1 (by decide +kernel) (by decide +kernel)
  have a7 := ((h (bits [63])).2.2.2.2.2.2 3 1 (by decide)).2.2 ⟨_, a4⟩
  exact ⟨a1, a2, a3, a4, a5, a6, a7⟩

theorem met_ErrorCode : Obligations.ErrorCode →
    Flags.decode (Flags.encode 5 ^^^ BitVec.twoPow 72 71) = .corrected (Flags.encode 5) ∧
    Flags.decode (Flags.encode 5 ^^^ BitVec.twoPow 72 0 ^^^ BitVec.twoPow 72 71) = .bad ∧
    Flags.access 2 6 3 = ⟨3, 3, false, true⟩ := by
  intro h
  have a1 := h.1 5 71 (by decide)
  have a2 := (h.2.1 5).2 0 71 (by decide) (by decide)
  have a3 := (h.2.2 0 6 3).2.2.2.2 2 (by decide) (by decide +kernel)
  have a4 := h.2.2 5 6 3
  exact ⟨a1, a2, a3⟩

/-- Bank 2044 with a read-only port A whose fifteen channels all carry a token of value 1. -/
def requesting : State :=
  { m5 with fab := {
      frames := [(392449, (List.range 8).foldl (fun a i => a ||| BitVec.twoPow 4096 (1707 + 11 * i)) 0),
        (392473, (List.range 7).foldl (fun a i => a ||| BitVec.twoPow 4096 (1707 + 11 * i)) 0),
        (392615, BitVec.twoPow 4096 512)]
      stages := [(16745472, { held := some true, rails := some true }), (16745504, { held := some true, rails := some true })] } }

/-- A request to word 8191. -/
def req (op : BitVec 2) (d : W64) : BankReq := { op := op, addr := 8191, data := d }

/-- Bank n in a given state, its last word holding 5. -/
def banking (n : Nat) (b : Bank) : State :=
  { m5 with banks := [(n, b)], bankMem := [(8192 * n + 8191, Flags.encode 5)] }

theorem on {s : State} {n : Nat} (h : (decide (Ops.power s n = .on) && !(Ops.bank s n).borrowed) = true) : BankOn s n := by
  simp at h; exact ⟨h.1, h.2⟩

/-- A request of port A of bank 2047 that waits or that has been granted, and one that the maintenance requester holds. -/
def waitA (op : BitVec 2) : Bank := { portA := { waiting := some (req op 9) } }
def asks (op : BitVec 2) : MaintReq := { kind := .host 0 8, req := req op 7 }

theorem met_BankArbitration : Obligations.BankArbitration →
    Goes (.bankRequest 2044 false) requesting ∧ Goes (.bankRequest 2044 false) m5 ∧ Goes (.bankRequest 2044 true) (inMode .m7) ∧
    Goes (.bankGrant 2047) (banking 2047 (waitA 1)) ∧ Goes (.bankGrant 2047) (banking 2047 { waitA 1 with held := [asks 1] }) ∧
    Goes (.bankGrant 2047) (banking 2047 { waitA 1 with held := [asks 1], aWins := false }) ∧
    Goes (.bankGrant 2047) (banking 2047 { portB := { waiting := some (req 1 9) } }) ∧
    Goes (.bankGrant 2047) (banking 2047 { waitA 1 with portB := { waiting := some (req 0 0) } }) ∧
    Goes (.bankGrant 2047) (banking 2047 { waitA 1 with portB := { granted := some (req 0 0) } }) ∧
    Goes (.bankGrant 2047) (banking 2047 { waitA 1 with power := some .off }) ∧
    Goes (.bankGrant 2047) (banking 2047 { waitA 1 with power := some .retain }) ∧ Goes (.bankGrant 2047) m5 ∧
    Goes (.bankGrant 2032) (banking 2032 { waitA 1 with portB := { waiting := some (req 0 0) } }) ∧
    Goes (.bankGrant 2032) (banking 2032 { waitA 1 with held := [asks 0] }) ∧
    Goes (.bankGrant 2032) (banking 2032 { portB := { waiting := some (req 1 9) }, held := [asks 0], bWins := false }) ∧
    Goes (.bankGrant 2032) (banking 2032 { portB := { waiting := some (req 1 9) }, held := [asks 0] }) := by
  intro h
  obtain ⟨p, q, z, f⟩ := h
  have a1 := (p requesting 2044 false (awake (by decide +kernel))).1 32767 ⟨rfl, by decide +kernel⟩ (by decide +kernel)
  have a2 := (p m5 2044 false awake5).2 (.inl (by decide +kernel))
  have a3 := (p (inMode .m7) 2044 true (awake (by decide +kernel))).2 (.inr (by decide +kernel))
  obtain ⟨q1, -⟩ := q {}
  have q1 := q1 (.inl rfl)
  obtain ⟨-, -, q2, -⟩ := q { waitA 1 with portB := { waiting := some (req 0 0) } }
  have q2 := q2 rfl rfl
  obtain ⟨-, -, -, q3, -⟩ := q (waitA 1)
  have q3 := q3 rfl rfl
  obtain ⟨-, q4, -⟩ := q {}
  have q4 := q4 rfl rfl
  obtain ⟨-, -, -, -, q5, -⟩ := q { portB := { waiting := some (req 0 0) }, bWins := false }
  have q5 := q5 rfl rfl
  obtain ⟨-, -, -, -, -, q6⟩ := q { waitA 1 with portB := { waiting := some (req 0 0) }, aWins := false }
  have q6 := q6 rfl rfl
  obtain ⟨-, f1, -⟩ := f (banking 2047 (waitA 1)) 2047 (awake (by decide +kernel)) (.inl (by decide +kernel))
  have f1 := (f1 (by decide) (by decide +kernel)).2.1 false (by decide +kernel)
  obtain ⟨-, f2, -⟩ := f (banking 2047 { waitA 1 with held := [asks 1] }) 2047 (awake (by decide +kernel)) (.inl (by decide +kernel))
  have f2 := (f2 (by decide) (by decide +kernel)).2.1 false (by decide +kernel)
  obtain ⟨-, f3, -⟩ := f (banking 2047 { waitA 1 with held := [asks 1], aWins := false }) 2047 (awake (by decide +kernel))
    (.inl (by decide +kernel))
  have f3 := (f3 (by decide) (by decide +kernel)).2.2 (by decide +kernel)
  obtain ⟨-, f4, -⟩ := f (banking 2047 { portB := { waiting := some (req 1 9) } }) 2047 (awake (by decide +kernel))
    (.inl (by decide +kernel))
  have f4 := (f4 (by decide) (by decide +kernel)).2.1 true (by decide +kernel)
  obtain ⟨-, f5, -⟩ := f (banking 2047 { waitA 1 with portB := { waiting := some (req 0 0) } }) 2047 (awake (by decide +kernel))
    (.inl (by decide +kernel))
  have f5 := (f5 (by decide) (by decide +kernel)).2.1 false (by decide +kernel)
  obtain ⟨-, -, f6, -⟩ := f (banking 2047 { waitA 1 with portB := { granted := some (req 0 0) } }) 2047 (awake (by decide +kernel))
    (.inl (by decide +kernel))
  have f6 := f6 (by decide) (by decide +kernel)
  obtain ⟨f8, f7, -⟩ := f (banking 2047 { waitA 1 with power := some .off }) 2047 (awake (by decide +kernel))
    (.inr (by decide +kernel))
  have f7 := (f7 (by decide) (by decide +kernel)).2.1 false (by decide +kernel)
  have f8 := f8 false (banking 2047 { waitA 1 with power := some .off })
  have z1 := z (banking 2047 { waitA 1 with power := some .retain }) 2047 (awake (by decide +kernel)) (by decide +kernel)
    (by decide +kernel)
  obtain ⟨-, f9, -⟩ := f m5 2047 awake5 (.inl (by decide +kernel))
  have f9 := (f9 (by decide) (by decide +kernel)).1 (by decide +kernel)
  obtain ⟨-, -, -, g1⟩ := f (banking 2032 { waitA 1 with portB := { waiting := some (req 0 0) } }) 2032 (awake (by decide +kernel))
    (.inl (by decide +kernel))
  have g1 := (g1 (by decide)).1 (.inl (by decide +kernel))
  obtain ⟨-, -, -, g2⟩ := f (banking 2032 { waitA 1 with held := [asks 0] }) 2032 (awake (by decide +kernel))
    (.inl (by decide +kernel))
  have g2 := ((g2 (by decide)).2 (by decide +kernel) (.inl (by decide +kernel)) (asks 0) [] (by decide +kernel)).1 (by decide +kernel)
  obtain ⟨-, -, -, g3⟩ := f (banking 2032 { portB := { waiting := some (req 1 9) }, held := [asks 0], bWins := false }) 2032
    (awake (by decide +kernel)) (.inl (by decide +kernel))
  have g3 := ((g3 (by decide)).2 (by decide +kernel) (.inr (by decide +kernel)) (asks 0) [] (by decide +kernel)).2 (by decide +kernel)
  obtain ⟨-, -, -, g4⟩ := f (banking 2032 { portB := { waiting := some (req 1 9) }, held := [asks 0] }) 2032
    (awake (by decide +kernel)) (.inl (by decide +kernel))
  have g4 := (g4 (by decide)).1 (.inr ⟨by decide +kernel, by decide +kernel⟩)
  exact ⟨goes a1, goes a2, goes a3, goes f1, goes f2, goes f3, goes f4, goes f5, goes f6, goes f7, goes z1, goes f9, goes g1, goes g2,
    goes g3, goes g4⟩

/-- Both ports of a dual-port bank have been granted word 8191. -/
def pair (a b : BitVec 2) (x y : W64) : State :=
  banking 2032 { portA := { granted := some (req a x) }, portB := { granted := some (req b y) } }

theorem met_BankAccess : Obligations.BankAccess →
    Goes (.bankAccessComplete 2047 0) (banking 2047 { portA := { granted := some (req 2 9) } }) ∧
    Goes (.bankAccessComplete 2047 3) (banking 2047 { portB := { granted := some (req 0 9) } }) ∧
    Goes (.bankAccessComplete 2047 0) m5 ∧ Goes (.dualPortCycle 2047) m5 ∧ Goes (.bankAccessComplete 2032 0) m5 ∧
    Goes (.dualPortCycle 2032) m5 ∧ Goes (.dualPortCycle 2032) (banking 2032 { portA := { granted := some (req 1 9) } }) ∧
    Goes (.dualPortCycle 2032) (banking 2032 { portB := { granted := some (req 2 9) } }) ∧
    Goes (.dualPortCycle 2032) (pair 0 1 0 9) ∧
    Goes (.dualPortCycle 2032) (banking 2032 {
      portA := { granted := some (req 1 9) }, portB := { granted := some { op := 0, addr := 0, data := 0 } } }) := by
  intro h
  obtain ⟨p, q, f⟩ := h
  have a1 := (p (banking 2047 { portA := { granted := some (req 2 9) } }) 2047 0 (req 2 9) (awake (by decide +kernel))
    (by decide)).1 rfl
  have a2 := (p (banking 2047 { portB := { granted := some (req 0 9) } }) 2047 3 (req 0 9) (awake (by decide +kernel))
    (by decide)).2.1 rfl rfl
  obtain ⟨-, -, a3, a4⟩ := p m5 2047 0 (req 0 0) awake5 (by decide)
  have a3 := a3 (by decide +kernel) (by decide +kernel)
  obtain ⟨a5, a6, -⟩ := q m5 2032 (req 0 0) (req 0 0) awake5 (by decide)
  have a5 := a5 0
  have a6 := a6 (by decide +kernel) (by decide +kernel)
  have b1 := (q (banking 2032 { portA := { granted := some (req 1 9) } }) 2032 (req 1 9) (req 0 0) (awake (by decide +kernel))
    (by decide)).2.2.1 rfl rfl
  have b2 := (q (banking 2032 { portB := { granted := some (req 2 9) } }) 2032 (req 0 0) (req 2 9) (awake (by decide +kernel))
    (by decide)).2.2.2.1 rfl rfl
  have b3 := (q (pair 0 1 0 9) 2032 (req 0 0) (req 1 9) (awake (by decide +kernel)) (by decide)).2.2.2.2.2 rfl rfl rfl
  have b4 := (q (banking 2032 {
      portA := { granted := some (req 1 9) }, portB := { granted := some { op := 0, addr := 0, data := 0 } } }) 2032 (req 1 9)
    { op := 0, addr := 0, data := 0 } (awake (by decide +kernel)) (by decide)).2.2.2.2.1 rfl rfl (by decide)
  have c1 := ((f (pair 0 0 0 9) 2032 (req 0 0) (req 0 9) rfl).1 false 5 (fun _ => by decide +kernel) nofun).1 rfl rfl
  have c2 := ((f (pair 0 1 0 9) 2032 (req 0 0) (req 1 9) rfl).1 false 5 (fun _ => by decide +kernel) nofun).2.1 rfl (by decide)
  have c3 := ((f (pair 3 0 4 9) 2032 (req 3 4) (req 0 9) rfl).1 false 5 (fun _ => by decide +kernel) nofun).2.2.1 (by decide) rfl
  have c4 := ((f (pair 2 2 8 8) 2032 (req 2 8) (req 2 8) rfl).1 false 5 (fun _ => by decide +kernel) nofun).2.2.2.1 (by decide)
    (by decide) (by decide)
  have c5 := ((f (pair 2 3 8 8) 2032 (req 2 8) (req 3 8) rfl).1 false 5 (fun _ => by decide +kernel) nofun).2.2.2.2 (by decide)
    (by decide) (by decide)
  have d1 := ((f (Ops.setWord 2032 8191 (Flags.encode 5 ^^^ 1) m5) 2032 (req 2 8) (req 3 8) rfl).1 true 5 nofun
    (fun _ => by decide +kernel)).2.2.2.2 (by decide) (by decide) (by decide)
  have d2 := ((f (Ops.setWord 2032 8191 (Flags.encode 5 ^^^ 1) m5) 2032 (req 1 8) (req 0 8) rfl).1 true 5 nofun
    (fun _ => by decide +kernel)).2.2.1 (by decide) rfl
  have d3 := (f (Ops.setWord 2032 8191 (Flags.encode 5 ^^^ 3) m5) 2032 (req 1 8) (req 3 8) rfl).2 (by decide +kernel)
  have d4 := (f (Ops.setWord 2032 8191 (Flags.encode 5 ^^^ 3) m5) 2032 (req 2 8) (req 1 8) rfl).2 (by decide +kernel)
  have d5 := (f (Ops.setWord 2032 8191 (Flags.encode 5 ^^^ 3) m5) 2032 (req 0 8) (req 1 8) rfl).2 (by decide +kernel)
  exact ⟨goes a1, goes a2, goes a3, goes a4, goes a5, goes a6, goes b1, goes b2, goes b3, goes b4⟩

/-- M5 with the link down. -/
def unlinked : State := { m5 with host := {} }

theorem met_HostBankAccess : Obligations.HostBankAccess →
    Goes (.hostBankRead 0x7FFFFFB 5) (banking 2047 {}) ∧ Goes (.hostBankWrite 0x7FFFFF8 (le 8 7)) (banking 2047 {}) ∧
    Goes (.hostBankSet 0x7FFFFF8 (le 8 7)) (banking 2047 {}) ∧
    Goes (.hostBankClear 0x7FFFFF8 (le 8 7)) (banking 2047 {}) ∧
    Goes (.hostBankRead 0x7FFFFF8 8) (banking 2047 { power := some .off }) ∧
    Goes (.hostBankWrite 0x7FFFFF8 (le 8 7)) (banking 2047 { power := some .retain }) ∧
    Goes (.hostBankRead 0 8) unlinked ∧ Goes (.hostBankRead 0x18000000 4) m5 ∧ Goes (.hostBankRead 0 4) (inMode .m6) ∧
    Goes (.hostBankWrite 9 [1]) m5 := by
  intro h
  obtain ⟨p, q⟩ := h
  have w : Awake (banking 2047 {}) := awake (by decide +kernel)
  have a1 := ((q (banking 2047 {}) 2047 8191 7 0 3 5 w (by decide +kernel) (.inl rfl) (by decide) (by decide)).1
    (by decide +kernel) (by decide +kernel)).1
  have a2 := ((q (banking 2047 {}) 2047 8191 7 0 0 8 w (by decide +kernel) (.inl rfl) (by decide) (by decide)).1
    (by decide +kernel) (by decide +kernel)).2
  have b1 := (a2 1).1 rfl
  have b2 := (a2 2).2.1 rfl
  have b3 := (a2 3).2.2 rfl
  have a3 := ((q (banking 2047 { power := some .off }) 2047 8191 7 0 0 8 (awake (by decide +kernel)) (by decide +kernel)
    (.inl rfl) (by decide) (by decide)).2.1 (by decide +kernel)).1
  have a4 := ((q (banking 2047 { power := some .retain }) 2047 8191 7 2 0 8 (awake (by decide +kernel)) (by decide +kernel)
    (.inl rfl) (by decide) (by decide)).2.2 (by decide +kernel) (by decide +kernel)).2 1
  have a4 := a4.1 rfl
  have a5 := ((q (banking 2047 { borrowed := true }) 2047 8191 7 2 7 1 (awake (by decide +kernel)) (by decide +kernel)
    (.inl rfl) (by decide) (by decide)).1 (by decide +kernel) (by decide +kernel)).1
  have c1 := ((p unlinked 0 8 0 0 [] (awake (by decide +kernel))).1 (by decide +kernel)).1
  have c2 := ((p m5 0x18000000 4 0 0 [] (awake (by decide +kernel))).2 (by decide +kernel)).1 (by decide)
  have c3 := ((p (inMode .m6) 0 4 0 0 [] (awake (by decide +kernel))).2 (by decide +kernel)).2.1 (by decide) (by decide)
  have c4 := (((p m5 0 4 1 9 [1] (awake (by decide +kernel))).2 (by decide +kernel)).2.2.2.2.1 (by decide)
    (.inl (by decide))).1 rfl
  exact ⟨goes a1, goes b1, goes b2, goes b3, goes a3, goes a4, goes c1, goes c2, goes c3, goes c4⟩

/-- Bank 2047 in M7, and in M5 with an IDLE of its own. -/
def quarantined : State := modes (fun m => { m with cur := .m7 }) (banking 2047 {})
def idling : State := { banking 2047 {} with regs := [(0x4FFF01, 0x100)] }

theorem met_BankStates : Obligations.BankStates →
    Goes (.targetOn .mailbox 2047) (banking 2047 {}) ∧ Goes (.targetRetain .mailbox 2047) (banking 2047 {}) ∧
    Goes (.targetOff .mailbox 2047) (banking 2047 {}) ∧ Goes (.targetDeepRetain .mailbox 2047) quarantined ∧
    Goes (.targetDeepRetain .mailbox 2047) (banking 2047 {}) ∧ Goes (.targetOff .mailbox 2047) (inMode .m6) ∧
    Goes (.targetOn .mailbox 2047) (inMode .m6) ∧ Goes (.targetOn .mailbox 2047) (banking 2047 { power := some .retired }) ∧
    Goes (.bankIdleExpiry 2047) idling ∧ Goes (.bankIdleExpiry 2047) m5 ∧
    Goes (.bankWakeComplete 2047) (banking 2047 { power := some (.waking false 0) }) ∧
    Goes (.bankWakeComplete 2047) (banking 2047 { power := some (.waking true 0) }) ∧ Goes (.bankWakeComplete 2047) m5 ∧
    Goes (.softRepairWrite .mailbox 2047 0xC7) m5 ∧ Goes (.softRepairWrite .mailbox 2047 0xFF) m5 ∧
    Goes (.columnRebuildAccess 2047) (banking 2047 { rebuild := some 8190 }) ∧
    Goes (.columnRebuildAccess 2047) (banking 2047 { rebuild := some 8191, steer := 0xC7 }) ∧
    Goes (.columnRebuildAccess 2047) m5 ∧ Goes (.bankCauseEnableWrite .mailbox 0x3F) m5 := by
  intro h
  obtain ⟨p, q, f, g⟩ := h
  have t1 := ((p (banking 2047 {}) .mailbox 2047 0 (writes (by decide +kernel))).2 (by decide +kernel)).1 (by decide +kernel)
  have t2 := ((p (banking 2047 {}) .mailbox 2047 1 (writes (by decide +kernel))).2 (by decide +kernel)).1 (by decide +kernel)
  have t3 := ((p (banking 2047 {}) .mailbox 2047 2 (writes (by decide +kernel))).2 (by decide +kernel)).1 (by decide +kernel)
  have t4 := ((p quarantined .mailbox 2047 3 (writes (by decide +kernel))).2 (by decide +kernel)).1 (by decide +kernel)
  have t5 := ((p (banking 2047 {}) .mailbox 2047 3 (writes (by decide +kernel))).2 (by decide +kernel)).2.2 (by decide +kernel)
    (by decide +kernel)
  have t6 := ((p (inMode .m6) .mailbox 2047 2 (writes (by decide +kernel))).2 (by decide +kernel)).2.2 (by decide +kernel)
    (by decide +kernel)
  have t7 := ((p (inMode .m6) .mailbox 2047 0 (writes (by decide +kernel))).2 (by decide +kernel)).2.1 (by decide +kernel)
    (by decide +kernel)
  have t8 := (p (banking 2047 { power := some .retired }) .mailbox 2047 0 (writes (by decide +kernel))).1 (by decide +kernel)
  obtain ⟨x1, y1, -⟩ := (q (banking 2047 {}) 2047 1).1 (on (by decide +kernel)) rfl (by decide +kernel)
  have q2 := (q (banking 2047 { leaving := some 1 }) 2047 2).2.1 (on (by decide +kernel)) (by decide +kernel)
  have q3 := (q (banking 2047 { power := some (.waking true 0) }) 2047 2).2.2.1 true 0 rfl
  obtain ⟨x4, y4, -⟩ := (q (banking 2047 { power := some .retain }) 2047 0).2.2.2.1 rfl rfl
  obtain ⟨x5, y5, -⟩ := (q (banking 2047 { power := some .off }) 2047 1).2.2.2.2.1 rfl
  obtain ⟨x6, y6, -⟩ := (q (banking 2047 { power := some .deep }) 2047 2).2.2.2.2.2 rfl rfl
  have b1 := (f idling 2047 (awake (by decide +kernel))).1 ⟨.inl rfl, on (by decide +kernel), by decide +kernel, by decide +kernel, rfl⟩
  obtain ⟨-, b2, b3, -⟩ := f m5 2047 awake5
  have b2 := b2 fun k => absurd k.2.2.1 (by decide +kernel)
  have b3 := b3 (by intro z g; decide +revert +kernel)
  have b4 := (f (banking 2047 { power := some (.waking false 3) }) 2047 (awake (by decide +kernel))).2.2.2.1 false 3 rfl
  obtain ⟨x7, b5, -⟩ := (f (banking 2047 { power := some (.waking false 0) }) 2047 (awake (by decide +kernel))).2.2.2.2.1 rfl rfl
  obtain ⟨x8, b6, -⟩ := (f (banking 2047 { power := some (.waking true 0) }) 2047 (awake (by decide +kernel))).2.2.2.2.2 rfl rfl
  obtain ⟨g1, g2, -, g3⟩ := g m5 .mailbox 2047
  have c1 := (g1 0xC7 (writes (by decide +kernel))).1 (by decide +kernel)
  have c2 := (g1 0xFF (writes (by decide +kernel))).2 (by decide +kernel)
  have c3 := g2 awake5 (.inl rfl)
  have c4 := g3 0x3F (writes (by decide +kernel))
  have c5 := (g (banking 2047 { rebuild := some 8190 }) .mailbox 2047).2.2.1 8190 (awake (by decide +kernel)) rfl
    (on (by decide +kernel)) rfl
  have c6 := (g (banking 2047 { rebuild := some 8191, steer := 0xC7 }) .mailbox 2047).2.2.1 8191 (awake (by decide +kernel)) rfl
    (on (by decide +kernel)) rfl
  exact ⟨goes t1, goes t2, goes t3, goes t4, goes t5, goes t6, goes t7, goes t8, goes b1, goes b2, goes b5, goes b6, goes b3, goes c1,
    goes c2, goes c5, goes c6, goes c3, goes c4⟩

/-- Queue 4095 with a control word, a limits word of depth 1, and what it holds; attachment 2048 is its producer and its
consumer. -/
def queuing (x : Queue) : State :=
  { m5 with
    regs := [(256 * 0x51FF + 121, 2 ^ 63 + 2048 * 2 ^ 24 + 2048 * 2 ^ 12), (256 * 0x51FF + 122, 2 ^ 38)]
    queues := if x = {} then [] else [(4095, x)] }

/-- A closed packet of one word, and an open one with room. -/
def onePacket : Queue :=
  { packets := [{ cells := [{ id := 0, words := [Queues.withParity 9], written := 1, visible := true }], opened := false }]
    lastDepth := 1 }
def openPacket : Queue :=
  { packets := [{ cells := [{ id := 0, words := [Queues.withParity 9], written := 1 }] }], lastDepth := 1 }

/-- Fabric port 0 takes a PUSH_AND_CLOSE to queue 0. -/
def fabricPush : State :=
  { m5 with fab := {
      frames := [(12, BitVec.twoPow 4096 811), (71, 256)]
      stages := [(16384, { held := some true, rails := some true })] } }

/-- A packet whose only word the consumer has taken, one that waits for it, and one whose word has a wrong parity bit. -/
def begun : Queue := { packets := [{ started := true }] }
def oneWord (p : Packet) : Queue :=
  { packets := [{ p with cells := [{ id := 0, words := [Queues.withParity 9], written := 1, visible := !p.opened }] }], lastDepth := 1 }

theorem met_QueueAnswers : Obligations.QueueAnswers →
    Goes (.push 2048 4095 7) (queuing {}) ∧ Goes (.pushAndClose 2048 4095 7) (queuing {}) ∧
    Goes (.pop 2048 4095 Queues.sound) (queuing onePacket) ∧ Goes (.peek 2048 4095 Queues.sound) (queuing onePacket) ∧
    Goes (.pop 2048 4095 Queues.sound) (queuing begun) ∧ Goes (.abort 2048 4095) (queuing openPacket) ∧
    Goes (.pushAndClose 1024 0 0) fabricPush ∧ Goes (.push 1024 0 0) m5 ∧ Goes (.abort 1024 0) fabricPush ∧
    Queues.push 2048 4095 7 false m5 = (Queues.refused 4, m5) ∧
    Queues.push 9 4095 7 false (queuing {}) = (Queues.refused 3, queuing {}) ∧
    (Queues.push 2048 4095 7 false (queuing { discarding := true })).1 = Queues.refused 6 ∧
    (Queues.push 2048 4095 7 false (queuing onePacket)).1 = Queues.refused 1 ∧
    Queues.pop 9 4095 true Queues.sound (queuing {}) = (some (Queues.refused 3), queuing {}) ∧
    Queues.abort 9 4095 (queuing {}) = (Queues.refused 3, queuing {}) ∧ Queues.abort 9 4095 m5 = (Queues.refused 4, m5) ∧
    (Queues.operate 0 { op := .reserved, queue := 0, data := 0 } Queues.sound m5).1 = some (Queues.refused 5) := by
  intro h
  obtain ⟨p, q⟩ := h
  obtain ⟨⟨a1, -⟩, ⟨a2, -⟩, -⟩ := p (queuing {}) 2048 4095 7 Queues.sound (awake (by decide +kernel))
  have a1 := a1 (by decide) _ _ rfl
  have a2 := a2 (by decide) _ _ rfl
  obtain ⟨-, -, ⟨a3, -⟩, ⟨a4, -⟩, -⟩ := p (queuing onePacket) 2048 4095 7 Queues.sound (awake (by decide +kernel))
  have a3 := a3 (by decide) _ _ rfl
  have a4 := a4 (by decide) _ _ rfl
  obtain ⟨-, -, ⟨-, a5, -⟩, -⟩ := p (queuing begun) 2048 4095 7 Queues.sound (awake (by decide +kernel))
  have a5 := a5 (by decide) _ rfl
  obtain ⟨-, -, -, -, ⟨a6, -⟩⟩ := p (queuing openPacket) 2048 4095 7 Queues.sound (awake (by decide +kernel))
  have a6 := a6 (by decide) _ _ rfl
  obtain ⟨-, ⟨-, -, a7, -⟩, -, -, ⟨-, -, -, a9⟩⟩ := p fabricPush 1024 0 0 Queues.sound (awake (by decide +kernel))
  have a7 := a7 (by decide) 1 (by decide +kernel) rfl (by decide +kernel) (by decide)
  have a9 := a9 (by decide) (.inr (.inr (by
    intro v w
    have e : Fabric.captured fabricPush (.queuePort 0) = some 1 := by decide +kernel
    cases e.symm.trans w
    decide)))
  obtain ⟨⟨-, -, -, a8⟩, -⟩ := p m5 1024 0 0 Queues.sound awake5
  have a8 := a8 (by decide) (.inl (by decide +kernel))
  obtain ⟨b1, -, -, -, c1, b5⟩ := q m5 2048 4095 7 false
  have b1 := b1 (.inr (by decide +kernel))
  have b5 := b5 { op := .reserved, queue := 0, data := 0 } Queues.sound rfl
  obtain ⟨-, b2, -, -, c2, -⟩ := q (queuing {}) 9 4095 7 false
  have b2 := b2 ⟨rfl, by decide +kernel⟩ (by decide +kernel)
  have b3 := (q (queuing { discarding := true }) 2048 4095 7 false).2.2.1 ⟨rfl, by decide +kernel⟩ (by decide +kernel) rfl
  have b4 := ((q (queuing onePacket) 2048 4095 7 false).2.2.2.1 ⟨rfl, by decide +kernel⟩ (by decide +kernel) rfl rfl
    (by decide +kernel)).1 (by decide +kernel)
  have c1 := (((q m5 9 4095 7 false).2.2.2.2.1 4 0) (.inl ⟨rfl, .inr (by decide +kernel)⟩)).2 (.inl rfl)
  obtain ⟨c3, -⟩ := c2 3 2048 (.inr ⟨rfl, ⟨rfl, by decide +kernel⟩, by decide⟩)
  obtain ⟨-, c4⟩ := c2 3 2048 (.inr ⟨rfl, ⟨rfl, by decide +kernel⟩, by decide⟩)
  have c3 := c3 (.inr (by decide +kernel)) true Queues.sound
  have c4 := c4 (.inr (by decide +kernel))
  exact ⟨goes a1, goes a2, goes a3, goes a4, goes a5, goes a6, goes a7, goes a8, goes a9, b1, b2, b3, b4, c3, c4, c1, b5⟩

theorem met_QueueOrder : Obligations.QueueOrder →
    (∃ x, Queues.push 2048 4095 7 true (queuing {}) = ({}, x)) ∧
    (∃ x, Queues.push 2048 4095 7 true (queuing openPacket) = ({}, x)) ∧
    (∃ r x, Queues.pop 2048 4095 true Queues.sound (queuing onePacket) = (some r, x)) ∧
    (Queues.pop 2048 4095 true Queues.sound (queuing { owed := some .flushed })).1.isSome ∧
    (Queues.pop 2048 4095 false Queues.sound (queuing { owed := some .poisonEnd })).1.isSome ∧
    Queues.pop 2048 4095 true Queues.sound (queuing {}) = (some {}, queuing {}) ∧
    Queues.pop 2048 4095 true Queues.sound (queuing begun) = (none, queuing begun) ∧
    (Queues.abort 2048 4095 (queuing { discarding := true })).1 = Queues.refused 6 ∧
    (Queues.abort 2048 4095 (queuing { swallowing := true })).1 = {} ∧
    Queues.abort 2048 4095 (queuing {}) = ({}, queuing {}) := by
  intro h
  obtain ⟨p, q, f⟩ := h
  obtain ⟨_, a1, -⟩ := p (queuing {}) 2048 4095 7 true ⟨rfl, by decide +kernel⟩ (by decide +kernel) rfl rfl
    (.inr ⟨by decide +kernel, by decide +kernel⟩)
  obtain ⟨_, a2, -⟩ := p (queuing openPacket) 2048 4095 7 true ⟨rfl, by decide +kernel⟩ (by decide +kernel) rfl rfl
    (.inl ⟨rfl, rfl⟩)
  obtain ⟨b, -⟩ := q (queuing onePacket) 2048 4095 ⟨rfl, by decide +kernel⟩ (by decide +kernel)
  obtain ⟨b1, b2, b3, b4⟩ := b _ _ _ _ _ _ rfl rfl rfl rfl rfl (.inr (by decide +kernel))
  have b0 := (b1 (by decide +kernel)).2
  obtain ⟨⟨_, a3, -⟩, -⟩ := b1 (by decide +kernel)
  have b2 := b2 1 (by decide +kernel)
  have b3 := b3 true 5 false
  have b4 := b4 true 5
  obtain ⟨-, c1, -⟩ := q (queuing { owed := some .flushed }) 2048 4095 ⟨rfl, by decide +kernel⟩ (by decide +kernel)
  have c1 := (c1 Queues.sound rfl).1
  obtain ⟨-, -, c2, -⟩ := q (queuing { owed := some .poisonEnd }) 2048 4095 ⟨rfl, by decide +kernel⟩ (by decide +kernel)
  have c2 := (c2 Queues.sound rfl).2
  obtain ⟨-, -, -, c3, -⟩ := q (queuing {}) 2048 4095 ⟨rfl, by decide +kernel⟩ (by decide +kernel)
  have c3 := c3 true Queues.sound rfl nofun
  obtain ⟨-, -, -, -, c4⟩ := q (queuing begun) 2048 4095 ⟨rfl, by decide +kernel⟩ (by decide +kernel)
  have c4 := c4 true Queues.sound _ _ rfl rfl rfl nofun
  have d1 := (f (queuing { discarding := true }) 2048 4095 ⟨rfl, by decide +kernel⟩ (by decide +kernel)).1 rfl
  have d2 := (f (queuing { swallowing := true }) 2048 4095 ⟨rfl, by decide +kernel⟩ (by decide +kernel)).2.1 rfl rfl
  have d3 := (f (queuing {}) 2048 4095 ⟨rfl, by decide +kernel⟩ (by decide +kernel)).2.2.1 rfl rfl rfl
  have d4 := ((f (queuing (oneWord {})) 2048 4095 ⟨rfl, by decide +kernel⟩ (by decide +kernel)).2.2.2 _ [] rfl rfl rfl rfl).1 rfl
  have d5 := ((f (queuing begun) 2048 4095 ⟨rfl, by decide +kernel⟩ (by decide +kernel)).2.2.2 _ [] rfl rfl rfl rfl).2.1 rfl
    (by decide +kernel)
  have d6 := ((f (queuing (oneWord { started := true })) 2048 4095 ⟨rfl, by decide +kernel⟩ (by decide +kernel)).2.2.2 _ [] rfl rfl
    rfl rfl).2.2 rfl (by decide +kernel)
  exact ⟨⟨_, a1⟩, ⟨_, a2⟩, ⟨_, _, a3⟩, by rw [c1]; rfl, by rw [c2]; rfl, c3, c4, by rw [d1], by rw [d2], d3⟩

/-- The write side of region 0's ring with a token of value 1 on every channel; its read side with one of value `b`. -/
def tracing (g : Ring) (l : Table Nat) : State :=
  { m5 with
    regs := l
    rings := if g = {} then [] else [(0, g)]
    fab := {
      frames := (List.range 8).map fun x => (24 * x + 20, (List.range 8).foldl (fun a i => a ||| BitVec.twoPow 4096 (3371 + 11 * i)) 0)
      stages := (List.range 8).map fun x => (28672 + 32 * x, { held := some true, rails := some true }) } }
def reading (b : Bool) : State :=
  { m5 with
    rings := [(0, { wp := 1 })], ringMem := [(0, 9)]
    fab := { frames := [(22, BitVec.twoPow 4096 1067)], stages := [(30720, { held := some b, rails := some b })] } }

theorem met_QueueWrites : Obligations.QueueWrites →
    Goes (.queueFlush .mailbox 4095) (queuing onePacket) ∧
    Goes (.queueFlush .mailbox 4095) { m5 with regs := [(256 * 0x51FF + 121, 2208 * 2 ^ 12)] } ∧
    Goes (.queueControlWrite .mailbox 4095 0x8000000C00000000) m5 ∧ Goes (.queueControlWrite .mailbox 4095 0) (queuing {}) ∧
    Goes (.queueControlWrite .mailbox 4095 0x800800000) (queuing onePacket) ∧
    Goes (.queueControlWrite .mailbox 4095 0x8A0000) m5 ∧
    Goes (.limitsWrite .mailbox 4095 0x010000200003FFFF) (queuing onePacket) ∧ Goes (.limitsWrite .mailbox 4095 0) m5 ∧
    Goes (.limitsWrite .mailbox 4095 0x4000000000) (queuing { packets := onePacket.packets ++ onePacket.packets }) ∧
    Goes .linkSweep m5 ∧ Goes (.traceWrite 0) (tracing {} []) ∧ Goes (.traceWrite 0) (tracing { wp := 256 } []) ∧
    Goes (.traceWrite 0) m5 ∧ Goes (.tracePeek 0) (reading false) ∧ Goes (.tracePeek 0) (inMode .m7) ∧
    Goes (.tracePop 0) (reading true) ∧ Goes (.tracePop 0) (reading false) ∧
    Goes (.traceHostPop .mailbox 0) { reading true with regs := [(256 * 0x5300 + 5, 1)] } ∧
    Goes (.traceHostPop .mailbox 0) m5 := by
  intro h
  obtain ⟨p, q⟩ := h
  obtain ⟨a1, -, a3, -⟩ := p (queuing onePacket) .mailbox 4095
  have a1 := (a1 (writes (by decide +kernel))).1 (by decide +kernel)
  have a3 := (a3 0x010000200003FFFF (writes (by decide +kernel))).1 (by decide) (by decide +kernel)
  obtain ⟨a0, -⟩ := p { m5 with regs := [(256 * 0x51FF + 121, 2208 * 2 ^ 12)] } .mailbox 4095
  have a0 := (a0 (writes (by decide +kernel))).2 (by decide +kernel)
  obtain ⟨-, a2, a4, a5⟩ := p m5 .mailbox 4095
  have a6 := (a2 0x8000000C00000000 (writes (by decide +kernel))).1 (by decide +kernel) (by decide)
  have a7 := (a2 0x8A0000 (writes (by decide +kernel))).2.2 (by decide +kernel) (by decide)
  have a4 := (a4 0 (writes (by decide +kernel))).2.1 (by decide)
  have a5 := a5 awake5
  obtain ⟨-, b1, -⟩ := p (queuing {}) .mailbox 4095
  have b1 := (b1 0 (writes (by decide +kernel))).2.1 (by decide +kernel)
  obtain ⟨-, b2, -⟩ := p (queuing onePacket) .mailbox 4095
  have b2 := (b2 0x800800000 (writes (by decide +kernel))).2.1 (by decide +kernel)
  obtain ⟨-, -, b3, -⟩ := p (queuing { packets := onePacket.packets ++ onePacket.packets }) .mailbox 4095
  have b3 := (b3 0x4000000000 (writes (by decide +kernel))).2.2 (by decide) (by decide +kernel)
  have c1 := ((q (tracing {} []) 0 (awake (by decide +kernel))).2.2.2.1 (2 ^ 64 - 1) (by decide +kernel)).1 (by decide)
  have c2 := ((q (tracing { wp := 256 } []) 0 (awake (by decide +kernel))).2.2.2.1 (2 ^ 64 - 1) (by decide +kernel)).2 (by decide)
  have c2' := ((q (tracing { wp := 256 } [(0x530007, 1)]) 0 (awake (by decide +kernel))).2.2.2.1 (2 ^ 64 - 1) (by decide +kernel)).2
    (by decide)
  obtain ⟨c3, -, -, -, -, c4⟩ := q m5 0 awake5
  have c3 := c3 (by decide +kernel)
  have c4 := (c4 .mailbox (rowOf 0x5300 6) (reads (by decide +kernel)) (by decide)).2 (.inr (by decide))
  obtain ⟨-, c5, -⟩ := q (inMode .m7) 0 (awake (by decide +kernel))
  have c5 := c5 (.inr (.inl (by decide +kernel)))
  obtain ⟨-, -, c6, -, c7, -⟩ := q (reading false) 0 (awake (by decide +kernel))
  have c6 := c6 (.inr (by decide +kernel))
  obtain ⟨_, c7, -⟩ := (c7 rfl).1 (by decide +kernel)
  obtain ⟨-, -, -, -, c8, -⟩ := q (reading true) 0 (awake (by decide +kernel))
  obtain ⟨_, c8, -⟩ := (c8 rfl).2 (by decide +kernel)
  have c9 := ((q { reading true with regs := [(256 * 0x5300 + 5, 1)] } 0 (awake (by decide +kernel))).2.2.2.2.2 .mailbox (rowOf 0x5300 6)
    (reads (by decide +kernel)) (by decide)).1 rfl (by decide)
  exact ⟨goes a1, goes a0, goes a6, goes b1, goes b2, goes a7, goes a3, goes a4, goes b3, goes a5, goes c1, goes c2, goes c3, goes c7,
    goes c5, goes c8, goes c6, goes c9, goes c4⟩

/-- An instruction word of its fields. -/
def word (o a b c k : Nat) : W32 := BitVec.ofNat 32 (o * 2 ^ 26 + a * 2 ^ 22 + b * 2 ^ 18 + c * 2 ^ 14 + k)

/-- Engine 127 at the last word of its scratchpad. -/
def prism (w : W32) (e : Engine := {}) : State :=
  { m5 with eng := {
      engines := [(127, { e with state := .running, pc := 0x7FFC })]
      imem := if w = 0 then [] else [(8192 * 127 + 8191, w)] } }

theorem runs {s : State} (h : (decide (s.modes = m5.modes) && s.sup.observed.isEmpty && s.sup.tests.isEmpty &&
    s.sup.waiting.isEmpty && !s.events.raw.getLsbD 304) = true) : Runs s := by
  simp at h
  obtain ⟨⟨⟨⟨h1, h2⟩, h3⟩, h4⟩, h5⟩ := h
  refine ⟨⟨by rw [h1]; decide, ?_, ?_, h2, h3, h4, h5⟩, by rw [h1]; rfl⟩
  · rw [h1]; exact ⟨rfl, rfl, rfl, rfl, rfl, rfl, rfl, rfl, rfl⟩
  · simp [Modes.released, Ops.modeIn, h1, m5]

theorem issues {o : Nat} {s : State} {n : Fin 128} {w : W32}
    (h : (decide (s.modes = m5.modes) && s.sup.observed.isEmpty && s.sup.tests.isEmpty && s.sup.waiting.isEmpty &&
      !s.events.raw.getLsbD 304 && (decide ((Engines.engine s n).state = .running) &&
      decide ((Engines.engine s n).pc.toNat ≤ 0x7FFC) && decide (Engines.imem s n ((Engines.engine s n).pc.toNat / 4) = w) &&
      decide (Engines.op w = o) && !Engines.illegal w &&
      (Engines.sources w).all fun g => !Engines.pends (Engines.engine s n) g)) = true) : Issues o s n w := by
  rw [Bool.and_eq_true] at h
  obtain ⟨h0, h⟩ := h
  simp only [Bool.and_eq_true, decide_eq_true_eq] at h
  obtain ⟨⟨⟨⟨⟨h1, h2⟩, h3⟩, h4⟩, h5⟩, h6⟩ := h
  exact ⟨runs h0, h1, h2, h3, h4, by simpa using h5, by simpa using h6⟩

theorem met_PrismRegister : Obligations.PrismRegister →
    Goes (.add 127) (prism (word 1 2 4 6 0)) ∧ Goes (.sub 127) (prism (word 2 2 4 6 0)) ∧
    Goes (.and 127) (prism (word 3 2 4 6 0)) ∧ Goes (.ior 127) (prism (word 4 2 4 6 0)) ∧
    Goes (.eor 127) (prism (word 5 2 4 6 0)) ∧ Goes (.mlo 127) (prism (word 6 2 4 6 0)) ∧
    Goes (.cmps 127) (prism (word 7 2 4 6 0)) ∧ Goes (.cmpu 127) (prism (word 8 2 4 6 0)) ∧
    Goes (.shl 127) (prism (word 9 2 4 6 0)) ∧ Goes (.shr 127) (prism (word 10 2 4 6 0)) ∧
    Goes (.sha 127) (prism (word 11 2 4 6 0)) ∧
    Goes (.addk 127) (prism (word 0x10 2 4 15 16383)) ∧
    Goes (.andk 127) (prism (word 0x11 2 4 15 16383)) ∧
    Goes (.iork 127) (prism (word 0x12 2 4 15 16383)) ∧
    Goes (.eork 127) (prism (word 0x13 2 4 15 16383)) ∧
    Goes (.high 127) (prism (word 0x14 2 0 15 16383)) ∧
    Goes (.shlk 127) (prism (word 0x15 2 4 0 31)) ∧
    Goes (.shrk 127) (prism (word 0x16 2 4 0 31)) ∧
    Goes (.shak 127) (prism (word 0x17 2 4 0 31)) ∧
    Goes (.jeq 127) (prism (word 0x18 2 4 15 16383)) ∧
    Goes (.jne 127) (prism (word 0x19 2 4 15 16383)) ∧
    Goes (.jls 127) (prism (word 0x1A 2 4 15 16383)) ∧
    Goes (.jgs 127) (prism (word 0x1B 2 4 15 16383)) ∧
    Goes (.jlu 127) (prism (word 0x1C 2 4 15 16383)) ∧
    Goes (.jgu 127) (prism (word 0x1D 2 4 15 16383)) ∧
    Goes (.call 127) (prism (word 0x1E 2 0 15 16383)) ∧
    Goes (.jumpr 127) (prism (word 0x1F 2 4 15 16383)) := by
  intro h
  have a1 := (h.1 (prism (word 1 2 4 6 0)) 127 (word 1 2 4 6 0)).1 (issues (by decide +kernel))
  have a2 := (h.1 (prism (word 2 2 4 6 0)) 127 (word 2 2 4 6 0)).2.1 (issues (by decide +kernel))
  have a3 := (h.1 (prism (word 3 2 4 6 0)) 127 (word 3 2 4 6 0)).2.2.1 (issues (by decide +kernel))
  have a4 := (h.1 (prism (word 4 2 4 6 0)) 127 (word 4 2 4 6 0)).2.2.2.1 (issues (by decide +kernel))
  have a5 := (h.1 (prism (word 5 2 4 6 0)) 127 (word 5 2 4 6 0)).2.2.2.2.1 (issues (by decide +kernel))
  have a6 := (h.1 (prism (word 6 2 4 6 0)) 127 (word 6 2 4 6 0)).2.2.2.2.2.1 (issues (by decide +kernel))
  have a7 := (h.1 (prism (word 7 2 4 6 0)) 127 (word 7 2 4 6 0)).2.2.2.2.2.2.1 (issues (by decide +kernel))
  have a8 := (h.1 (prism (word 8 2 4 6 0)) 127 (word 8 2 4 6 0)).2.2.2.2.2.2.2.1 (issues (by decide +kernel))
  have a9 := (h.1 (prism (word 9 2 4 6 0)) 127 (word 9 2 4 6 0)).2.2.2.2.2.2.2.2.1 (issues (by decide +kernel))
  have a10 := (h.1 (prism (word 10 2 4 6 0)) 127 (word 10 2 4 6 0)).2.2.2.2.2.2.2.2.2.1 (issues (by decide +kernel))
  have a11 := (h.1 (prism (word 11 2 4 6 0)) 127 (word 11 2 4 6 0)).2.2.2.2.2.2.2.2.2.2 (issues (by decide +kernel))
  have b1 := (h.2.1 (prism (word 0x10 2 4 15 16383)) 127 (word 0x10 2 4 15 16383)).1 (issues (by decide +kernel))
  have b2 := (h.2.1 (prism (word 0x11 2 4 15 16383)) 127 (word 0x11 2 4 15 16383)).2.1 (issues (by decide +kernel))
  have b3 := (h.2.1 (prism (word 0x12 2 4 15 16383)) 127 (word 0x12 2 4 15 16383)).2.2.1 (issues (by decide +kernel))
  have b4 := (h.2.1 (prism (word 0x13 2 4 15 16383)) 127 (word 0x13 2 4 15 16383)).2.2.2.1 (issues (by decide +kernel))
  have b5 := (h.2.1 (prism (word 0x14 2 0 15 16383)) 127 (word 0x14 2 0 15 16383)).2.2.2.2.1 (issues (by decide +kernel))
  have b6 := (h.2.1 (prism (word 0x15 2 4 0 31)) 127 (word 0x15 2 4 0 31)).2.2.2.2.2.1 (issues (by decide +kernel))
  have b7 := (h.2.1 (prism (word 0x16 2 4 0 31)) 127 (word 0x16 2 4 0 31)).2.2.2.2.2.2.1 (issues (by decide +kernel))
  have b8 := (h.2.1 (prism (word 0x17 2 4 0 31)) 127 (word 0x17 2 4 0 31)).2.2.2.2.2.2.2 (issues (by decide +kernel))
  have c1 := (h.2.2.1 (prism (word 0x18 2 4 15 16383)) 127 (word 0x18 2 4 15 16383)).1 (issues (by decide +kernel))
  have c2 := (h.2.2.1 (prism (word 0x19 2 4 15 16383)) 127 (word 0x19 2 4 15 16383)).2.1 (issues (by decide +kernel))
  have c3 := (h.2.2.1 (prism (word 0x1A 2 4 15 16383)) 127 (word 0x1A 2 4 15 16383)).2.2.1 (issues (by decide +kernel))
  have c4 := (h.2.2.1 (prism (word 0x1B 2 4 15 16383)) 127 (word 0x1B 2 4 15 16383)).2.2.2.1 (issues (by decide +kernel))
  have c5 := (h.2.2.1 (prism (word 0x1C 2 4 15 16383)) 127 (word 0x1C 2 4 15 16383)).2.2.2.2.1 (issues (by decide +kernel))
  have c6 := (h.2.2.1 (prism (word 0x1D 2 4 15 16383)) 127 (word 0x1D 2 4 15 16383)).2.2.2.2.2.1 (issues (by decide +kernel))
  have c7 := (h.2.2.1 (prism (word 0x1E 2 0 15 16383)) 127 (word 0x1E 2 0 15 16383)).2.2.2.2.2.2.1 (issues (by decide +kernel))
  have c8 := (h.2.2.1 (prism (word 0x1F 2 4 15 16383)) 127 (word 0x1F 2 4 15 16383)).2.2.2.2.2.2.2 (issues (by decide +kernel))
  exact ⟨goes a1, goes a2, goes a3, goes a4, goes a5, goes a6, goes a7, goes a8, goes a9, goes a10, goes a11, goes b1,
    goes b2, goes b3, goes b4, goes b5, goes b6, goes b7, goes b8, goes c1, goes c2, goes c3, goes c4, goes c5, goes c6,
    goes c7, goes c8⟩

/-- g4 holds `v`. -/
def withG4 (v : W32) : Engine := { regs := [(4, v)] }

theorem met_PrismMemory : Obligations.PrismMemory →
    Goes (.ldw 127) (prism (word 0x20 2 4 0 0) (withG4 0x17FFC)) ∧
    Goes (.ldb 127) (prism (word 0x21 2 4 0 0) (withG4 0x17FFF)) ∧
    Goes (.ldp 127) (prism (word 0x22 2 4 0 0) (withG4 0x17FF8)) ∧
    Goes (.stw 127) (prism (word 0x24 2 4 0 0) (withG4 0xFFFC)) ∧
    Goes (.stb 127) (prism (word 0x25 2 4 0 0) (withG4 0xFFFF)) ∧
    Goes (.stp 127) (prism (word 0x26 2 4 0 0) (withG4 0xFFF8)) := by
  intro h
  have a1 := (h.1 (prism (word 0x20 2 4 0 0) (withG4 0x17FFC)) 127 (word 0x20 2 4 0 0)).1 (issues (by decide +kernel))
    (by decide +kernel) (by decide +kernel)
  have a2 := (h.1 (prism (word 0x21 2 4 0 0) (withG4 0x17FFF)) 127 (word 0x21 2 4 0 0)).2.1 (issues (by decide +kernel))
    (by decide +kernel)
  have a3 := (h.1 (prism (word 0x22 2 4 0 0) (withG4 0x17FF8)) 127 (word 0x22 2 4 0 0)).2.2 (issues (by decide +kernel))
    (by decide +kernel) (by decide +kernel) (by decide +kernel)
  obtain ⟨_, b1, -⟩ := (h.2 (prism (word 0x24 2 4 0 0) (withG4 0xFFFC)) 127 (word 0x24 2 4 0 0)).1 (issues (by decide +kernel))
    (by decide +kernel) (by decide +kernel)
  obtain ⟨_, b2, -⟩ := (h.2 (prism (word 0x25 2 4 0 0) (withG4 0xFFFF)) 127 (word 0x25 2 4 0 0)).2.1 (issues (by decide +kernel))
    (by decide +kernel)
  obtain ⟨_, b3, -⟩ := (h.2 (prism (word 0x26 2 4 0 0) (withG4 0xFFF8)) 127 (word 0x26 2 4 0 0)).2.2 (issues (by decide +kernel))
    (by decide +kernel) (by decide +kernel) (by decide +kernel)
  exact ⟨goes a1, goes a2, goes a3, goes b1, goes b2, goes b3⟩

/-- Seven tags are in flight. -/
def seven : Engine := { tags := (List.range 7).map fun k => { tag := Fin.ofNat 8 k, req := .arm 0 0 1 } }

theorem lowest : LowestFree (Engines.engine (prism 0 seven) 127) 7 := by
  constructor
  · decide +kernel
  · decide +kernel

theorem met_PrismTaggedIssue : Obligations.PrismTaggedIssue →
    Goes (.qpush 127) (prism (word 0x28 2 4 6 0) seven) ∧
    Goes (.qpushc 127) (prism (word 0x29 2 4 6 0) seven) ∧
    Goes (.qpop 127) (prism (word 0x2A 2 4 6 1023) seven) ∧
    Goes (.qpeek 127) (prism (word 0x2B 2 4 6 0) seven) ∧
    Goes (.qabort 127) (prism (word 0x2C 2 0 6 0) seven) ∧
    Goes (.bset 127) (prism (word 0x2E 2 4 6 8192) seven) ∧
    Goes (.bclr 127) (prism (word 0x2F 2 4 6 8192) seven) ∧
    Goes (.gent 127) (prism (word 0x32 2 4 6 0) seven) ∧
    Goes (.garm 127) (prism (word 0x33 2 0 6 8192) seven) := by
  intro h
  have a1 := (h (prism (word 0x28 2 4 6 0) seven) 127 (word 0x28 2 4 6 0) 7 lowest).1 (issues (by decide +kernel)) (by decide +kernel)
  have a2 := (h (prism (word 0x29 2 4 6 0) seven) 127 (word 0x29 2 4 6 0) 7 lowest).2.1 (issues (by decide +kernel)) (by decide +kernel)
  have a3 := (h (prism (word 0x2A 2 4 6 1023) seven) 127 (word 0x2A 2 4 6 1023) 7 lowest).2.2.1 (issues (by decide +kernel))
    (by decide +kernel)
  have a4 := (h (prism (word 0x2B 2 4 6 0) seven) 127 (word 0x2B 2 4 6 0) 7 lowest).2.2.2.1 (issues (by decide +kernel))
    (by decide +kernel)
  have a5 := (h (prism (word 0x2C 2 0 6 0) seven) 127 (word 0x2C 2 0 6 0) 7 lowest).2.2.2.2.1 (issues (by decide +kernel))
  have a6 := (h (prism (word 0x2E 2 4 6 8192) seven) 127 (word 0x2E 2 4 6 8192) 7 lowest).2.2.2.2.2.1 (issues (by decide +kernel))
  have a7 := (h (prism (word 0x2F 2 4 6 8192) seven) 127 (word 0x2F 2 4 6 8192) 7 lowest).2.2.2.2.2.2.1 (issues (by decide +kernel))
  have a8 := (h (prism (word 0x32 2 4 6 0) seven) 127 (word 0x32 2 4 6 0) 7 lowest).2.2.2.2.2.2.2.1 (issues (by decide +kernel))
    (by decide +kernel)
  have a9 := (h (prism (word 0x33 2 0 6 8192) seven) 127 (word 0x33 2 0 6 8192) 7 lowest).2.2.2.2.2.2.2.2 (issues (by decide +kernel))
  exact ⟨goes a1, goes a2, goes a3, goes a4, goes a5, goes a6, goes a7, goes a8, goes a9⟩

/-- Engine 127 and its port 3. -/
def porting (w : W32) (p : ChanPort) (f : Table (BitVec 4096)) : State :=
  { prism w with ports := if p = {} then [] else [(511, p)], fab := { frames := f } }

/-- Receive channel 0 of engine 127's port 3 selects outbound channel 0. -/
def receiving : Table (BitVec 4096) := [(768 * 511 + 24 * 3 + 23, 256)]

theorem met_PrismOther : Obligations.PrismOther →
    Goes (.trd 127) (prism (word 0x30 2 0 0 0)) ∧ Goes (.twait 127) (prism (word 0x31 2 4 0 0)) ∧
    Goes (.twait 127) (prism (word 0x31 2 4 0 0) (withG4 1)) ∧ Goes (.twait 127) (prism (word 0x31 2 4 0 0) { twait := some 0 }) ∧
    Goes (.twaitTargetReached 127) (prism (word 0x31 2 4 0 0) { twait := some 0 }) ∧ Goes (.twaitTargetReached 127) m5 ∧
    Goes (.send 127) (porting (word 0x34 0 4 0 3) {} []) ∧ Goes (.send 127) (porting (word 0x34 0 4 0 3) { send := some 9 } []) ∧
    Goes (.recv 127) (porting (word 0x35 2 0 0 3) { recv := some 9 } receiving) ∧
    Goes (.recv 127) (porting (word 0x35 2 0 0 3) {} receiving) ∧ Goes (.poll 127) (prism (word 0x36 2 0 0 0)) ∧
    Goes (.evr 127) (prism (word 0x38 0 0 3 16383)) ∧ Goes (.fence 127) (prism (word 0x39 0 0 0 0)) ∧
    Goes (.rdspec 127) (prism (word 0x3A 2 0 0 5)) ∧ Goes (.halt 127) (prism (word 0x3B 0 0 0 0)) := by
  intro h
  obtain ⟨p, q⟩ := h
  have a1 := (p (prism (word 0x30 2 0 0 0)) 127 (word 0x30 2 0 0 0)).1 (issues (by decide +kernel)) (by decide +kernel)
  have a2 := ((p (prism (word 0x31 2 4 0 0)) 127 (word 0x31 2 4 0 0)).2.1 _ rfl (issues (by decide +kernel)) (by decide +kernel)).1
    (by decide +kernel)
  have a3 := ((p (prism (word 0x31 2 4 0 0) (withG4 1)) 127 (word 0x31 2 4 0 0)).2.1 _ rfl (issues (by decide +kernel))
    (by decide +kernel)).2 (by decide +kernel)
  obtain ⟨-, a4, -, a5⟩ := p (prism (word 0x31 2 4 0 0) { twait := some 0 }) 127 (word 0x31 2 4 0 0)
  have a4 := (a4 _ rfl (issues (by decide +kernel)) (by decide +kernel)).1 (by decide +kernel)
  have a5 := (a5 0 (runs (by decide +kernel)) rfl rfl).1 (by decide +kernel)
  have a6 := ((p (prism (word 0x31 2 4 0 0) { twait := some 1 }) 127 (word 0x31 2 4 0 0)).2.2.2 1 (runs (by decide +kernel)) rfl
    rfl).2 (by decide +kernel)
  have a7 := (p m5 127 0).2.2.1 awake5 (.inr (.inr rfl))
  obtain ⟨b1, -⟩ := q (porting (word 0x34 0 4 0 3) {} []) 127 (word 0x34 0 4 0 3)
  have b1 := b1 (issues (by decide +kernel)) (by decide +kernel) (by decide +kernel)
  obtain ⟨-, b2, -⟩ := q (porting (word 0x34 0 4 0 3) { send := some 9 } []) 127 (word 0x34 0 4 0 3)
  have b2 := b2 9 (issues (by decide +kernel)) (by decide +kernel) (by decide +kernel)
  obtain ⟨-, -, b3, -⟩ := q (porting (word 0x35 2 0 0 3) { recv := some 9 } receiving) 127 (word 0x35 2 0 0 3)
  have b3 := b3 9 (issues (by decide +kernel)) (by decide +kernel) (by decide +kernel) (by decide +kernel)
  obtain ⟨-, -, -, b4, -⟩ := q (porting (word 0x35 2 0 0 3) {} receiving) 127 (word 0x35 2 0 0 3)
  have b4 := b4 (issues (by decide +kernel)) (by decide +kernel) (by decide +kernel) (by decide +kernel)
  obtain ⟨-, -, -, -, b5, b6, -⟩ := q (prism (word 0x36 2 0 0 0)) 127 (word 0x36 2 0 0 0)
  have b5 := b5 (issues (by decide +kernel))
  have b6 := b6 3
  have b7 := (q (prism (word 0x38 0 0 3 16383)) 127 (word 0x38 0 0 3 16383)).2.2.2.2.2.2.1 (issues (by decide +kernel))
  have b8 := (q (prism (word 0x39 0 0 0 0)) 127 (word 0x39 0 0 0 0)).2.2.2.2.2.2.2.1 (issues (by decide +kernel)) rfl
  have b9 := (q (prism (word 0x39 0 0 0 0) { tags := [{ tag := 7, req := .arm 0 0 1 }] }) 127 (word 0x39 0 0 0 0)).2.2.2.2.2.2.2.2.1
    (issues (by decide +kernel)) (by decide)
  have spec (k : Nat) := (q (prism (word 0x3A 2 0 0 k)) 127 (word 0x3A 2 0 0 k)).2.2.2.2.2.2.2.2.2.1
  have c0 := (spec 0 (issues (by decide +kernel))).1 (by decide +kernel)
  have c1 := (spec 1 (issues (by decide +kernel))).2.1 (by decide +kernel)
  have c2 := (spec 2 (issues (by decide +kernel))).2.2.1 (by decide +kernel)
  have c3 := (spec 3 (issues (by decide +kernel))).2.2.2.1 (by decide +kernel)
  have c4 := (spec 4 (issues (by decide +kernel))).2.2.2.2.1 (by decide +kernel)
  have c5 := (spec 5 (issues (by decide +kernel))).2.2.2.2.2 (by decide +kernel)
  have c6 := (q (prism (word 0x3B 0 0 0 0)) 127 (word 0x3B 0 0 0 0)).2.2.2.2.2.2.2.2.2.2 (issues (by decide +kernel))
  exact ⟨goes a1, goes a2, goes a3, goes a4, goes a5, goes a7, goes b1, ⟨_, b2⟩, goes b3, ⟨_, b4⟩, ⟨_, b5⟩, goes b7, ⟨_, b8⟩, ⟨_, c5⟩,
    goes c6⟩

/-- Engine 127 just past its scratchpad's end; stopped; and with all eight tags in flight. -/
def runaway : State := { m5 with eng := { engines := [(127, { state := .running, pc := 0x8000 })] } }
def halted : State := { m5 with eng := { engines := [(127, { state := .halted })] } }
def eight : Engine := { tags := (List.range 8).map fun k => { tag := Fin.ofNat 8 k, req := .arm 0 0 1 } }

theorem met_PrismFaults : Obligations.PrismFaults →
    Goes (.add 127) runaway ∧ Goes (.ldw 127) (prism 0) ∧ Goes (.ldw 127) (prism (word 0x20 2 4 0 0) (withG4 2)) ∧
    Goes (.ldw 127) (prism (word 0x20 2 4 0 0) (withG4 0x18000)) ∧ Goes (.stw 127) (prism (word 0x24 2 4 0 0) (withG4 0x10000)) ∧
    Goes (.ldp 127) (prism (word 0x22 3 4 0 0)) ∧ Goes (.trd 127) (prism (word 0x30 3 0 0 0)) ∧
    Goes (.recv 127) (prism (word 0x35 2 0 0 3)) ∧ Goes (.add 127) halted ∧ Goes (.halt 127) (prism (word 0x39 0 0 0 0)) ∧
    Goes (.add 127) (prism (word 1 2 4 6 0) { marks := [(4, 0)] }) ∧ Goes (.garm 127) (prism (word 0x33 2 0 6 8192) eight) := by
  intro h
  obtain ⟨p, q⟩ := h
  have a1 := (p runaway 127 0 (up rfl) rfl rfl).1 (by decide +kernel) (0x01, .add 127) (by decide +kernel)
  have a2 := (p (prism 0) 127 0 (up rfl) rfl (by decide +kernel)).2.1 (by decide +kernel) (by decide +kernel) (0x20, .ldw 127)
    (by decide +kernel)
  have a3 := ((p (prism (word 0x20 2 4 0 0) (withG4 2)) 127 (word 0x20 2 4 0 0) (up rfl) rfl (by decide +kernel)).2.2.1
    (0x20, .ldw 127, 4, false) (.head _) (issues (by decide +kernel))).1 (by decide +kernel)
  have a4 := ((p (prism (word 0x20 2 4 0 0) (withG4 0x18000)) 127 (word 0x20 2 4 0 0) (up rfl) rfl (by decide +kernel)).2.2.1
    (0x20, .ldw 127, 4, false) (.head _) (issues (by decide +kernel))).2.1 (by decide +kernel) (by decide +kernel)
  have a5 := ((p (prism (word 0x24 2 4 0 0) (withG4 0x10000)) 127 (word 0x24 2 4 0 0) (up rfl) rfl (by decide +kernel)).2.2.1
    (0x24, .stw 127, 4, true) (by decide +kernel) (issues (by decide +kernel))).2.2.1 (by decide +kernel) (by decide +kernel)
    (by decide +kernel) rfl
  have a6 := ((p (prism (word 0x22 3 4 0 0)) 127 (word 0x22 3 4 0 0) (up rfl) rfl (by decide +kernel)).2.2.1
    (0x22, .ldp 127, 8, false) (by decide +kernel) (issues (by decide +kernel))).2.2.2 (by decide +kernel) (by decide +kernel)
    (by decide +kernel)
  have a7 := (p (prism (word 0x30 3 0 0 0)) 127 (word 0x30 3 0 0 0) (up rfl) rfl (by decide +kernel)).2.2.2.1 (0x30, .trd 127)
    (by decide +kernel) (by decide) (issues (by decide +kernel)) (by decide +kernel)
  have a8 := (p (prism (word 0x35 2 0 0 3)) 127 (word 0x35 2 0 0 3) (up rfl) rfl (by decide +kernel)).2.2.2.2
    (issues (by decide +kernel)) (by decide +kernel) (by decide +kernel)
  have b1 := (q halted 127 0 (awake (by decide +kernel)) (0x01, .add 127) (by decide +kernel)).1 (.inr (by decide))
  have b2 := ((q (prism (word 0x39 0 0 0 0)) 127 (word 0x39 0 0 0 0) (awake (by decide +kernel)) (0x3B, .halt 127)
    (by decide +kernel)).2.1 rfl rfl (by decide +kernel) (by decide +kernel) (by decide +kernel)).1 (by decide +kernel)
  have b3 := ((q (prism (word 1 2 4 6 0) { marks := [(4, 0)] }) 127 (word 1 2 4 6 0) (awake (by decide +kernel)) (0x01, .add 127)
    (by decide +kernel)).2.1 rfl rfl (by decide +kernel) (by decide +kernel) (by decide +kernel)).2 ⟨4, by decide +kernel⟩
  have b4 := (q (prism (word 0x33 2 0 6 8192) eight) 127 (word 0x33 2 0 6 8192) (awake (by decide +kernel)) (0x33, .garm 127)
    (by decide +kernel)).2.2 (issues (by decide +kernel)) (by decide) (by decide +kernel) (by decide +kernel)
  exact ⟨goes a1, goes a2, goes a3, goes a4, goes a5, goes a6, goes a7, goes a8, goes b1, goes b2, goes b3, goes b4⟩

/-- Engine 127 with a request in flight under tag 7, behind another one or not. -/
def tagged (q : TagReq) (l : List Tag := []) : State :=
  { banking 2047 {} with eng := { engines := [(127, { tags := l ++ [{ tag := 7, req := q }], marks := [(5, 7), (6, 7)] })] } }

theorem right {α β : Type} {v : α ⊕ β} (h : v.isRight = true) : ∃ x, v = .inr x := by
  cases v with
  | inl _ => cases h
  | inr x => exact ⟨x, rfl⟩

theorem met_TagCompletes : Obligations.TagCompletes →
    Goes (.tagCompletion 127 7 Queues.sound) (tagged (.bank false 0x1FFFFFF 3 5 6)) ∧
    Goes (.tagCompletion 127 7 Queues.sound) (tagged (.queue .pop 0 0 (some 5) 6)) ∧
    Goes (.tagCompletion 127 7 Queues.sound) (tagged (.arm 0 0 6) [{ tag := 3, req := .arm 0 0 6 }]) ∧
    Goes (.tagCompletion 127 7 Queues.sound) m5 ∧
    Engines.perform 127 (.bank false 0x2000000 3 5 6) Queues.sound m5 = (some [(5, 0), (6, 2560)], m5) := by
  intro h
  obtain ⟨p, z, q, f, g⟩ := h
  have a1 := (p (tagged (.bank false 0x1FFFFFF 3 5 6)) 127 7 Queues.sound (.bank false 0x1FFFFFF 3 5 6) _ (up rfl)
    (by decide +kernel)).1 (by decide +kernel) |>.1 _ rfl
  have a2 := (p (tagged (.queue .pop 0 0 (some 5) 6)) 127 7 Queues.sound (.queue .pop 0 0 (some 5) 6) _ (up rfl)
    (by decide +kernel)).1 (by decide +kernel) |>.1 _ rfl
  have a3 := (p (tagged (.arm 0 0 6) [{ tag := 3, req := .arm 0 0 6 }]) 127 7 Queues.sound (.arm 0 0 6) m5 (up rfl)
    (by decide +kernel)).2 (by decide +kernel)
  have a4 := z m5 127 7 Queues.sound awake5 (.inr rfl)
  have b1 := (q {} 7 5 3).1 nofun
  have b2 := (q { marks := [(5, 7)] } 7 5 3).2 ⟨_, .head _, rfl, rfl⟩
  have c1 := (f m5 127 Queues.sound .pop 0 0 (some 5) 6 _ _).1 rfl
  have c2 := (f { queuing begun with regs := [(256 * 0x51FF + 121, 2 ^ 63 + 2175 * 2 ^ 24 + 2175 * 2 ^ 12)] } 127 Queues.sound .pop
    4095 0 (some 5) 6 {} _).2 rfl
  obtain ⟨d1, -⟩ := g m5 127 Queues.sound false 0x2000000 3 0 0 5 6
  have d1 := d1 (by decide)
  obtain ⟨-, d2, -⟩ := g (banking 2047 { power := some .off }) 127 Queues.sound false 0x1FFFFFF 3 0 0 5 6
  have d2 := d2 (by decide) (by decide +kernel)
  obtain ⟨-, -, d3, -, d4, -⟩ := g (banking 2047 {}) 127 Queues.sound false 0x1FFFFFF 3 0 0 5 6
  have d5 := (d3 (by decide) (by decide +kernel) (by decide +kernel)).1
  have d3 := (d3 (by decide) (by decide +kernel) (by decide +kernel)).2 5 (by decide +kernel)
  have d4 := (d4 (on (by decide +kernel)) (by decide +kernel)).1
  obtain ⟨-, -, -, d6, -⟩ := g (banking 2047 { power := some .retain }) 127 Queues.sound true 0x1FFFFFF 3 0 0 5 6
  have d6 := d6 (by decide) (by decide +kernel) (by decide +kernel)
  obtain ⟨-, -, -, -, -, e, -⟩ := g m5 127 Queues.sound false 0 3 0xFFFFF dueEntry 5 6
  have e1 := e.2.1 (by decide) rfl
  obtain ⟨-, -, -, -, -, e, k⟩ := g m5 127 Queues.sound false 0 3 0x100000 dueEntry 5 6
  have e2 := e.1 (by decide)
  have k2 := k.1 (by decide)
  obtain ⟨-, -, -, -, -, e, -⟩ := g (scheduled (live .idle) none 0 0) 127 Queues.sound false 0 3 0xFFFFF dueEntry 5 6
  have e3 := e.2.2 (by decide) (by decide +kernel)
  obtain ⟨x, hx⟩ := right (v := Time.commit 8191 true 1 (scheduled {} none dueEntry 0)) (by decide +kernel)
  obtain ⟨-, -, -, -, -, -, k⟩ := g (scheduled {} none dueEntry 0) 127 Queues.sound false 0 1 0x3FFF 0 5 6
  have k1 := k.2.1 x (by decide) hx
  obtain ⟨-, -, -, -, -, -, k⟩ := g m5 127 Queues.sound false 0 1 0x3FFF 0 5 6
  have k3 := k.2.2.2 (by decide) (by decide +kernel)
  obtain ⟨-, -, -, -, -, -, k⟩ := g (scheduled {} none dueEntry 500) 127 Queues.sound false 0 1 0x3FFF 0 5 6
  have k4 := k.2.2.1 (by decide) (by decide +kernel)
  exact ⟨goes a1, goes a2, goes a3, goes a4, d1⟩

/-- Host port 0's receive channel 0 selects outbound channel 0, on which unit 16384 has a token. -/
def hostPort : State :=
  { m5 with fab := {
      frames := [(12, BitVec.twoPow 4096 811), (24 * 5 + 23, BitVec.twoPow 4096 (2 * 8 * 128 + 8))]
      stages := [(16384, { held := some true, rails := some true })] } }

/-- Pin 383 is channel 0 of engine 127's port 3, and has a token for it or none. -/
def pinPort (l : Table WordOut) : State :=
  { m5 with pins := [(383, { active := some (2 ^ 60 + 127 * 2 ^ 53 + 192 * 2 ^ 10) })], pinIn := l }

/-- Engine 127 in a given state. -/
def engineIn (e : EngState) : State := { m5 with eng := { engines := [(127, { state := e, entry := 4 })] } }

theorem met_EngineCommands : Obligations.EngineCommands →
    Goes (.portReceiveCapture (.host 0)) hostPort ∧ Goes (.portReceiveCapture (.engine 511)) (pinPort [(383, { word := some 1 })]) ∧
    Goes (.portReceiveCapture (.engine 511)) (pinPort []) ∧ Goes (.portReceiveCapture (.engine 511)) m5 ∧
    Goes (.portReceiveCapture (.host 0)) (inMode .m7) ∧ Goes (.portSendAcknowledged (.engine 511)) m5 ∧
    Goes (.start .mailbox 127) (engineIn .fault) ∧ Goes (.start .mailbox 127) (engineIn .running) ∧
    Goes (.start .mailbox 127) (inMode .m7) ∧ Goes (.start .mailbox 127) (engineIn .installing) ∧
    Goes (.start .mailbox 127) (tagged (.arm 0 0 1)) ∧ Goes (.stop .mailbox 127) (engineIn .running) ∧
    Goes (.stop .mailbox 127) m5 ∧ Goes (.resume .mailbox 127) (engineIn .halted) ∧ Goes (.resume .mailbox 127) m5 := by
  intro h
  obtain ⟨p, q⟩ := h
  obtain ⟨a1, -⟩ := p hostPort (.host 0) (awake (by decide +kernel))
  have a1 := a1 [(0, true)] [] rfl nofun (by decide +kernel) (by decide +kernel) (.inl (by decide +kernel))
    (by decide +kernel) .nil
  obtain ⟨a2, -⟩ := p (pinPort [(383, { word := some 1 })]) (.engine 511) (awake (by decide +kernel))
  have a2 := a2 [] [(0, true)] rfl (by decide) (by decide +kernel) (by decide +kernel) (.inr (by decide +kernel))
    (by decide +kernel) (by decide +kernel)
  obtain ⟨-, a3, -⟩ := p (pinPort []) (.engine 511) (awake (by decide +kernel))
  have a3 := a3 (.inr (.inr (.inr (.inr (.inr (.inr ⟨(0, 383), by decide +kernel, by decide +kernel⟩))))))
  obtain ⟨-, a4, a5, a6⟩ := p m5 (.engine 511) awake5
  have a4 := a4 (.inr (.inr (.inr (.inr (.inl ⟨by decide +kernel, rfl⟩)))))
  have a6 := a6 63 (by decide) (.inl (by decide +kernel))
  obtain ⟨-, a7, -⟩ := p (inMode .m7) (.host 0) (awake (by decide +kernel))
  have a7 := a7 (.inl (by decide))
  obtain ⟨-, -, b1⟩ := q (engineIn .fault) .mailbox 127
  have b1 := ((b1 rfl (by decide +kernel)).2.1 rfl).1 (.inr (.inr rfl)) (writes (by decide +kernel))
  obtain ⟨-, -, b2⟩ := q (engineIn .running) .mailbox 127
  obtain ⟨-, b2, b3, -⟩ := b2 rfl (by decide +kernel)
  have b2 := (b2 rfl).2 (by decide) (by decide) (by decide) (writes (by decide +kernel))
  have b3 := b3 rfl (writes (by decide +kernel))
  obtain ⟨-, -, b4⟩ := q (engineIn .halted) .mailbox 127
  obtain ⟨-, -, -, -, b4, -⟩ := b4 rfl (by decide +kernel)
  have b4 := b4 (.inr rfl) (writes (by decide +kernel))
  obtain ⟨-, -, b5⟩ := q m5 .mailbox 127
  obtain ⟨-, -, -, b5, -, b6⟩ := b5 rfl (by decide +kernel)
  have b5 := b5 (by decide) (writes (by decide +kernel))
  have b6 := b6 (by decide) (by decide) (writes (by decide +kernel))
  have c1 := ((q (inMode .m7) .mailbox 127).1 (by decide)).1 (writes (by decide +kernel))
  have c2 := ((q (engineIn .installing) .mailbox 127).2.1 rfl (by decide +kernel)).1 (writes (by decide +kernel))
  obtain ⟨-, -, c3⟩ := q (tagged (.arm 0 0 1)) .mailbox 127
  have c3 := (c3 rfl (by decide +kernel)).1 (by decide) (writes (by decide +kernel))
  exact ⟨goes a1, goes a2, goes a3, goes a4, goes a7, goes a5, goes b1, goes b2, goes c1, goes c2, goes c3, goes b3, goes b5, goes b4,
    goes b6⟩

/-- An install to engine 127 whose checks have passed. -/
def installing : State := { m5 with eng := { installer := { status := 2, mask := BitVec.twoPow 128 127 } } }

/-- Rotation is on; group 3 migrates engine 127, held back or not. -/
def rotating : State := { m5 with regs := [(0x600006, 1)] }
def migrating : State := { m5 with eng := { migrations := [(3, { engine := 127, target := 131, forced := false })] } }

def heldBack : State := { migrating with regs := [(256 * 0x617F + 0x0B, 1)] }

theorem met_EngineImages : Obligations.EngineImages →
    Goes (.stagingWrite .mailbox 99327 [9]) m5 ∧ Goes (.stagingWrite .mailbox 99328 [9]) m5 ∧
    Goes (.stagingWrite .mailbox 0 [9]) installing ∧ Goes (.imageWindowWrite 99327 [9]) m5 ∧
    Goes (.imageWindowWrite 99327 [9]) installing ∧ Goes (.imageWindowWrite 99328 [9]) m5 ∧
    Goes (.imageWindowWrite 0 [9]) unlinked ∧ Goes (.stagingClear .mailbox) m5 ∧ Goes (.stagingClear .mailbox) installing ∧
    Goes (.install .mailbox 1) m5 ∧ Goes (.install .mailbox 1) (inMode .m6) ∧ Goes (.install .mailbox 1) installing ∧
    Goes .installComplete installing ∧ Goes .installComplete m5 ∧ Goes .rotation rotating ∧ Goes .rotation (inMode .m7) ∧
    Goes (.migrationCopyDone 3) migrating ∧ Goes (.migrationCopyDone 3) heldBack ∧ Goes (.migrationCopyDone 3) m5 := by
  intro h
  obtain ⟨p, q, f⟩ := h
  obtain ⟨a1, a2, a3, -, a5⟩ := p m5 .mailbox
  have b1 := (a1 99327 [9] (writes (by decide +kernel))).1 rfl (by decide)
  have b2 := (a1 99328 [9] (writes (by decide +kernel))).2.1 rfl (by decide)
  have b3 := ((a2 99327 [9] awake5).1 (by decide +kernel)).1 (by decide) rfl
  have b4 := ((a2 99328 [9] awake5).1 (by decide +kernel)).2.2 (by decide)
  have a3 := a3 (writes (by decide +kernel)) rfl
  have a5 := a5 99327 [9] 99327 (by decide)
  obtain ⟨c1, c2, -, c4, -⟩ := p installing .mailbox
  have c1 := (c1 0 [9] (writes (by decide +kernel))).2.2 rfl
  have c2 := ((c2 99327 [9] (awake (by decide +kernel))).1 (by decide +kernel)).2.1 (by decide) rfl
  have c4 := c4 (writes (by decide +kernel)) rfl
  have c5 := ((p unlinked .mailbox).2.1 0 [9] (awake (by decide +kernel))).2 (by decide +kernel)
  obtain ⟨d1, d2, -⟩ := q m5 .mailbox 1
  have d1 := ((d1 (writes (by decide +kernel))).2.2 (.inl rfl) rfl).1 1 (by decide +kernel)
  have d2 := d2 awake5 (by decide)
  have d3 := ((q (inMode .m6) .mailbox 1).1 (writes (by decide +kernel))).1 (by decide) (by decide)
  have d4 := ((q installing .mailbox 1).1 (writes (by decide +kernel))).2.1 (.inl rfl) rfl
  have d5 := ((q installing .mailbox (BitVec.twoPow 128 127)).2.2 (awake (by decide +kernel)) rfl rfl).1 (by decide +kernel)
  have d6 := ((q { installing with eng := { installing.eng with migrations := migrating.eng.migrations } } .mailbox
    (BitVec.twoPow 128 127)).2.2 (awake (by decide +kernel)) rfl rfl).2 (by decide +kernel)
  have e1 := (f rotating 0 (awake (by decide +kernel))).1 rfl (by decide +kernel)
  obtain ⟨-, -, e3, e4, -⟩ := f m5 3 awake5
  have e2 := (f (inMode .m7) 3 (awake (by decide +kernel))).2.1 (.inl (by decide))
  have e3 := e3 rfl
  have e4 := e4 rfl
  have e5 := ((f migrating 3 (awake (by decide +kernel))).2.2.2.2 _ rfl).1 (.inr (by decide +kernel))
  have e6 := ((f heldBack 3 (awake (by decide +kernel))).2.2.2.2 _ rfl).2 rfl (by decide +kernel)
  exact ⟨goes b1, goes b2, goes c1, goes b3, goes c2, goes b4, goes c5, goes a3, goes c4, goes d1, goes d3, goes d4, goes d5, goes d2,
    goes e1, goes e2, goes e5, goes e6, goes e3⟩

/-- M5 with both sources on, the loader in a given state. -/
def loading (l : Loader) : State := { keyed with regs := [(0x200001, 3)], loader := l }

theorem met_StreamBytes : Obligations.StreamBytes →
    Goes (.streamApertureWrite [1, 2]) (loading {}) ∧ Goes (.streamApertureWrite [1, 2]) unlinked ∧
    Goes (.cfgPortByte (some 1)) (loading {}) ∧ Goes (.cfgPortByte none) (loading {}) ∧
    Goes (.headerFirstByte .port 1) (loading {}) ∧ Goes (.headerFirstByte .port 1) (loading { phase := .header }) ∧
    Goes (.discardRunEnd .port) (loading {}) ∧ Goes .loaderResync (loading { phase := .resync, src := .port }) ∧
    Goes .loaderResync (loading {}) := by
  intro h
  have a1 := (h { m5 with regs := [(0x200001, 1)] } .port 1 []).1 (by decide +kernel)
  have a2 := (h { inMode .m4 with regs := [(0x200001, 3)] } .port 1 []).2.1 (by decide +kernel) (by decide +kernel)
  obtain ⟨-, -, a3, -, -, -, z⟩ := h (loading {}) .port 1 [1, 2]
  have a3 := a3 ⟨by decide +kernel, by decide +kernel⟩ rfl
  have a4 := (h { survey 4 with regs := [(0x200001, 3)] } .port 1 []).2.2.1 ⟨by decide +kernel, by decide +kernel⟩ rfl
  have a5 := (h (loading { phase := .resync }) .port 1 []).2.2.2.1 ⟨by decide +kernel, by decide +kernel⟩ rfl
  obtain ⟨-, -, -, -, a6, -, y⟩ := h (loading { phase := .header }) .port 1 []
  have a6 := a6 ⟨by decide +kernel, by decide +kernel⟩ nofun nofun
  have a7 := ((h (loading { phase := .frames, src := .port, port := List.replicate 512 0 }) .port 1 []).2.2.2.2.2.1
    ⟨by decide +kernel, by decide +kernel⟩ nofun nofun rfl).1 rfl (by decide +kernel)
  have a8 := ((h (loading { phase := .frames }) .aperture 1 []).2.2.2.2.2.1 ⟨by decide +kernel, by decide +kernel⟩ nofun nofun
    rfl).2 (.inl rfl)
  obtain ⟨b1, -, b2, b3, b4, -, b5, -, b6⟩ := z (awake (by decide +kernel))
  have b1 := b1 (by decide +kernel)
  have b4 := b4 rfl
  have b6 := b6 nofun
  obtain ⟨-, -, -, -, -, b7, -⟩ := y (awake (by decide +kernel))
  have b7 := b7 nofun
  have b8 := ((h unlinked .port 1 [1, 2]).2.2.2.2.2.2 (awake (by decide +kernel))).2.1 (by decide +kernel)
  have b9 := ((h (loading { phase := .resync, src := .port }) .port 1 []).2.2.2.2.2.2 (awake (by decide +kernel))).2.2.2.2.2.2.2.1
    rfl rfl
  exact ⟨goes b1, goes b8, goes b2, goes b3, goes b4, goes b7, goes b5, goes b9, goes b6⟩

/-- The header of a partial load of facet 511 (R278), and one with a wrong magic number. -/
def header : List Byte :=
  let h := le 4 0x31535451 ++ le 2 1 ++ le 1 0x51 ++ le 1 0 ++ le 2 0x1624 ++ le 2 0x20 ++ le 1 1 ++ le 1 1 ++ le 1 0 ++ le 1 0 ++
    le 2 511 ++ le 2 0 ++ le 4 768 ++ List.replicate 100 0
  h ++ le 4 (Crypto.crc32c h).toNat ++ List.replicate 384 0

/-- That load: its first frame is awaited. -/
def theLoad : Load :=
  { header := { facetOnly := true, perFrame := true, signer := 0, enc := 0, facet := 511, frames := 768, iv := [], tag := []
                endCrc := 0, version := 0, head := [], signature := [] } }
def taking (l : Load) (f : List Byte) : State := loading { phase := .frames, unit := f, load := some l }

/-- The CRC of two strings end to end. -/
theorem crcUpdate_append (c : Nat) (a b : List Byte) :
    Crypto.crcUpdate c (a ++ b) = Crypto.crcUpdate (Crypto.crcUpdate c a) b := by simp [Crypto.crcUpdate, List.foldl_append]

/-- The first frame, and it with a wrong CRC. -/
def firstFrame (crc : Nat) : List Byte := le 8 (Loader.fabricAddr 511 0) ++ List.replicate 512 0 ++ le 4 crc
def goodFrame : List Byte := firstFrame 2304000986

theorem frame_parts (crc : Nat) : (firstFrame crc).take 8 ++ ((firstFrame crc).drop 8).take 512 =
    (le 8 (Loader.fabricAddr 511 0) ++ List.replicate 128 0) ++ List.replicate 128 0 ++ List.replicate 128 0 ++
      List.replicate 128 0 := by
  have h : (le 8 (Loader.fabricAddr 511 0)).length = 8 := by decide +kernel
  have z : List.replicate 512 (0 : Byte) =
    List.replicate 128 0 ++ List.replicate 128 0 ++ List.replicate 128 0 ++ List.replicate 128 0 := by decide +kernel
  rw [firstFrame, List.append_assoc, List.take_left' h, List.drop_left' h, List.take_left' (List.length_replicate ..), z]
  simp only [List.append_assoc]

theorem frame_crc (crc : Nat) :
    (Crypto.crc32c ((firstFrame crc).take 8 ++ ((firstFrame crc).drop 8).take 512)).toNat = 2304000986 := by
  have h1 : Crypto.crcUpdate Crypto.crcInit (le 8 (Loader.fabricAddr 511 0) ++ List.replicate 128 0) = 670857123 := by decide +kernel
  have h2 : Crypto.crcUpdate 670857123 (List.replicate 128 0) = 1909749754 := by decide +kernel
  have h3 : Crypto.crcUpdate 1909749754 (List.replicate 128 0) = 2274917823 := by decide +kernel
  have h4 : Crypto.crcUpdate 2274917823 (List.replicate 128 0) = 1990966309 := by decide +kernel
  rw [frame_parts, Crypto.crc32c, crcUpdate_append, crcUpdate_append, crcUpdate_append, h1, h2, h3, h4]
  decide

theorem frame_good (l : Load) : Ops.le ((taking l goodFrame).loader.unit.drop 520) =
    (Crypto.crc32c ((taking l goodFrame).loader.unit.take 8 ++ ((taking l goodFrame).loader.unit.drop 8).take 512)).toNat :=
  .trans (show Ops.le (goodFrame.drop 520) = 2304000986 by decide +kernel) (frame_crc _).symm

theorem frame_bad (l : Load) : ¬ Ops.le ((taking l (firstFrame 0)).loader.unit.drop 520) =
    (Crypto.crc32c ((taking l (firstFrame 0)).loader.unit.take 8 ++ ((taking l (firstFrame 0)).loader.unit.drop 8).take 512)).toNat :=
  fun h => absurd (h.trans (frame_crc 0)) (show ¬ Ops.le ((firstFrame 0).drop 520) = 2304000986 by decide +kernel)

theorem met_LoadFrames : Obligations.LoadFrames →
    Goes .streamHeader (loading { phase := .header, unit := header }) ∧
    Goes .streamHeader (loading { phase := .header, unit := List.replicate 512 0 }) ∧ Goes .streamHeader m5 ∧
    Goes .frame (taking theLoad goodFrame) ∧ Goes .frame (taking theLoad (firstFrame 0)) ∧ Goes .frame m5 ∧
    Goes .frame (taking theLoad []) ∧ Goes .loadSilence (loading { phase := .header }) ∧ Goes .loadSilence m5 ∧
    Goes (.loadAbort .mailbox) (loading { phase := .header }) ∧ Goes (.loadAbort .mailbox) m5 := by
  intro h
  obtain ⟨p, q, z, f, g, e, c⟩ := h
  have a1 := ((p (loading { phase := .header, unit := header }) (awake (by decide +kernel))).1 rfl (by decide +kernel)).1
    (by decide +kernel)
  have a2 := ((p (loading { phase := .header, unit := List.replicate 512 0 }) (awake (by decide +kernel))).1 rfl
    (by decide +kernel)).2 1 (by decide +kernel)
  have a3 := (p m5 awake5).2 (.inl nofun)
  obtain ⟨-, b1, -⟩ := q (taking theLoad goodFrame) theLoad (awake (by decide +kernel)) rfl
  obtain ⟨-, -, b1⟩ := b1 (by decide +kernel) (.inl rfl)
  obtain ⟨-, -, -, b1⟩ := b1 (by decide +kernel) (by decide +kernel)
  have b1 := b1 (.inl ⟨frame_good _, by decide +kernel⟩)
  obtain ⟨-, b2, -⟩ := q (taking { theLoad with accepted := 1 } goodFrame) _ (awake (by decide +kernel)) rfl
  have b2 := (b2 (by decide +kernel) (.inl rfl)).2.1 (by decide +kernel) (by decide +kernel)
  obtain ⟨-, b3, -⟩ := q (taking { theLoad with tries := 1 } (firstFrame 0)) _ (awake (by decide +kernel)) rfl
  obtain ⟨-, -, b3⟩ := b3 (by decide +kernel) (.inl rfl)
  have b3 := (b3 (by decide +kernel) (by decide +kernel)).1 (frame_bad _) rfl (by decide)
  obtain ⟨-, b4, -⟩ := q (taking { theLoad with tries := 2 } (firstFrame 0)) _ (awake (by decide +kernel)) rfl
  obtain ⟨-, -, b4⟩ := b4 (by decide +kernel) (.inl rfl)
  have b4 := (b4 (by decide +kernel) (by decide +kernel)).2.1 (frame_bad _) rfl rfl
  obtain ⟨-, b5, -⟩ := q (taking theLoad (firstFrame 0)) _ (awake (by decide +kernel)) rfl
  obtain ⟨-, -, b5⟩ := b5 (by decide +kernel) (.inl rfl)
  have b5 := (b5 (by decide +kernel) (by decide +kernel)).1 (frame_bad _) rfl (by decide)
  obtain ⟨b6, -⟩ := q (loading { phase := .resend, unit := goodFrame, load := some theLoad }) _ (awake (by decide +kernel)) rfl
  have b6 := b6 (by decide +kernel) rfl (by decide +kernel)
  obtain ⟨-, b7, -⟩ := q (taking { theLoad with header := { theLoad.header with facet := 510 } } goodFrame) _
    (awake (by decide +kernel)) rfl
  have b7 := (b7 (by decide +kernel) (.inl rfl)).1 (by decide +kernel)
  have b8 := (q (taking theLoad []) theLoad (awake (by decide +kernel)) rfl).2.2 (.inl (by decide))
  have b9 := z m5 awake5 rfl
  have c1 := (g (loading { phase := .header }) (awake (by decide +kernel))).1 (.inl rfl)
  have c2 := (g m5 awake5).2 nofun nofun nofun
  have d1 := (e { inMode .m3 with loader := { phase := .header } } 0x0E 9).2 (by unfold Unheard; decide +kernel) rfl rfl rfl
  have d2 := (e (taking theLoad []) 9 0).1 theLoad rfl rfl
  obtain ⟨c3, -, -, -⟩ := c (loading { phase := .header }) .mailbox 3
  have c3 := c3 (writes (by decide +kernel)) (.inl rfl)
  obtain ⟨-, c4, -, c6⟩ := c m5 .mailbox 3
  have c4 := c4 (writes (by decide +kernel)) rfl nofun
  have c6 := c6 (writes (by decide +kernel)) (by decide)
  have c5 := (c (loading { phase := .header }) .mailbox 3).2.2.1 (writes (by decide +kernel)) nofun
  obtain ⟨f1, f2, f3⟩ := f (taking { theLoad with accepted := 767 } []) { theLoad with accepted := 767 } (Loader.fabricAddr 511 767) 0 [] []
    [] 0
  have f2 := f2 rfl
  have f3 := f3 (by decide +kernel) (by decide) (by decide +kernel)
  exact ⟨goes a1, goes a2, goes a3, goes b1, goes b5, goes b9, goes b8, goes c1, goes c2, goes c3, goes c4⟩

/-- A load whose frames have all come, with a signature over its stream hash, partial or full. -/
def arrived (partial' : Bool) (sig : List Byte) : Load :=
  { theLoad with header := { theLoad.header with facetOnly := partial', signature := sig } }
def ending (l : Load) : State := loading { phase := .endChecks, load := some l }

theorem verified (b : Bool) : Loader.endChecks (arrived b (sigBytes sigStream)) (ending (arrived b (sigBytes sigStream))) = none := by
  have h : Loader.endChecks (arrived true (sigBytes sigStream)) (ending (arrived true (sigBytes sigStream))) = none := by
    decide +kernel
  cases b <;> exact h

theorem met_LoadEnds : Obligations.LoadEnds →
    Goes .endChecksComplete (ending (arrived true [])) ∧ Goes .endChecksComplete (ending (arrived true (sigBytes sigStream))) ∧
    Goes .endChecksComplete (ending (arrived false (sigBytes sigStream))) ∧ Goes .endChecksComplete m5 ∧
    Goes (.attestationStart .mailbox (List.replicate 32 9)) m5 ∧ Goes (.attestationStart .mailbox []) m5 ∧
    Goes (.attestationStart .mailbox (List.replicate 32 9)) (ending (arrived true [])) ∧
    Goes .attestationReady { m5 with sec := { m5.sec with reportStatus := 1 } } ∧ Goes .attestationReady m5 := by
  intro h
  obtain ⟨p, q⟩ := h
  obtain ⟨a1, -⟩ := p (ending (arrived true [])) _ (awake (by decide +kernel))
  have a1 := (a1 rfl rfl).1 (0x13, 0) (by decide +kernel)
  obtain ⟨a2, -⟩ := p (ending (arrived true (sigBytes sigStream))) _ (awake (by decide +kernel))
  have a2 := (a2 rfl rfl).2.1 (verified true) rfl
  obtain ⟨a3, -⟩ := p (ending (arrived false (sigBytes sigStream))) _ (awake (by decide +kernel))
  have a3 := (a3 rfl rfl).2.2 (verified false) rfl
  have a4 := (p m5 theLoad awake5).2.1 (.inl rfl)
  obtain ⟨b1, b2⟩ := q m5 .mailbox (List.replicate 32 9)
  have b1 := (b1 (writes (by decide +kernel))).2.2 rfl (by decide) rfl
  have b2 := (b2 awake5).2 (by decide)
  have b3 := ((q m5 .mailbox []).1 (writes (by decide +kernel))).1 (by decide)
  have b4 := ((q (ending (arrived true [])) .mailbox (List.replicate 32 9)).1 (writes (by decide +kernel))).2.1 rfl (.inr rfl)
  have b5 := ((q { m5 with sec := { m5.sec with reportStatus := 1 } } .mailbox []).2 (awake (by decide +kernel))).1 rfl
  exact ⟨goes a1, goes a2, goes a3, goes a4, goes b1, goes b3, goes b4, goes b5, goes b2⟩

/-- The last frame of facet 511 reads 0, and is known to. -/
def scrubbed : State :=
  { m5 with scrub := { mirror := [(393215, some (Loader.frameCrc (Loader.addressOf 393215) 0))] } }

theorem met_ScrubRepairs : Obligations.ScrubRepairs →
    Goes (.scrubFrame 393215 0 true) scrubbed ∧ Goes (.scrubFrame 393215 (BitVec.twoPow 4096 (4095 : Fin 4096)) true) scrubbed ∧
    Goes (.scrubFrame 393215 3 true) scrubbed ∧ Goes (.scrubFrame 393215 3 false) scrubbed ∧
    Goes (.scrubFrame 393215 3 true) (inMode .m4) := by
  intro h
  obtain ⟨p, -⟩ := h scrubbed 393215 3 true (awake (by decide +kernel))
  obtain ⟨p, q, -⟩ := p rfl (by decide +kernel) (.inl (by decide +kernel))
  obtain ⟨a1, a2⟩ := p rfl (by decide +kernel)
  have a2 := a2 4095
  have a3 := q _ rfl (by decide +kernel) (by decide +kernel) fun b w =>
    absurd (w.symm.trans (by decide +kernel : _ = none)) nofun
  obtain ⟨f, -⟩ := h scrubbed 393215 3 false (awake (by decide +kernel))
  have a4 := (f rfl (by decide +kernel) (.inl (by decide +kernel))).2.2 (.inl rfl)
  have a5 := (h (inMode .m4) 393215 3 true (awake (by decide +kernel))).2 (.inl (by decide))
  exact ⟨goes a1, goes a2, goes a3, goes a4, goes a5⟩

/-- A bridge of a kind between two domains, alone in M5 and in a given state. -/
def across (k : BridgeKind) : BridgeId := { kind := k, src := some 102, dst := some 107, slot := 4095 }
def bridging (k : BridgeKind) (x : Bridge) : State := { m5 with bridges := [(across k, x)] }

theorem awakes (k : BridgeKind) (x : Bridge) : Awake (bridging k x) := (up (s := bridging k x) (by rfl)).toAwake

/-- The pulse bridge of a user event, and it with events that wait. -/
def userBridge : BridgeId := { kind := .pulse, src := none, dst := some 103, slot := 0 }
def eventful (x : Bridge) : State := { m5 with bridges := [(userBridge, x)] }

theorem met_BridgeSteps : Obligations.BridgeSteps →
    Goes (.bridgeCapture (across .status) 9) (bridging .status {}) ∧ Goes (.bridgeCapture (across .pulse) 9) (bridging .pulse {}) ∧
    Goes (.bridgeDeliver (across .pulse)) (bridging .pulse { h := some 15 }) ∧
    Goes (.bridgeDeliver (across .data)) (bridging .data {}) ∧
    Goes (.bridgeFree (across .data)) (bridging .data { line := [9], taken := 1 }) ∧
    Goes (.bridgeFree (across .data)) (bridging .data {}) ∧
    Goes (.sourcePulse (across .pulse)) (bridging .pulse { h := some 1, acc := 15 }) ∧
    Goes (.sourcePulse (across .data)) (bridging .data {}) ∧
    Goes (.bridgeReset (across .data) true false) (bridging .data { line := [9] }) ∧
    Goes (.bridgeReset (across .data) true true) (bridging .data {}) ∧
    Goes (.clockDeparture 107) (bridging .data {}) ∧ Goes (.clockRecovery 107 50000) (bridging .data {}) ∧
    Goes (.clockRecovery 107 50000) { bridging .data {} with domains := [(107, { departed := true })] } := by
  intro h
  obtain ⟨h, g, k, f⟩ := h
  have st (x : Bridge) := (h (bridging .status x) (across .status) 9 0 (awakes _ _))
  have da (x : Bridge) := (h (bridging .data x) (across .data) 9 9 (awakes _ _))
  have pu (x : Bridge) := (h (bridging .pulse x) (across .pulse) 15 0 (awakes _ _))
  have a1 := ((st {}).1 rfl).1 rfl rfl
  have a2 := ((st { h := some 1 }).1 rfl).2 (.inr nofun)
  have a3 := ((da {}).2.1 rfl (by decide)).1 rfl rfl (Nat.mul_pos (by decide) (Nat.succ_pos _))
  have a4 := ((da { srcReset := .held }).2.1 rfl (by decide)).2.1 rfl (.inl rfl)
  have a5 := ((da { held := some 1 }).2.1 rfl (by decide)).2.2 nofun
  have a6 := (pu {}).2.2.1 rfl
  have a7 := (st { srcReset := .held }).2.2.2.1 rfl
  have a8 := (da {}).2.2.2.2.1 rfl (.inr (Nat.zero_le _))
  have a9 := (da { line := [9] }).2.2.2.2.2.1 rfl rfl (Nat.succ_pos _) rfl
  have b1 := (pu {}).2.2.2.2.2.2.1 nofun (.inl rfl)
  have b2 := ((h (bridging .status { h := some 9 }) (across .status) 9 0
    (awake (by decide +kernel))).2.2.2.2.2.2.2.1 rfl rfl rfl).1 rfl
  have b3 := (((pu { h := some 15 }).2.2.2.2.2.2.2.1 rfl rfl rfl).2 rfl).1 (by decide +kernel)
  have b4 := (((h (eventful { h := some 17 }) userBridge 17 0
    (awake (by decide +kernel))).2.2.2.2.2.2.2.1 rfl rfl rfl).2 rfl).2 0 (by decide +kernel) (by decide)
  have b5 := (pu {}).2.2.2.2.2.2.2.2.1 nofun (.inl rfl)
  obtain ⟨-, -, -, -, -, -, -, -, -, c, -⟩ := h (bridging .status { h := some 9, delivered := true, n := some 8 }) (across .status) 9 0
    (awake (by decide +kernel))
  have b6 := (c nofun rfl rfl).1 rfl
  obtain ⟨-, -, -, -, -, -, -, -, -, c, -⟩ := pu { h := some 15, delivered := true }
  have b7 := (c nofun rfl rfl).2.1 rfl rfl
  obtain ⟨-, -, -, -, -, -, -, -, -, c, -⟩ := pu { h := some 15, delivered := true, acc := 15, ovf := true }
  have b8 := (c nofun rfl rfl).2.2 rfl (by decide)
  obtain ⟨-, -, -, -, -, -, -, -, -, -, c, -, d, -⟩ := da {}
  have b9 := c rfl rfl
  have c1 := d (.inl nofun)
  obtain ⟨-, -, -, -, -, -, -, -, -, -, -, c, -⟩ := da { line := [9], taken := 1 }
  have c2 := (c rfl (by decide)).1 rfl
  obtain ⟨-, -, -, -, -, -, -, -, -, -, -, c, -⟩ := da { line := [9, 8], taken := 1, held := some 9 }
  have c3 := (c rfl (by decide)).2 rfl (show 2 ≤ 2 * (_ + 1) by omega) nofun
  obtain ⟨-, -, -, -, -, -, -, -, -, -, -, -, -, c⟩ := pu {}
  have c4 := (c rfl rfl).1 rfl
  obtain ⟨-, -, -, -, -, -, -, -, -, -, -, -, -, c⟩ := pu { h := some 1, acc := 14 }
  have c5 := (c rfl rfl).2.1 nofun (by decide)
  obtain ⟨-, -, -, -, -, -, -, -, -, -, -, -, -, c⟩ := pu { h := some 1, acc := 15 }
  have c6 := (c rfl rfl).2.2 nofun (by decide)
  have d1 := (g (bridging .data { line := [9] }) (across .data) true (awake (by decide +kernel))).1
  have d2 := (g (bridging .status { present := some 9 }) (across .status) false (awake (by decide +kernel))).1
  have d3 := (g (bridging .data {}) (across .data) true (awake (by decide +kernel))).2.1 rfl
  have d4 := ((g (bridging .data { srcReset := .held, srcDomain := true }) (across .data) true
    (awake (by decide +kernel))).2.2 rfl).1 rfl
  have d5 := ((g (bridging .status { present := some 9, dstReset := .held }) (across .status) false
    (awake (by decide +kernel))).2.2 rfl).2 rfl
  have d6 := ((g (bridging .data { srcReset := .held, held := some 9 }) (across .data) true
    (awake (by decide +kernel))).2.2 rfl).2 rfl
  have e1 := (k m5 99 (awake (by decide +kernel))).1 rfl
  have e2 := (k (bridging .data {}) 107 (awake (by decide +kernel))).2.1 (by decide)
  have e3 := ((k (bridging .data {}) 107 (awake (by decide +kernel))).2.2.1 50000).1 rfl (.inl (by decide))
  have e4 := ((k { bridging .data {} with domains := [(107, { departed := true })] } 107
    (awake (by decide +kernel))).2.2.1 50000).2 (.inl rfl)
  have e5 := ((k { m5 with domains := [(99, { stable := false })] } 99
    (awake (by decide +kernel))).2.2.1 1000000).2 (.inr ⟨rfl, rfl⟩)
  have e6 := (k { m5 with domains := [(107, { departed := true })] } 107 (awake (by decide +kernel))).2.2.2.1 (by decide) rfl
  have e7 := (k { m5 with host := { reset := some .perst } } 0 (awake (by decide +kernel))).2.2.2.2.1 (by decide +kernel)
  have e8 := (k { m5 with host := { reset := some .hot } } 0 (awake (by decide +kernel))).2.2.2.2.2 (by decide +kernel)
  have f1 := (f (bridging .data { line := [9] }) (across .data) false).1 (by decide +kernel)
  have f2 := (f { bridging .data { line := [9] } with domains := [(107, { departed := true })] } (across .data) false).2.1 rfl
    (by decide +kernel)
  have f3 := (f (bridging .data { dstDomain := true }) (across .data) false).2.2 rfl (by decide +kernel)
  exact ⟨goes a1, goes a6, goes b3, goes a8, goes c2, goes b9, goes c6, goes c1, goes d1, goes d3, goes e2, goes e3, goes e4⟩

theorem met_DataBridgesKeepOrder : Obligations.DataBridgesKeepOrder →
    (Bridges.find (Bridges.deliver (across .data) (bridging .data { line := [9, 8] })) (across .data)).dst = some 9 := by
  intro h
  have fits (x : Bridge) (a : x.taken ≤ x.line.length) (b : x.taken ≤ 1) (c : x.line.length ≤ 2) (d : x.held = none) :
      x.taken ≤ x.line.length ∧ x.taken ≤ Bridges.slices (across .data) ∧ x.line.length ≤ 2 * Bridges.slices (across .data) ∧
        (x.held ≠ none → x.line.length = 2 * Bridges.slices (across .data)) :=
    ⟨a, b.trans (Nat.succ_pos _), c.trans (show 2 ≤ 2 * (_ + 1) by omega), fun h => absurd d h⟩
  have a1 := (h (bridging .data { line := [9] }) (across .data) 7 rfl rfl
    (fits { line := [9] } (by decide) (by decide) (by decide) rfl)).1 rfl
  have a2 := (h (bridging .data { line := [9, 8] }) (across .data) 9 rfl rfl
    (fits { line := [9, 8] } (by decide) (by decide) (by decide) rfl)).2.1 (Nat.succ_pos _) rfl
  have a3 := (h (bridging .data { line := [9, 8], taken := 1 }) (across .data) 0 rfl rfl
    (fits { line := [9, 8], taken := 1 } (by decide) (by decide) (by decide) rfl)).2.2 (by decide)
  exact a2.2.2

/-- Lane 63 in a given state, in M5. -/
def laned (x : Lane) : State := { m5 with lanes := [(63, x)] }

theorem awakeLane (x : Lane) : Awake (laned x) := (up (s := laned x) (by rfl)).toAwake

theorem strellerLane (x : Lane) : Lanes.streller (laned x) 63 = true :=
  (congrArg Option.isNone (show Lanes.portOf (laned x) 63 = Lanes.portOf m5 63 from rfl)).trans (by decide +kernel)

/-- Lanes 56 to 63 as one Ethernet port, lane 63 in a given state. -/
def ported (x : Lane) : State := { m5 with regs := [(0x730701, 7)], lanes := [(63, x)] }

/-- Bond 15 of lanes 62 and 63, in a given state. -/
def bonded (x : Bond) : State :=
  { m5 with regs := [(0x720F01, 3 * 2 ^ 62), (0x720F02, 1)], bonds := [(15, x)], lanes := [(63, { st := .t7 })] }

theorem met_LaneTraining : Obligations.LaneTraining →
    Goes (.t0Burst 63) (laned { st := .t0 }) ∧ Goes (.t0Burst 63) (laned {}) ∧
    Goes (.signalDetect 63) (laned { st := .t0 }) ∧ Goes (.signalDetect 63) (laned {}) ∧
    Goes (.cdrLock 63) (laned { st := .t1 }) ∧ Goes (.cdrLock 63) (laned {}) ∧
    Goes (.blockLock 63) (laned { st := .t2, marked := true }) ∧ Goes (.blockLock 63) (laned {}) ∧
    Goes (.equaliserConverged 63) (laned { st := .t5, run := 8 }) ∧ Goes (.equaliserConverged 63) (laned {}) ∧
    Goes (.prbsCheckEnd 63 7) (laned { st := .t6, rate := 3 }) ∧ Goes (.prbsCheckEnd 63 7) (laned {}) ∧
    Goes (.trainingTimeout 63) (laned { st := .t6, rate := 3 }) ∧ Goes (.trainingTimeout 63) (laned {}) ∧
    Goes (.lossOfSignal 63) (laned { st := .t7 }) ∧ Goes (.lossOfSignal 63) (laned {}) ∧
    Goes (.absentTimeout 63) (laned { st := .t0 }) ∧ Goes (.absentTimeout 63) (laned {}) ∧
    Goes (.lossOfLock 63) (laned { st := .t7 }) ∧ Goes (.lossOfLock 63) (laned {}) ∧ Goes (.lossOfLock 63) (ported { st := .t7 }) := by
  intro h
  obtain ⟨h, g⟩ := h
  have on (x : Lane) := h (laned x) 63 (awakeLane x) (strellerLane x)
  have no (x : Lane) := g (laned x) 63 (awakeLane x)
  have a1 := (on { st := .t0 }).1 rfl
  have a2 := (on { st := .t0 }).2.1 rfl rfl
  have a3 := (on { st := .t7, partnerLp := 1 }).2.2.1 rfl (.inl rfl) rfl
  have a4 := (on { st := .lp1, partnerLp := 2 }).2.2.2.1 rfl (.inr rfl) rfl
  have a5 := (on { st := .t1 }).2.2.2.2.1 rfl
  have a6 := ((on { st := .t2, fromLoss := true }).2.2.2.2.2.1 rfl).1 rfl
  have a7 := ((on { st := .t2, marked := true }).2.2.2.2.2.1 rfl).2.1 rfl rfl
  have a8 := ((on { st := .t2 }).2.2.2.2.2.1 rfl).2.2 rfl rfl
  have a9 := (on { st := .t5, run := 7 }).2.2.2.2.2.2.1 rfl (by decide)
  have b1 := (on { st := .t5, run := 8 }).2.2.2.2.2.2.2.1 rfl (by decide)
  have b2 := ((on { st := .t6, rate := 3 }).2.2.2.2.2.2.2.2.1 7 rfl).1 rfl
  have b3 := ((on { st := .t6, rate := 3, fec := true, partnerPass := some true, measured := some 900 }).2.2.2.2.2.2.2.2.1 7
    rfl).2.1 rfl (by decide)
  have b4 := ((on { st := .t6, rate := 3, partnerPass := some false }).2.2.2.2.2.2.2.2.1 0 rfl).2.2 (.inl rfl)
  have b5 := (on { st := .t4, rate := 3 }).2.2.2.2.2.2.2.2.2.1 (.inr (.inr (.inr rfl)))
  have b6 := (on { st := .t6, rate := 3 }).2.2.2.2.2.2.2.2.2.2.1 (.inr rfl)
  have b7 := (on { st := .t7 }).2.2.2.2.2.2.2.2.2.2.2.1 (by decide) rfl
  have b8 := (on { st := .t0 }).2.2.2.2.2.2.2.2.2.2.2.2.1 rfl rfl
  have b9 := (on { st := .t7 }).2.2.2.2.2.2.2.2.2.2.2.2.2 rfl rfl
  obtain ⟨c1, c2, c3, c4, c5, c6, c7, c8, c9, d1, -⟩ := no {}
  have c1 := c1 (.inr nofun)
  have c2 := c2 (.inr ⟨.inr rfl, .inr nofun⟩)
  have c3 := c3 (.inr nofun)
  have c4 := c4 (.inr nofun)
  have c5 := c5 nofun
  have c6 := c6 7 nofun nofun
  have c7 := c7 (.inr (by decide))
  have c8 := c8 (.inr (.inr (by decide)))
  have c9 := c9 (.inr (.inl nofun))
  have d1 := d1 (.inl nofun)
  have d2 := (g { laned { st := .test } with regs := [(0x713F01, 2 ^ 19)] } 63
    (awake (by decide +kernel))).2.2.2.2.2.2.2.2.2.2.1 7 rfl
  have d3 := (g (ported { st := .t7 }) 63 (awake (by decide +kernel))).2.2.2.2.2.2.2.2.2.2.2 56 (by decide +kernel) rfl rfl
  exact ⟨goes a1, goes c1, goes a2, goes c2, goes a5, goes c3, goes a7, goes c4, goes b1, goes c5, goes b2, goes c6, goes b6, goes c7,
    goes b7, goes c8, goes b8, goes c9, goes b9, goes d1, goes d3⟩

theorem met_LaneChanges : Obligations.LaneChanges →
    (Lanes.lane (Lanes.enter 63 .t7 (laned { st := .t6, rate := 4 })) 63).st = .t7 ∧
    (Lanes.lane (Lanes.failure 63 (laned { st := .t6, rate := 4, failures := 2 ^ 25 })) 63).st = .t2 := by
  intro h
  obtain ⟨h, g, k⟩ := h
  have a1 := h (laned { st := .t6, rate := 4 }) 63 .t7 nofun
  have a2 := h (laned { st := .t7, rate := 4 }) 63 .t0 nofun
  have a3 := h (laned { st := .t7, rate := 4 }) 63 .lp2 nofun
  have a4 := h (bonded {}) 63 .t0 nofun
  have a5 := (a1.2.2.2.2.2.2.2.2 (by decide +kernel)).2
  have a6 := (a2.2.2.2.2.2.2.2.2 (by decide +kernel)).2
  have a7 := (a3.2.2.2.2.2.2.2.2 (by decide +kernel)).2
  have b1 := (g (laned { st := .t6, rate := 4, failures := 2 ^ 25 }) 63 3).2 rfl (.inr rfl)
  have b2 := (g (laned { st := .t5, rate := 1 }) 63 0).2 rfl (.inl rfl)
  have b3 := (g (laned { st := .t5 }) 63 0).1 rfl
  have b4 := k (laned { st := .t6, rate := 2, fec := true, offer := 2, partner := 2, measured := some 900 }) 63 900 rfl rfl (by decide)
  exact ⟨a1.1, b1.1⟩

theorem met_LinkBlocksReceived : Obligations.LinkBlocksReceived →
    Goes (.mark 63 0 0 false) (laned { st := .t2, locked := true }) ∧ Goes (.mark 63 0 9 true) (bonded { rxLive := 3 }) ∧
    Goes (.mark 63 0 0 false) (laned {}) ∧
    Goes (.capability 63 (2 ^ 23)) (laned { st := .t3, partner := 2 ^ 23, run := 3 }) ∧ Goes (.capability 63 0) (laned {}) ∧
    Goes (.rate 63 1 false) (laned { st := .t4, offer := 1, partner := 1, run := 3, sent := 16 }) ∧
    Goes (.rate 63 1 false) (laned {}) ∧
    Goes (.verify 63 2) (laned { st := .t6 }) ∧ Goes (.verify 63 2) (laned {}) ∧
    Goes (.lowPower 63 2) (laned { st := .t7 }) ∧ Goes (.lowPower 63 2) (laned {}) ∧
    Goes (.unknownLinkBlock 63 0x83) (laned { st := .t7 }) ∧ Goes (.unknownLinkBlock 63 0x80) (laned { st := .t7 }) ∧
    Goes (.unknownLinkBlock 63 0x83) (laned {}) ∧ Goes (.bond 63 0 0 3) (laned {}) := by
  intro h
  obtain ⟨h, g⟩ := h
  have on (x : Lane) := h (laned x) 63 (awakeLane x)
  have a1 := ((on { st := .t2 } (by decide +kernel)).2.1 0 0 false (by decide +kernel)).1 (.inr rfl)
  have a2 := ((on { st := .t2, locked := true } (by decide +kernel)).2.1 0 0 false (by decide +kernel)).2 rfl rfl
  have a3 := ((h (bonded { rxLive := 3 }) 63 (awake (by decide +kernel)) (by decide +kernel)).1 0 9 true 15 (by decide +kernel)).1 (.inl nofun)
  have a4 := (on { st := .t7 } (by decide +kernel)).2.2.1 5 |>.1 nofun
  have a5 := ((on { st := .t3 } (by decide +kernel)).2.2.1 (2 ^ 23)).2.1 rfl (by decide +kernel)
  have a6 := ((on { st := .t3, partner := 2 ^ 23, run := 3 } (by decide +kernel)).2.2.1 (2 ^ 23)).2.2 rfl (by decide +kernel)
  have a7 := ((on { st := .t4, run := 2 } (by decide +kernel)).2.2.2.1 3 false).1 rfl (by decide +kernel)
  have a8 := (((on { st := .t4, offer := 1, partner := 1, run := 2 } (by decide +kernel)).2.2.2.1 1 false).2 rfl (by decide +kernel)).1
    (.inl (by decide))
  have a9 := (((on { st := .t4, offer := 1, partner := 1, run := 3, sent := 16 } (by decide +kernel)).2.2.2.1 1 false).2 rfl
    (by decide +kernel)).2 (by decide) (by decide)
  have b1 := ((on { st := .t5, run := 5 } (by decide +kernel)).2.2.2.2.1 1 rfl).1 (.inl rfl)
  have b2 := ((on { st := .t5, run := 7, converged := true } (by decide +kernel)).2.2.2.2.1 1 rfl).2 rfl (by decide)
  have b3 := ((on { st := .t6 } (by decide +kernel)).2.2.2.2.2.1 1 rfl).1 (by decide) (by decide)
  have b4 := ((on { st := .t6 } (by decide +kernel)).2.2.2.2.2.1 2 rfl).2.1 (.inl rfl) rfl
  have b5 := ((on { st := .t6, rate := 1, ownPass := some true } (by decide +kernel)).2.2.2.2.2.1 3 rfl).2.2 true (.inr rfl) rfl
  have b6 := ((on { st := .t7 } (by decide +kernel)).2.2.2.2.2.2.1 2).1 (.inl rfl) (.inr rfl)
  have b7 := ((on { st := .t7 } (by decide +kernel)).2.2.2.2.2.2.1 3).2 (.inr ⟨by decide, by decide⟩)
  have b8 := ((on { st := .t7 } (by decide +kernel)).2.2.2.2.2.2.2 0x83).1 (by decide) (by decide)
  have b9 := ((on { st := .t7 } (by decide +kernel)).2.2.2.2.2.2.2 0x80).2 (.inr (by decide))
  have c := g (laned {}) 63 (awakeLane _)
  have c1 := (c.1 (by decide +kernel)).1 0 0 false
  have c2 := (c.1 (by decide +kernel)).2.1 0
  have c3 := (c.1 (by decide +kernel)).2.2.1 2
  have c4 := (c.1 (by decide +kernel)).2.2.2.1 0x83
  have c5 := (c.1 (by decide +kernel)).2.2.2.2 0 0 3
  have c6 := c.2.1 nofun 1 false
  have c7 := c.2.2 nofun nofun 2
  exact ⟨goes a2, goes a3, goes c1, goes a6, goes c2, goes a9, goes c6, goes b4, goes c7, goes b6, goes c3, goes b8, goes b9, goes c4,
    goes c5⟩

/-- Eight blocks of a kind. -/
def eightOf (h : BitVec 2) (v : W64) : List Block := List.replicate 8 { hdr := h, payload := v, fecBad := false }

/-- Lane 0 is Up, and its slice 0, alone in use, has captured a word. -/
def sliced (v : Nat) : State :=
  { m5 with
    lanes := [(0, { st := .t7 })]
    bridges := [(Lanes.txCrossing 0 0, { line := [v] })]
    fab := { frames := [(119, 256)] } }

theorem met_LaneTransfers : Obligations.LaneTransfers →
    Goes (.laneTxTransfer 63) (laned { st := .t7, since := 1022 }) ∧ Goes (.laneTxTransfer 63) (laned {}) ∧ Goes (.laneTxTransfer 0) (sliced 77) ∧
    Goes (.laneRxTransfer 63 { blocks := eightOf 2 7, words := [] }) (laned { st := .t7 }) ∧
    Goes (.laneRxTransfer 63 { blocks := eightOf 2 7, words := [] }) (laned {}) ∧
    Goes (.bridgeCapture (Lanes.txCrossing (63 : Fin 64) (3 : Fin 4)) 9) m5 ∧
    Goes (.maintenanceTransfer 63) (laned { st := .t7, since := 1023 }) ∧ Goes (.maintenanceTransfer 63) (laned {}) ∧
    Goes (.marginSample 63 849) (laned { st := .t7, reference := 1000 }) ∧ Goes (.marginSample 63 849) (laned {}) ∧
    Goes (.shortRetrainEnd 63 900) (laned { st := .t7, retraining := true, reference := 1000 }) ∧
    Goes (.shortRetrainEnd 63 900) (laned {}) ∧
    Goes (.adaptationSlowdown 63) (laned { st := .t7 }) ∧ Goes (.adaptationSlowdown 63) (laned {}) := by
  intro h
  obtain ⟨h, r, q, f, sc, m, g⟩ := h
  have on (x : Lane) := h (laned x) 63 (awakeLane x)
  have a1 := ((on { st := .t7, since := 1023 }).1 rfl (by decide +kernel) (by decide +kernel)).1 (by decide +kernel)
  have a2 := (((on { st := .t7, since := 1022 }).1 rfl (by decide +kernel) (by decide +kernel)).2 (by decide +kernel)).1 (by decide +kernel)
  have a3 := ((((h (sliced 77) 0 (awake (by decide +kernel))).1 rfl (by decide +kernel) (by decide +kernel)).2 (by decide +kernel)).2
    ((2, 77) :: (2, 0) :: List.replicate 6 (1, 0)) 0 (by decide +kernel)).1 (by decide)
  have a4 := ((((h (sliced (2 ^ 128 + 0x80)) 0 (awake (by decide +kernel))).1 rfl (by decide +kernel) (by decide +kernel)).2 (by decide +kernel)).2
    ((1, 0x80) :: (2, 0) :: List.replicate 6 (1, 0)) 0 (by decide +kernel)).2 (by decide)
  have a5 := (h (bonded {}) 63 (awake (by decide +kernel))).2.1 15 rfl (by decide +kernel) (by decide +kernel)
  have a6 := (on { st := .test }).2.2.1 rfl
  have a7 := (h (ported { st := .t7 }) 63 (awake (by decide +kernel))).2.2.2.1 56 rfl (by decide +kernel)
  have a8 := (h (ported { st := .t1 }) 63 (awake (by decide +kernel))).2.2.2.2.1 56 (.inr (.inl rfl)) (by decide +kernel)
  have a9 := (h (ported {}) 63 (awake (by decide +kernel))).2.2.2.2.2.1 56 (by decide) (by decide +kernel)
  have b1 := (h { bonded {} with lanes := [] } 63 (awake (by decide +kernel))).2.2.2.2.2.2.1 15 nofun nofun (by decide +kernel)
    (by decide +kernel)
  have b2 := (on {}).2.2.2.2.2.2.2.1 nofun nofun (by decide +kernel) (by decide +kernel)
  have b3 := (h m5 63 awake5).2.2.2.2.2.2.2.2 3 9
  have rx (x : Lane) (l : List Block) (w : l.length = 8) := r (laned x) 63 l [] (awakeLane x) w
  have c1 := (rx { st := .t3 } (eightOf 2 7) rfl).1 (.inl (by decide))
  have c2 := (rx { st := .t7 } (eightOf 2 7) rfl).2.1 ⟨.inl rfl, by decide +kernel⟩
  have c3 := (rx { st := .test } (eightOf 2 7) rfl).2.2.1 rfl
  have c4 := (rx {} (eightOf 2 7) rfl).2.2.2 (by decide)
  have c5 := (rx { st := .t7, invalid := List.range 20 } (eightOf 0 7) rfl).1 (.inr ⟨.inl rfl, by decide +kernel⟩)
  have d1 := (q (laned { st := .t7 }) 63 (eightOf 2 7) (by decide +kernel) (by decide +kernel)).1 nofun (by decide) ⟨_, .head _, .inl rfl⟩
  have d2 := (q (laned { st := .t7 }) 63 (eightOf 1 0x85) (by decide +kernel) (by decide +kernel)).2 (by decide)
  have d3 := ((f (laned { st := .t7 }) 63 (eightOf 1 0x85)).1 (by decide +kernel)).1 (.inl (by decide))
  have d4 := (((f (laned { st := .t7 }) 63 (eightOf 0 7)).1 (by decide +kernel)).2 (by decide) (by decide)).1 (.inl (by decide +kernel))
  have d5 := (((f (bonded { rxLive := 3 }) 63 (eightOf 2 7)).1 (by decide +kernel)).2 (by decide) (by decide)).2 15 (by decide +kernel) (.inl rfl)
  have d6 := ((f (ported { st := .t7 }) 63 (eightOf 2 7)).2 56 (by decide +kernel)).1 (by decide +kernel)
  have d7 := ((f { ported { st := .t7 } with ethPorts := [(56, { rx := 7 })] } 63 (eightOf 1 0x1E)).2 56 (by decide +kernel)).2.1
    (by decide +kernel) (by decide)
  have d8 := ((f { ported { st := .t7 } with ethPorts := [(56, { rx := 7 })] } 63 (eightOf 1 0x78)).2 56 (by decide +kernel)).2.2
    (by decide +kernel) (by decide)
  have d9 := sc 64 7 5
  have mt (x : Lane) := m (laned x) 63 (awakeLane x)
  have e1 := (mt {}).1 (.inr (by decide))
  have e2 := (mt { maintenance := 255 }).2.1 (by decide +kernel)
  have e3 := (m (bonded { txLive := 3, txNext := 5 }) 63 (awake (by decide +kernel))).2.2.1 15 1 5 (by decide +kernel)
    (by decide +kernel) (by decide +kernel)
  have e4 := ((mt { st := .t1 }).2.2.2 (by decide +kernel)).1 (.inl rfl)
  have e5 := ((mt { st := .t3, offer := 4 }).2.2.2 (by decide +kernel)).2.1 rfl
  have e6 := ((mt { st := .t4, offer := 4, partner := 4, sent := 9, run := 4 }).2.2.2 (by decide +kernel)).2.2.1 rfl
  have e7 := ((mt { st := .t5 }).2.2.2 (by decide +kernel)).2.2.2.1 rfl
  have e8 := ((mt { st := .t6, ownPass := some true }).2.2.2 (by decide +kernel)).2.2.2.2.1 rfl
  have e9 := ((mt { st := .t7 }).2.2.2 (by decide +kernel)).2.2.2.2.2.1 rfl (by decide +kernel)
  have f1 := ((mt { st := .t7, since := 1023 }).2.2.2 (by decide +kernel)).2.2.2.2.2.2.1 rfl (by decide +kernel) rfl
  have f2 := ((mt { st := .t7, since := 1023, queue := [.lowPower 2] }).2.2.2 (by decide +kernel)).2.2.2.2.2.2.2.1 2 rfl (by decide +kernel) rfl (.inr rfl)
  have f3 := (((mt { st := .t7, queue := [.bond 1 2 3, .time 1 none] }).2.2.2 (by decide +kernel)).2.2.2.2.2.2.2.2 rfl (by decide +kernel)).1
    (show ∀ k, LinkBlock.lowPower k ∉ [LinkBlock.time 1 none, .bond 1 2 3] from by simp)
  have f4 := (((mt { st := .t7, queue := [.lowPower 1, .bond 1 2 3] }).2.2.2 (by decide +kernel)).2.2.2.2.2.2.2.2 rfl (by decide +kernel)).2
    [.bond 1 2 3] 1 (by decide +kernel) nofun (.inl rfl)
  have ma (x : Lane) (v : W16) := g (laned x) 63 v (awakeLane x)
  have g1 := ((ma { st := .t7, reference := 1000, low := 2 } 850).1 rfl).1 (by decide)
  have g2 := ((ma { st := .t7, reference := 1000 } 849).1 rfl).2.1 (by decide) (.inl (by decide))
  have g3 := ((ma { st := .t7, reference := 1000, low := 2, slow := true } 849).1 rfl).2.2.1 (by decide) (by decide) (by decide +kernel)
  have g4 := ((ma { st := .t7, retraining := true, reference := 1000 } 900).1 rfl).2.2.2.1 rfl
  have g5 := ((ma { st := .t7 } 0).1 rfl).2.2.2.2 rfl
  have g6 := (ma { st := .t6 } 900).2.1 (.inl rfl)
  have g7 := (ma {} 849).2.2.1 nofun nofun rfl
  have g8 := (ma {} 900).2.2.2.1 (.inl nofun)
  have g9 := (ma {} 0).2.2.2.2 (.inl nofun)
  exact ⟨goes a2, goes b2, goes a3, goes c2, goes c4, goes b3, goes f1, goes e1, goes g2, goes g7, goes g4, goes g8, goes g5, goes g9⟩

/-- Lane 63 with a control word. -/
def control (w : Nat) : State := { m5 with regs := [(0x713F01, w)] }

theorem met_LaneControl : Obligations.LaneControl →
    Goes (.enable .mailbox 63 true) (control 0) ∧ Goes (.restart .mailbox 63) (control (2 ^ 31)) ∧
    Goes (.clearcap .mailbox 63) (control 0) ∧ Goes (.lp .mailbox 63 2) (control 0) ∧ Goes (.lp .mailbox 63 3) (control 0) ∧
    Goes (.maxrate .mailbox 63 4) (control 0) ∧ Goes (.maxrate .mailbox 63 5) (control 0) ∧
    Goes (.fecReq .mailbox 63 true) (control 0) ∧ Goes (.txeq .mailbox 63 7) (control 0) ∧ Goes (.txeq .mailbox 63 8) (control 0) ∧
    Goes (.loop .mailbox 63 3) (control 0) ∧ Goes (.pattern .mailbox 63 3) (control 0) ∧ Goes (.txIdle .mailbox 63 true) (control 0) := by
  intro h
  obtain ⟨h, g⟩ := h
  have w := h (control 0) .mailbox 63
  have k : Writes (control 0) .mailbox 0x713F 1 (le 4 0) := writes (by decide +kernel)
  have a1 := (w.1 true (by decide +kernel) (writes (by decide +kernel))).1 (by decide +kernel)
  have a2 := ((h (control (2 ^ 31)) .mailbox 63).2.1 (by decide +kernel) (writes (by decide +kernel))).1 (by decide +kernel)
  have a3 := (w.2.2.1 (by decide +kernel) (writes (by decide +kernel))).1 (by decide +kernel)
  have a4 := (w.2.2.2.1 2 (by decide +kernel) (writes (by decide +kernel))).1 (by decide +kernel)
  have b4 := (w.2.2.2.1 3 (by decide +kernel) (writes (by decide +kernel))).2 (by decide +kernel)
  have a5 := (w.2.2.2.2.1 4 (by decide +kernel) (writes (by decide +kernel))).1 (by decide +kernel)
  have b5 := (w.2.2.2.2.1 5 (by decide +kernel) (writes (by decide +kernel))).2 (by decide +kernel)
  have a6 := (w.2.2.2.2.2.1 true (by decide +kernel) (writes (by decide +kernel))).1 (by decide +kernel)
  have a7 := (w.2.2.2.2.2.2.1 7 (by decide +kernel) (writes (by decide +kernel))).1 (by decide +kernel)
  have b7 := (w.2.2.2.2.2.2.1 8 (by decide +kernel) (writes (by decide +kernel))).2 (by decide +kernel)
  have a8 := (w.2.2.2.2.2.2.2.1 3 (by decide +kernel) (writes (by decide +kernel))).1 (by decide +kernel)
  have a9 := (w.2.2.2.2.2.2.2.2.1 3 (by decide +kernel) (writes (by decide +kernel))).1 (by decide +kernel)
  have c1 := (w.2.2.2.2.2.2.2.2.2 true (by decide +kernel) (writes (by decide +kernel))).1 (by decide +kernel)
  have d1 := (g (inMode .m4) 63 0 (2 ^ 31 + 2 ^ 30)).1 nofun
  have d2 := (g (laned { st := .t7 }) 63 (2 ^ 31) 0).2.1 rfl (by decide +kernel)
  have live (x : Lane) (old new : Nat) (e : Lanes.enabled (Ops.setReg 0x713F 0x0C 0
      (if Ops.bit new 29 then Lanes.setLane 63 { Lanes.lane (laned x) 63 with cap := 4, failures := 0 }
        (Ops.setReg 0x713F 1 (Ops.clearBits new 0x60030FFF) (laned x))
       else Ops.setReg 0x713F 1 (Ops.clearBits new 0x60030FFF) (laned x))) 63 = true) :=
    (g (laned x) 63 old new).2.2 rfl e
  have d3 := (live {} 0 (2 ^ 31 + 2 ^ 29) (by decide +kernel)).1 rfl
  have d4 := (live { st := .t7 } (2 ^ 31) (2 ^ 31 + 2 ^ 30) (by decide +kernel)).2.1 nofun rfl
  have d5 := ((live { st := .t7 } (2 ^ 31) (2 ^ 31 + 2 ^ 19) (by decide +kernel)).2.2 nofun rfl).1 (.inr (by decide +kernel))
  have d6 := (((live { st := .test } (2 ^ 31 + 2 ^ 19) (2 ^ 31) (by decide +kernel)).2.2 nofun rfl).2 (by decide +kernel)
    (by decide +kernel)).1 rfl
  have d7 := (((live { st := .t7, rate := 4 } (2 ^ 31 + 2 ^ 26) (2 ^ 31 + 3 * 2 ^ 24) (by decide +kernel)).2.2 nofun rfl).2
    (by decide +kernel) (by decide +kernel)).2.1 nofun (by decide +kernel)
  have e1 := ((((live { st := .t7 } (2 ^ 31) (2 ^ 31 + 2 ^ 28) (by decide +kernel)).2.2 nofun rfl).2
    (by decide +kernel) (by decide +kernel)).2.2 (by decide +kernel)).1 rfl (by decide +kernel)
  have e2 := ((((live { st := .t7 } (2 ^ 31) (2 ^ 31) (by decide +kernel)).2.2 nofun rfl).2
    (by decide +kernel) (by decide +kernel)).2.2 (by decide +kernel)).2.1 rfl (by decide +kernel)
  have e3 := ((((live { st := .lp1 } (2 ^ 31 + 2 ^ 27) (2 ^ 31) (by decide +kernel)).2.2 nofun rfl).2
    (by decide +kernel) (by decide +kernel)).2.2 (by decide +kernel)).2.2.1 rfl
  have e4 := ((((live { st := .lp2 } (2 ^ 31 + 2 ^ 28) (2 ^ 31) (by decide +kernel)).2.2 nofun rfl).2
    (by decide +kernel) (by decide +kernel)).2.2 (by decide +kernel)).2.2.2.1 rfl
  have e5 := ((((live { st := .t3 } (2 ^ 31) (2 ^ 31) (by decide +kernel)).2.2 nofun rfl).2
    (by decide +kernel) (by decide +kernel)).2.2 (by decide +kernel)).2.2.2.2 (by decide)
  exact ⟨goes a1, goes a2, goes a3, goes a4, goes b4, goes a5, goes b5, goes a6, goes a7, goes b7, goes a8, goes a9, goes c1⟩

theorem met_BondsAndPorts : Obligations.BondsAndPorts →
    Goes (.bondSwitchPoint 15 false) (bonded { txSwitch := some (256, 3), txNext := 256 }) ∧ Goes (.bondSwitchPoint 15 false) m5 ∧
    Goes (.bondSwitchPoint 15 true) (bonded { rxSwitch := some (256, 3), rxNext := 256 }) ∧ Goes (.bondSwitchPoint 15 true) m5 ∧
    Goes (.bond 63 0 0 3) (bonded {}) ∧ Goes (.bond 63 0 0 3) (laned { st := .t7 }) ∧
    Goes (.bondMembersWrite .mailbox 15 (3 <<< 62)) m5 ∧ Goes (.bondMembersWrite .mailbox 15 (3 <<< 62)) (control (2 ^ 31)) ∧
    Goes (.portMapWrite .mailbox 7 7) m5 ∧ Goes (.portMapWrite .mailbox 7 12) m5 ∧
    Goes (.ethernetLock 63 .cdrLocked) (ported { st := .t1 }) ∧ Goes (.ethernetLock 63 .lockTimeout) (ported { st := .t2 }) ∧
    Goes (.ethernetLock 63 .fecLocked) (ported { st := .t2 }) ∧ Goes (.ethernetLock 63 .fecLocked) (laned { st := .t2 }) ∧
    Goes (.phySupplyOutOfRange 869 1200) (laned { st := .t7 }) ∧
    Goes (.phySupplyReturn 870 1240) { control (2 ^ 31) with sup := { phyOut := true } } := by
  intro h
  obtain ⟨h, p, e, v⟩ := h
  have a1 := ((h (bonded { txSwitch := some (256, 3), txNext := 256 }) .mailbox 15 0).1 (awake (by decide +kernel))).1 256 3 rfl
  have a2 := ((h m5 .mailbox 15 0).1 awake5).2.1 rfl
  have a3 := ((h (bonded { rxSwitch := some (256, 3), rxNext := 256 }) .mailbox 15 0).1 (awake (by decide +kernel))).2.2.1 256 3 rfl
  have a4 := ((h m5 .mailbox 15 0).1 awake5).2.2.2 rfl
  have a5 := (((h (bonded {}) .mailbox 15 63).2.1 0 0 3 (awake (by decide +kernel)) (by decide +kernel)).2 (by decide +kernel)).1 rfl
  have a6 := ((h (laned { st := .t7 }) .mailbox 15 63).2.1 0 0 3 (awakeLane _) (by decide +kernel)).1 (by decide +kernel)
  have a7 := (((h (bonded {}) .mailbox 15 63).2.1 0 3 3 (awake (by decide +kernel)) (by decide +kernel)).2 (by decide +kernel)).2.1 nofun (.inl rfl)
  have a8 := (((h (bonded { rxLive := 1 }) .mailbox 15 63).2.1 9 3 3 (awake (by decide +kernel)) (by decide +kernel)).2
    (by decide +kernel)).2.2 nofun nofun (by decide +kernel)
  have b1 := ((h { m5 with sup := { retiredLanes := 2 ^ 63 } } .mailbox 15 0).2.2.1 (3 <<< 62) (writes (by decide +kernel))).1
    (by decide +kernel)
  have b2 := ((h (control (2 ^ 31)) .mailbox 15 0).2.2.1 (3 <<< 62) (writes (by decide +kernel))).2.1 (by decide +kernel)
    (by decide +kernel)
  have b3 := ((h m5 .mailbox 15 0).2.2.1 (3 <<< 62) (writes (by decide +kernel))).2.2 (by decide +kernel) (by decide +kernel)
  have c1 := (h (bonded {}) .mailbox 15 63).2.2.2.1 (by decide +kernel)
  have c2 := ((h (bonded { txLive := 2 }) .mailbox 15 62).2.2.2.2 (by decide +kernel)).1 (.inl (by decide +kernel))
  have c3 := ((h { sliced (2 ^ 128 + 0x80) with regs := [(0x720F01, 3), (0x720F02, 1)], bonds := [(15, { txLive := 1 })] } .mailbox 15
    0).2.2.2.2 (by decide +kernel)).2 ((1, 0x80) :: (2, 0) :: List.replicate 6 (1, 0)) 0 (by decide +kernel) (by decide +kernel)
    (by decide +kernel)
  have d1 := (p m5 .mailbox 7 12 (writes (by decide +kernel))).1 (by decide +kernel)
  have d2 := (p (control (2 ^ 31)) .mailbox 7 7 (writes (by decide +kernel))).2.1 (by decide +kernel) (by decide +kernel)
  have d3 := (p m5 .mailbox 7 7 (writes (by decide +kernel))).2.2 (by decide +kernel) (by decide +kernel)
  have et (x : Lane) (ev : EthEvent) := e (ported x) 63 ev (up (s := ported x) (by rfl)).toAwake
  have e1 := (e (laned { st := .t2 }) 63 .fecLocked (awakeLane _)).1 (by decide +kernel)
  have e2 := ((et { st := .t1 } .cdrLocked).2 56 (by decide +kernel)).1 rfl
  have e3 := ((et { st := .t1 } .cdrTimeout).2 56 (by decide +kernel)).2.1 rfl
  have e4 := ((et { st := .t2 } .lockTimeout).2 56 (by decide +kernel)).2.2.1 rfl
  have e5 := ((et {} .fecLocked).2 56 (by decide +kernel)).2.2.2.1 rfl nofun
  have e6 := ((et { st := .t2 } .fecLocked).2 56 (by decide +kernel)).2.2.2.2 rfl rfl
  have f1 := (v (laned { st := .t7 }) 869 1200 (awakeLane _)).1
  have f2 := (v { control (2 ^ 31) with sup := { phyOut := true } } 870 1240 (awake (by decide +kernel))).2
  exact ⟨goes a1, goes a2, goes a3, goes a4, goes a5, goes a6, goes b3, goes b2, goes d3, goes d1, goes e2, goes e4, goes e6, goes e1,
    goes f1, goes f2⟩

/-- Region port 511 belongs to PF1, and holds what it is given; it is off for receiving unless its region selects a source. -/
def regionPort (p : ChanPort) : State := { m5 with ports := if p = {} then [] else [(1023, p)] }

theorem awakePort (p : ChanPort) : Awake (regionPort p) := (up (s := regionPort p) (by rfl)).toAwake

/-- An access of the host that nothing answers. -/
def stray : HostAccess := { fn := .pf0, place := .memory 0 0x01FFFFF8 7, data := none }

theorem met_LinkAndPorts : Obligations.LinkAndPorts →
    Goes .hostLinkReset m5 ∧ Goes (.flr .pf0) m5 ∧ Goes (.flr .pf1) m5 ∧
    Goes (.flr (.vf 63)) { m5 with events := { numVfs := 64 } } ∧ Goes (.flr (.vf 0)) m5 ∧
    Goes (.linkStateChange 5) m5 ∧ Goes (.linkStateChange 0x0A00) m5 ∧ Goes (.aerError true) m5 ∧
    Goes (.regionPortSend .pf1 511 7) (regionPort {}) ∧ Goes (.regionPortSend .pf1 511 7) (regionPort { send := some 1 }) ∧
    Goes (.regionPortSend .pf0 511 7) (regionPort {}) ∧ Goes (.regionPortSend .pf1 511 7) unlinked ∧
    Goes (.regionPortRecv .pf1 511) (regionPort {}) ∧ Goes (.regionPortRecv .pf0 511) (regionPort {}) ∧
    Goes (.unmappedAccess stray) m5 ∧ Goes (.unmappedAccess { fn := .vf 9, place := .config .ids, data := none }) m5 ∧
    Goes (.unmappedAccess stray) unlinked := by
  intro h
  obtain ⟨h, g⟩ := h
  obtain ⟨a1, a2, a3, a4, a5, a6, a7, a8⟩ := h m5 awake5
  have a9 := a2 .hot
  have b1 := (a5 0).2 (by decide)
  have b2 := ((h { m5 with events := { numVfs := 64 } } (awake (by decide +kernel))).2.2.2.2.1 63).1 (by decide)
  have b3 := ((h { m5 with host := { m5.host with chans := [(31, { state := .running })] } }
    (awake (by decide +kernel))).2.2.2.2.2.1 (fun c => c == 31) 31).1 rfl
  have b4 := ((h { m5 with host := { m5.host with chans := [(31, { state := .running })] } }
    (awake (by decide +kernel))).2.2.2.2.2.1 (fun c => c == 30) 31).2 (by decide)
  have b5 := ((a7 5).2 (by decide)).1 (by decide)
  have b6 := ((a7 0x400).2 (by decide)).2 (by decide)
  have b7 := ((a7 0x0A00).2 (by decide)).1 (by decide)
  have b8 := (a7 m5.host.link).1 rfl
  have b9 := a8 true
  have on (p : ChanPort) (f : Fn) := (g (regionPort p) f 511 7 stray 31 (awakePort p)).2 (show HostLink.up m5 = true by decide +kernel)
  have no := (g unlinked .pf1 511 7 stray 31 (awake (by decide +kernel))).1 (by decide +kernel)
  have c1 := (on {} .pf1).1 ⟨rfl, rfl⟩ rfl rfl
  have c2 := (on { send := some 1 } .pf1).2.1 ⟨rfl, rfl⟩ (.inr rfl)
  have c3 := (g { regionPort { recv := some 7 } with fab := { frames := (0, 0x2000000) ::
    ((List.range 512).map fun i => (i * 1048576, 0)) } } .pf1 511 7 stray 31 (awake (by decide +kernel))).2 (by rfl) |>.2.2.1 7 ⟨rfl, rfl⟩ rfl rfl
  have c4 := (on { recv := some 7 } .pf1).2.2.2.1 ⟨rfl, rfl⟩ rfl (.inr (by decide +kernel))
  have c5 := (on {} .pf1).2.2.2.1 ⟨rfl, rfl⟩ rfl (.inl rfl)
  have c6 := ((g (inMode .m6) .pf1 511 7 stray 31 (awake (by decide +kernel))).2 (by rfl)).2.2.2.2.1 ⟨rfl, rfl⟩ nofun
  have c7 := (on {} .pf0).2.2.2.2.2.1 (by decide +kernel)
  obtain ⟨-, -, -, -, -, -, c8, -⟩ := on {} .pf0
  obtain ⟨-, -, -, -, -, -, -, -, c9, -⟩ := on {} .pf1
  have c9 := c9 ⟨by decide +kernel, rfl⟩
  obtain ⟨-, -, -, -, -, -, -, -, -, d1, -⟩ := on { recv := some 7 } .pf1
  have d1 := d1 nofun ⟨rfl, rfl⟩ rfl
  obtain ⟨-, -, -, -, -, -, -, -, -, -, d2, d3⟩ := on {} .pf0
  have d2 := d2 0x01FFFFF8 7 (by decide) (by decide)
  have d4 := d3 0x1624 rfl rfl
  obtain ⟨-, -, -, -, -, -, -, d5, -⟩ := (g m5 .pf0 511 7 { fn := .vf 9, place := .config .ids, data := none } 31 awake5).2 (by rfl)
  have d5 := d5 (by decide +kernel)
  exact ⟨goes a1, goes a3, goes a4, goes b2, goes b1, goes b5, goes b7, goes b9, goes c1, goes c2, goes c7.1, goes no.1, goes c5,
    goes c7.2, goes c8, goes d5, goes no.2.2⟩

/-- Channel 31 belongs to VF 63, with rings of 4,096 and a quota of 64; its state, and the tags. -/
def ringing (x : Dma) (l : List DmaTag) : State :=
  { m5 with
    regs := [(0x811F01, 65 * 2 ^ 24 + 12 * 2 ^ 20 + 64 * 2 ^ 13 + 15)]
    host := { m5.host with chans := if x = {} then [] else [(31, x)], tags := l }
    events := { numVfs := 64 } }

theorem awakeRing (x : Dma) (l : List DmaTag) : Awake (ringing x l) := (up (s := ringing x l) (by rfl)).toAwake

/-- A descriptor of two words, under tag 255 of channel 31. -/
def moving (op target : Nat) (status : Option Nat) : DmaTag :=
  { tag := 255, chan := 31, slot := 4095, status := status
    desc := { op := op, flags := 0, cookie := 9, len := 16, host := 4096, target := target } }

/-- Channel 31 with an OWNER that no function has. -/
def unowned : State := { m5 with regs := [(0x811F01, 66 * 2 ^ 24 + 4 * 2 ^ 20 + 2 ^ 13)] }

theorem met_DmaControl : Obligations.DmaControl →
    Goes (.sqTail (.vf 63) 31 4095) (ringing { state := .running } []) ∧
    Goes (.cqHead (.vf 63) 31 4095) (ringing { state := .running } []) ∧ Goes (.sqTail (.vf 63) 31 4096) (ringing { state := .halted } []) ∧
    Goes (.sqTail .pf0 31 0) (ringing {} []) ∧ Goes (.cqHead (.vf 63) 31 0) (ringing {} []) ∧ Goes (.sqTail .pf0 31 0) unlinked ∧
    Goes (.dmaEnable .mailbox 31) (ringing {} []) ∧ Goes (.dmaEnable .mailbox 31) unowned ∧
    Goes (.dmaDisable .mailbox 31) (ringing { state := .running } []) := by
  intro h
  have on (x : Dma) (l : List DmaTag) := h (ringing x l) .mailbox 31
  have a1 := ((h unlinked .mailbox 31).1 .pf0 0 (awake (by decide +kernel))).1 (by decide +kernel)
  have a2 := (((on {} []).1 .pf0 0 (awakeRing ..)).2 (by rfl)).1 (by decide +kernel)
  have a3 := (((on {} []).1 (.vf 63) 0 (awakeRing ..)).2 (by rfl)).2.1 ⟨by decide +kernel, by decide +kernel⟩ rfl
  have a4 := (((on { state := .running } []).1 (.vf 63) 4095 (awakeRing ..)).2 (by rfl)).2.2.1
    ⟨by decide +kernel, by decide +kernel⟩ nofun (by decide +kernel)
  have a5 := (((on { state := .halted } []).1 (.vf 63) 4096 (awakeRing ..)).2 (by rfl)).2.2.2
    ⟨by decide +kernel, by decide +kernel⟩ nofun (by decide +kernel)
  have b1 := ((h unowned .mailbox 31).2 _ 1 (.head _) (writes (by decide +kernel)) (by decide +kernel)).1
  have b1 := b1 (by decide +kernel)
  have b2 := ((h { ringing { state := .running } [] with regs := [(0x811F01, 12 * 2 ^ 20 + 2 ^ 13 + 2 ^ 10)] } .mailbox 31).2 _ 1
    (.head _) (writes (by decide +kernel)) (by decide +kernel)).2.1 (by decide +kernel) (by decide +kernel) (by decide +kernel)
  have b3 := ((on {} []).2 _ 1 (.head _) (writes (by decide +kernel)) (by decide +kernel)).2.2.1 (by decide +kernel) (by decide +kernel)
  have b4 := ((on { state := .draining } []).2 _ 0 (.tail _ (.head _)) (writes (by decide +kernel)) (by decide +kernel)).2.2.2.1
    (by decide +kernel) (by decide +kernel) (by decide +kernel)
  have run (x : Dma) (l : List DmaTag) := (on x l).2 _ 0 (.tail _ (.head _))
  have b5 := ((run { state := .running } [] (writes (by decide +kernel)) (by decide +kernel)).2.2.2.2 (by decide +kernel)
    (by decide +kernel) (.inl (by decide +kernel))).2.2 rfl (by decide +kernel)
  have b6 := ((run { state := .running } [moving 2 9 none] (writes (by decide +kernel)) (by decide +kernel)).2.2.2.2 (by decide +kernel)
    (by decide +kernel) (.inl (by decide +kernel))).2.1 rfl (by decide +kernel)
  have b7 := (((on { state := .halted } []).2 _ 1 (.head _) (writes (by decide +kernel)) (by decide +kernel)).2.2.2.2 (by decide +kernel)
    (by decide +kernel) (.inr (by decide +kernel))).1 rfl
  exact ⟨goes a4.1, goes a4.2, goes a5.1, goes a2.1, goes a3.2, goes a1.1, goes b3, goes b1, goes b5⟩

/-- A descriptor as its 32 bytes. -/
def described (op flags len target : Nat) : List Byte :=
  le 1 op ++ le 1 flags ++ le 2 9 ++ le 4 len ++ le 8 4096 ++ le 8 target ++ le 8 0

/-- Queue 4095 with its consumer, its producer channel 31, and channel 31 as before. -/
def chained (x : Queue) (op : Nat) : State :=
  { ringing { state := .running } [moving op 4095 none] with
    regs := [(256 * 0x51FF + 121, 2 ^ 63 + (0xC00 + 31) * 2 ^ 24 + (0xC00 + 31) * 2 ^ 12), (256 * 0x51FF + 122, 2 ^ 38),
      (0x811F01, 65 * 2 ^ 24 + 12 * 2 ^ 20 + 64 * 2 ^ 13 + 15)]
    queues := if x = {} then [] else [(4095, x)] }

/-- A closed packet of two words. -/
def twoWords : Queue :=
  { packets := [{ cells := [{ id := 0, words := [Queues.withParity 9, Queues.withParity 8], written := 2, visible := true }]
                  opened := false }]
    lastDepth := 1 }

theorem met_Descriptors : Obligations.Descriptors →
    Goes (.descriptorStart 31 (some (described 1 0 16 4095))) (ringing { state := .running, sqTail := 1 } []) ∧
    Goes (.descriptorStart 31 none) (ringing { state := .running, sqTail := 1 } []) ∧ Goes (.descriptorStart 31 none) (ringing {} []) ∧
    Goes (.hostToQueue 255 (some (le 8 7))) (chained {} 1) ∧ Goes (.hostToQueue 255 none) (chained {} 1) ∧
    Goes (.hostToQueue 0 none) (chained {} 1) ∧
    Goes (.queueToHost 255 Queues.sound) (chained { packets := onePacket.packets, lastDepth := 1 } 2) ∧
    Goes (.queueToHost 0 Queues.sound) (chained {} 1) ∧
    Goes (.hostToBank 255 (some (le 8 7 ++ le 8 8))) (ringing {} [moving 3 0x07FFFFF0 none]) ∧
    Goes (.bankToHost 255) (ringing {} [moving 4 0x07FFFFF0 none]) ∧
    Goes (.hostToStream 255 (some [1, 2])) (ringing {} [moving 5 0 none]) ∧
    Goes (.descriptorFinish 255) (ringing { state := .running } [moving 1 0 (some 0)]) ∧
    Goes (.descriptorFinish 255) (ringing {} []) := by
  intro h
  obtain ⟨h, f, m, w, l⟩ := h
  have st (d : Option (List Byte)) := h (ringing { state := .running, sqTail := 1 } []) 31 d (awakeRing ..)
  have may : Bridges.linkDown (ringing { state := .running, sqTail := 1 } []) = false ∧
      (HostLink.tagsOf (ringing { state := .running, sqTail := 1 } []) 31).length <
        HostLink.quota (ringing { state := .running, sqTail := 1 } []) 31 := by decide +kernel
  have a1 := (h (ringing {} []) 31 none (awakeRing ..)).1 (.inl (by decide +kernel))
  have a2 := ((st none).2 0 (by decide +kernel) (by decide +kernel)).1 rfl
  have a3 := ((st (some (described 6 0 16 4095))).2 0 (by decide +kernel) (by decide +kernel)).2.1 nofun (by decide +kernel)
  have a4 := ((st (some (described 3 0 16 0))).2 0 (by decide +kernel) (by decide +kernel)).2.2.1 nofun (by decide +kernel)
    (by decide +kernel)
  have a5 := ((st (some (described 1 0 16 4095))).2 0 (by decide +kernel) (by decide +kernel)).2.2.2 nofun (by decide +kernel)
    (by decide +kernel)
  have a6 := (f (ringing {} []) 255 (awakeRing ..)).1 (by decide +kernel)
  have a7 := ((f (ringing { state := .running } [moving 1 0 none]) 255 (awakeRing ..)).2 (moving 1 0 none) (by decide +kernel)).1
    (.inl rfl)
  have a8 := ((f (ringing { state := .running } [moving 1 0 (some 0)]) 255 (awakeRing ..)).2 (moving 1 0 (some 0))
    (by decide +kernel)).2 0 rfl
  have a8 := a8 (by decide +kernel)
  have mv (s : State) (d : Option (List Byte)) (a : Awake s) := m s 255 Queues.sound d a
  have b1 := (m (chained {} 1) 0 Queues.sound none (awake (by decide +kernel))).1 (1, .hostToQueue 0 none) (.head _) (.inl (by decide +kernel))
  have b2 := (m (chained {} 1) 0 Queues.sound none (awake (by decide +kernel))).1 (2, .queueToHost 0 Queues.sound) (.tail _ (.head _))
    (.inl (by decide +kernel))
  have b3 := (mv { chained {} 1 with modes := { m5.modes with cur := .m7 } } none (awake (by decide +kernel))).2 (moving 1 4095 none) _ (.head _)
    (by decide +kernel) nofun |>.1 (by decide +kernel)
  have b4 := (mv (chained {} 1) none (awake (by decide +kernel))).2 (moving 1 4095 none) _ (.head _) (by decide +kernel) nofun |>.2.1
    (.inr (.inl rfl)) (.inl rfl) rfl
  have b5 := ((mv (chained {} 1) (some (le 8 7)) (awake (by decide +kernel))).2 (moving 1 4095 none) _ (.head _) (by decide +kernel)
    nofun |>.2.2.1 (le 8 7) (.inr (.inl rfl)) rfl).1 rfl
  have b6 := (mv (chained { packets := onePacket.packets, lastDepth := 1 } 2) none (awake (by decide +kernel))).2 (moving 2 4095 none) _
    (.tail _ (.head _)) (by decide +kernel) nofun |>.2.2.2.1 (.inr (.inl rfl)) rfl
  have b7 := ((mv (ringing {} [moving 3 0x07FFFFF0 none]) (some (le 8 7 ++ le 8 8)) (awakeRing ..)).2 (moving 3 0x07FFFFF0 none) _
    (.tail _ (.tail _ (.head _))) (by decide +kernel) nofun |>.2.2.1 (le 8 7 ++ le 8 8) (.inr (.inl rfl)) rfl).2.1 rfl
  have b8 := (mv (ringing {} [moving 4 0x07FFFFF0 none]) none (awakeRing ..)).2 (moving 4 0x07FFFFF0 none) _
    (.tail _ (.tail _ (.tail _ (.head _)))) (by decide +kernel) nofun |>.2.2.2.2 (.inr (.inl rfl)) rfl
  have b9 := ((mv (ringing {} [moving 5 0 none]) (some [1, 2]) (awakeRing ..)).2 (moving 5 0 none) _
    (.tail _ (.tail _ (.tail _ (.tail _ (.head _))))) (by decide +kernel) nofun |>.2.2.1 [1, 2] (.inl rfl) rfl).2.2 rfl
  have c1 := ((w (chained {} 1) (moving 1 4095 none) 1 (le 8 7) (by decide)).1 _ _ (by decide) rfl).1 (by decide +kernel)
  have c2 := ((w (ringing { state := .running } [moving 1 4095 none]) (moving 1 4095 none) 1 (le 8 7) (by decide)).1 _ _ (by decide)
    rfl).2 (by decide +kernel)
  have c3 := ((w (chained twoWords 2) (moving 2 4095 none) 1 [] (by decide)).2.1 Queues.sound _ _ rfl).2.2 (by decide +kernel)
    (by decide +kernel)
  have c4 := ((w (ringing { state := .running } [moving 2 4095 none]) (moving 2 4095 none) 1 [] (by decide)).2.1 Queues.sound _ _
    rfl).1 (by decide +kernel)
  have c5 := (w { ringing {} [moving 3 0x07FFFFF0 none] with bankBase := .off } (moving 3 0x07FFFFF0 none) 1 (le 8 7)
    (by decide)).2.2.2.1 (by decide +kernel) (by decide)
  have c6 := (w { ringing {} [moving 3 0x07FFFFF0 none] with bankBase := .retain } (moving 3 0x07FFFFF0 none) 1 (le 8 7)
    (by decide)).2.2.2.2.1 (by decide +kernel) (by decide +kernel) (by decide)
  have c7 := ((w (ringing {} [moving 3 0x07FFFFF0 none]) (moving 3 0x07FFFFF0 none) 1 (le 8 7) (by decide)).2.2.2.2.2
    (by decide +kernel) (by decide +kernel)).1 (by decide)
  have c8 := ((w (ringing {} [moving 4 0x07FFFFF0 none]) (moving 4 0x07FFFFF0 none) 1 [] (by decide)).2.2.2.2.2
    (by decide +kernel) (by decide +kernel)).2 0 (by decide +kernel)
  have c9 := l (ringing {} []) { moving 1 4095 none with done := 16 } 1 [] rfl
  exact ⟨goes a5, goes a2, goes a1, goes b5, goes b4, goes b1, goes b6, goes b2, goes b7, goes b8, goes b9, goes a8, goes a6⟩

/-- M5 with source 639 under a control word. -/
def heard (c : Nat) (e : EventState) : State := { m5 with regs := [(0xB10480, c)], events := e }

/-- User event 127 has a token. -/
def userToken (v : Bool) : State :=
  { m5 with fab := {
      frames := [(768 * 508 + 12, BitVec.twoPow 4096 811), (768 * 508 + 143, BitVec.twoPow 4096 3080)]
      stages := [(32768 * 508 + 16384, { held := some v, rails := some v })] } }

/-- Source 639 goes to engine 127, whose event word is the first of bank 0. -/
def toEngine : State := { m5 with regs := [(0xB10480, 2 ^ 31 + 2 ^ 25 + 127 * 2 ^ 18 + 5 * 4096), (0xB00180, 2 ^ 31)] }

/-- Source 639 goes to CAN, with ports that send notices. -/
def toCan (a b : Nat) : State := { m5 with regs := [(0x110101, a), (0x110109, a), (0x110201, b), (0x110209, b), (0xB10480, 2 ^ 31 + 2 ^ 29)] }

theorem met_Events : Obligations.Events →
    Ops.raise 639 m5 = rawSet 639 m5 ∧ Goes (.pulseRawEnd 639) m5 ∧ Goes (.pulseRawEnd 0) m5 ∧
    Goes (.statusClear .mailbox (List.replicate 80 255)) m5 ∧ Goes (.statusClear .mailbox [1]) m5 ∧
    Goes (.eventControlWrite .mailbox 639 (1 <<< 31)) m5 ∧
    Goes (.msixUnblock (.entry 1023)) m5 ∧ Goes (.msixMask (.entry 1023)) m5 ∧ Goes (.msixMask (.entry 2047)) m5 ∧
    Goes (.msixMask (.function .pf1 .d3hot)) m5 ∧ Goes (.msixUnblock (.function (.vf 0) .mask)) m5 ∧
    Goes (.vfEnable 64) m5 ∧ Goes (.vfEnable 65) m5 ∧
    Goes (.fabricUserEvent 127) (userToken true) ∧ Goes (.fabricUserEvent 127) m5 := by
  intro h
  obtain ⟨h, g⟩ := h
  have a1 := (h m5 639).1 (.inl (by decide +kernel))
  have a2 := (h (heard (2 ^ 31) {}) 639).2.1 ⟨by decide +kernel, by decide +kernel⟩ ⟨by decide +kernel, by decide +kernel⟩
    (by decide +kernel) (by decide +kernel)
  have msi (s : State) := (h s 639).2.2.1
  have a3 := (msi { heard (2 ^ 31 + 2 ^ 11 + 1023) { msixBlocked := 0 } with
      host := { m5.host with fns := [(1, { busMaster := true, msixEnable := true })] } }
    ⟨by decide +kernel, by decide +kernel⟩ ⟨by decide +kernel, by decide +kernel⟩ (by decide +kernel) (by decide +kernel)).1
    (by decide +kernel) (by decide +kernel) (.inl nofun)
  have a4 := (msi (heard (2 ^ 31 + 2 ^ 11 + 1023) { msixBlocked := 0 })
    ⟨by decide +kernel, by decide +kernel⟩ ⟨by decide +kernel, by decide +kernel⟩ (by decide +kernel) (by decide +kernel)).2.1
    (by decide +kernel) (by decide +kernel)
  have a5 := (msi (heard (2 ^ 31 + 2 ^ 11 + 1024) { msixBlocked := 0 })
    ⟨by decide +kernel, by decide +kernel⟩ ⟨by decide +kernel, by decide +kernel⟩ (by decide +kernel) (by decide +kernel)).2.2
    (by decide +kernel)
  have a6 := ((h { heard (2 ^ 31 + 2 ^ 30) {} with modes := { m5.modes with cur := .m6 } } 639).2.2.2.1
    ⟨by decide +kernel, by decide +kernel⟩ ⟨by decide +kernel, by decide +kernel⟩ (by decide +kernel) (by decide +kernel)).1 (.inl rfl)
  have a7 := ((h (heard (2 ^ 31 + 2 ^ 30) {}) 639).2.2.2.1
    ⟨by decide +kernel, by decide +kernel⟩ ⟨by decide +kernel, by decide +kernel⟩ (by decide +kernel) (by decide +kernel)).2 nofun rfl
  have e (s : State) := (h s 639).2.2.2.2.1
  have e1 := (e (heard (2 ^ 31 + 2 ^ 25) {}) ⟨by decide +kernel, by decide +kernel⟩ (by decide +kernel) (by decide +kernel)
    (by decide +kernel) (by decide +kernel)).1 (by decide +kernel)
  have e2 := (e toEngine ⟨by decide +kernel, by decide +kernel⟩ (by decide +kernel) (by decide +kernel)
    (by decide +kernel) (by decide +kernel)).2.1 0 (by decide +kernel) (by decide +kernel) (by decide +kernel)
  have e3 := (e { toEngine with bankBase := .retain } ⟨by decide +kernel, by decide +kernel⟩ (by decide +kernel) (by decide +kernel)
    (by decide +kernel) (by decide +kernel)).2.2 (by decide +kernel) (by decide +kernel) (by decide +kernel)
  have k (s : State) := (h s 639).2.2.2.2.2.1
  have k1 := (k (toCan 0 0) ⟨by decide +kernel, by decide +kernel⟩ (by decide +kernel) (by decide +kernel)
    (by decide +kernel) (by decide +kernel)).1 (by decide +kernel) (by decide +kernel)
  have k2 := (k (toCan 0 1) ⟨by decide +kernel, by decide +kernel⟩ (by decide +kernel) (by decide +kernel)
    (by decide +kernel) (by decide +kernel)).2.1 1 (by decide +kernel) (by decide +kernel) (by decide +kernel)
  have k3 := (k (toCan 1 1) ⟨by decide +kernel, by decide +kernel⟩ (by decide +kernel) (by decide +kernel)
    (by decide +kernel) (by decide +kernel)).2.2.1 (by decide +kernel) (by decide +kernel) (by decide +kernel) (by decide +kernel)
  have k4 := (k { toCan 1 0 with can0 := { notices := List.replicate 32 { source := 1, sec := 0, ns := 0 } } }
    ⟨by decide +kernel, by decide +kernel⟩ (by decide +kernel) (by decide +kernel)
    (by decide +kernel) (by decide +kernel)).2.2.2 0 (by decide +kernel) (by decide +kernel) (by decide +kernel)
  have a8 := (h (heard (2 ^ 31) {}) 639).2.2.2.2.2.2 (by decide +kernel) (by decide)
  have b1 := ((g { m5 with events := { raw := BitVec.allOnes 640 } } .mailbox 639).1 (awake (by decide +kernel))).1 (by decide)
  have b2 := ((g m5 .mailbox 639).1 awake5).1 (by decide)
  have b3 := ((g m5 .mailbox 0).1 awake5).2 (by decide)
  have b4 := ((g m5 .mailbox 0).2.1 (List.replicate 80 255) (writes (by decide +kernel))).1 rfl
  have b5 := ((g m5 .mailbox 0).2.1 [1] (writes (by decide +kernel))).2 (by decide)
  have b6 := ((g m5 .mailbox 639).2.2.1 (1 <<< 31) (writes (by decide +kernel))).1 (.inr (.inr (by decide +kernel)))
  have b7 := ((g (heard 0 { raw := BitVec.twoPow 640 639 }) .mailbox 639).2.2.1 (1 <<< 31) (writes (by decide +kernel))).2
    (by decide +kernel) (by decide +kernel) (by decide +kernel)
  have c1 := ((g { m5 with
      events := { msixPending := BitVec.allOnes 2048 }
      host := { m5.host with fns := [(1, { busMaster := true, msixEnable := true })] } } .mailbox 0).2.2.2.1 1023
    (awake (by decide +kernel))).1 (by decide) (by decide +kernel)
  have c2 := ((g m5 .mailbox 0).2.2.2.1 1023 awake5).2.1 (by decide) (by decide +kernel)
  have c3 := ((g m5 .mailbox 0).2.2.2.1 1023 awake5).2.2.1 (by decide)
  have c4 := ((g m5 .mailbox 0).2.2.2.1 2047 awake5).2.2.2 (by decide +kernel)
  have c5 := ((g m5 .mailbox 0).2.2.2.2.1 .pf1 .d3hot awake5).1 rfl
  have c6 := ((g m5 .mailbox 0).2.2.2.2.1 (.vf 0) .mask awake5).2.1 (by decide +kernel)
  have c7 := ((g m5 .mailbox 0).2.2.2.2.1 .pf1 .noBusMaster awake5).2.2
  have d1 := ((g m5 .mailbox 0).2.2.2.2.2.1 64 awake5).1 (by decide)
  have d2 := ((g m5 .mailbox 0).2.2.2.2.2.1 65 awake5).2 (by decide)
  have d3 := ((g { m5 with events := { numVfs := 64, msixPending := BitVec.allOnes 2048 } } .mailbox 0).2.2.2.2.2.1 1
    (awake (by decide +kernel))).1 (by decide)
  have us (s : State) (a : Awake s) := (g s .mailbox 0).2.2.2.2.2.2 127 a
  have f1 := (us m5 awake5).1 (by decide +kernel)
  have f2 := ((us (userToken false) (awake (by decide +kernel))).2 0 (by decide +kernel)).1 (by decide)
  have f3 := ((us { userToken true with bridges := [(EventBlock.crossing 127, { h := some 1 })] } (awake (by decide +kernel))).2 1
    (by decide +kernel)).2.1 rfl (by decide +kernel)
  have f4 := ((us (userToken true) (awake (by decide +kernel))).2 1 (by decide +kernel)).2.2.1 rfl (by decide +kernel) (by decide +kernel)
  have f5 := ((us { userToken true with bridges := [(EventBlock.crossing 127, { dstDomain := true })] } (awake (by decide +kernel))).2 1
    (by decide +kernel)).2.2.2 rfl (by decide +kernel) (by decide +kernel)
  exact ⟨a1, goes b2, goes b3, goes b4, goes b5, goes b6, goes c2, goes c3, goes c4.2, goes c5.1, goes c6.2, goes d1, goes d2, goes f4,
    goes f1⟩

/-- Every I/O bank at 1.8 V, pin 383 in a state and under a word. -/
def pinned (v : Nat) (x : Pin) : State :=
  { m5 with
    regs := if v = 0x000680003FF00000 + 1024 * 383 then [] else [(0x927F02, v)]
    vio := (List.range 8).map fun k => (k, .v18)
    pins := [(383, x)] }

/-- An output, and an input of an INMODE. -/
def outWord : Nat := 2 * 2 ^ 51 + 0x3FF * 2 ^ 20 + 383 * 2 ^ 10
def inWord (mode : Nat) : Nat := 2 ^ 51 + mode * 2 ^ 43 + 0x3FF * 2 ^ 20 + 383 * 2 ^ 10

/-- The supervisor's pin 383, with a key to release it. -/
def supervised : State := { keyed with regs := [(0x927F02, 2 * 2 ^ 60 + 0x3FF * 2 ^ 20 + 0x3FF * 2 ^ 10)] }

/-- Pin 383 has a token on OE. -/
def enableToken : State :=
  { pinned outWord { active := some outWord } with
    fab := {
      frames := [(768 * 508 + 12, BitVec.twoPow 4096 811), (768 * 508 + 143, BitVec.twoPow 4096 152)]
      stages := [(32768 * 508 + 16384, { held := some true, rails := some true })] } }

/-- An empty crossing that is out of reset has room, whatever the number of its slices. -/
theorem room_of {s : State} {b : BridgeId} (h : Bridges.ready (Bridges.find s b) = true)
    (e : (Bridges.find s b).line.length = 0) : Bridges.room s b = true := by simp [Bridges.room, Bridges.slices, h, e]

theorem met_Pins : Obligations.Pins →
    Goes (.pinConfigWrite .mailbox 383 (BitVec.ofNat 64 outWord)) (pinned 0 {}) ∧
    Goes (.pinConfigWrite .mailbox 383 1) (pinned 0 {}) ∧
    Goes (.latchRelease 383) (pinned outWord { active := some outWord, latch := some (some true), srcA := { val := some true } }) ∧
    Goes (.latchRelease 383) m5 ∧
    Goes (.latchTimeout 383) (pinned outWord { active := some outWord, latch := some (some true) }) ∧
    Goes (.pinOutputToken 383 true) enableToken ∧ Goes (.pinOutputToken 383 true) m5 ∧ Goes (.pinInputChange 383 true) m5 ∧
    Goes (.pinSample 383) (pinned (inWord 1) { active := some (inWord 1) }) ∧ Goes (.pinSample 383) m5 ∧
    Goes (.vioClassChange 7 .absent) (pinned outWord {}) ∧ Goes (.vioClassChange 7 .v18) (pinned outWord {}) ∧
    Goes (.supervisorPinRelease .mailbox 0 (sigBytes sigPin) 383) supervised := by
  intro h
  obtain ⟨h, g⟩ := h
  have w (s : State) := (h s .mailbox 383).1
  have a1 := (w (pinned 0 {}) 1 (writes (by decide +kernel))).1 (.inr (by decide +kernel))
  have a2 := (w (inMode .m4) (BitVec.ofNat 64 outWord) (writes (by decide +kernel))).2.1 (by decide +kernel) (by decide +kernel)
  have a3 := (w (pinned 0 {}) (BitVec.ofNat 64 outWord) (writes (by decide +kernel))).2.2 (by decide +kernel) (by decide +kernel)
  have a4 := ((h (pinned 0 {}) .mailbox 383).2.1 outWord).2 (by decide +kernel)
  have a5 := ((h (pinned outWord { active := some outWord }) .mailbox 383).2.1 (outWord + 2 ^ 44)).1 (by decide +kernel)
  have lt (x : Pin) (a : Awake (pinned outWord x)) := (h (pinned outWord x) .mailbox 383).2.2.1 a
  have b1 := (lt { active := some outWord, latch := some (some true), srcA := { val := some true } } (awake (by decide +kernel))).1
    ⟨rfl, by decide +kernel⟩ (by decide +kernel)
  have b2 := (lt { active := some outWord, latch := some (some true) } (awake (by decide +kernel))).2.1
    ⟨rfl, by decide +kernel⟩ (by decide +kernel)
  have b3 := ((h m5 .mailbox 383).2.2.1 awake5).2.2 (by decide +kernel)
  have c1 := ((h enableToken .mailbox 383).2.2.2.1 true (awake (by decide +kernel))).1 1 (by decide +kernel)
  have c2 := ((h m5 .mailbox 383).2.2.2.1 true awake5).2 (by decide +kernel)
  have c3 := ((h m5 .mailbox 383).2.2.2.2.1 true awake5).1 (by decide +kernel)
  have c4 := ((h (pinned (inWord 0) { active := some (inWord 0) }) .mailbox 383).2.2.2.2.1 true (awake (by decide +kernel))).2
    (by decide +kernel)
  have sm (s : State) (a : Awake s) := (h s .mailbox 383).2.2.2.2.2 a
  have d1 := (sm m5 awake5).1 (by decide +kernel)
  have d2 := (sm (pinned (inWord 1 + 3 * 2 ^ 60) { active := some (inWord 1 + 3 * 2 ^ 60) }) (awake (by decide +kernel))).2.1
    (by decide +kernel) (by decide +kernel)
  have d3 := (sm (pinned (inWord 1) { active := some (inWord 1) }) (awake (by decide +kernel))).2.2.1 (by decide +kernel)
    (by decide +kernel) (room_of (by decide +kernel) (by decide +kernel))
  have d4 := (sm { pinned (inWord 1) { active := some (inWord 1) } with bridges := [(Pins.crossing 383, { srcReset := .held })] }
    (awake (by decide +kernel))).2.2.2 (by decide +kernel) (by decide +kernel) (by decide +kernel)
  have f (s : State) (c : VioClass) (a : Awake s) := (g s .mailbox).1 7 c a
  have f1 := (f (pinned outWord {}) .v18 (awake (by decide +kernel))).1 (by decide +kernel)
  have f2 := (f (pinned outWord {}) .absent (awake (by decide +kernel))).2.1 (by decide +kernel) (.inr (.inl rfl))
  have f3 := (f { pinned outWord {} with vio := [] } .v12 (awake (by decide +kernel))).2.2 (by decide +kernel) (by decide +kernel)
    nofun
  have k1 := ((g supervised .mailbox).2 0 (sigBytes sigPin) 383 (seals (by decide +kernel))).1 (by decide) (by decide +kernel)
  exact ⟨goes a3, goes a1, goes b1.1, goes b3.1, goes b2.2, goes c1, goes c2, goes c3, goes d3, goes d1, goes f2, goes f1, goes k1⟩

/-- M5 on a grid that began at launch count 0, in its window. -/
def windowed : State := { m5 with time := { m5.time with sec := 0, ns := 100000000 } }

theorem met_VoltageWindows : Obligations.VoltageWindows →
    Goes (.voltageWindowEnd [(511, 900)] [0, 0, 0, 0]) windowed ∧ Goes (.voltageWindowEnd [] []) (inMode .m4) ∧
    Super.step { m5 with sup := { frozen := true } } 511 {} = {} := by
  intro h
  have w := h windowed
  have a1 := (w.1 [(511, 900)] [0, 0, 0, 0] (awake (by decide +kernel))).2 (by decide +kernel)
  have a2 := ((h (inMode .m4)).1 [] [] (awake (by decide +kernel))).1 (by decide +kernel)
  obtain ⟨-, st, rw, gr⟩ := h m5
  have on : ¬ (m5.sup.frozen = true ∨ (Fabric.collar m5 511).isolate = true ∨ (Loader.facet m5 511).state = .retired) := by
    decide +kernel
  have a3 := (st 511 { v := 855 }).2.1 on (by decide)
  have a4 := (st 511 { v := 545 }).2.2.1 on (by decide) (by decide)
  have a5 := (st 511 { v := 760, fixed := 900 }).2.2.2.1 on (by decide) (by decide) rfl
  have tr (x : Supply) := (st 511 x).2.2.2.2 on
  have b1 := ((tr { v := 845, target := 10, wait := 1000, stall := 0, rate := 9 } (by decide)).1 (by decide +kernel) (by decide)).1
    (by decide)
  have b2 := ((tr { v := 850, target := 10, wait := 1000, stall := 0, rate := 9 } (by decide)).1 (by decide +kernel) (by decide)).2 rfl
  have b3 := (tr { v := 850, target := 10, wait := 1000, stall := 0, rate := 10 } (by decide)).2.1 (by decide +kernel) (by decide)
  have b4 := (tr { v := 555, target := 10, wait := 1000, stall := 0, rate := 20, good := 1000 } (by decide)).2.2.1
    (by decide +kernel) (by decide) (by decide +kernel) (by decide +kernel) (by decide)
  have b5 := (tr { v := 555, target := 10, wait := 1000, stall := 0, rate := 20 } (by decide)).2.2.2.1
    (by decide +kernel) (by decide) (by decide +kernel) (.inl (by decide +kernel))
  have b6 := (tr { v := 555, target := 10, wait := 1000, stall := 0, rate := 10, pref := 7 } (by decide)).2.2.2.2.1
    (by decide +kernel) (by decide) (by decide +kernel)
  have b7 := (tr { v := 555, target := 10, wait := 0, stall := 0, rate := 10, pref := 700, prefOk := 100 } (by decide)).2.2.2.2.2.1
    (by decide +kernel) (by decide +kernel)
  have b8 := (tr { v := 555, target := 10, wait := 0, stall := 1000, rate := 10, short := true } (by decide)).2.2.2.2.2.2.1
    (.inl (by decide +kernel))
  have b9 := (tr { v := 555, target := 10, wait := 0, stall := 1000, rate := 10, short := true } (by decide)).2.2.2.2.2.2.2
    (by decide +kernel)
  have c1 := ((h { m5 with sup := { frozen := true } }).2.1 511 {}).1 (.inl rfl)
  have c2 := (rw 511 (some 900)).2 (.inl (by decide +kernel))
  have c3 := ((h { m5 with
      sup := { supplies := [(511, { v := 850, target := 10 })] }
      fab := { lenses := [(511, { waitSamples := 10000000 })] } }).2.2.1 511 none).1 (by decide +kernel) (by decide +kernel)
  have g (x : GroupSupply) := gr x
  have d1 := ((h { m5 with sup := { frozen := true } }).2.2.2 {}).1 rfl
  have d2 := (g { v := 760, fixed := 770 }).2.1 rfl rfl
  have d3 := (g { target := 9, pref := 10, v := 845 }).2.2.1 ⟨rfl, by decide⟩ (by decide) (by decide)
  have d4 := (g { target := 9, pref := 10, v := 850 }).2.2.2.1 ⟨rfl, by decide⟩ (by decide) (by decide)
  have d5 := (g { target := 1000, pref := 10, v := 555, good := 1000 }).2.2.2.2.1 ⟨rfl, by decide⟩ (by decide) (by decide +kernel)
    (by decide +kernel) (by decide)
  have d6 := (g { target := 1000, pref := 10, v := 550, good := 1000 }).2.2.2.2.2.1 ⟨rfl, by decide⟩ (by decide) (by decide +kernel)
    (.inr (by decide))
  have d7 := (g { target := 1000, pref := 1000, v := 550 }).2.2.2.2.2.2.1 ⟨rfl, by decide⟩ (by decide) (by decide +kernel)
  have d8 := (g { target := 9, pref := 10, v := 850 }).2.2.2.2.2.2.2 (by decide) (by decide) rfl (by decide) (by decide) (by decide)
  exact ⟨goes a1, goes a2, c1⟩

theorem met_VoltageStaysInRange : Obligations.VoltageStaysInRange →
    550 ≤ (Super.step m5 511 { v := 550 }).v ∧ (Super.step m5 511 { v := 850, target := 1, wait := 1000 }).v ≤ 850 := by
  intro h
  have a1 := h m5 511 { v := 550 } (by decide) (by decide) (by decide) (by decide) (by decide) (by decide)
  have a2 := h m5 511 { v := 850, target := 1, wait := 1000 } (by decide) (by decide) (by decide) (by decide) (by decide) (by decide)
  exact ⟨a1.1, a2.2.1⟩

/-- Bank 2047 is under observation, 600 s on. -/
def watching (k : Nat) : State :=
  { m5 with
    time := { m5.time with sec := 600 }
    sup := { m5.sup with watches := [{ entry := Ops.channel 2 2047 0, opened := 0, retries := k }] } }

/-- The retirement of bank 3, and the steering of its column 9, are in force, and may be fused. -/
def repairs : List Nat := [2 * 2 ^ 60 + 2 ^ 58 + 3 * 2 ^ 32, 2 ^ 60 + 2 ^ 58 + 3 * 2 ^ 32 + 9, 6 * 2 ^ 60 + 2 ^ 58]
def repaired : State := { keyed with sup := { keyed.sup with repairs := repairs } }

/-- A retirement of a kind is being blown. -/
def blowing (k : Nat) : State :=
  { repaired with sup := { repaired.sup with blowing := some (k * 2 ^ 60 + 2 ^ 58 + 3 * 2 ^ 32 + if k = 1 then 9 else 0, .mailbox) } }

theorem met_FaultsAndRepairs : Obligations.FaultsAndRepairs →
    Goes (.faultRetry (.bank 2047) true) (watching 0) ∧ Goes (.faultRetry (.bank 2047) false) (watching 2) ∧
    Goes (.faultRetry (.bank 2047) false) (watching 3) ∧ Goes (.faultRetry (.bank 2047) false) m5 ∧
    Goes (.faultWindowClose (.bank 2047)) (watching 3) ∧ Goes (.faultWindowClose (.bank 2047)) m5 ∧
    Goes (.retireRequest .mailbox (BitVec.ofNat 64 (Ops.channel 2 2047 0))) m5 ∧
    Goes (.retireRequest .mailbox (BitVec.ofNat 64 (Ops.channel 2 2048 0))) m5 ∧
    Goes (.fuseRepair .mailbox 0 (sigBytes sigFuse) (BitVec.ofNat 64 (2 * 2 ^ 60 + 2 ^ 58 + 3 * 2 ^ 32))) repaired ∧
    Goes (.fuseRepair .mailbox 0 (sigBytes sigFuse) (BitVec.ofNat 64 (2 * 2 ^ 60 + 2 ^ 58 + 3 * 2 ^ 32))) keyed ∧
    Goes .fuseBlowComplete (blowing 2) ∧ Goes .fuseBlowComplete m5 := by
  intro h
  obtain ⟨h, p, f⟩ := h
  have w (k : Nat) (a : Awake (watching k)) := (h (watching k) (.bank 2047)).2.1 { entry := Ops.channel 2 2047 0, opened := 0, retries := k }
    a
  have a1 := ((h m5 (.bank 2047)).1 awake5 (by decide +kernel)).1 false
  have a2 := ((h m5 (.bank 2047)).1 awake5 (by decide +kernel)).2
  have a3 := (w 0 (awake (by decide +kernel)) (by decide +kernel)).1 ⟨by decide, by decide +kernel⟩
  have a4 := (w 2 (awake (by decide +kernel)) (by decide +kernel)).1 ⟨by decide, by decide +kernel⟩
  have a5 := (w 3 (awake (by decide +kernel)) (by decide +kernel)).2.1 (by decide +kernel) false
  have a6 := (w 3 (awake (by decide +kernel)) (by decide +kernel)).2.2.1 (by decide +kernel)
  have a7 := ((h { watching 3 with time := m5.time } (.bank 2047)).2.1 { entry := Ops.channel 2 2047 0, opened := 0, retries := 3 }
    (awake (by decide +kernel)) (by decide +kernel)).2.2.2 (by decide +kernel)
  have b1 := ((h m5 (.bank 2047)).2.2.1).2.1 (by decide +kernel) (by decide +kernel)
  have b2 := ((h (watching 0) (.bank 2047)).2.2.1).2.2 { entry := Ops.channel 2 2047 0, opened := 0, retries := 0 } (by decide +kernel)
    (by decide +kernel)
  have b3 := ((h { m5 with banks := [(2047, { power := some .retired })] } (.bank 2047)).2.2.1).1 (by decide +kernel)
  have rq (v : W64) := (h m5 (.bank 2047)).2.2.2 .mailbox v
  have b4 := (rq (BitVec.ofNat 64 (Ops.channel 2 2047 0)) (writes (by decide +kernel))).1 (by decide +kernel)
  have b5 := (rq (BitVec.ofNat 64 (Ops.channel 2 2048 0)) (writes (by decide +kernel))).2 (by decide +kernel)
  have c1 := (p m5 (Ops.channel 2 2047 0) 0).1
  have c2 := (p m5 (Ops.channel 2 2047 0) 0).2.1 (by decide)
  have c3 := (p m5 (Ops.channel 3 131 0) 0).2.2.1 (by decide)
  have c4 := (p m5 (Ops.channel 4 63 0) 0).2.2.2.1 (by decide)
  have c5 := (p m5 (Ops.channel 5 127 0) 0).2.2.2.2.1 (by decide)
  have c6 := (p m5 (Ops.channel 6 511 0) 0).2.2.2.2.2.1 (by decide)
  have c7 := (p { m5 with banks := [(9, { rebuild := some 5 })] } (Ops.channel 1 9 71) 0).2.2.2.2.2.2.1 (by decide)
    (by decide +kernel)
  have c8 := ((p m5 (Ops.channel 1 9 71) 0).2.2.2.2.2.2.2 (by decide) (by decide +kernel)).2 0 (by decide +kernel)
  have c9 := ((p { m5 with regs := [(256 * (0x4800 + 9) + 9, 0x83828180)] } (Ops.channel 1 9 71) 0).2.2.2.2.2.2.2 (by decide)
    (by decide +kernel)).1 (by decide +kernel)
  have d1 := ((f repaired .mailbox 0 (sigBytes sigFuse) (BitVec.ofNat 64 (2 * 2 ^ 60 + 2 ^ 58 + 3 * 2 ^ 32))).1
    (seals (by decide +kernel))).2 (2 * 2 ^ 60 + 2 ^ 58 + 3 * 2 ^ 32) (by decide +kernel) |>.2.2 (by decide +kernel) (by decide +kernel)
  have d2 := ((f keyed .mailbox 0 (sigBytes sigFuse) (BitVec.ofNat 64 (2 * 2 ^ 60 + 2 ^ 58 + 3 * 2 ^ 32))).1
    (seals (by decide +kernel))).1 (by decide +kernel)
  have d3 := ((f { repaired with sup := { repaired.sup with coreWarn := true } } .mailbox 0 (sigBytes sigFuse)
    (BitVec.ofNat 64 (2 * 2 ^ 60 + 2 ^ 58 + 3 * 2 ^ 32))).1
    (seals (by decide +kernel))).2 (2 * 2 ^ 60 + 2 ^ 58 + 3 * 2 ^ 32) (by decide +kernel) |>.2.1 (by decide +kernel) (.inl (by decide +kernel))
  have d4 := ((f { repaired with nv := { repaired.nv with wasted := 4096 } } .mailbox 0 (sigBytes sigFuse)
    (BitVec.ofNat 64 (2 * 2 ^ 60 + 2 ^ 58 + 3 * 2 ^ 32))).1
    (seals (by decide +kernel))).2 (2 * 2 ^ 60 + 2 ^ 58 + 3 * 2 ^ 32) (by decide +kernel) |>.1 (by decide +kernel)
  have e1 := (f m5 .mailbox 0 [] 0).2.1 awake5 rfl
  have e2 := ((f (blowing 2) .mailbox 0 [] 0).2.2.1 (2 * 2 ^ 60 + 2 ^ 58 + 3 * 2 ^ 32) (by decide +kernel)).1 (awake (by decide +kernel))
  have e3 := ((f (blowing 2) .mailbox 0 [] 0).2.2.1 (2 * 2 ^ 60 + 2 ^ 58 + 3 * 2 ^ 32) (by decide +kernel)).2
  have e4 := ((f (blowing 2) .mailbox 0 [] 0).2.2.2 (2 * 2 ^ 60 + 2 ^ 58 + 3 * 2 ^ 32)).1 (by decide)
  have e5 := ((f (blowing 1) .mailbox 0 [] 0).2.2.2 (2 ^ 60 + 2 ^ 58 + 3 * 2 ^ 32 + 9)).2 (by decide)
  exact ⟨goes a3.1, goes a4.2, goes a5, goes a1, goes a6, goes a2, goes b4, goes b5, goes d1, goes d2, goes e2, goes e1⟩

/-- Entry 127 publishes word 8191 of bank 2047 as 0xFFFF.FF. -/
def published : State :=
  { m5 with
    regs := [(0x110380, 2 ^ 63 + 5 * 2 ^ 59 + 2 ^ 57 + 0xFFF * 2 ^ 44 + 255 * 2 ^ 36 + 2047 * 2 ^ 25 + 8191 * 2 ^ 12)] }

/-- The row of a sub of the published object. -/
def rowPub (k : Nat) : Row := (Dict.row published 0xFFFF k).getD (Objects.r 0 0 .u8 .ro)

theorem readsPub {s : State} {t : Transport} {i k : Nat} {x : Row}
    (h : (decide (s.modes.cur ≠ .m0) && !Modes.released s && Transports.live s t && decide (Dict.row (counted s) i k = some x) &&
      decide (x.acc ≠ .wo) && Dict.reachable s x) = true) : Reads s t i k x := by
  simp only [Bool.and_eq_true, decide_eq_true_eq, Bool.not_eq_true'] at h
  exact ⟨⟨h.1.1.1.1.1, h.1.1.1.1.2⟩, .inl h.1.1.1.2, h.1.1.2, h.1.2, h.2⟩

theorem met_Requests : Obligations.Requests →
    Goes (.read .mailbox 0x1300 2) m5 ∧ Goes (.read .mailbox 0x8200 1) m5 ∧ Goes (.describe .mailbox 0x1300 2) m5 ∧
    Goes (.write .mailbox 0x15FF 1 (le 4 9)) m5 ∧ Goes (.write .mailbox 0x1300 9 []) m5 ∧
    Goes (.write .mailbox 0x1300 2 (le 2 501)) m5 ∧ Goes (.write .mailbox 0x1103 0x81 (le 4 8190)) m5 ∧
    Goes (.read .mailbox 0x1300 2) unlinked := by
  intro h
  have at5 (i : W16) (k : Byte) (d : List Byte) := h m5 .mailbox i k d
  have a1 := (at5 0x1300 2 []).1 (rowOf 0x1300 2) (reads (by decide +kernel)) (by decide) (by decide +kernel)
  have a2 := (at5 0x8200 1 []).2.1 (rowOf 0x8200 1) (reads (by decide +kernel)) (by decide) (by decide +kernel) (by decide)
  have a3 := a2.1 (HostLink.ownerBytes m5) (by decide +kernel)
  have a4 := ((h (blowing 2) .mailbox 0xC030 3 []).2.1 (rowOf 0xC030 3) (reads (by decide +kernel)) (by decide) (by decide +kernel)
    (by decide)).2.1 5 (by decide +kernel)
  have a5 := ((at5 0xB000 2 []).2.1 (rowOf 0xB000 2) (reads (by decide +kernel)) (by decide) (by decide +kernel)
    (by decide)).2.2 (by decide +kernel)
  have a6 := ((at5 0x2400 99 []).2.2.1 awake5 (served (by decide +kernel))).1 (by decide +kernel)
  have a7 := ((at5 0xC040 2 []).2.2.1 awake5 (served (by decide +kernel))).2.1 (rowOf 0xC040 2) (by decide +kernel) (by decide +kernel)
  have a8 := ((h (modes (fun m => { m with cur := .m6 }) published) .mailbox 0xFFFF 0 []).2.2.1 (awake (by decide +kernel))
    (served (by decide +kernel))).2.2 (rowPub 0)
    (by decide +kernel) (by decide +kernel) (by decide +kernel)
  have b1 := ((at5 0x1300 2 []).2.2.2.1 awake5 (served (by decide +kernel))).2 (rowOf 0x1300 2) (by decide +kernel)
  have b2 := ((at5 0x1300 99 []).2.2.2.1 awake5 (served (by decide +kernel))).1 (by decide +kernel)
  have b3 := (at5 0x15FF 1 (le 4 9)).2.2.2.2.1 (rowOf 0x15FF 1) (writes (by decide +kernel)) (by decide +kernel) (by decide)
    (by decide) (by decide +kernel)
  have b4 := (at5 0x1300 9 []).2.2.2.2.2.1 awake5 (served (by decide +kernel)) (by decide +kernel)
  have ck (i : W16) (k : Byte) (d : List Byte) := (at5 i k d).2.2.2.2.2.2.1 awake5 (served (by decide +kernel)) (rowOf i.toNat k.toNat)
  have c1 := (ck 0x15FF 1 [0] (by decide +kernel)).1 (by decide +kernel)
  have c2 := (ck 0x1010 1 (le 2 0) (by decide +kernel)).2.1 (by decide +kernel) (by decide +kernel)
  have c3 := (ck 0x1020 5 (le 2 0) (by decide +kernel)).2.2.1 (by decide +kernel) (by decide +kernel) (by decide +kernel)
  have c4 := (ck 0x3000 3 (le 10 50) (by decide +kernel)).2.2.2.1 (by decide +kernel) (by decide +kernel) (by decide +kernel)
    (by decide +kernel)
  have c5 := (ck 0x1101 1 [2] (by decide +kernel)).2.2.2.2 (by decide +kernel) (by decide +kernel) (by decide +kernel)
    (by decide +kernel) (by decide) (by decide) (by decide +kernel)
  have d1 := (at5 0x1300 2 (le 2 501)).2.2.2.2.2.2.2.1 4 (writes (by decide +kernel)) (by decide) (by decide) (by decide +kernel)
  have d2 := (at5 0x1103 0x81 (le 4 8190)).2.2.2.2.2.2.2.2.1 (Ops.setReg 0x1103 0x81 8190 (counted m5)) (writes (by decide +kernel))
    (by decide) (by decide) (by decide +kernel)
  have e1 := ((at5 0x2400 1 []).2.2.2.2.2.2.2.2.2.1 (rowOf 0x3000 3)).mpr (by decide +kernel)
  have f := (h unlinked .mailbox 0x1300 2 []).2.2.2.2.2.2.2.2.2.2 (awake (by decide +kernel)) (by decide +kernel)
  have f1 := f.1 (by decide +kernel)
  have f2 := f.2.1 (by decide +kernel)
  have f3 := f.2.2 (by decide +kernel)
  exact ⟨goes a1, goes a3, goes b1, goes b3, goes b4, goes d1, goes d2, goes f1⟩

/-- The keys are in use by an installation. -/
def keysInUse : State := { keyed with eng := { keyed.eng with installer := { keyed.eng.installer with status := 1 } } }

/-- What the inner write of a quarantine leaves. -/
def innerQuarantine : State := ((Dict.innerWrite .mailbox 0xC050 2 (le 1 1) (opened keyed)).getRight?).getD m5

/-- What the inner write of a fuse repair leaves: the blow under way. -/
def innerFuse : State :=
  ((Dict.innerWrite .mailbox 0xA030 5 (le 8 (2 * 2 ^ 60 + 2 ^ 58 + 3 * 2 ^ 32)) (opened repaired)).getRight?).getD m5

theorem met_SealedCommands : Obligations.SealedCommands →
    Goes (.sealedCommand .mailbox (Dict.sealedBlob keyed 0 0xC050 2 (le 1 1) (sigBytes sigQuarantine))) keyed ∧
    Goes (.sealedCommand .mailbox (Dict.sealedBlob keysInUse 0 0xC001 7 (le 1 3) (sigBytes sigRevoke))) keysInUse ∧
    Goes (.sealedCommand .mailbox (List.replicate 424 0)) m5 := by
  intro h
  have a1 := ((h keyed .mailbox 0 (sigBytes sigQuarantine) 0xC050 2 (le 1 1) []).1 innerQuarantine (seals (by decide +kernel)) rfl).1 (by decide +kernel)
  have a2 := ((h repaired .mailbox 0 (sigBytes sigFuse) 0xA030 5 (le 8 (2 * 2 ^ 60 + 2 ^ 58 + 3 * 2 ^ 32)) []).1 innerFuse
    (seals (by decide +kernel)) rfl).2 (by decide +kernel)
  have a3 := (h keysInUse .mailbox 0 (sigBytes sigRevoke) 0xC001 7 (le 1 3) []).2.1 5 (seals (by decide +kernel)) (by decide +kernel)
  have ck (s : State) (d : List Byte) := (h s .mailbox 0 [] 0 0 [] d).2.2.1
  have b1 := (ck m5 (List.replicate 423 0) (writes (by decide +kernel))).1 (by decide +kernel)
  have b2 := (ck (blowing 2) (List.replicate 424 0) (writes (by decide +kernel))).2.1 (by decide +kernel) (by decide +kernel)
  have b3 := (ck m5 (List.replicate 424 0) (writes (by decide +kernel))).2.2 2 (by decide +kernel) rfl (by decide +kernel)
  have c1 := (h m5 .mailbox 0 [] 0 0 [] []).2.2.2
  exact ⟨goes a1, goes a3, goes b3⟩

/-- CAN port 1 enabled at node 5, in a given state. -/
def ported1 (c : CanPort) : State :=
  { m5 with modes := { m5.modes with ndId := 5 }, regs := [(0x110201, 1)], can1 := c }

theorem portedUp (c : CanPort) : Awake (ported1 c) := (up (s := ported1 c) (by rfl)).toAwake

/-- CAN port 1 disabled. -/
def portOff : State := { m5 with regs := [(0x110201, 0)] }

/-- A request of READ 0xF000.01, in the mailbox and as a CAN frame. -/
def requestArea : List Byte := le 2 0xBEEF ++ le 1 1 ++ le 1 0 ++ le 2 0xF000 ++ le 1 1 ++ le 1 0 ++ le 4 0 ++ le 4 0
def requestFrame : CanFrame :=
  { ident := BitVec.ofNat 29 (2 ^ 24 + 5 * 2 ^ 17 + 127 * 2 ^ 10)
    data := le 1 0 ++ le 1 9 ++ le 1 1 ++ le 1 0 ++ le 2 0xF000 ++ le 1 1 ++ le 1 0 ++ le 4 0 }

/-- A request of READ whose LEN is 1, of a sub that exists and of one that does not, and one with a reserved byte set. -/
def longArea (i k z : Nat) : List Byte := le 2 0xBEEF ++ le 1 1 ++ le 1 z ++ le 2 i ++ le 1 k ++ le 1 0 ++ le 4 1 ++ le 4 0

/-- A frame of KIND `k` and segment number `n` from client `c` to node 5, of a WRITE of 0xB000.02 with `len` bytes, `n` of them in
the frame. -/
def frameFrom (c kind len n : Nat) : CanFrame :=
  { ident := BitVec.ofNat 29 (2 ^ 24 + 5 * 2 ^ 17 + c * 2 ^ 10)
    data := le 1 (kind * 64) ++ le 1 9 ++ le 1 2 ++ le 1 0 ++ le 2 0xB000 ++ le 1 2 ++ le 1 0 ++ le 4 len ++ List.replicate n 7 }

/-- A following frame of client 127. -/
def segmentFrame (kind seg tid n : Nat) : CanFrame :=
  { ident := BitVec.ofNat 29 (2 ^ 24 + 5 * 2 ^ 17 + 127 * 2 ^ 10), data := le 1 (kind * 64 + seg) ++ le 1 tid ++ List.replicate n 7 }

/-- Client 127's transfer of `len` bytes, of which the first 52 have come. -/
def partWay (len : Nat) : Reassembly := Dict.header 127 (frameFrom 127 1 len 52).data

/-- The notice publication: entry `e` of the word, with NOTIFY, and the notice word at word 100 of bank 2. -/
def notifying : State :=
  { published with regs := [(0x110380, 2 ^ 63 + 5 * 2 ^ 59 + 2 ^ 57 + 2 ^ 56 + 0xFFF * 2 ^ 44 + 255 * 2 ^ 36 + 2047 * 2 ^ 25 + 8191 * 2 ^ 12),
    (0x110381, 2 * 8192 + 100)] }

/-- The published word has two wrong bits. -/
def spoiled : State := { published with bankMem := [(8192 * 2047 + 8191, 3)] }

/-- The bank of the published word is in another state. -/
def bankAt (p : Power) : State := { published with banks := [(2047, { power := some p })] }

theorem met_Transports : Obligations.Transports →
    Goes (.doorbell 0xBEEF requestArea) { m5 with mailbox := { busy := true } } ∧ Goes (.doorbell 0xBEEF requestArea) m5 ∧
    Goes (.doorbell 1 []) unlinked ∧ Goes (.canRequestFrame 1 requestFrame) (ported1 {}) ∧
    Goes (.canRequestFrame 0 requestFrame) m5 ∧
    Goes (.canSegmentTimeout 1) (ported1 {}) ∧ Goes (.notice 1) (ported1 {}) ∧
    Goes (.canPortDisable .mailbox 1) (ported1 {}) ∧ Goes (.canPortDisable .can1 1) (ported1 {}) ∧
    Goes (.busError 1 127 127) (ported1 {}) ∧ Goes (.busError 1 127 127) portOff ∧
    Goes (.busOffRecovery 1) (ported1 { txErr := 256, busOff := true }) ∧ Goes (.busOffRecovery 1) m5 ∧
    Goes (.publicationEntryWrite .mailbox 127 0) m5 ∧ Goes (.publishedAccess .mailbox .read 0xFFF 255 []) published ∧
    Goes (.publishedAccess .mailbox .write 0xFFF 255 (le 8 7)) published ∧
    Goes (.publishedAccess .mailbox .describe 0xFFF 255 []) published := by
  intro h
  obtain ⟨d, f, p, e, w, o⟩ := h
  have a1 := (d unlinked 1 [] (awake (by decide +kernel))).1 (by decide +kernel)
  have a2 := (d { m5 with mailbox := { busy := true } } 0xBEEF requestArea (awake (by decide +kernel))).2.1 (by decide +kernel) rfl
  have ring (a : List Byte) := (d m5 0xBEEF a awake5).2.2 (by decide +kernel) rfl
  have a3 := (ring requestArea).2.2.2 (by decide +kernel) (by decide +kernel)
  have a4 := (ring (longArea 0xF000 1 1)).1 (by decide +kernel)
  have a5 := (ring (longArea 0xF000 1 0)).2.1 (by decide +kernel) (by decide +kernel) (by decide +kernel)
  have a6 := (ring (longArea 0x1300 2 0)).2.2.1 (by decide +kernel) (by decide +kernel) (by decide +kernel)
  have fr (c : CanPort) (g : CanFrame) := f (ported1 c) 1 g
  have b1 := (f Tests.m5 0 requestFrame awake5).1 (by decide +kernel)
  have b2 := ((fr {} (frameFrom 127 0 52 52) (awake (by decide +kernel))).2.1 (by decide +kernel) (by decide +kernel)).2 (by decide +kernel)
  have b3 := b2.1 (by decide +kernel)
  have b4 := ((fr {} (frameFrom 127 0 53 53) (awake (by decide +kernel))).2.1 (by decide +kernel) (by decide +kernel)).1 (by decide +kernel)
  have b5 := (((fr {} requestFrame (awake (by decide +kernel))).2.1 (by decide +kernel) (by decide +kernel)).2 (by decide +kernel)).1
    (by decide +kernel)
  have b6 := (((fr {} { requestFrame with data := le 1 0 ++ le 1 9 ++ le 1 4 ++ le 9 0 } (awake (by decide +kernel))).2.1
    (by decide +kernel) (by decide +kernel)).2 (by decide +kernel)).2 0x0A (by decide +kernel)
  have c1 := ((fr { reassembly := some (partWay 100) } (frameFrom 9 1 100 52) (awake (by decide +kernel))).2.2.1 (by decide +kernel)
    (by decide +kernel)).1 (by decide +kernel)
  have c2 := ((fr {} (frameFrom 127 1 28657 52) (awake (by decide +kernel))).2.2.1 (by decide +kernel) (by decide +kernel)).2.1 rfl
    (by decide +kernel)
  have c3 := (((fr {} (frameFrom 127 1 52 52) (awake (by decide +kernel))).2.2.1 (by decide +kernel) (by decide +kernel)).2.2 rfl
    (by decide +kernel)).1 (by decide +kernel)
  have c4 := (((fr {} (frameFrom 127 1 28656 52) (awake (by decide +kernel))).2.2.1 (by decide +kernel) (by decide +kernel)).2.2 rfl
    (by decide +kernel)).2 (by decide +kernel) (by decide +kernel)
  have m1 := ((fr { ignored := [127] } (segmentFrame 3 1 9 62) (awake (by decide +kernel))).2.2.2 (by decide +kernel) (by decide +kernel)).1
    (by decide +kernel)
  have m2 := ((fr {} (segmentFrame 3 1 9 62) (awake (by decide +kernel))).2.2.2 (by decide +kernel) (by decide +kernel)).2.1
    (by decide +kernel) nofun
  have seg (len : Nat) (g : CanFrame) := (fr { reassembly := some (partWay len) } g (portedUp _)).2.2.2
  have m3 := ((seg 114 (segmentFrame 3 1 9 62) (by decide +kernel) (by decide +kernel)).2.2 (partWay 114) (by decide +kernel) rfl
    (by decide +kernel)).2.1 (by decide +kernel) (by decide +kernel) |>.1 (by decide +kernel)
  have m4 := ((seg 115 (segmentFrame 2 1 9 62) (by decide +kernel) (by decide +kernel)).2.2 (partWay 115) (by decide +kernel) rfl
    (by decide +kernel)).2.2 (by decide +kernel) (by decide +kernel)
  have m5 := ((seg 115 (segmentFrame 3 1 9 62) (by decide +kernel) (by decide +kernel)).2.2 (partWay 115) (by decide +kernel) rfl
    (by decide +kernel)).1 (by decide +kernel)
  have pt (c : CanPort) := p (ported1 c) 1
  have t1 := (pt {}).1 (awake (by decide +kernel)) rfl
  have t2 := (pt { reassembly := some (partWay 100) }).2.1 _ (awake (by decide +kernel)) rfl
  have t3 := (pt {}).2.2.1 (awake (by decide +kernel)) (.inr rfl)
  have t4 := (pt { notices := [{ source := 639, sec := 1, ns := 999999999 }] }).2.2.2.1 _ _ (awake (by decide +kernel))
    (by decide +kernel) rfl
  have t5 := ((pt {}).2.2.2.2.1 .can1 (writes (by decide +kernel))).1 (by decide +kernel)
  have t6 := (((pt {}).2.2.2.2.1 .mailbox (writes (by decide +kernel))).2 (by decide +kernel)).2 (by decide +kernel)
  have t7 := (((p portOff 1).2.2.2.2.1 .mailbox (writes (by decide +kernel))).2 (by decide +kernel)).1 (by decide +kernel)
  have t8 := ((p portOff 1).2.2.2.2.2.1 127 127 (awake (by decide +kernel))).1 (by decide +kernel)
  have bus (c : CanPort) (tec rxe : W16) := (pt c).2.2.2.2.2.1 tec rxe (portedUp c)
  have t9 := ((bus {} 127 127).2.1 (by decide +kernel) (by decide +kernel)).1 (by decide +kernel)
  have u1 := ((bus {} 128 0).2.1 (by decide +kernel) (by decide +kernel)).2 (by decide +kernel)
  have u2 := ((bus {} 256 0).2.2 (by decide +kernel) (by decide +kernel)).2 (by decide +kernel)
  have u3 := (p Tests.m5 1).2.2.2.2.2.2.1 awake5 rfl
  have u4 := ((pt { txErr := 256, busOff := true }).2.2.2.2.2.2.2 (awake (by decide +kernel)) rfl).2 (by decide +kernel)
  have e1 := (e Tests.m5 .mailbox 127 0 (writes (by decide +kernel))).2 (by decide +kernel)
  have e2 := (e Tests.m5 .mailbox 127 (2 ^ 63) (writes (by decide +kernel))).1 (by decide +kernel)
  have r0 := ((w published .mailbox 0xFFF 0 [] (rowPub 0)).1 (readsPub (by decide +kernel))).1 [255] _ (by with_unfolding_all rfl)
  have r1 := (w published .mailbox 0xFFF 255 [] (rowPub 255)).2.2 (awake (by decide +kernel)) (served (by decide +kernel))
  have r2 := r1.1 (by decide +kernel)
  have r3 := ((w published .mailbox 0xFFF 254 [] (rowPub 254)).2.2 (awake (by decide +kernel)) (served (by decide +kernel))).2
    (by decide +kernel)
  have wd (s : State) (b : List Byte) := o s .mailbox 0xFFF 255 127 8 (rowPub 255) b (by decide)
  have z := (wd published (le 8 7) (by decide +kernel) (by decide +kernel) (by decide)).1 ⟨by decide +kernel, by decide +kernel⟩
    (by decide +kernel)
  have z1 := z.1 0 (readsPub (by decide +kernel)) (by decide +kernel)
  have z2 := z.2.2.1 (writes (by decide +kernel)) (by decide +kernel)
  have z3 := ((wd notifying (le 8 7) (by decide +kernel) (by decide +kernel) (by decide)).1 ⟨by decide +kernel, by decide +kernel⟩
    (by decide +kernel)).2.2.2 (writes (by decide +kernel)) (by decide +kernel) 0 (by decide +kernel) (by decide +kernel) (by decide +kernel)
  have z4 := ((wd spoiled (le 8 7) (by decide +kernel) (by decide +kernel) (by decide)).1 ⟨by decide +kernel, by decide +kernel⟩
    (by decide +kernel)).2.1 (readsPub (by decide +kernel)) (by decide +kernel)
  have z5 := (wd (bankAt .off) (le 8 7) (by decide +kernel) (by decide +kernel) (by decide)).2.1 (by decide +kernel)
  have z6 := z5.1 (readsPub (by decide +kernel))
  have z7 := z5.2 (writes (by decide +kernel))
  have z8 := (wd (bankAt .deep) (le 8 7) (by decide +kernel) (by decide +kernel) (by decide)).2.2 (by decide +kernel) (by decide +kernel)
  have z9 := z8.1 (readsPub (by decide +kernel))
  have y1 := z8.2 (writes (by decide +kernel))
  exact ⟨goes a2, goes a3, goes a1, goes b5, goes b1, goes t1, goes t3, goes t6, goes t5, goes t9, goes t8, goes u4, goes u3, goes e1, goes z1,
    goes z2, goes r2⟩

/-! ### Values that the spec works out -/

/-- The next state of an outcome. -/
def nextOf (o : Out) : State := match o with | .next t => t | _ => m5

/-- R133: SECONDS 1,000, NANOSECONDS 250 and FRACTION 0x8000 give the launch count 0xE8D_4A51_0FA8. -/
theorem test_launch_count : Ops.launchOf 1000 250 0x8000 = 0xE8D4A510FA8 := by decide

/-- The example after R191: the data word 1 has check bits 0x83. -/
theorem test_check_bits : (Flags.encode 1).toNat = 0x83 * 2 ^ 64 + 1 := by decide +kernel

/-- The example after R95: candidate 40 of a west-going line start is arrival 50. -/
theorem test_arrival : Frames.arrivalOf (128 + 3 * 14) 40 = 50 := by decide

/-- The example after R281: the field 0x404 of stage Y's input a, in frame 0x0100_0130_0000_000B of F1.03.00, selects in sink 0
of cluster 16.00; the field holds 0x404 in bytes 360 and 361. -/
theorem test_selection :
    Frames.selected [(768 * (128 + 48) + 11, BitVec.ofNat 4096 (0x404 * 2 ^ (8 * 360)))] (128 + 48) 16 0 0 =
      Frames.candidateOf 0x404 ∧ Loader.fabricAddr (128 + 48) 11 = 0x010001300000000B := by decide +kernel

/-- The example of R186: bit 5 of word 0x0012 of bank 1,396 is set through the alias, at byte 0x0574_0090 of it. -/
theorem test_set_alias : Ops.word (nextOf (exec (.hostBankSet 0x5740090 (le 8 0x20)) m5)) 1396 0x12 = Flags.encode 0x20 := by
  decide +kernel

/-- The example after R405: the reply to the request of a full reload. -/
theorem test_reply : (nextOf (exec (.fullReloadRequest .mailbox) { m5 with mailbox := { m5.mailbox with
    busy := true
    request := some { client := 0, tag := 7, op := 2, index := 0x1000, sub := 4, data := [3] } } })).mailbox.replyArea =
    le 2 7 ++ [2, 0, 0x00, 0x10, 4, 0] ++ List.replicate 8 0 := by decide +kernel

/-- R279: CRC-32C of the nine digits; the value is the check value published for the code (PRESUMED). -/
theorem test_crc : Crypto.crc32c [0x31, 0x32, 0x33, 0x34, 0x35, 0x36, 0x37, 0x38, 0x39] = 0xE3069283 := by decide +kernel

/-- R11, R435, R441: the default word of pin 100 names its own slot and no second source, with DIR off and no owner. -/
theorem test_pin_default : Pins.srcA (Pins.defaultWord 100) = 100 ∧ Pins.srcB (Pins.defaultWord 100) = 0x3FF ∧
    Pins.dir (Pins.defaultWord 100) = 0 ∧ Pins.owner (Pins.defaultWord 100) = 0 := by decide

/-- R463: a VCORE of 719 mV asserts the warning, and one of 720 mV does not. -/
theorem test_warning_level : (nextOf (exec (.vcoreWarning .vcore 719) m5)).sup.coreWarn = true ∧
    (nextOf (exec (.vcoreWarning .vcore 720) m5)).sup.coreWarn = false := by decide +kernel

end Sys2Proof.Tests
end

section
/-!
SUPPORT. What a transition does to the blocks moves neither Lydan time nor the course of the modes: one statement for each
function that an entry to a mode, or a leave of one, calls.
-/

namespace Sys2Proof.Machine

/-- The mode record without what an entry to a mode sets beside its own mode (ERROR_N, the step of Survey, the check of the
fuses), and without a wake, which any source that is raised can make due. -/
def Modes.course (m : ModeState) : ModeState :=
  { m with wakeDue := false, errorN := false, surveyStep := 0, fuseDue := false, imagesGood := true }

/-- Lydan time and the course of the modes are in `t` as in `s`. -/
abbrev Steady (s t : State) : Prop := t.time = s.time ∧ Modes.course t.modes = Modes.course s.modes

section
variable {c : Prop} [Decidable c]

@[simp] theorem State.time_ite (s t : State) : (if c then s else t).time = if c then s.time else t.time :=
  apply_ite _ _ _ _

@[simp] theorem State.modes_ite (s t : State) : (if c then s else t).modes = if c then s.modes else t.modes :=
  apply_ite _ _ _ _

@[simp] theorem Modes.course_ite (m n : ModeState) :
    Modes.course (if c then m else n) = if c then Modes.course m else Modes.course n := apply_ite _ _ _ _

end

namespace Steady

variable {s t u : State} {c : Prop} [Decidable c]

theorem trans (h : Steady s t) (g : Steady t u) : Steady s u := ⟨g.1.trans h.1, g.2.trans h.2⟩

/-- A step that is taken or not. -/
theorem cond (h : Steady s t) (g : Steady t u) : Steady s (if c then u else t) := by
  split
  · exact h.trans g
  · exact h

theorem either (h : Steady s t) (g : Steady s u) : Steady s (if c then t else u) := by
  split
  · exact h
  · exact g

theorem of_spares (h : Laws.Spares s t) : Steady s t := ⟨by rw [h.1]; rfl, by rw [h.1]; rfl⟩

end Steady

@[simp] theorem foldl_steady {α : Type} {f : State → α → State} (h : ∀ s a, Steady s (f s a)) (l : List α) (s : State) :
    Steady s (l.foldl f s) := by
  induction l generalizing s with
  | nil => exact ⟨rfl, rfl⟩
  | cons a l ih => exact (h s a).trans (ih _)

/-! #### Raising a source, and the banks -/

@[simp] theorem Ops.raise_steady (n : Nat) (s : State) : Steady s (Ops.raise n s) := .of_spares (Laws.spares_raise n s)

@[simp] theorem Ops.track_steady (n : Nat) (b : Bool) (s : State) : Steady s (Ops.track n b s) :=
  .of_spares (Laws.spares_track n b s)

@[simp] theorem Ops.broken_steady (guarantee prevailed case unit : Nat) (s : State) :
    Steady s (Ops.broken guarantee prevailed case unit s) := by simp [Steady, Ops.broken, Ops.brokenBy]

@[simp] theorem Ops.bankCause_steady (n c : Nat) (s : State) : Steady s (Ops.bankCause Ops.raise n c s) :=
  ⟨(Ops.track_steady _ _ _).1, (Ops.track_steady _ _ _).2⟩

@[simp] theorem Ops.refuse_steady (n : Nat) (s : State) :
    Steady s (Ops.refuse Ops.raise n s) := by simp [Steady, Ops.refuse]

@[simp] theorem Ops.noteAccess_steady (n w : Nat) (v : BitVec 72) (a : Flags.Access) (s : State) :
    Steady s (Ops.noteAccess Ops.raise n w v a s) := by simp [Steady, Ops.noteAccess]

@[simp] theorem Ops.bankAccess_steady (n : Nat) (q : BankReq) (flips : BitVec 72) (s : State) :
    Steady s (Ops.bankAccess Ops.raise n q flips s).1 := by simp [Steady, Ops.bankAccess]

@[simp] theorem Ops.wakeBank_steady (n : Nat) (maint : Bool) (s : State) : Steady s (Ops.wakeBank n maint s) :=
  .of_spares (Laws.Spares.wakeBank n maint s)

@[simp] theorem Ops.clearWords_steady (p : Nat → Bool) (s : State) :
    Steady s (Ops.clearWords p s) := by simp [Steady, Ops.clearWords]

/-! #### Bridges (R314, R325, R328) -/

@[simp] theorem Bridges.store_steady (b : BridgeId) (x : Bridge) (s : State) :
    Steady s (Bridges.store b x s) := by simp [Steady, Bridges.store]

@[simp] theorem Bridges.enterSide_steady (b : BridgeId) (f : Bridge → Bridge) (s : State) :
    Steady s (Bridges.enterSide b f s) := by simp [Steady, Bridges.enterSide]

@[simp] theorem Bridges.leaveSide_steady (b : BridgeId) (source : Bool) (f : Bridge → Bridge) (s : State) :
    Steady s (Bridges.leaveSide b source f s) := by simp [Steady, Bridges.leaveSide]

@[simp] theorem Bridges.followSide_steady (b : BridgeId) (source : Bool) (s : State) :
    Steady s (Bridges.followSide b source s) := by simp [Steady, Bridges.followSide]

@[simp] theorem Bridges.follow_steady (s : State) : Steady s (Bridges.follow s) := by simp [Steady, Bridges.follow]

@[simp] theorem Bridges.resetHandshakes_steady (p : BridgeId → Bool) (s : State) :
    Steady s (Bridges.resetHandshakes p s) := by simp [Steady, Bridges.resetHandshakes]

@[simp] theorem Bridges.drop_steady (b : BridgeId) (s : State) :
    Steady s (Bridges.drop b s) := by simp [Steady, Bridges.drop]

/-! #### Replies and fuse blows (R411, R490, R491) -/

@[simp] theorem Transports.mailboxReply_steady (seq : Nat) (r : Reply) (s : State) :
    Steady s (Transports.mailboxReply seq r s) := by simp [Steady, Transports.mailboxReply]

@[simp] theorem Transports.sendFrame_steady (p ident : Nat) (d : List Byte) (s : State) :
    Steady s (Transports.sendFrame p ident d s) := by simp [Steady, Transports.sendFrame]

@[simp] theorem Transports.sendReply_steady (p client tid : Nat) (r : Reply) (s : State) :
    Steady s (Transports.sendReply p client tid r s) := by simp [Steady, Transports.sendReply]

@[simp] theorem Transports.answer_steady (t : Transport) (q : Option Request) (r : Reply) (s : State) :
    Steady s (Transports.answer t q r s) := by
  cases q with
  | none => simp [Steady, Transports.answer]
  | some q =>
    simp only [Transports.answer]
    split <;> simp [Steady]

@[simp] theorem Transports.fuseReply_steady (t : Transport) (err : Nat) (s : State) :
    Steady s (Transports.fuseReply t err s) := by simp [Steady, Transports.fuseReply]

@[simp] theorem Super.spoil_steady (s : State) : Steady s (Super.spoil s) := by simp [Steady, Super.spoil]

@[simp] theorem Transports.fuseCut_steady (s : State) : Steady s (Transports.fuseCut s) := by
  simp only [Transports.fuseCut]
  split <;> simp [Steady]

/-! #### Launch gates and servos (R138, R154 to R160) -/

@[simp] theorem Time.onM1_steady (s : State) : Steady s (Time.onM1 s) := by simp [Steady, Time.onM1]

@[simp] theorem Time.count_steady (g which n : Nat) (s : State) :
    Steady s (Time.count g which n s) := by simp [Steady, Time.count]

@[simp] theorem Time.fired_steady (g : Nat) (b : Bool) (i : Nat) (s : State) :
    Steady s (Time.fired g b i s) := by simp [Steady, Time.fired]

@[simp] theorem Time.missing_steady (g : Nat) (b : Bool) (i : Fin 64) (s : State) :
    Steady s (Time.missing g b i s) := by simp [Steady, Time.missing]

@[simp] theorem Time.loseToken_steady (g : Nat) (s : State) : Steady s (Time.loseToken g s) := by
  unfold Time.loseToken
  split <;> simp [Steady]

@[simp] theorem Time.loseAll_steady (s : State) : Steady s (Time.loseAll s) := by simp [Steady, Time.loseAll]

@[simp] theorem Time.holdover_steady (source src : Nat) (s : State) :
    Steady s (Time.holdover source src s) := by simp [Steady, Time.holdover]

@[simp] theorem Time.dropPassed_steady (g : Nat) (s : State) : Steady s (Time.dropPassed g s) := by
  simp only [Time.dropPassed]
  refine foldl_steady (fun s _ => ?_) _ _
  split <;> simp [Steady]

@[simp] theorem Time.retire_steady (g : Nat) (b : Bool) (k : Nat) (counted : Bool) (s : State) :
    Steady s (Time.retire g b k counted s) := by simp [Steady, Time.retire]

@[simp] theorem Time.retireAll_steady (g : Nat) (counted taken : Bool) (s : State) :
    Steady s (Time.retireAll g counted taken s) := by
  simp only [Time.retireAll]
  refine foldl_steady (fun s _ => ?_) _ _
  split <;> simp [Steady]

@[simp] theorem Time.resume_steady (counted : Bool) (s : State) :
    Steady s (Time.resume counted s) := by simp [Steady, Time.resume]

@[simp] theorem Time.offM6_steady (s : State) : Steady s (Time.offM6 s) := by simp [Steady, Time.offM6]

/-! #### Engines (R261 to R263, R270) -/

@[simp] theorem Engines.onM1_steady (s : State) : Steady s (Engines.onM1 s) := by simp [Steady, Engines.onM1]

@[simp] theorem Engines.setPhys_steady (p v : Nat) (s : State) :
    Steady s (Engines.setPhys p v s) := by simp [Steady, Engines.setPhys]

@[simp] theorem Engines.trackCauses_steady (n : Nat) (s : State) :
    Steady s (Engines.trackCauses n s) := by simp [Steady, Engines.trackCauses]

@[simp] theorem Engines.cause_steady (n m : Nat) (s : State) :
    Steady s (Engines.cause n m s) := by simp [Steady, Engines.cause]

@[simp] theorem Engines.lose_steady (n : Nat) (s : State) : Steady s (Engines.lose n s) := by simp [Steady, Engines.lose]

@[simp] theorem Engines.every_steady (f : Engine → Engine) (s : State) :
    Steady s (Engines.every f s) := by simp [Steady, Engines.every]

@[simp] theorem Engines.onStop_steady (s : State) : Steady s (Engines.onStop s) := by simp [Steady, Engines.onStop]

@[simp] theorem Engines.onM6_steady (s : State) : Steady s (Engines.onM6 s) := by simp [Steady, Engines.onM6]

@[simp] theorem Engines.offM6_steady (s : State) : Steady s (Engines.offM6 s) := by simp [Steady, Engines.offM6]

/-! #### Banks (R184 to R190) -/

@[simp] theorem Banks.completion_steady (m : MaintReq) (data : W64) (poison : Bool) (s : State) :
    Steady s (Banks.completion m data poison s) := by
  unfold Banks.completion
  split <;> simp [Steady]

@[simp] theorem Banks.endHostReads_steady (s : State) :
    Steady s (Banks.endHostReads s) := by simp [Steady, Banks.endHostReads]

@[simp] theorem Banks.onM1_steady (s : State) : Steady s (Banks.onM1 s) := by simp [Steady, Banks.onM1]

@[simp] theorem Banks.everyPower_steady (f : Power → Power) (s : State) :
    Steady s (Banks.everyPower f s) := by simp [Steady, Banks.everyPower]

@[simp] theorem Banks.onM2_steady (s : State) : Steady s (Banks.onM2 s) := by simp [Steady, Banks.onM2]

@[simp] theorem Banks.emptyPorts_steady (s : State) : Steady s (Banks.emptyPorts s) := by simp [Steady, Banks.emptyPorts]

@[simp] theorem Banks.lose_steady (n : Nat) (s : State) : Steady s (Banks.lose n s) := by simp [Steady, Banks.lose]

@[simp] theorem Banks.onM3_steady (reload : Bool) (s : State) :
    Steady s (Banks.onM3 reload s) := by simp [Steady, Banks.onM3]

@[simp] theorem Banks.onSurvey_steady (s : State) : Steady s (Banks.onSurvey s) := by simp [Steady, Banks.onSurvey]

@[simp] theorem Banks.refuseOne_steady (n : Nat) (m : MaintReq) (s : State) :
    Steady s (Banks.refuseOne n m s) := by simp [Steady, Banks.refuseOne]

@[simp] theorem Banks.refuseHeld_steady (n : Nat) (s : State) :
    Steady s (Banks.refuseHeld n s) := by simp [Steady, Banks.refuseHeld]

@[simp] theorem Banks.switchOff_steady (n : Nat) (s : State) :
    Steady s (Banks.switchOff n s) := by simp [Steady, Banks.switchOff]

@[simp] theorem Banks.rouse_steady (n : Nat) (s : State) : Steady s (Banks.rouse n s) := by simp [Steady, Banks.rouse]

@[simp] theorem Banks.applyAway_steady (n t : Nat) (s : State) : Steady s (Banks.applyAway n t s) := by
  unfold Banks.applyAway
  split <;> simp [Steady]

@[simp] theorem Banks.depart_steady (n : Nat) (s : State) : Steady s (Banks.depart n s) := by
  simp only [Banks.depart]
  split
  · exact ⟨rfl, rfl⟩
  · cases (Ops.bank s n).next <;> simp [Steady]

@[simp] theorem Banks.writeImage_steady (n m : Nat) (v : BitVec 4096) (s : State) :
    Steady s (Banks.writeImage n m v s) := by simp [Steady, Banks.writeImage]

@[simp] theorem Banks.perform_steady (n : Nat) (m : MaintReq) (s : State) : Steady s (Banks.perform n m s) := by
  simp only [Banks.perform]
  split <;> simp [Steady]

@[simp] theorem Banks.performHead_steady (n : Nat) (s : State) : Steady s (Banks.performHead n s) := by
  unfold Banks.performHead
  split <;> simp [Steady]

@[simp] theorem Banks.performHeld_steady (k n : Nat) (s : State) : Steady s (Banks.performHeld k n s) := by
  induction k generalizing s with
  | zero => exact ⟨rfl, rfl⟩
  | succ k ih => simp [Steady, Banks.performHeld, ih]

@[simp] theorem Banks.serve_steady (n : Nat) (s : State) : Steady s (Banks.serve n s) := by simp [Steady, Banks.serve]

@[simp] theorem Banks.afterCycle_steady (n : Nat) (s : State) :
    Steady s (Banks.afterCycle n s) := by simp [Steady, Banks.afterCycle]

@[simp] theorem Banks.leave_steady (n t : Nat) (s : State) : Steady s (Banks.leave n t s) := by simp [Steady, Banks.leave]

@[simp] theorem Banks.applyTarget_steady (n t : Nat) (s : State) : Steady s (Banks.applyTarget n t s) := by
  simp only [Banks.applyTarget]
  split <;> simp [Steady]

@[simp] theorem Banks.onM6_steady (s : State) : Steady s (Banks.onM6 s) := by
  refine Steady.trans (t := { s with banks := s.banks.map fun e => (e.1, Banks.settled e.2) }) ⟨rfl, rfl⟩
    (Steady.trans (foldl_steady (fun s e => ?_) _ _) (Banks.everyPower_steady _ _))
  split <;> simp [Steady]

@[simp] theorem Banks.offM6_steady (s : State) : Steady s (Banks.offM6 s) := by
  refine Steady.trans (foldl_steady (fun s e => ?_) s.banks s) ⟨rfl, rfl⟩
  refine Steady.cond ⟨rfl, rfl⟩ ?_
  split <;> simp [Steady]

@[simp] theorem Banks.onM7_steady (s : State) : Steady s (Banks.onM7 s) := by simp [Steady, Banks.onM7]

/-! #### Queues and the host link (R220, R395, R396) -/

@[simp] theorem Queues.empty_steady (s : State) : Steady s (Queues.empty s) := by simp [Steady, Queues.empty]

@[simp] theorem Queues.onM1_steady (s : State) : Steady s (Queues.onM1 s) := by simp [Steady, Queues.onM1]

@[simp] theorem HostLink.abandon_steady (p : Nat → Bool) (s : State) :
    Steady s (HostLink.abandon p s) := by simp [Steady, HostLink.abandon]

@[simp] theorem HostLink.onM1_steady (s : State) : Steady s (HostLink.onM1 s) := by simp [Steady, HostLink.onM1]

@[simp] theorem HostLink.linkChange_steady (v : BitVec 13) (s : State) :
    Steady s (HostLink.linkChange v s) := by simp [Steady, HostLink.linkChange]

@[simp] theorem HostLink.requestL1_steady (s : State) :
    Steady s (HostLink.requestL1 s) := by simp [Steady, HostLink.requestL1]

/-! #### Keys and the array (R69, R116 to R119, R288) -/

@[simp] theorem Security.onM1_steady (s : State) : Steady s (Security.onM1 s) := by simp [Steady, Security.onM1]

@[simp] theorem Fabric.emptyAll_steady (s : State) : Steady s (Fabric.emptyAll s) := by simp [Steady, Fabric.emptyAll]

@[simp] theorem Fabric.isolate_steady (r cause : Nat) (s : State) :
    Steady s (Fabric.isolate r cause s) := by simp [Steady, Fabric.isolate]

@[simp] theorem Fabric.restartWindow_steady (r : Nat) (s : State) :
    Steady s (Fabric.restartWindow r s) := by simp [Steady, Fabric.restartWindow]

@[simp] theorem Fabric.openCollar_steady (r : Nat) (s : State) :
    Steady s (Fabric.openCollar r s) := by simp [Steady, Fabric.openCollar]

@[simp] theorem Fabric.endOverride_steady (s : State) : Steady s (Fabric.endOverride s) := by
  simp only [Fabric.endOverride]
  refine foldl_steady (fun s _ => ?_) _ _
  split <;> simp [Steady]

@[simp] theorem Fabric.setOffer_steady (src : Source) (o : Offer) (s : State) : Steady s (Fabric.setOffer src o s) := by
  unfold Fabric.setOffer
  split <;> simp [Steady]

@[simp] theorem Fabric.pump_steady (src : Source) (s : State) : Steady s (Fabric.pump src s) := by
  unfold Fabric.pump
  split <;> simp [Steady]

@[simp] theorem Fabric.reroute_steady (f : Frames.FrameMap) (s : State) :
    Steady s (Fabric.reroute f s) := by simp [Steady, Fabric.reroute]

@[simp] theorem Fabric.dropTokens_steady (r : Nat) (s : State) :
    Steady s (Fabric.dropTokens r s) := by simp [Steady, Fabric.dropTokens]

/-! #### Pins (R443 to R451) -/

@[simp] theorem Pins.every_steady (f : Nat → Pin → Pin) (base : Pin) (s : State) :
    Steady s (Pins.every f base s) := by simp [Steady, Pins.every]

@[simp] theorem Pins.resetAll_steady (s : State) : Steady s (Pins.resetAll s) := by simp [Steady, Pins.resetAll]

@[simp] theorem Pins.trackGroup_steady (g : Nat) (s : State) :
    Steady s (Pins.trackGroup g s) := by simp [Steady, Pins.trackGroup]

@[simp] theorem Pins.cause_steady (p b : Nat) (s : State) : Steady s (Pins.cause p b s) := by simp [Steady, Pins.cause]

@[simp] theorem Pins.offerIn_steady (p : Nat) (b : Bool) (s : State) :
    Steady s (Pins.offerIn p b s) := by simp [Steady, Pins.offerIn]

@[simp] theorem Pins.deliver_steady (p : Nat) (s : State) : Steady s (Pins.deliver p s) := by simp [Steady, Pins.deliver]

@[simp] theorem Pins.sample_steady (p : Nat) (s : State) : Steady s (Pins.sample p s) := by simp [Steady, Pins.sample]

@[simp] theorem Pins.dropInput_steady (p : Nat) (s : State) :
    Steady s (Pins.dropInput p s) := by simp [Steady, Pins.dropInput]

@[simp] theorem Pins.apply_steady (p v : Nat) (s : State) : Steady s (Pins.apply p v s) := by simp [Steady, Pins.apply]

@[simp] theorem Pins.settle_steady (p : Nat) (s : State) : Steady s (Pins.settle p s) := by simp [Steady, Pins.settle]

@[simp] theorem Pins.latchAll_steady (s : State) : Steady s (Pins.latchAll s) := by simp [Steady, Pins.latchAll]

@[simp] theorem Pins.onM1_steady (s : State) : Steady s (Pins.onM1 s) := by simp [Steady, Pins.onM1]

@[simp] theorem Pins.offM6_steady (s : State) : Steady s (Pins.offM6 s) := by simp [Steady, Pins.offM6]

@[simp] theorem Pins.release_steady (s : State) : Steady s (Pins.release s) := by simp [Steady, Pins.release]

/-! #### Lanes (R353 to R374) -/

@[simp] theorem Lanes.onM1_steady (s : State) : Steady s (Lanes.onM1 s) := by simp [Steady, Lanes.onM1]

@[simp] theorem Lanes.trackHalf_steady (n h : Nat) (s : State) :
    Steady s (Lanes.trackHalf n h s) := by simp [Steady, Lanes.trackHalf]

@[simp] theorem Lanes.cause_steady (n b : Nat) (s : State) : Steady s (Lanes.cause n b s) := by simp [Steady, Lanes.cause]

@[simp] theorem Lanes.setReference_steady (n : Nat) (s : State) : Steady s (Lanes.setReference n s) := by
  simp only [Lanes.setReference]
  split <;> simp [Steady]

@[simp] theorem Lanes.queueBond_steady (b : Nat) (blk : LinkBlock) (s : State) :
    Steady s (Lanes.queueBond b blk s) := by simp [Steady, Lanes.queueBond]

@[simp] theorem Lanes.bondCause_steady (b : Nat) (s : State) : Steady s (Lanes.bondCause b s) := by
  unfold Lanes.bondCause
  split <;> simp [Steady]

@[simp] theorem Lanes.applyTx_steady (b m : Nat) (s : State) :
    Steady s (Lanes.applyTx b m s) := by simp [Steady, Lanes.applyTx]

@[simp] theorem Lanes.updateBond_steady (b : Nat) (s : State) :
    Steady s (Lanes.updateBond b s) := by simp [Steady, Lanes.updateBond]

@[simp] theorem Lanes.enter_steady (n : Nat) (st : LaneSt) (s : State) : Steady s (Lanes.enter n st s) := by
  have bonded (u : State) (h : Steady s u) :
      Steady s (match Lanes.bondOf u n with | some b => Lanes.updateBond b u | none => u) := by
    split
    · exact h.trans (Lanes.updateBond_steady _ _)
    · exact h
  have ups (u : State) (o : Lane) (c : Bool) : Steady u
      (let v := Lanes.cause n 0 (Ops.bump (0x7100 + n) 0x0F (if c then Lanes.setReference n u else u))
       if o.st = .lp1 then Lanes.cause n 4 v else v) := by
    simp [Steady]
  have caused (u : State) (b : Nat) : Steady u (Lanes.cause n b u) := Lanes.cause_steady n b u
  unfold Lanes.enter
  refine Steady.either ⟨rfl, rfl⟩ (bonded _ (Steady.trans ?_ (Bridges.follow_steady _)))
  exact .cond (.cond (.cond (.cond (.cond ⟨rfl, rfl⟩ ⟨rfl, rfl⟩) (ups _ _ _)) (caused _ _)) (caused _ _))
    (Time.holdover_steady _ _ _)

@[simp] theorem Lanes.allOff_steady (s : State) : Steady s (Lanes.allOff s) := by simp [Steady, Lanes.allOff]

@[simp] theorem Lanes.portDown_steady (n : Nat) (s : State) : Steady s (Lanes.portDown n s) := by
  unfold Lanes.portDown
  split <;> simp [Steady]

@[simp] theorem Lanes.setRate_steady (n r : Nat) (fec : Bool) (s : State) :
    Steady s (Lanes.setRate n r fec s) := by simp [Steady, Lanes.setRate]

@[simp] theorem Lanes.toTest_steady (n : Nat) (s : State) : Steady s (Lanes.toTest n s) := by simp [Steady, Lanes.toTest]

@[simp] theorem Lanes.setEthPort_steady (f : Nat) (x : EthPort) (s : State) :
    Steady s (Lanes.setEthPort f x s) := by simp [Steady, Lanes.setEthPort]

@[simp] theorem Lanes.portStart_steady (f : Nat) (s : State) :
    Steady s (Lanes.portStart f s) := by simp [Steady, Lanes.portStart]

@[simp] theorem Lanes.toT0_steady (n : Nat) (s : State) : Steady s (Lanes.toT0 n s) := by
  unfold Lanes.toT0
  split <;> simp [Steady]

@[simp] theorem Lanes.begin_steady (n : Nat) (s : State) : Steady s (Lanes.begin n s) := by simp [Steady, Lanes.begin]

@[simp] theorem Lanes.off_steady (n : Nat) (s : State) : Steady s (Lanes.off n s) := by simp [Steady, Lanes.off]

@[simp] theorem Lanes.onM5_steady (s : State) : Steady s (Lanes.onM5 s) := by simp [Steady, Lanes.onM5]

@[simp] theorem Lanes.sendFec_steady (n : Nat) (blocks : List (BitVec 2 × W64)) (s : State) :
    Steady s (Lanes.sendFec n blocks s) := by simp [Steady, Lanes.sendFec]

@[simp] theorem Lanes.send_steady (n : Nat) (blocks : List (BitVec 2 × W64)) (s : State) :
    Steady s (Lanes.send n blocks s) := by simp [Steady, Lanes.send]

@[simp] theorem Lanes.onM6_steady (s : State) : Steady s (Lanes.onM6 s) := by
  simp only [Lanes.onM6]
  refine foldl_steady (fun s _ => ?_) _ _
  split <;> simp [Steady]

@[simp] theorem Lanes.offM6_steady (s : State) : Steady s (Lanes.offM6 s) := by simp [Steady, Lanes.offM6]

/-! #### The loader and the facets (R277, R300, R304, R310) -/

@[simp] theorem Loader.everyFacet_steady (x : Facet) (s : State) :
    Steady s (Loader.everyFacet x s) := by simp [Steady, Loader.everyFacet]

@[simp] theorem Loader.facetsLoading_steady (s : State) :
    Steady s (Loader.facetsLoading s) := by simp [Steady, Loader.facetsLoading]

@[simp] theorem Loader.invalidate_steady (s : State) :
    Steady s (Loader.invalidate s) := by simp [Steady, Loader.invalidate]

@[simp] theorem Loader.onM1_steady (s : State) : Steady s (Loader.onM1 s) := by simp [Steady, Loader.onM1]

@[simp] theorem Loader.onM7_steady (s : State) : Steady s (Loader.onM7 s) := by simp [Steady, Loader.onM7]

@[simp] theorem Loader.thaw_steady (r : Nat) (s : State) : Steady s (Loader.thaw r s) := by simp [Steady, Loader.thaw]

@[simp] theorem Loader.defaultFrames_steady (r : Nat) (s : State) :
    Steady s (Loader.defaultFrames r s) := by simp [Steady, Loader.defaultFrames]

@[simp] theorem Loader.bankOff_steady (n : Nat) (s : State) :
    Steady s (Loader.bankOff n s) := by simp [Steady, Loader.bankOff]

@[simp] theorem Loader.abortFacet_steady (r : Nat) (banks : List Nat) (s : State) :
    Steady s (Loader.abortFacet r banks s) := by simp [Steady, Loader.abortFacet]

@[simp] theorem Loader.discard_steady (src : Source) (n : Nat) (s : State) : Steady s (Loader.discard src n s) := by
  unfold Loader.discard
  refine Steady.either ⟨rfl, rfl⟩ ?_
  cases src <;> simp [Steady]

@[simp] theorem Loader.resynchronise_steady (s : State) :
    Steady s (Loader.resynchronise s) := by simp [Steady, Loader.resynchronise]

@[simp] theorem Loader.cut_steady (s : State) : Steady s (Loader.cut s) := by
  unfold Loader.cut
  refine Steady.either ⟨rfl, rfl⟩ (Steady.trans ?_ (Loader.resynchronise_steady _))
  split <;> simp [Steady]

/-! #### The supervisor (R469, R478 to R485) -/

@[simp] theorem Super.applyFuses_steady (s : State) : Steady s (Super.applyFuses s) := by
  simp only [Super.applyFuses]
  refine foldl_steady (fun s _ => ?_) _ _
  split <;> simp [Steady]

@[simp] theorem Super.unretireGroup_steady (g : Nat) (s : State) : Steady s (Super.unretireGroup g s) := by
  refine Steady.trans (foldl_steady (fun s k => ?_) _ s) (foldl_steady (fun s i => ?_) _ _)
  · exact Steady.either ⟨rfl, rfl⟩ ⟨rfl, rfl⟩
  · refine Steady.either ⟨rfl, rfl⟩ ?_
    split <;> simp [Steady]

@[simp] theorem Super.endRetirements_steady (s : State) :
    Steady s (Super.endRetirements s) := by simp [Steady, Super.endRetirements]

@[simp] theorem Super.everySupply_steady (f : Supply → Supply) (h : GroupSupply → GroupSupply) (s : State) :
    Steady s (Super.everySupply f h s) := by simp [Steady, Super.everySupply]

@[simp] theorem Super.nominal_steady (s : State) : Steady s (Super.nominal s) := by simp [Steady, Super.nominal]

@[simp] theorem Super.restore_steady (s : State) : Steady s (Super.restore s) := by simp [Steady, Super.restore]

@[simp] theorem Super.retention_steady (s : State) : Steady s (Super.retention s) := by simp [Steady, Super.retention]

@[simp] theorem Super.setSupply_steady (r : Nat) (x : Supply) (s : State) :
    Steady s (Super.setSupply r x s) := by simp [Steady, Super.setSupply]

@[simp] theorem Super.startWindow_steady (s : State) :
    Steady s (Super.startWindow s) := by simp [Steady, Super.startWindow]

@[simp] theorem Super.giveBack_steady (k : TestKind) (u : Nat) (s : State) : Steady s (Super.giveBack k u s) := by
  unfold Super.giveBack
  split <;> simp [Steady]

@[simp] theorem Super.setTests_steady (l : List TestRun) (s : State) :
    Steady s (Super.setTests l s) := by simp [Steady, Super.setTests]

@[simp] theorem Super.result_steady (k : TestKind) (u outcome slices coverage misr expected : Nat) (s : State) :
    Steady s (Super.result k u outcome slices coverage misr expected s) := by
  simp only [Super.result]
  split <;> simp [Steady]

@[simp] theorem Super.cutTest_steady (t : TestRun) (s : State) :
    Steady s (Super.cutTest t s) := by simp [Steady, Super.cutTest]

@[simp] theorem Super.cutAll_steady (s : State) : Steady s (Super.cutAll s) := by simp [Steady, Super.cutAll]

/-! #### What the transitions do themselves -/

@[simp] theorem Modes.dropRaw_steady (l : List (Nat × Nat)) (s : State) :
    Steady s (Modes.dropRaw l s) := by simp [Steady, Modes.dropRaw]

@[simp] theorem Modes.stopArray_steady (s : State) : Steady s (Modes.stopArray s) := by simp [Steady, Modes.stopArray]

@[simp] theorem Modes.initialTokens_steady (s : State) :
    Steady s (Modes.initialTokens s) := by simp [Steady, Modes.initialTokens]

/-! #### Entries to the modes -/

@[simp] theorem Modes.course_update (m : ModeState) (w e f i : Bool) (k : Nat) :
    Modes.course { m with wakeDue := w, errorN := e, fuseDue := f, imagesGood := i, surveyStep := k } = Modes.course m := rfl

theorem Modes.setModes_modes (f : ModeState → ModeState) (s : State) : (Modes.setModes f s).modes = f s.modes := rfl

/-- A change of fields that no transition reads. -/
theorem Modes.setModes_steady {f : ModeState → ModeState} (h : ∀ m, Modes.course (f m) = Modes.course m) (s : State) :
    Steady s (Modes.setModes f s) := ⟨rfl, h _⟩

@[simp] theorem Modes.enterM1_steady (s : State) : Steady s (Modes.enterM1 s) := by
  simp [Steady, Modes.enterM1, Modes.setModes_modes]

@[simp] theorem Modes.enterM2_steady (s : State) : Steady s (Modes.enterM2 s) := by
  refine .trans ?_ (Modes.setModes_steady (fun _ => rfl) _)
  simp [Steady]

@[simp] theorem Modes.enterM3_steady (reload : Bool) (s : State) : Steady s (Modes.enterM3 reload s) := by
  simp [Steady, Modes.enterM3]

/-- The release once the initial tokens are set (R298). -/
def Modes.openUp (s : State) : State :=
  let s := { s with fab := { s.fab with collars := s.fab.collars.map fun (e : Nat × Collar) =>
    (e.1, { e.2 with isolating := false }) } }
  let s := (List.range 512).foldl (fun s r => Fabric.restartWindow r s) s
  Super.startWindow (Lanes.onM5 (Pins.release (Modes.setModes (fun m => { m with errorN := false }) s)))

theorem Modes.release_eq (s : State) : Modes.release s = Modes.openUp (Modes.initialTokens (Fabric.emptyAll { s with
    qports := []
    ports := s.ports.map fun (e : Nat × ChanPort) => (e.1, { last := e.2.last }) })) := rfl

@[simp] theorem Modes.openUp_steady (s : State) : Steady s (Modes.openUp s) := by
  simp [Steady, Modes.openUp, Modes.setModes_modes]

@[simp] theorem Modes.release_steady (s : State) : Steady s (Modes.release s) := by
  rw [Modes.release_eq]
  simp [Steady]

@[simp] theorem Modes.wake_steady (s : State) : Steady s (Modes.wake s) := by
  simp [Steady, Modes.wake]

@[simp] theorem Modes.enterM6_steady (s : State) : Steady s (Modes.enterM6 s) := by
  simp [Steady, Modes.enterM6]

@[simp] theorem Modes.enterM7_steady (from' : Mode) (s : State) : Steady s (Modes.enterM7 from' s) := by
  simp [Steady, Modes.enterM7, Modes.setModes_modes]

@[simp] theorem Modes.leave_steady (to' : Mode) (s : State) : Steady s (Modes.leave to' s) := by
  simp only [Modes.leave]
  split <;> simp [Steady]

@[simp] theorem Modes.enter_steady (from' to' : Mode) (cause : Nat) (s : State) :
    Steady s (Modes.enter from' to' cause s) := by
  unfold Modes.enter
  cases to' <;> simp [Steady]

/-- The record of a transition reads the course of the modes and Lydan time alone. -/
theorem Modes.record_course (to' : Mode) (cause : Nat) (s : State) : Modes.course (Modes.record to' cause s).modes =
    Modes.course (Modes.record to' cause { modes := Modes.course s.modes, time := s.time }).modes := rfl

theorem Modes.record_steady {s t : State} (h : Steady s t) (to' : Mode) (cause : Nat) :
    Modes.course (Modes.record to' cause t).modes = Modes.course (Modes.record to' cause s).modes := by
  rw [Modes.record_course to' cause t, h.1, h.2, ← Modes.record_course]

/-- What a transition makes of the modes is what it records (R46, R52). -/
theorem Modes.goto_course (to' : Mode) (cause : Nat) (s : State) :
    Modes.course (Modes.goto to' cause s).modes = Modes.course (Modes.record to' cause s).modes := by
  rw [← Modes.record_steady (Modes.leave_steady to' s)]
  simp [Modes.goto]

end Sys2Proof.Machine
end

section
/-!
SUPPORT. The transitions of R46: what each records, and which one is due (R42).
-/

namespace Sys2Proof.Laws

open Sys2Proof Sys2Proof.Machine Sys2Proof.Safety

/-- The mode record after a transition (R46, R47, R52). -/
theorem entered_goto (m : Mode) (c : Nat) (s : State) : Entered s (Modes.goto m c s) m c := by
  have h := Modes.goto_course m c s
  exact ⟨congrArg ModeState.cur h, congrArg ModeState.prev h, congrArg ModeState.cause h, congrArg ModeState.count h,
    congrArg ModeState.lastSec h, congrArg ModeState.lastNs h⟩

/-- After an entry to M3, M4, M5 or M7 nothing more is due, where the mode before held no security event and no trip. -/
theorem advance_goto {m : Mode} {s : State} (hm : m = .m3 ∨ m = .m4 ∨ m = .m5 ∨ m = .m7)
    (hs : m = .m7 ∨ s.modes.securityDue = false ∧ s.modes.tripped = false) (c : Nat) :
    Modes.advance (Modes.goto m c s) = none := by
  have h := Modes.goto_course m c s
  generalize Modes.goto m c s = t at h
  have cur : t.modes.cur = m := congrArg ModeState.cur h
  have fail : t.modes.failDue = none := congrArg ModeState.failDue h
  have load : t.modes.loadDue = none := congrArg ModeState.loadDue h
  have trans : t.modes.trans = none := congrArg ModeState.trans h
  have sec : t.modes.securityDue = (s.modes.securityDue && m != .m7) := congrArg ModeState.securityDue h
  have trip : t.modes.tripDue = (s.modes.tripped && (m == .m3 || m == .m4 || m == .m5)) := congrArg ModeState.tripDue h
  unfold Modes.advance
  rcases hm with rfl | rfl | rfl | rfl <;> simp_all

/-- A single transition is due. -/
theorem advanceAll_once {s t : State} (h : Modes.advance s = some t) (g : Modes.advance t = none) :
    Modes.advanceAll Modes.longest s = t := by
  simp [Modes.longest, Modes.advanceAll, h, g]

section
variable {s : State} (ho : s.sup.observed = []) (ht : s.sup.tests = []) (hw : s.sup.waiting = [])
  (hp : s.events.raw.getLsbD 304 = false)
include ho ht hw hp

/-- Neither the supervisor nor source 304 has anything left to do. -/
theorem relax_drain : Queues.relax (Super.drain s) = s := by
  have hd : Super.drain s = s := by simp [Super.drain, ho, ht, hw]
  rw [hd, Queues.relax, hp]
  rfl

/-- A reset trigger is taken, and nothing else with it (R42). -/
theorem settle_reset {c : Nat} (h : s.modes.resetDue = some c) : Modes.settle s = Modes.goto .m1 c s := by
  simp only [Modes.settle, relax_drain ho ht hw hp, h]

/-- Without one, what is due is taken in turn. -/
theorem settle_advances (h : s.modes.resetDue = none) : Modes.settle s = Modes.advanceAll Modes.longest s := by
  simp only [Modes.settle, relax_drain ho ht hw hp, h]

end

/-! #### What is due, in the order of R42 -/

section
variable {s : State} {c : Nat}

theorem advance_security (h : s.modes.securityDue = true)
    (hm : s.modes.cur = .m2 ∨ s.modes.cur = .m3 ∨ s.modes.cur = .m4 ∨ s.modes.cur = .m5 ∨ s.modes.cur = .m6) :
    Modes.advance s = some (Modes.goto .m7 0x42 s) := by
  unfold Modes.advance
  rcases hm with hm | hm | hm | hm | hm <;> simp [hm, h]

theorem advance_fuse (h : s.modes.securityDue = false) (hm : s.modes.cur = .m2) (hf : s.modes.fuseDue = true) :
    Modes.advance s = some (Modes.goto .m7 0x43 (Modes.setModes (fun m => { m with fuseDue := false }) s)) := by
  unfold Modes.advance
  simp [hm, h, hf]

theorem advance_fail (h : s.modes.securityDue = false) (hm : s.modes.cur = .m3 ∨ s.modes.cur = .m4)
    (hf : s.modes.failDue = some c) : Modes.advance s = some (Modes.goto .m7 c s) := by
  unfold Modes.advance
  rcases hm with hm | hm <;> simp [hm, h, hf]

/-- The mode that a load, or a full-reload request, leads to (R46). -/
def loadsTo : Mode → Mode
  | .m3 => .m4
  | .m4 => .m5
  | _ => .m3

theorem advance_load (h : s.modes.securityDue = false)
    (ht : s.modes.cur = .m7 ∨ s.modes.tripDue = false ∧ s.modes.failDue = none) (hl : s.modes.loadDue = some c)
    (hm : s.modes.cur = .m2 ∧ s.modes.fuseDue = false ∨ s.modes.cur = .m3 ∨ s.modes.cur = .m4 ∨ s.modes.cur = .m5 ∨
      s.modes.cur = .m7) : Modes.advance s = some (Modes.goto (loadsTo s.modes.cur) c s) := by
  unfold Modes.advance
  rcases hm with ⟨hm, hf⟩ | hm | hm | hm | hm <;> simp_all [loadsTo]

theorem advance_run (h : s.modes.securityDue = false) (hm : s.modes.cur = .m6) (hc : Super.cool s = true)
    (hr : s.modes.runDue = true) : Modes.advance s = some (Modes.goto .m5 0x22 s) := by
  unfold Modes.advance
  simp [hm, h, hc, hr]

theorem advance_wake (h : s.modes.securityDue = false) (hm : s.modes.cur = .m6) (hc : Super.cool s = true)
    (hr : s.modes.runDue = false) (hw : s.modes.wakeDue = true) : Modes.advance s = some (Modes.goto .m5 0x23 s) := by
  unfold Modes.advance
  simp [hm, h, hc, hr, hw]

/-- A junction below 95 °C has no trip. -/
theorem not_tripped_of_cool (h : Super.cool s = true) : s.modes.tripped = false := by
  simp only [Super.cool, Bool.and_eq_true, Bool.not_eq_true'] at h
  exact h.1

end

/-- Settles O5: the transition that is due is a `goto`, whose record is that of R52, and after it nothing is due; a calm state
settles to itself. -/
theorem transitionsAreTaken : Obligations.TransitionsAreTaken := by
  unfold Obligations.TransitionsAreTaken
  refine ⟨fun s ho ht hw hp => ?_, fun s x hx htime hpend => ?_⟩
  · have once {m : Mode} {c : Nat} (hr : s.modes.resetDue = none) (h : Modes.advance s = some (Modes.goto m c s))
        (hm : m = .m3 ∨ m = .m4 ∨ m = .m5 ∨ m = .m7)
        (hs : m = .m7 ∨ s.modes.securityDue = false ∧ s.modes.tripped = false) : Entered s (Modes.settle s) m c := by
      rw [settle_advances ho ht hw hp hr, advanceAll_once h (advance_goto hm hs c)]
      exact entered_goto m c s
    refine ⟨fun c hc => ?reset, fun hr hs hm => ?security, fun hr hs hm hf => ?fuse, fun hr hs hm c hf => ?fail,
      fun c hr hs htr htd hf hl => ?load, fun c hr htr hm hs hl => ?reload, fun hr hs hm hc => ?m6⟩
    case reset =>
      rw [settle_reset ho ht hw hp hc]
      exact entered_goto _ _ _
    case security => exact once hr (advance_security hs hm) (by simp) (by simp)
    case fuse =>
      rw [settle_advances ho ht hw hp hr, advanceAll_once (advance_fuse hs hm hf) (advance_goto (by simp) (by simp) _)]
      obtain ⟨h1, h2, h3, h4, h5, h6⟩ := entered_goto .m7 0x43 (Modes.setModes (fun m => { m with fuseDue := false }) s)
      exact ⟨h1, h2, h3, h4, h5, h6⟩
    case fail => exact once hr (advance_fail hs hm hf) (by simp) (by simp)
    case load =>
      have load {m : Mode} (hm : s.modes.cur = m)
          (hn : loadsTo m = .m3 ∨ loadsTo m = .m4 ∨ loadsTo m = .m5 ∨ loadsTo m = .m7)
          (hq : m = .m2 ∧ s.modes.fuseDue = false ∨ m = .m3 ∨ m = .m4 ∨ m = .m5 ∨ m = .m7) :
          Entered s (Modes.settle s) (loadsTo m) c := by
        subst hm
        exact once hr (advance_load hs (.inr ⟨htd, hf⟩) hl hq) hn (.inr ⟨hs, htr⟩)
      exact ⟨fun hm hfd => load hm (by simp [loadsTo]) (by simp [hfd]), fun hm => load hm (by simp [loadsTo]) (by simp),
        fun hm => load hm (by simp [loadsTo]) (by simp), fun hm => load hm (by simp [loadsTo]) (by simp)⟩
    case reload =>
      have h := advance_load hs (.inl hm) hl (by simp [hm])
      rw [hm] at h
      exact once hr h (by simp) (.inr ⟨hs, htr⟩)
    case m6 =>
      have htr := not_tripped_of_cool hc
      exact ⟨fun h => once hr (advance_run hs hm hc h) (by simp) (.inr ⟨hs, htr⟩),
        fun h hw => once hr (advance_wake hs hm hc h hw) (by simp) (.inr ⟨hs, htr⟩)⟩
  · simp only [after, settle_calm hx]
    exact commit_eq htime hpend

end Sys2Proof.Laws
end

section
/-!
SUPPORT. The statements about the modes, the supplies and the temperature.
-/

namespace Sys2Proof.Laws

open Sys2Proof Sys2Proof.Machine Sys2Proof.Safety

/-! ### The reset state -/

/-- Right after reset no spare column is steered: no repair is fused, and none is soft. -/
theorem steered_reset (n k : Nat) : Ops.steered State.reset n k = none := by
  have none_enabled : Ops.spares 0 = [] := by decide
  have fused : Ops.spares (Ops.fusedWord State.reset n) = [] := none_enabled
  have soft : Ops.spares (Ops.bank State.reset n).steer = [] := none_enabled
  simp [Ops.steered, fused, soft]

theorem word_reset (n w : Nat) : Ops.word State.reset n w = 0 := by
  simp only [Ops.word, steered_reset, Ops.fromSpare]
  rfl

/-- Settles O4: every field of the reset state is its default. -/
theorem resetState : Obligations.ResetState := by
  unfold Obligations.ResetState
  exact ⟨⟨by decide, by decide, by decide⟩, rfl, rfl, rfl, rfl, rfl, rfl, rfl, word_reset, fun _ => rfl, fun _ _ => rfl⟩

/-! ### Temperature and integrity (R40, R45, R467) -/

/-- What a sweep keeps is one of its readings. -/
theorem mem_of_hottest {l : List Int} {k j : Nat} {v : Int} (h : Super.hottest k l = some (v, j)) : v ∈ l := by
  induction l generalizing k with
  | nil => simp [Super.hottest] at h
  | cons x l ih =>
    simp only [Super.hottest] at h
    split at h
    · next w i hw =>
      split at h
      · cases h; exact List.mem_cons_of_mem _ (ih hw)
      · cases h; exact List.mem_cons_self
    · cases h; exact List.mem_cons_self

/-- A sweep that starts at sensor `k` keeps its greatest reading, and the first sensor that gave it. -/
theorem hottest_eq {l : List Int} {i : Nat} {v : Int} (hi : l[i]? = some v) (hv : ∀ w ∈ l, w ≤ v)
    (hf : ∀ j w, j < i → l[j]? = some w → w < v) (k : Nat) : Super.hottest k l = some (v, k + i) := by
  induction l generalizing i k with
  | nil => simp at hi
  | cons x l ih =>
    cases i with
    | zero =>
      obtain rfl : x = v := by simpa using hi
      simp only [Super.hottest]
      split
      · next w j h => simp [Int.not_lt.2 (hv w (List.mem_cons_of_mem _ (mem_of_hottest h)))]
      · rfl
    | succ i =>
      have later := ih (by simpa using hi) (fun w hw => hv w (List.mem_cons_of_mem _ hw))
        (fun j w hj hw => hf (j + 1) w (by omega) (by simpa using hw)) (k + 1)
      have hx : x < v := hf 0 x (by omega) rfl
      simp [Super.hottest, later, hx]
      omega

@[simp] theorem modeIn_cons (s : State) (m : Mode) (l : List Mode) :
    Ops.modeIn s (m :: l) = (s.modes.cur == m || Ops.modeIn s l) := rfl

@[simp] theorem modeIn_nil (s : State) : Ops.modeIn s [] = false := rfl

/-- Settles O8: each command is its effect on the state with what the last one sent out gone. -/
theorem tripsSweepsAndIntegrity : Obligations.TripsSweepsAndIntegrity := by
  unfold Obligations.TripsSweepsAndIntegrity
  refine ⟨fun s h => ⟨?trip, fun hc => ?clear, fun hc => ?holds, ?intact, ?altered, ?unread⟩,
    fun s l i v h hi hv hf => ?sweep⟩
  case trip =>
    refine (run_awake h Super.trip).trans ?_
    simp only [Super.trip, modeIn_cons, modeIn_nil, Bool.or_false, Bool.or_eq_true, beq_iff_eq]
    rfl
  case clear =>
    refine (run_awake h Super.tripClear).trans ?_
    simp only [Super.tripClear, Ops.begin_frame, hc]
    rfl
  case holds =>
    refine (run_awake h Super.tripClear).trans ?_
    simp only [Super.tripClear, Ops.begin_frame, Int.not_lt.2 hc]
    rfl
  case intact => exact run_awake h (Security.integrityCheck false)
  case altered =>
    refine (run_awake h (Security.integrityCheck true)).trans ?_
    simp [Security.integrityCheck, Security.event]
  case unread => exact run_awake h (Super.sweep [])
  case sweep =>
    refine (run_awake h (Super.sweep l)).trans ?_
    simp only [Super.sweep, hottest_eq hi hv hf 0, Nat.zero_add]
    rfl

/-! ### Requests by a number -/

theorem operands_write {i k n : Nat} (h : Operands.size i k = n) (t : Transport) (v : Nat) :
    Operands.write t i k v = Dict.serve t 2 i k (le n v) := by
  subst h
  rfl

/-- A mode request is judged on the state that has counted it (R48). -/
theorem chapterWrite_request {v : Nat} (hv : v < 256) (t : Transport) (s : State) :
    Dict.chapterWrite t 0x1000 4 (le 1 v) s = some (Modes.request v s) := by
  have e : Ops.le (le 1 v) = v := le_bytes_lt hv
  show some (Modes.request (Ops.le (le 1 v)) s) = _
  rw [e]

section
variable {s : State} {t : Transport} {v : Nat} (h : Writes s t 0x1000 4 (le 1 v)) (hv : v < 256)
include h hv

theorem request_refused {e : Nat} (he : Modes.request v (counted s) = .inl e) :
    Run.run (Operands.write t 0x1000 4 v) s = .next (after s (answered s t 2 0x1000 4 (le 1 v) e [] (counted s))) := by
  rw [operands_write (n := 1) (by decide)]
  exact run_refused h (by decide) (by decide) ((chapterWrite_request hv t _).trans (congrArg some he))

theorem request_taken {x : State} (he : Modes.request v (counted s) = .inr x) :
    Run.run (Operands.write t 0x1000 4 v) s = .next (wrote s t 0x1000 4 (le 1 v) x) := by
  rw [operands_write (n := 1) (by decide)]
  exact run_write h (by decide) (by decide) ((chapterWrite_request hv t _).trans (congrArg some he))

end

@[simp] theorem counted_frame (s : State) : (counted s).modes = s.modes ∧ (counted s).loader = s.loader ∧
    (counted s).sup = s.sup ∧ (counted s).nv = s.nv ∧ (counted s).sec = s.sec ∧ (counted s).eng = s.eng := by
  and_intros <;> rfl

theorem readyForStream_counted (s : State) : Loader.readyForStream (counted s) = Loader.readyForStream s := rfl

theorem partialOf_counted (s : State) : Loader.partialOf (counted s) = Loader.partialOf s := rfl

/-- While a transition is under way, every request but that of a reset is busy. -/
theorem request_busy {s : State} {v : Nat} (hv : v = 3 ∨ v = 5 ∨ v = 6) (h : s.modes.trans ≠ none) :
    Modes.request v s = .inl 5 := by
  have := Option.isSome_iff_ne_none.2 h
  rcases hv with rfl | rfl | rfl <;> simp [Modes.request, this]

/-! The requests of R48 with no transition under way. -/

section
variable {s : State} (h : s.modes.trans = none)
include h

theorem request_reload : Modes.request 3 s =
    if s.modes.cur = .m7 then
      if Loader.readyForStream s then .inr (Modes.setModes (fun m => { m with loadDue := some 0x30 }) s) else .inl 5
    else if s.modes.cur = .m5 then
      if (Loader.partialOf s).isSome then .inl 5 else .inr (Modes.setModes (fun m => { m with loadDue := some 0x30 }) s)
    else .inl 3 := by
  simp [Modes.request, h]

theorem request_run : Modes.request 5 s =
    if s.modes.cur = .m6 then .inr (Modes.setModes (fun m => { m with runDue := true }) s) else .inl 3 := by
  simp [Modes.request, h]

theorem request_sentinel : Modes.request 6 s =
    if s.modes.cur = .m5 then
      .inr (if (Loader.partialOf s).isSome then Modes.setModes (fun m => { m with trans := some .sentinelWait }) s
        else Modes.setModes (fun m => { m with trans := some (.draining 0x20) }) (Fabric.holdInbound s))
    else .inl 3 := by
  simp [Modes.request, h]

end

/-- Settles O7: a request comes to what `Modes.request` gives, by its cases, and the end of a drain is a `goto`. -/
theorem modeRequestsAndDrain : Obligations.ModeRequestsAndDrain := by
  unfold Obligations.ModeRequestsAndDrain
  refine ⟨fun s t => ⟨fun h => ?reload, fun h => ?run, fun h => ?sentinel⟩,
    fun s c h => ⟨fun hd => ⟨?quiet, fun a => ?limit⟩, fun hd => ⟨?calm, fun a => ?unlimited⟩, entered_goto .m6 c⟩⟩
  case reload =>
    refine ⟨fun hf => request_refused h (by decide) (request_busy (by decide) hf),
      fun hf h5 h7 => request_refused h (by decide) ?_, fun hf hb => request_refused h (by decide) ?_,
      fun hf hg => request_taken h (by decide) ?_⟩ <;> rw [request_reload (s := counted s) hf]
    · simp [h5, h7]
    · rcases hb with ⟨h5, hp⟩ | ⟨h7, hr⟩
      · simp [h5, partialOf_counted, Option.isSome_iff_ne_none.2 hp]
      · simp [h7, readyForStream_counted, hr]
    · rcases hg with ⟨h5, hp⟩ | ⟨h7, hr⟩
      · simp [h5, partialOf_counted, hp]
      · simp [h7, readyForStream_counted, hr]
  case run =>
    refine ⟨fun hf => request_refused h (by decide) (request_busy (by decide) hf),
      fun hf h6 => request_refused h (by decide) ?_, fun hf h6 => request_taken h (by decide) ?_⟩ <;>
      rw [request_run (s := counted s) hf] <;> simp [h6]
  case sentinel =>
    refine ⟨fun hf => request_refused h (by decide) (request_busy (by decide) hf),
      fun hf h5 => request_refused h (by decide) ?_, fun hf h5 hp => request_taken h (by decide) ?_,
      fun hf h5 hp => request_taken h (by decide) ?_⟩ <;> rw [request_sentinel (s := counted s) hf]
    · simp [h5]
    · simp [h5, partialOf_counted, Option.isSome_iff_ne_none.2 hp]
    · simp [h5, partialOf_counted, hp]
  case quiet =>
    refine (run_awake h Modes.drainQuiet).trans ?_
    simp [Modes.drainQuiet, hd]
  case limit =>
    refine (run_awake h (Modes.drainLimit a)).trans ?_
    simp [Modes.drainLimit, hd]
  case calm =>
    refine (run_awake h Modes.drainQuiet).trans ?_
    simp [Modes.drainQuiet]
  case unlimited =>
    refine (run_awake h (Modes.drainLimit a)).trans ?_
    simp [Modes.drainLimit]

end Sys2Proof.Laws
end

section
/-!
SUPPORT. Power, PWRGD and RESET_N.
-/

namespace Sys2Proof.Laws

open Sys2Proof Sys2Proof.Machine Sys2Proof.Safety

/-! ### Power-up (R33, R274, R425, R485) -/

/-- An event source's control word is 0 by default, so that raising it delivers nothing. -/
theorem dflt_control {src : Nat} (h : src < 640) : Objects.dflt (256 * (0xB100 + src / 128) + (1 + src % 128)) = 0 := by
  have hk : (256 * (0xB100 + src / 128) + (1 + src % 128)) / 256 = 0xB100 + src / 128 := by omega
  have hm : (256 * (0xB100 + src / 128) + (1 + src % 128)) % 256 = 1 + src % 128 := by omega
  have found : Objects.find (0xB100 + src / 128) = some ⟨0x80, .host, [Objects.r 1 0x80 .u32 .rw]⟩ := by
    have hj : src / 128 < 5 := by omega
    generalize src / 128 = j at hj
    interval_cases j <;> rfl
  have hs : 1 + src % 128 ≤ 128 := by omega
  have row : Objects.row (0xB100 + src / 128) (1 + src % 128) = some (Objects.r 1 0x80 .u32 .rw) := by
    simp [Objects.row, found, Objects.r, hs, Nat.not_lt.2 hs]
  simp only [Objects.dflt, hk, hm, row]
  rfl

/-- `t` comes from `u` by the steps of a power-up: engines, lanes, cells, causes and RAW bits alone have changed, and no source
delivers anything. -/
structure Cold (u t : State) : Prop where
  modes : t.modes = u.modes
  nv : t.nv = u.nv
  time : t.time = u.time
  bankMem : t.bankMem = u.bankMem
  queues : t.queues = u.queues
  fab : t.fab = u.fab
  silent : ∀ src, src < 640 → Unheard t src

namespace Cold

variable {u s t : State}

theorem refl (h : u.regs = []) : Cold u u := by
  refine ⟨rfl, rfl, rfl, rfl, rfl, rfl, fun src hsrc => ?_⟩
  have hc : Ops.control u src = 0 := by
    simp only [Ops.control, Ops.reg, h]
    exact dflt_control hsrc
  simp [Unheard, hc, Ops.bit]

/-- A step that changes nothing else. -/
theorem next (h : Cold u s)
    (e : t = { s with eng := t.eng, lanes := t.lanes, pool := t.pool, sup := t.sup, events := t.events }) : Cold u t := by
  refine ⟨?_, ?_, ?_, ?_, ?_, ?_, fun src hsrc => ?_⟩
  · rw [e]; exact h.modes
  · rw [e]; exact h.nv
  · rw [e]; exact h.time
  · rw [e]; exact h.bankMem
  · rw [e]; exact h.queues
  · rw [e]; exact h.fab
  · rw [e]; exact h.silent src hsrc

theorem raise (h : Cold u s) {src : Nat} (hs : src < 640) : Cold u (Ops.raise src s) := by
  rw [raise_quiet (.inl (h.silent src hs))]
  exact h.next rfl

theorem track (h : Cold u s) {src : Nat} (hs : src < 640) (now : Bool) : Cold u (Ops.track src now s) := by
  unfold Ops.track Ops.level
  split
  · split
    · exact h
    · exact h.raise hs
  · exact h.next rfl

theorem lose (h : Cold u s) {n : Nat} (hn : n < 128) : Cold u (Engines.lose n s) := by
  refine track ?_ (by omega) _
  refine ⟨h.modes, h.nv, h.time, h.bankMem, h.queues, h.fab, fun src hsrc => ?_⟩
  have hc := h.silent src hsrc
  simp only [Unheard, Ops.control] at hc ⊢
  rw [reg_setReg_other (by omega)]
  exact hc

theorem applyFuses (h : Cold u s) : Cold u (Super.applyFuses s) := by
  refine List.foldlRecOn (motive := Cold u) _ _ h fun s hs e _ => ?_
  dsimp only
  split
  · exact hs.next rfl
  · exact hs.next rfl
  · exact hs.next rfl
  · exact hs

theorem mapGroup (h : Cold u s) {g : Nat} (hg : g < 4) : Cold u (Super.mapGroup g s) := by
  refine List.foldlRecOn (motive := Cold u) _ _ ?_ fun s hs i hi => ?_
  · exact List.foldlRecOn (motive := Cold u) _ _ h fun s hs _ _ => hs.next rfl
  · have := List.mem_range.1 hi
    dsimp only
    split
    · exact hs.next rfl
    · exact hs.lose (by omega)

theorem mapEngines (h : Cold u s) : Cold u (Super.mapEngines s) :=
  List.foldlRecOn (motive := Cold u) _ _ h fun _ hs _ hg => hs.mapGroup (List.mem_range.1 hg)

end Cold

/-! ### The hold latch (R50) -/

theorem row_holdLatch (s : State) : Dict.row s 0x1000 8 = some (Objects.r 8 8 .bool .rw) := rfl

/-- A value that is no BOOL is refused, in every mode but M0 (R410, step 7). -/
theorem write_holdLatch_bad {s : State} (hm : s.modes.cur ≠ .m0) (t : Transport) {v : Byte} (hv : 1 < v.toNat) :
    Dict.write t 0x1000 8 (le 1 v.toNat) s = (some (4, []), s) := by
  have hreach : Dict.reachable s (Objects.r 8 8 .bool .rw) = true := by
    unfold Dict.reachable
    cases hc : s.modes.cur with
    | m0 => exact absurd hc hm
    | _ => rfl
  have hbad : 1 < Ops.le (le 1 v.toNat) := by rwa [le_bytes_word (n := 1) rfl]
  have hlen : Dict.badLength (Objects.r 8 8 .bool .rw) (le 1 v.toNat) = false := rfl
  have hseal : Dict.needsSeal s (Objects.r 8 8 .bool .rw) 0x1000 8 (Ops.le (le 1 v.toNat)) = false := rfl
  have hmode : Dict.wrongMode s (Objects.r 8 8 .bool .rw) = false := by
    simp only [Dict.wrongMode, hreach]
    rfl
  have heff : Dict.effect t (Objects.r 8 8 .bool .rw) 0x1000 8 (le 1 v.toNat) s = .inl 4 := if_pos ⟨rfl, hbad⟩
  simp only [Dict.write, row_holdLatch, hlen, hseal, hmode, heff]
  rfl

/-! ### Supplies, PWRGD and RESET_N -/

theorem runSupply_m0 {s : State} (h : s.modes.cur = .m0) (f : State → State) :
    Run.runSupply f s = .next (Run.commitTime s (f (Ops.begin s))) := by
  simp [Run.runSupply, h]

/-- Nothing is due in M0. -/
theorem settle_m0 {s : State} (hm : s.modes.cur = .m0) (hr : s.modes.resetDue = none) (ho : s.sup.observed = [])
    (ht : s.sup.tests = []) (hw : s.sup.waiting = []) (hp : s.events.raw.getLsbD 304 = false) : Modes.settle s = s := by
  rw [settle_advances ho ht hw hp hr]
  simp [Modes.longest, Modes.advanceAll, Modes.advance, hm]

theorem with_resetN {s : State} {b : Bool} (h : s.modes.resetN = b) :
    { s with modes := { s.modes with resetN := b } } = s := by
  subst h
  rfl

/-- In M0 only the level of RESET_N is noted. -/
theorem resetNLow_m0 {s : State} (h : s.modes.cur = .m0) :
    Modes.resetNLow s = { s with modes := { s.modes with resetN := false } } := by
  unfold Modes.resetNLow
  cases hr : s.modes.resetN with
  | true => simp [h, Modes.setModes]
  | false => simp [with_resetN hr]

theorem resetNHigh_m0 {s : State} (h : s.modes.cur = .m0) (id : BitVec 7) (st : BitVec 8) :
    Modes.resetNHigh id st s = { s with modes := { s.modes with resetN := true } } := by
  unfold Modes.resetNHigh
  cases hr : s.modes.resetN with
  | true => simp [with_resetN hr]
  | false => simp [h, Modes.setModes]

/-- A mask no narrower than a word leaves it. -/
theorem toNat_and_mask {w n : Nat} (h : w ≤ n) (v : BitVec w) : v.toNat &&& (2 ^ n - 1) = v.toNat := by
  rw [Nat.and_two_pow_sub_one_eq_mod]
  exact Nat.mod_eq_of_lt (v.isLt.trans_le (Nat.pow_le_pow_right (by decide) h))

/-- Settles O6: the cold reset keeps what `Cold` names; every other clause is its command on the state with what the
last one sent out gone. -/
theorem powerAndReset : Obligations.PowerAndReset := by
  unfold Obligations.PowerAndReset
  refine ⟨fun s id st g => ⟨fun h => ?cold, fun h => ?warm, fun h => ?removal⟩,
    fun s h => ⟨?low0, fun id st => ?high0⟩,
    fun s h => ⟨?pwrgd, fun hr => ?low, fun hr => ?stays, fun hr id st => ?stays', fun hr id st => ?high, fun t hw => ?request,
      fun t v hw => ?hold, fun t v hs hv => ?refused⟩⟩
  case cold =>
    intro u t
    have k : Cold u (Ops.raise 391 (Super.mapEngines (Super.applyFuses u))) :=
      (Cold.refl rfl).applyFuses.mapEngines.raise (by decide)
    have hm : t.modes = u.modes := k.modes
    refine ⟨?_, by rw [hm], by rw [hm], by rw [hm], by rw [hm], by rw [hm], by rw [hm],
      k.nv, ?_, k.bankMem, k.queues, k.fab, rfl⟩
    · refine (runSupply_m0 h _).trans ?_
      simp [Modes.powerUp, h, t, u, Ops.begin]
    · show Run.legalTime (Ops.raise 391 _).time = _
      rw [k.time]
      rfl
  case warm =>
    refine (runSupply_awake h _).trans ?_
    have := h.powered
    simp [Modes.powerUp, this, Modes.setModes, Ops.begin]
  case removal =>
    refine (runTime_awake h _).trans ?_
    rw [afterTime, settle_m0 (s := Modes.supplyRemoval (Ops.begin s)) rfl rfl rfl rfl rfl (BitVec.getLsbD_zero ..)]
    rfl
  case low0 =>
    refine (runSupply_m0 h _).trans ?_
    rw [resetNLow_m0 (s := Ops.begin s) h]
    rfl
  case high0 =>
    refine (runSupply_m0 h _).trans ?_
    rw [resetNHigh_m0 (s := Ops.begin s) h]
    rfl
  case pwrgd => exact run_awake h Modes.pwrgdLow
  case low =>
    refine (runSupply_awake h _).trans ?_
    simp [Modes.resetNLow, hr, h.powered, Modes.setModes, Ops.begin]
  case stays =>
    refine (runSupply_awake h _).trans ?_
    simp [Modes.resetNLow, hr, Ops.begin]
  case stays' =>
    refine (runSupply_awake h _).trans ?_
    simp [Modes.resetNHigh, hr, Ops.begin]
  case high =>
    refine (runSupply_awake h _).trans ?_
    simp only [Modes.resetNHigh, Ops.begin_frame, hr, h.powered, Modes.setModes]
    rfl
  case request => exact request_taken hw (by decide) (by simp [Modes.request])
  case hold =>
    have hv : Ops.le (le 1 v.toNat) = v.toNat := le_bytes_word (n := 1) rfl v
    have stores := run_store hw (by decide) (by decide) (row_holdLatch (counted s)) rfl
    rw [← operands_write (n := 1) (by decide), hv] at stores
    refine stores.trans ?_
    rw [show v.toNat &&& (Objects.r 8 8 .bool .rw).bits = v.toNat from toNat_and_mask (by decide) v]
  case refused =>
    have hx : Dict.execute t 2 0x1000 8 (le 1 v.toNat) (counted s) = (some (4, []), counted s) :=
      write_holdLatch_bad (s := counted s) h.powered t hv
    refine (run_awake h _).trans ?_
    rw [operands_write (n := 1) (by decide), serve_answers hs hx]

end Sys2Proof.Laws
end

section
/-!
SUPPORT. What a byte does at a source of the loader.
-/

namespace Sys2Proof.Laws

open Sys2Proof Sys2Proof.Machine Sys2Proof.Safety

theorem run_awake_of {s x : State} (h : Awake s) {f : State → State} (e : f (Ops.begin s) = x) :
    Run.run f s = .next (after s x) := e ▸ run_awake h f

/-! ### A byte at a source (R275 to R277) -/

section
variable {s : State} {src : Source} {b : Byte}

theorem arrive_disabled (he : Loader.enabled s src = false) : Loader.arrive src b s = s := by
  simp [Loader.arrive, he]

theorem arrive_unheard (he : Loader.enabled s src = true) (hl : Loader.listening s = false) :
    Loader.arrive src b s = Loader.discard src 1 s := by
  simp [Loader.arrive, he, hl]

section
variable (he : Loader.enabled s src = true) (hl : Loader.listening s = true)
include he hl

/-- The first byte of a header; in M2 it makes the entry to M3 due. -/
theorem arrive_idle (hp : s.loader.phase = .idle) : Loader.arrive src b s =
    (let x := Loader.endRun src { s with loader := { s.loader with phase := .header, src := src, unit := [b] } }
     if s.modes.cur = .m2 then { x with modes := { s.modes with loadDue := some 0x11 } } else x) := by
  have hm (x : State) : (Loader.endRun src x).modes = x.modes := by cases src <;> rfl
  simp [Loader.arrive, he, hl, hp, hm]

theorem arrive_resync (hp : s.loader.phase = .resync) : Loader.arrive src b s = Loader.discard src 1 s := by
  simp [Loader.arrive, he, hl, hp]

theorem arrive_other (hp : s.loader.phase ≠ .idle) (ho : s.loader.src ≠ src) :
    Loader.arrive src b s = Loader.discard src 1 s := by
  cases hc : s.loader.phase <;> simp_all [Loader.arrive]

section
variable (hi : s.loader.phase ≠ .idle) (hr : s.loader.phase ≠ .resync) (hs : s.loader.src = src)
include hi hr hs

/-- The port's buffer of 512 bytes is full (R456). -/
theorem arrive_full (hp : src = .port) (hf : 512 ≤ s.loader.port.length) :
    Loader.arrive src b s = Ops.bump 0x9000 6 s := by
  subst hp
  cases hc : s.loader.phase <;> simp_all [Loader.arrive]

/-- A byte of the header or frame that the loader is at (R276). -/
theorem arrive_more (hf : src = .aperture ∨ s.loader.port.length < 512) : Loader.arrive src b s =
    Loader.refill (Loader.endRun src { s with loader :=
      match src with
      | .aperture => { s.loader with aperture := s.loader.aperture ++ [b] }
      | .port => { s.loader with port := s.loader.port ++ [b] } }) := by
  cases src with
  | aperture => cases hc : s.loader.phase <;> simp_all [Loader.arrive]
  | port =>
    have hn : ¬ 512 ≤ s.loader.port.length := by simpa using hf
    cases hc : s.loader.phase <;> simp_all [Loader.arrive]

end
end
end

/-- The end of the silence after a failure (R277). -/
theorem resync_done {s : State} {src : Source} (hp : s.loader.phase = .resync) (hs : s.loader.src = src) :
    Loader.resync s = Loader.endRun src { s with loader := { s.loader with phase := .idle } } := by
  subst hs
  exact if_pos hp

/-- Settles O38: a byte by the phase of the loader and its source, and each command is its arrival or its end. -/
theorem streamBytes : Obligations.StreamBytes := by
  unfold Obligations.StreamBytes
  intro s src b d u l run add on
  refine ⟨arrive_disabled, arrive_unheard, fun h hp => ?first, fun h hp => arrive_resync h.1 h.2 hp,
    fun h hp ho => arrive_other h.1 h.2 hp ho,
    fun h hi hr hs => ⟨fun hsrc hfull => ?full, fun hroom => ?more⟩,
    fun h => ⟨fun hu => ?aperture, fun hu => ?down, ?strobe, ?unsure, fun hp => ?header, fun hp => ?late, ?runEnd,
      fun hp hs => ?resync, fun hp => ?settled⟩⟩
  case first =>
    rw [arrive_idle h.1 h.2 hp]
    cases src <;> rfl
  case full => exact arrive_full h.1 h.2 hi hr hs hsrc hfull
  case more =>
    rw [arrive_more h.1 h.2 hi hr hs hroom]
    cases src <;> rfl
  case aperture => exact run_awake_of h (if_pos hu)
  case down => exact run_awake_of h (if_neg (by simp [show HostLink.up (Ops.begin s) = false from hu]))
  case strobe => exact run_awake h _
  case unsure => exact run_awake h _
  case header => exact run_awake_of h (if_pos hp)
  case late => exact run_awake_of h (if_neg hp)
  case runEnd => exact run_awake_of h (by cases src <;> rfl)
  case resync =>
    refine run_awake_of h ((resync_done (s := u) hp hs).trans ?_)
    cases src <;> rfl
  case settled => exact run_awake_of h (if_neg hp)

end Sys2Proof.Laws
end

section
/-!
SUPPORT. Sealed security commands, signer keys, revocation and the battery key.
-/

namespace Sys2Proof.Laws

open Sys2Proof Sys2Proof.Machine Sys2Proof.Safety

/-! ### Sealed commands by their inner write (R426) -/

/-- A write of 0xC040.02 that passes the checks of R410 is the sealed command. -/
theorem write_sealed {s : State} {t : Transport} {d : List Byte} (h : Accepts s 0xC040 2 d = true) :
    Dict.write t 0xC040 2 d s = Dict.sealedWrite t d s := by
  unfold Accepts at h
  unfold Dict.write
  cases hr : Dict.row s 0xC040 2 with
  | none => simp [hr] at h
  | some r =>
    simp only [hr, Bool.and_eq_true, Bool.not_eq_true', bne_iff_ne] at h
    obtain ⟨⟨⟨⟨⟨⟨length, access⟩, owner⟩, field⟩, mode⟩, -⟩, -⟩ := h
    simp only [length, owner, field, mode, if_neg access, Bool.or_self, Bool.false_eq_true, if_false]
    rfl

section
variable {s : State} {t : Transport} {slot : Fin 4} {sig : List Byte} {i k : Nat} {d : List Byte}
  (h : Seals s t slot sig i k d)
include h

/-- Check 8 of R426 fails, and nothing before it. -/
theorem sealedWrite_refused {e : Nat} (he : Dict.innerWrite t i k d (opened s) = .inl e) :
    Dict.sealedWrite t (Dict.sealedBlob s slot i k d sig) (counted s) = Dict.sealFailed 8 e (opened s) := by
  have idle : (opened s).sup.blowing.isSome = false := congrArg Option.isSome h.idle
  have length : ¬ ((Dict.sealedBlob s slot i k d sig).length ≠ 424 + d.length ∨ 1024 < d.length) := by
    have := h.short
    rw [blob_length, h.sigLength]
    omega
  unfold Dict.sealedWrite
  simp only [blob_len _ _ _ _ _ _ h.short, blob_index _ _ _ _ _ _ h.number, blob_sub _ _ _ _ _ _ h.place, blob_value]
  rw [if_neg length]
  show (if (opened s).sup.blowing.isSome = true then _ else _) = _
  rw [idle, h.sealed]
  show (match Dict.innerWrite t i k d (opened s) with | .inl e => _ | .inr s => _) = _
  rw [he]
  rfl

/-- The inner write, where the owning chapter refuses it. -/
theorem inner_refused {e : Nat} (he : Dict.chapterWrite t i k d (opened s) = some (.inl e)) :
    Dict.innerWrite t i k d (opened s) = .inl e := by
  have ha := h.inner
  unfold InnerAccepts at ha
  unfold Dict.innerWrite
  cases hr : Objects.row i k with
  | none => simp [hr] at ha
  | some r =>
    simp only [hr, Bool.and_eq_true, Bool.not_eq_true'] at ha
    obtain ⟨⟨⟨length, mode⟩, bool⟩, blob⟩ := ha
    have value : ¬ (r.ty = .bool ∧ 1 < Ops.le d) := by rintro ⟨a, b⟩; simp [a, b] at bool
    have fits : ¬ (r.ty = .blob ∧ r.len < d.length ∧ ¬ (i = 0x6000 ∧ k = 3)) := by
      rintro ⟨a, b, -⟩; simp [a, b] at blob
    have refused : Dict.effect t r i k d (opened s) = .inl e := by
      rw [Dict.effect, if_neg value, if_neg fits, he]
    show (if Dict.badLength r d then _ else if Dict.wrongMode (opened s) r then _ else _) = _
    rw [length, mode]
    exact refused

end

section
variable {s : State} {t : Transport} {slot : Fin 4} {sig : List Byte} {i k n v : Nat}
  (h : Seals s t slot sig i k (le n v))
include h

/-- The challenge that a sealed command signs is that of the state it finds. -/
theorem run_sealedPut : Run.run (Dict.sealedPut t slot sig i k n v) s =
    Run.run (Dict.serve t 2 0xC040 2 (Dict.sealedBlob s slot i k (le n v) sig)) s := by
  have blob : Dict.sealedBlob (Ops.begin s) slot i k (le n v) sig = Dict.sealedBlob s slot i k (le n v) sig := rfl
  rw [run_awake h.toAwake, run_awake h.toAwake, Dict.sealedPut, blob]

/-- A sealed command whose inner write the owning chapter accepts. -/
theorem sealed_taken {x : State} (he : Dict.chapterWrite t i k (le n v) (opened s) = some (.inr x))
    (hb : x.sup.blowing = s.sup.blowing) :
    Run.run (Dict.sealedPut t slot sig i k n v) s = .next (unsealed s t slot sig i k (le n v) x) :=
  (run_sealedPut h).trans (run_sealed h (inner_accepted h he) (hb.trans h.idle))

/-- A sealed command whose inner write the owning chapter refuses. -/
theorem sealed_spurned {e : Nat} (he : Dict.chapterWrite t i k (le n v) (opened s) = some (.inl e)) :
    Run.run (Dict.sealedPut t slot sig i k n v) s = .next (spurned s t slot sig i k (le n v) e) := by
  have hx : Dict.execute t 2 0xC040 2 (Dict.sealedBlob s slot i k (le n v) sig) (counted s) =
      Dict.sealFailed 8 e (opened s) := by
    simp [Dict.execute, write_sealed h.accepted, sealedWrite_refused h (inner_refused h he)]
  rw [run_sealedPut h, run_awake h.toAwake, serve_answers h.served hx]
  rfl

end

/-! ### What the security processor makes of each write (R287 to R292) -/

@[simp] theorem blowing_raise (n : Nat) (s : State) : (Ops.raise n s).sup.blowing = s.sup.blowing := by
  rw [(spares_raise n s).1]
  rfl

theorem blowing_event (c : Nat) (s : State) : (Security.event c s).sup.blowing = s.sup.blowing := by
  unfold Security.event
  dsimp only
  split <;> simp

theorem blowing_isolate (r c : Nat) (s : State) : (Fabric.isolate r c s).sup.blowing = s.sup.blowing := by
  unfold Fabric.isolate
  dsimp only
  split
  · rfl
  · split <;> rfl

theorem blowing_setBattery (k : Option (BitVec 256)) (s : State) :
    (Security.setBattery k s).sup.blowing = s.sup.blowing := by
  unfold Security.setBattery
  dsimp only
  split <;> simp

/-- The release of a security isolation, by the cause that the collar holds (R527). -/
theorem command_release (s : State) (r : Fin 512) :
    Security.command (0x8000 + r.val) s =
      if (Fabric.collar s r).isolate = true ∧ (Fabric.collar s r).cause = 5 then
        .inr (Fabric.setCollar r { Fabric.collar s r with cause := 1 } s)
      else .inl 4 := by
  have number : (0x8000 + r.val) % 512 = r.val := by omega
  have reserved : (0x8000 + r.val) / 512 % 64 = 0 := by omega
  have release : (0x8000 + r.val) / 32768 ≠ 0 := by omega
  unfold Security.command
  simp only [number, reserved, release]
  by_cases mine : (Fabric.collar s r).isolate = true ∧ (Fabric.collar s r).cause = 5
  · simp [mine, Fabric.removeCause]
  · have other : (!(Fabric.collar s r).isolate || (Fabric.collar s r).cause != 5) = true := by
      simpa [imp_iff_not_or] using not_and.mp mine
    rw [if_neg mine, if_pos other]
    rfl

theorem command_isolate (s : State) (r : Fin 512) : Security.command r s = .inr (Fabric.isolate r 5 s) := by
  have number : r.val % 512 = r.val := by omega
  have reserved : r.val / 512 % 64 = 0 := by omega
  have isolate : r.val / 32768 = 0 := by omega
  simp [Security.command, number, reserved, isolate]

/-- The key is one that a programmed slot, not revoked, takes (R288). -/
def KeyFits (s : State) (k : Nat) (d : List Byte) : Prop :=
  d.length = 388 ∧ Ops.le (d.drop 384) = 65537 ∧ Security.revoked s k = false ∧
    Security.programmed s k = true ∧ Crypto.sha256 d = Security.slotHash s k

theorem writeKey_fits {s : State} {k : Nat} {d : List Byte} (h : KeyFits s k d) :
    Security.writeKey k d s = if Loader.namesSlot s k then .inl 5 else .inr (Security.stage k d s) := by
  obtain ⟨length, exponent, revoked, programmed, hash⟩ := h
  simp [Security.writeKey, length, exponent, revoked, programmed, hash]

theorem writeKey_unfit {s : State} {k : Nat} {d : List Byte} (h : ¬ KeyFits s k d) :
    Security.writeKey k d s = .inl 4 := by
  unfold Security.writeKey
  split
  · rfl
  · next length =>
    refine if_pos ?_
    by_contra fits
    simp only [not_or, not_not, Bool.not_eq_true, Bool.not_eq_true'] at fits
    obtain ⟨exponent, revoked, programmed, hash⟩ := fits
    exact h ⟨not_not.mp length, exponent, revoked, by simpa using programmed, hash⟩

theorem revoke_refused {s : State} {v : Nat} (h : 4 ≤ v ∨ Security.lastSlot s v = true) :
    Security.revoke v s = .inl 4 := if_pos h

theorem revoke_busy {s : State} {v : Nat} (h : ¬ (4 ≤ v ∨ Security.lastSlot s v = true))
    (hb : Loader.namesSlot s v = true ∨ Engines.installing s = true) : Security.revoke v s = .inl 5 :=
  (if_neg h).trans (if_pos (by simpa using hb))

theorem revoke_taken {s : State} {v : Nat} (h : ¬ (4 ≤ v ∨ Security.lastSlot s v = true))
    (hb : ¬ (Loader.namesSlot s v = true ∨ Engines.installing s = true)) :
    Security.revoke v s = .inr (let y := Security.stage v [] s
      { y with sec := { y.sec with revoking := y.sec.revoking ++ [Fin.ofNat 4 v] } }) :=
  (if_neg h).trans (if_neg (by simpa using hb))

theorem writeBattery_forbidden {s : State} {d : List Byte} (h : s.nv.batteryAllowed = false) :
    Security.writeBattery d s = .inl 4 := if_pos (.inr (by simp [h]))

/-- A battery key that the fuses allow (R291). -/
theorem writeBattery_allowed {s : State} (h : s.nv.batteryAllowed = true) (x : BitVec 256) :
    Security.writeBattery (le 32 x.toNat) s =
      if Loader.usesBattery s then .inl 5 else .inr (Security.setBattery (some x) s) := by
  have value : Ops.le (le 32 x.toNat) = x.toNat := le_bytes_word (n := 32) rfl x
  have length : (le 32 x.toNat).length = 32 := length_bytes ..
  simp only [Security.writeBattery, length, h, value, BitVec.ofNat_toNat, BitVec.setWidth_eq]
  rfl

/-- The byte of a revocation is its number. -/
theorem revoke_byte (s : State) (v : Byte) :
    Security.revoke (Ops.le (le 1 v.toNat)) s = Security.revoke v.toNat s := by
  rw [show Ops.le (le 1 v.toNat) = v.toNat from le_bytes_word (n := 1) rfl v]

theorem revocationBlown_cons {s : State} {k : Fin 4} {rest : List (Fin 4)} (h : s.sec.revoking = k :: rest) :
    Security.revocationBlown s = Ops.raise 362 { s with
      sec := { s.sec with revoking := rest }
      nv := { s.nv with revoked := s.nv.revoked ||| BitVec.twoPow 4 k } } := by
  simp only [Security.revocationBlown, h]

theorem revocationBlown_nil {s : State} (h : s.sec.revoking = []) : Security.revocationBlown s = s := by
  simp only [Security.revocationBlown, h]

/-- Settles O11: every sealed command by what its inner write makes of the state that the checks leave. -/
theorem securityAndKeys : Obligations.SecurityAndKeys := by
  unfold Obligations.SecurityAndKeys
  refine
    ⟨fun s t slot sig r =>
      ⟨fun h => ?quarantine, fun h => ?isolate, fun h => ⟨fun hm => ?release, fun hm => ?other⟩⟩,
    fun s t k d h => ⟨fun hg => ?bad, fun hg hn => ?named, fun hg hn => ?staged⟩,
    fun s t slot sig =>
      ⟨fun v h => ⟨fun hr => ?last, fun hr hb => ?busy, fun hr hb => ?revoked⟩,
      fun k rest h hk => ?blown, fun h hk => ?unblown⟩,
    fun s t k sig =>
      ⟨fun x h => ⟨fun ha => ?forbidden, fun ha hu => ?inUse, fun ha hu => ?written⟩,
      fun h => ⟨fun hu => ?kept, fun hu => ?erased⟩, fun mv => ⟨fun h => ?vbat, fun h => ?vbat0⟩⟩⟩
  case quarantine => exact sealed_taken h rfl (blowing_event _ _)
  case isolate =>
    have value : Ops.le (le 2 r.val) = r.val := le_bytes_lt (by omega)
    refine sealed_taken h ?_ (blowing_isolate _ _ _)
    show some (Security.command (Ops.le (le 2 r.val)) (opened s)) = _
    rw [value, command_isolate]
  case release =>
    have value : Ops.le (le 2 (0x8000 + r.val)) = 0x8000 + r.val := le_bytes_lt (by omega)
    refine sealed_taken h ?_ rfl
    show some (Security.command (Ops.le (le 2 (0x8000 + r.val))) (opened s)) = _
    rw [value, command_release]
    exact congrArg some (if_pos hm)
  case other =>
    have value : Ops.le (le 2 (0x8000 + r.val)) = 0x8000 + r.val := le_bytes_lt (by omega)
    refine sealed_spurned h ?_
    show some (Security.command (Ops.le (le 2 (0x8000 + r.val))) (opened s)) = _
    rw [value, command_release]
    exact congrArg some (if_neg hm)
  case bad => exact run_refused h (by decide) (by decide) (congrArg some (writeKey_unfit (s := counted s) hg))
  case named =>
    refine run_refused h (by decide) (by decide) (congrArg some ((writeKey_fits (s := counted s) hg).trans (if_pos hn)))
  case staged =>
    refine run_write h (by decide) (by decide)
      (congrArg some ((writeKey_fits (s := counted s) hg).trans (if_neg ?_)))
    exact Bool.eq_false_iff.mp hn
  case last => exact sealed_spurned h (congrArg some ((revoke_byte _ v).trans (revoke_refused (s := opened s) hr)))
  case busy => exact sealed_spurned h (congrArg some ((revoke_byte _ v).trans (revoke_busy (s := opened s) hr hb)))
  case revoked => exact sealed_taken h (congrArg some ((revoke_byte _ v).trans (revoke_taken (s := opened s) hr hb))) rfl
  case blown => exact run_awake_of h (revocationBlown_cons hk)
  case unblown => exact run_awake_of h (revocationBlown_nil hk)
  case forbidden => exact sealed_spurned h (congrArg some (writeBattery_forbidden (s := opened s) ha))
  case inUse => exact sealed_spurned h (congrArg some ((writeBattery_allowed (s := opened s) ha x).trans (if_pos hu)))
  case written =>
    exact sealed_taken h (congrArg some ((writeBattery_allowed (s := opened s) ha x).trans (if_neg hu)))
      (blowing_setBattery (some x) (opened s))
  case kept => exact sealed_spurned h (congrArg some (if_pos hu))
  case erased => exact sealed_taken h (congrArg some (if_neg hu)) (blowing_setBattery none (opened s))
  case vbat => exact runSupply_awake h _
  case vbat0 => exact runSupply_m0 h _

end Sys2Proof.Laws
end

section
/-!
SUPPORT. The moves of the array (R55, R58, R64, R65): for each, what it makes of the state where it is due, and that it leaves the
state alone elsewhere, so outside M5 always (R38, R39).
-/

namespace Sys2Proof.Laws

open Sys2Proof Sys2Proof.Machine Sys2Proof.Safety

theorem awake_iff {s : State} : Fabric.awake s = true ↔ s.modes.cur = .m5 := by simp [Fabric.awake]

theorem asleep_iff {s : State} : Fabric.awake s = false ↔ s.modes.cur ≠ .m5 := by
  rw [← Bool.not_eq_true, awake_iff]

/-! ### What the array sees

Nothing on the rails or on an acknowledge depends on what the last command sent out, which is all that the next one drops. -/

@[simp] theorem passed_begin (s : State) : Fabric.passed (Ops.begin s) = Fabric.passed s := by
  funext c first path
  induction path generalizing first with
  | nil => rfl
  | cons x rest ih =>
    simp only [Fabric.passed, ih]
    rfl

@[simp] theorem stopAt_begin (s : State) : Fabric.stopAt (Ops.begin s) = Fabric.stopAt s := by
  funext c path
  simp only [Fabric.stopAt, passed_begin]
  rfl

@[simp] theorem view_begin (s : State) : Fabric.view (Ops.begin s) = Fabric.view s := by
  funext c
  simp only [Fabric.view, stopAt_begin]
  rfl

@[simp] theorem acked_begin (s : State) : Fabric.acked (Ops.begin s) = Fabric.acked s := by
  funext c
  simp only [Fabric.acked, Fabric.heldOut, view_begin, stopAt_begin]
  rfl

@[simp] theorem free_begin (s : State) : Fabric.free (Ops.begin s) = Fabric.free s := by
  funext c
  simp only [Fabric.free, view_begin]
  rfl

@[simp] theorem clear_begin (s : State) : Fabric.clear (Ops.begin s) = Fabric.clear s := by
  funext g
  simp only [Fabric.clear, free_begin]
  rfl

@[simp] theorem seen_begin (s : State) : Fabric.seen (Ops.begin s) = Fabric.seen s := by
  funext k e
  simp only [Fabric.seen, stopAt_begin]
  rfl

@[simp] theorem allValid_begin (s : State) : Fabric.allValid (Ops.begin s) = Fabric.allValid s := by
  funext k
  simp only [Fabric.allValid, seen_begin]
  rfl

@[simp] theorem allSpacer_begin (s : State) : Fabric.allSpacer (Ops.begin s) = Fabric.allSpacer s := by
  funext k
  simp only [Fabric.allSpacer, seen_begin]
  rfl

/-! ### Storing stages (R64, R149) -/

section
variable {s : State} {g : StageRef}

theorem captureStage_of_not_gate (hg : ∀ n, g ≠ .gate n) (s : State) : captureStage g s = Fabric.capture g s := by
  cases g with
  | gate n => exact absurd rfl (hg n)
  | unit n => rfl
  | link r j k => rfl

theorem capture_due {k : Taker} {l : List (Nat × Bool)} (hm : s.modes.cur = .m5) (hk : Fabric.takerOf s g = some k)
    (hl : Fabric.linkHeld s g = false) (ht : Fabric.thawed s (Frames.regionOf k) = true)
    (hh : (Fabric.stage s g).held = none) (ha : (Fabric.stage s g).inAck = false) (hv : Fabric.allValid s k = some l) :
    Fabric.capture g s =
      Fabric.setStage g { Fabric.stage s g with held := some (Fabric.tokenOf s g l), inAck := true } s := by
  simp [Fabric.capture, hk, awake_iff.2 hm, hl, ht, hh, ha, hv]

theorem capture_idle (h : s.modes.cur ≠ .m5 ∨ Fabric.linkHeld s g = true ∨ (Fabric.stage s g).held ≠ none ∨
      (Fabric.stage s g).inAck = true ∨ ∀ k, Fabric.takerOf s g = some k →
        Fabric.thawed s (Frames.regionOf k) = false ∨ Fabric.allValid s k = none) : Fabric.capture g s = s := by
  unfold Fabric.capture
  cases hk : Fabric.takerOf s g with
  | none => rfl
  | some k =>
    dsimp only
    split
    · rfl
    · next hc =>
      simp only [Bool.or_eq_true, Bool.not_eq_true', not_or, asleep_iff, not_not, Bool.not_eq_true, Option.isSome_eq_false_iff,
        Option.isNone_iff_eq_none, Bool.not_eq_false] at hc
      obtain ⟨⟨⟨⟨hm, hl⟩, ht⟩, hh⟩, ha⟩ := hc
      have unready : Fabric.allValid s k = none := by
        simpa [hm, hl, hh, ha, ht, hk] using h
      rw [unready]

/-- A stage offers of itself: its channel is free to go on, and a gate is in bypass mode (R56, R64, R149). -/
def Flows (s : State) (g : StageRef) : Prop :=
  Fabric.thawed s (Frames.homeOf (Fabric.chanOfStage g)) = true ∧ Fabric.clear s g = true ∧
    ∀ n, g = .gate n → Time.modeOf (Time.config s n) = 2

theorem offer_due (hm : s.modes.cur = .m5) (ht : Fabric.thawed s (Frames.homeOf (Fabric.chanOfStage g)) = true)
    (hc : Fabric.clear s g = true) :
    Fabric.offer g s = Fabric.setStage g { Fabric.stage s g with rails := (Fabric.stage s g).held } s := by
  simp [Fabric.offer, awake_iff.2 hm, ht, hc]

theorem offer_idle (h : s.modes.cur ≠ .m5 ∨ ¬ (Fabric.thawed s (Frames.homeOf (Fabric.chanOfStage g)) = true ∧
      Fabric.clear s g = true)) : Fabric.offer g s = s := by
  refine if_pos ?_
  rcases h with hm | hf
  · simp [asleep_iff.2 hm]
  · by_cases ht : Fabric.thawed s (Frames.homeOf (Fabric.chanOfStage g)) = true
    · simp [ht, Bool.eq_false_iff.2 fun hc => hf ⟨ht, hc⟩]
    · simp [ht]

theorem offerStage_eq (h : ∀ n, g = .gate n → Time.modeOf (Time.config s n) = 2) : offerStage g s = Fabric.offer g s := by
  cases g with
  | gate n => exact if_pos (h n rfl)
  | unit n => rfl
  | link r j k => rfl

theorem offerStage_due (hm : s.modes.cur = .m5) (h : Flows s g) :
    offerStage g s = Fabric.setStage g { Fabric.stage s g with rails := (Fabric.stage s g).held } s := by
  obtain ⟨ht, hc, hg⟩ := h
  rw [offerStage_eq hg, offer_due hm ht hc]

theorem offerStage_idle (h : s.modes.cur ≠ .m5 ∨ ¬ Flows s g) : offerStage g s = s := by
  by_cases hg : ∀ n, g = .gate n → Time.modeOf (Time.config s n) = 2
  · rw [offerStage_eq hg]
    exact offer_idle (h.imp_right fun hf ⟨ht, hc⟩ => hf ⟨ht, hc, hg⟩)
  · push Not at hg
    obtain ⟨n, rfl, hn⟩ := hg
    exact if_neg hn

end

/-! ### The end of a handshake at its sender (R55 step 3, R64, R73) -/

section
variable {s : State} {c : Chan}

theorem acknowledge_idle (h : s.modes.cur ≠ .m5 ∨ (∀ v, Fabric.rails s c ≠ .valid v) ∨ Fabric.acked s c = false) :
    Fabric.acknowledge c s = s := by
  refine if_pos ?_
  rcases h with hm | hr | ha
  · simp [asleep_iff.2 hm]
  · cases hc : Fabric.rails s c with
    | valid v => exact absurd hc (hr v)
    | spacer => simp
    | illegal => simp
  · simp [ha]

section
variable {v : Bool} (hm : s.modes.cur = .m5) (hr : Fabric.rails s c = .valid v) (ha : Fabric.acked s c = true)
include hm hr ha

/-- A token left outside an emptied region ends here. -/
theorem acknowledge_left (ho : Fabric.offered s c = none) :
    Fabric.acknowledge c s = Fabric.sweep (let y := Fabric.countHandshake c s
      { y with fab := { y.fab with
          orphans := y.fab.orphans.map fun (o : Orphan) => if o.chan = c then { o with value := none } else o } }) := by
  simp [Fabric.acknowledge, awake_iff.2 hm, hr, ha, ho]

theorem acknowledge_stage {g : StageRef} (ho : Fabric.offered s c ≠ none) (hg : Fabric.sender c = some g)
    (ht : ∀ n, g = .unit n → Fabric.transparent s n = false) :
    Fabric.acknowledge c s = (let y := Fabric.countHandshake c s
      Fabric.sweep (Fabric.setStage g { Fabric.stage y g with rails := none, held := none } y)) := by
  cases g with
  | unit n => simp [Fabric.acknowledge, awake_iff.2 hm, hr, ha, ho, hg, ht n rfl]
  | gate n => simp [Fabric.acknowledge, awake_iff.2 hm, hr, ha, ho, hg]
  | link r j k => simp [Fabric.acknowledge, awake_iff.2 hm, hr, ha, ho, hg]

/-- A transparent unit's channel goes on under R65. -/
theorem acknowledge_transparent {n : Fin 16777216} (ho : Fabric.offered s c ≠ none) (hg : Fabric.sender c = some (.unit n))
    (ht : Fabric.transparent s n = true) : Fabric.acknowledge c s = s := by
  simp [Fabric.acknowledge, awake_iff.2 hm, hr, ha, ho, hg, ht]

theorem acknowledge_block {src : Fabric.Source} {i : Nat} (ho : Fabric.offered s c ≠ none) (hg : Fabric.sender c = none)
    (hl : Fabric.locate c = some (src, i)) :
    Fabric.acknowledge c s = Fabric.sweep (let y := Fabric.countHandshake c s
      let o := (Fabric.onOffer y src).2
      Fabric.setOffer src { o with taken := o.taken ||| BitVec.twoPow 256 i } y) := by
  simp [Fabric.acknowledge, awake_iff.2 hm, hr, ha, ho, hg, hl]

end

/-- The channel of a stage is no block's. -/
theorem locate_of_sender {g : StageRef} (hg : Fabric.sender c = some g) : Fabric.locate c = none := by
  cases c with
  | unit _ | gate _ | link _ _ _ => rfl
  | _ => cases hg

theorem afterTaken_of_sender {g : StageRef} (hg : Fabric.sender c = some g) (s : State) : afterTaken c s = s := by
  simp only [afterTaken, locate_of_sender hg]

end

/-! ### The inputs of a taker at spacer (R55 step 4, R64) -/

/-- A receiver other than a transparent unit, not frozen, whose acknowledge is high and whose used inputs are all at spacer. -/
def Lowers (s : State) (k : Taker) : Prop :=
  (∀ n, k = .unit n → Fabric.transparent s n = false) ∧ Fabric.thawed s (Frames.regionOf k) = true ∧
    Fabric.ack s k = true ∧ Fabric.allSpacer s k = true

section
variable {s : State} {k : Taker}

theorem lower_due (hk : ∀ r c, k ≠ .collar r c) (hm : s.modes.cur = .m5) (h : Lowers s k) :
    Fabric.lower k s = Fabric.wakeSenders k (Fabric.sweep (Fabric.setAck k false s)) := by
  obtain ⟨ht, hw, ha, hs⟩ := h
  cases k with
  | collar r c => exact absurd rfl (hk r c)
  | unit n => simp [Fabric.lower, awake_iff.2 hm, hw, ha, hs, ht n rfl]
  | _ => simp [Fabric.lower, awake_iff.2 hm, hw, ha, hs]

theorem lower_idle (hk : ∀ r c, k ≠ .collar r c) (h : s.modes.cur ≠ .m5 ∨ ¬ Lowers s k) : Fabric.lower k s = s := by
  have undue (hd : s.modes.cur = .m5 ∧ Lowers s k) : False := h.elim (· hd.1) (· hd.2)
  cases k with
  | collar r c => exact absurd rfl (hk r c)
  | unit n =>
    refine if_neg fun hd => undue ?_
    simp only [Bool.and_eq_true, Bool.not_eq_true', awake_iff] at hd
    obtain ⟨⟨⟨⟨hm, hw⟩, ht⟩, ha⟩, hs⟩ := hd
    exact ⟨hm, fun _ e => Taker.unit.inj e ▸ ht, hw, ha, hs⟩
  | _ =>
    refine if_neg fun hd => undue ?_
    simp only [Bool.and_eq_true, awake_iff] at hd
    obtain ⟨⟨⟨hm, hw⟩, ha⟩, hs⟩ := hd
    exact ⟨hm, nofun, hw, ha, hs⟩

end

/-! ### Transparent units (R65) -/

section
variable {s : State} {n : Fin 16777216}

theorem evaluate_idle (h : s.modes.cur ≠ .m5 ∨
      ¬ (Fabric.transparent s n = true ∧ Fabric.thawed s (Frames.regionOf (.unit n)) = true)) : Fabric.evaluate n s = s := by
  refine if_pos ?_
  rcases h with hm | hf
  · simp [asleep_iff.2 hm]
  · by_cases ht : Fabric.transparent s n = true
    · simp [Bool.eq_false_iff.2 fun hw => hf ⟨ht, hw⟩]
    · simp [ht]

theorem evaluate_waits (ha : (Fabric.stage s (.unit n)).inAck = false) (hr : (Fabric.stage s (.unit n)).rails = none)
    (hw : Fabric.allValid s (.unit n) = none ∨ Fabric.fresh s (.unit n) = false ∨ Fabric.free s (.unit n) = false) :
    Fabric.evaluate n s = s := by
  cases hv : Fabric.allValid s (.unit n) with
  | none => simp [Fabric.evaluate, ha, hr, hv]
  | some l =>
    have shut : (Fabric.fresh s (.unit n) && Fabric.free s (.unit n)) = false :=
      Bool.and_eq_false_iff.2 (hw.resolve_left (by simp [hv]))
    simp [Fabric.evaluate, ha, hr, hv, shut]

section
variable (hm : s.modes.cur = .m5)
  (h : Fabric.transparent s n = true ∧ Fabric.thawed s (Frames.regionOf (.unit n)) = true)
include hm h

theorem evaluate_offers {l : List (Nat × Bool)} (ha : (Fabric.stage s (.unit n)).inAck = false)
    (hr : (Fabric.stage s (.unit n)).rails = none) (hv : Fabric.allValid s (.unit n) = some l)
    (hc : Fabric.fresh s (.unit n) = true) (hf : Fabric.free s (.unit n) = true) : Fabric.evaluate n s =
      Fabric.setStage (.unit n) { Fabric.stage s (.unit n) with rails := some (Fabric.output s n l) } s := by
  simp [Fabric.evaluate, awake_iff.2 hm, h, ha, hr, hv, hc, hf]

theorem evaluate_acknowledges (ha : (Fabric.stage s (.unit n)).inAck = false)
    (hr : (Fabric.stage s (.unit n)).rails ≠ none) : Fabric.evaluate n s =
      if Fabric.acked s (.unit n) then Fabric.setStage (.unit n) { Fabric.stage s (.unit n) with inAck := true } s
      else s := by
  obtain ⟨v, hv⟩ := Option.ne_none_iff_exists'.1 hr
  simp [Fabric.evaluate, awake_iff.2 hm, h, ha, hv]

theorem evaluate_empties (ha : (Fabric.stage s (.unit n)).inAck = true)
    (hr : (Fabric.stage s (.unit n)).rails ≠ none) : Fabric.evaluate n s =
      if Fabric.allSpacer s (.unit n) then
        Fabric.sweep (Fabric.setStage (.unit n) { Fabric.stage s (.unit n) with rails := none }
          (Fabric.countHandshake (.unit n) s))
      else s := by
  obtain ⟨v, hv⟩ := Option.ne_none_iff_exists'.1 hr
  simp [Fabric.evaluate, awake_iff.2 hm, h, ha, hv]

theorem evaluate_lowers (ha : (Fabric.stage s (.unit n)).inAck = true)
    (hr : (Fabric.stage s (.unit n)).rails = none) : Fabric.evaluate n s =
      if Fabric.free s (.unit n) then
        Fabric.wakeSenders (.unit n)
          (Fabric.sweep (Fabric.setStage (.unit n) { Fabric.stage s (.unit n) with inAck := false } s))
      else s := by
  simp [Fabric.evaluate, awake_iff.2 hm, h, ha, hr]

end

end

/-! ### The illegal code (R58) -/

section
variable {s : State} {c : Chan} (r : Nat)

theorem enterIllegal_new (h : ∀ e ∈ s.fab.illegal, e.1 ≠ c) : Fabric.enterIllegal c r s =
    Ops.observe (Ops.channel 6 r 0)
      (Fabric.setLens r { Fabric.lens s r with codeErrors := (Fabric.lens s r).codeErrors + 1 }
        { s with fab := { s.fab with illegal := (c, r) :: s.fab.illegal } }) := by
  refine if_neg fun hs => ?_
  obtain ⟨e, he, hc⟩ := List.any_eq_true.1 hs
  exact h e he (beq_iff_eq.1 hc)

theorem enterIllegal_seen (h : ∃ e ∈ s.fab.illegal, e.1 = c) : Fabric.enterIllegal c r s = s := by
  obtain ⟨e, he, hc⟩ := h
  refine if_pos (List.any_eq_true.2 ⟨e, he, ?_⟩)
  exact beq_iff_eq.2 hc

end

/-! ### The commands -/

/-- Settles O12: each command is its move on the state with what the last one sent out gone, by the case in which it is due. -/
theorem stageMoves : Obligations.StageMoves := by
  unfold Obligations.StageMoves
  refine ⟨fun s g h => ⟨fun k l hg hk hl ht hh ha hv => ?captures, fun hg hi => ?holds, fun hf => ?offers, fun hf => ?keeps⟩,
    fun s c h hi => ?unacknowledged,
    fun s c v h hr ha => ⟨fun g ho hg ht => ?empties, fun n hc ht ho => ?transparent, fun src i ho hg hl => ?block,
      fun ho => ?left⟩,
    fun s k h hk => ⟨fun hd => ?lowers, fun hd => ?stays⟩, fun s r c h => ?collar,
    fun s => ⟨fun n h => ⟨fun hf => ?frozen,
        fun hf ha hr => ⟨fun l hv hc hfr => ?unitOffers, fun hw => ?unitWaits⟩,
        fun hf ha hr => ⟨fun hk => ?unitAcknowledges, fun hk => ?unitOffering⟩,
        fun hf ha hr => ⟨fun hs => ?unitEmpties, fun hs => ?unitFull⟩,
        fun hf ha hr => ⟨fun hfr => ?unitLowers, fun hfr => ?unitAcked⟩⟩,
      fun c r h => ⟨fun hn => ?illegal, fun hi => ?counted⟩,
      fun h hm => ⟨fun g hg => ?noCapture, fun g => ?noOffer, fun c => ?noAcknowledge, fun k hk => ?noLower,
        fun n => ?noEvaluate⟩⟩⟩
  case captures =>
    rw [← allValid_begin] at hv
    exact run_awake_of h.toAwake
      ((captureStage_of_not_gate hg _).trans (capture_due (s := Ops.begin s) h.m5 hk hl ht hh ha hv))
  case holds =>
    rw [← allValid_begin] at hi
    exact run_awake_of h.toAwake ((captureStage_of_not_gate hg _).trans (capture_idle (s := Ops.begin s) (.inr hi)))
  case offers =>
    rw [← clear_begin] at hf
    exact run_awake_of h.toAwake (offerStage_due (s := Ops.begin s) h.m5 hf)
  case keeps =>
    rw [← clear_begin] at hf
    exact run_awake_of h.toAwake (offerStage_idle (s := Ops.begin s) (.inr hf))
  case unacknowledged =>
    rw [← acked_begin] at hi
    exact run_awake_of h.toAwake (congrArg (afterTaken c) (acknowledge_idle (s := Ops.begin s) (.inr hi)))
  case empties =>
    rw [← acked_begin] at ha
    exact run_awake_of h.toAwake
      ((afterTaken_of_sender hg _).trans (acknowledge_stage (s := Ops.begin s) h.m5 hr ha ho hg ht))
  case transparent =>
    rw [← acked_begin] at ha
    subst hc
    exact run_awake_of h.toAwake (acknowledge_transparent (s := Ops.begin s) h.m5 hr ha ho rfl ht)
  case block =>
    rw [← acked_begin] at ha
    exact run_awake_of h.toAwake (congrArg (afterTaken c) (acknowledge_block (s := Ops.begin s) h.m5 hr ha ho hg hl))
  case left =>
    rw [← acked_begin] at ha
    exact run_awake_of h.toAwake (congrArg (afterTaken c) (acknowledge_left (s := Ops.begin s) h.m5 hr ha ho))
  case lowers =>
    rw [← allSpacer_begin] at hd
    exact run_awake_of h.toAwake (lower_due (s := Ops.begin s) hk h.m5 hd)
  case stays =>
    rw [← allSpacer_begin] at hd
    exact run_awake_of h.toAwake (lower_idle (s := Ops.begin s) hk (.inr hd))
  case collar => exact run_awake h _
  case frozen => exact run_awake_of h.toAwake (evaluate_idle (s := Ops.begin s) (.inr hf))
  case unitOffers =>
    rw [← allValid_begin] at hv
    rw [← free_begin] at hfr
    exact run_awake_of h.toAwake (evaluate_offers (s := Ops.begin s) h.m5 hf ha hr hv hc hfr)
  case unitWaits =>
    rw [← allValid_begin, ← free_begin] at hw
    exact run_awake_of h.toAwake (evaluate_waits (s := Ops.begin s) ha hr hw)
  case unitAcknowledges =>
    rw [← acked_begin] at hk
    exact run_awake_of h.toAwake ((evaluate_acknowledges (s := Ops.begin s) h.m5 hf ha hr).trans (if_pos hk))
  case unitOffering =>
    rw [← acked_begin] at hk
    exact run_awake_of h.toAwake
      ((evaluate_acknowledges (s := Ops.begin s) h.m5 hf ha hr).trans (if_neg (Bool.eq_false_iff.1 hk)))
  case unitEmpties =>
    rw [← allSpacer_begin] at hs
    exact run_awake_of h.toAwake ((evaluate_empties (s := Ops.begin s) h.m5 hf ha hr).trans (if_pos hs))
  case unitFull =>
    rw [← allSpacer_begin] at hs
    exact run_awake_of h.toAwake
      ((evaluate_empties (s := Ops.begin s) h.m5 hf ha hr).trans (if_neg (Bool.eq_false_iff.1 hs)))
  case unitLowers =>
    rw [← free_begin] at hfr
    exact run_awake_of h.toAwake ((evaluate_lowers (s := Ops.begin s) h.m5 hf ha hr).trans (if_pos hfr))
  case unitAcked =>
    rw [← free_begin] at hfr
    exact run_awake_of h.toAwake
      ((evaluate_lowers (s := Ops.begin s) h.m5 hf ha hr).trans (if_neg (Bool.eq_false_iff.1 hfr)))
  case illegal => exact run_awake_of h (enterIllegal_new (s := Ops.begin s) r hn)
  case counted => exact run_awake_of h (enterIllegal_seen (s := Ops.begin s) r hi)
  case noCapture =>
    exact run_awake_of h ((captureStage_of_not_gate hg _).trans (capture_idle (s := Ops.begin s) (.inl hm)))
  case noOffer => exact run_awake_of h (offerStage_idle (s := Ops.begin s) (.inl hm))
  case noAcknowledge =>
    exact run_awake_of h (congrArg (afterTaken c) (acknowledge_idle (s := Ops.begin s) (.inl hm)))
  case noLower => exact run_awake_of h (lower_idle (s := Ops.begin s) hk (.inl hm))
  case noEvaluate => exact run_awake_of h (evaluate_idle (s := Ops.begin s) (.inl hm))

end Sys2Proof.Laws
end

section
/-!
SUPPORT. The objects of the collars: which row a sub is, which chapter takes a write of it, and what that makes of the state (R114
to R121, R302, R527).
-/

namespace Sys2Proof.Laws

open Sys2Proof Sys2Proof.Machine Sys2Proof.Safety

/-! ### Region reset (R77) -/

section
variable {s : State} {v : Nat}

theorem writeReset_number (h : 511 < v) : Regions.writeReset v s = .inl 4 := if_pos h

theorem writeReset_mode (h : v ≤ 511) (hm : s.modes.cur ≠ .m5) : Regions.writeReset v s = .inl 3 := by
  simp [Regions.writeReset, Nat.not_lt.2 h, hm]

theorem writeReset_m5 (h : v ≤ 511) (hm : s.modes.cur = .m5) : Regions.writeReset v s =
    if s.modes.trans ≠ none ∨ Loader.partialOf s = some v then .inl 5 else .inr (Regions.reset v s) := by
  simp [Regions.writeReset, Nat.not_lt.2 h, hm, Option.isSome_iff_ne_none]

theorem chapterWrite_reset (h : v < 2 ^ 16) (t : Transport) (s : State) :
    Dict.chapterWrite t 0x2400 1 (le 2 v) s = some (Regions.writeReset v s) := by
  show some (Regions.writeReset (Ops.le (le 2 v)) s) = _
  rw [le_bytes_lt h]

end

/-! ### The rows of a collar -/

section
variable (r : Fin 512)

theorem find_collar : Objects.find (0x2600 + r) = some ⟨6, .host, [Objects.r 1 1 .bool .rw, Objects.r 2 2 .u8 .rw,
    Objects.r 3 3 .u8 .ro 3, Objects.r 4 4 .u8 .ro, Objects.r 5 5 .u32 .ro, Objects.r 6 6 .bool .ro]⟩ := by
  have low : ¬ 0x2600 + r.val < 0x2000 := by omega
  have high : 0x2600 + r.val < 0x3000 := by omega
  have resets : ¬ 0x2600 + r.val = 0x2400 := by omega
  have watch : ¬ 0x2600 + r.val = 0x2500 := by omega
  have collars : 0x2600 ≤ 0x2600 + r.val ∧ 0x2600 + r.val < 0x2800 := by omega
  simp only [Objects.find, if_neg low, if_pos high, Objects.array, if_neg resets, if_neg watch, if_pos collars]
  rfl

theorem size_collar {k : Nat} (hk : k = 1 ∨ k = 2) : Operands.size (0x2600 + r) k = 1 := by
  simp only [Operands.size, Objects.row, find_collar]
  rcases hk with rfl | rfl <;> rfl

theorem chapterWrite_collar (t : Transport) (k : Nat) (d : List Byte) (s : State) :
    Dict.chapterWrite t (0x2600 + r) k d s = if k = 1 then
        some (if Ops.le d = 1 then .inr (Regions.isolate r s) else Regions.opening r s)
      else if k = 2 then some (Regions.writePolicy r (Ops.le d) s) else none := by
  have modes : ¬ 0x2600 + r.val < 0x1010 := by omega
  have transports : ¬ (0x1100 ≤ 0x2600 + r.val ∧ 0x2600 + r.val < 0x1200) := by omega
  have supplies : ¬ 0x2600 + r.val < 0x2000 := by omega
  have regions : 0x2400 ≤ 0x2600 + r.val ∧ 0x2600 + r.val < 0x2800 := by omega
  have resets : ¬ 0x2600 + r.val = 0x2400 := by omega
  have watch : ¬ 0x2600 + r.val = 0x2500 := by omega
  have collars : 0x2600 ≤ 0x2600 + r.val ∧ 0x2600 + r.val < 0x2800 := by omega
  simp only [Dict.chapterWrite, if_neg modes, if_neg transports, if_neg supplies, if_pos regions, Regions.writeSub,
    if_neg resets, if_neg watch, if_pos collars, Nat.add_sub_cancel_left]

end

/-- A write of a sub of a collar, by what its chapter makes of it. -/
theorem run_collar {s x : State} {t : Transport} {r : Fin 512} {k v : Nat} (h : Writes s t (0x2600 + r) k (le 1 v))
    (hk : k = 1 ∨ k = 2) (he : Dict.chapterWrite t (0x2600 + r) k (le 1 v) (counted s) = some (.inr x)) :
    Run.run (Operands.write t (0x2600 + r) k v) s = .next (wrote s t (0x2600 + r) k (le 1 v) x) := by
  rw [operands_write (size_collar r hk)]
  exact run_write h (by omega) (by omega) he

theorem run_collar_refused {s : State} {t : Transport} {r : Fin 512} {k v e : Nat} (h : Writes s t (0x2600 + r) k (le 1 v))
    (hk : k = 1 ∨ k = 2) (he : Dict.chapterWrite t (0x2600 + r) k (le 1 v) (counted s) = some (.inl e)) :
    Run.run (Operands.write t (0x2600 + r) k v) s =
      .next (after s (answered s t 2 (0x2600 + r) k (le 1 v) e [] (counted s))) := by
  rw [operands_write (size_collar r hk)]
  exact run_refused h (by omega) (by omega) he

/-! ### Isolation (R116, R119, R527) -/

section
variable {s : State} {r : Nat}

@[simp] theorem collar_setCollar_same (r : Nat) (k : Collar) (s : State) :
    Fabric.collar (Fabric.setCollar r k s) r = k := Table.get_put_same _ _ _

theorem collar_of_collars {s t : State} (h : t.fab.collars = s.fab.collars) (r : Nat) :
    Fabric.collar t r = Fabric.collar s r := by rw [Fabric.collar, h, Fabric.collar]

/-- A collar that is isolated takes a cause of higher rank. -/
theorem isolate_isolated (h : (Fabric.collar s r).isolate = true) (c : Nat) : Fabric.isolate r c s =
    Fabric.setCollar r { Fabric.collar s r with
      cause := if Fabric.rank (Fabric.collar s r).cause < Fabric.rank c then c else (Fabric.collar s r).cause } s :=
  if_pos h

theorem collar_isolate (h : (Fabric.collar s r).isolate = false) (c : Nat) : Fabric.collar (Fabric.isolate r c s) r =
    { Fabric.collar s r with
        isolate := true, cause := c, isolating := true
        lines := if Fabric.draining s then some (Fabric.acts (Fabric.collar s r)) else (Fabric.collar s r).lines } := by
  refine (collar_of_collars (s := Fabric.setCollar r _ s) ?_ r).trans (collar_setCollar_same r _ s)
  cases hd : Fabric.draining s with
  | true =>
    simp only [Fabric.isolate, h, hd, Bool.false_eq_true, if_true, if_false]
    rfl
  | false =>
    simp only [Fabric.isolate, h, hd, Bool.false_eq_true, if_false]
    rfl

/-- A handshake of the region's border goes on (R116 step 3). -/
def Crossing (s : State) (r : Nat) : Prop :=
  (∃ e ∈ s.fab.grace, e.1 = r) ∨ (∃ o ∈ s.fab.orphans, o.region = r) ∨ (Fabric.collar s r).lines ≠ none

theorem crossing_iff : Crossing s r ↔ (s.fab.grace.any (fun e => e.1 == r) || s.fab.orphans.any (fun o => o.region == r) ||
    (Fabric.collar s r).lines.isSome) = true := by
  simp only [Crossing, Bool.or_eq_true, List.any_eq_true, beq_iff_eq, Option.isSome_iff_ne_none, or_assoc]

theorem isolated_waits (h : Crossing (Fabric.sweep s) r) : Fabric.isolated r s = Fabric.sweep s := if_pos (crossing_iff.1 h)

theorem isolated_ends (h : ¬ Crossing (Fabric.sweep s) r) : Fabric.isolated r s =
    Fabric.setCollar r { Fabric.collar s r with isolating := false } (Fabric.sweep s) := if_neg (h ∘ crossing_iff.2)

end

/-! ### Opening and the policy (R117 to R119, R121) -/

section
variable {s : State} {r : Nat}

/-- The collar's write of FALSE is refused (R117, R121, R302, R527). -/
def Barred (s : State) (r : Nat) : Prop :=
  Loader.partialOf s = some r ∨ (Loader.facet s r).state = .retired ∨ (Loader.facet s r).state = .empty ∨
    (Fabric.collar s r).isolate = true ∧ ((Fabric.collar s r).cause = 3 ∨ (Fabric.collar s r).cause = 5)

theorem opening_barred (h : Barred s r) : Regions.opening r s = .inl 4 := by
  refine if_pos ?_
  rcases h with hp | hr | he | hc
  · exact .inr (.inr (.inr hp))
  · exact .inl hr
  · exact .inr (.inl he)
  · exact .inr (.inr (.inl hc))

theorem opening_allowed (h : ¬ Barred s r) :
    Regions.opening r s = .inr (if (Fabric.collar s r).isolate then Fabric.openCollar r s else s) := by
  refine if_neg fun hb => h ?_
  rcases hb with hr | he | hc | hp
  · exact .inr (.inl hr)
  · exact .inr (.inr (.inl he))
  · exact .inr (.inr (.inr hc))
  · exact .inl hp

/-- The count of requests is not a policy. -/
theorem policy_counted (s : State) (r : Fin 512) : Fabric.policy (counted s) r = Fabric.policy s r := by
  have stored : Ops.reg (counted s) (0x2600 + r) 2 = Ops.reg s (0x2600 + r) 2 :=
    reg_setReg_other (i := 0x1100) (k := 3) (by omega) _ (Ops.begin s)
  show (Fabric.collar s r).linePolicy.getD _ = _
  rw [stored]
  rfl

theorem writePolicy_refused {v : Nat} (h : 1 < v) : Regions.writePolicy r v s = .inl 4 := if_pos h

theorem writePolicy_taken {v : Nat} (h : v ≤ 1) : Regions.writePolicy r v s = .inr (let x := Ops.setReg (0x2600 + r) 2 v s
    if Fabric.draining s then
      Fabric.setCollar r { Fabric.collar s r with linePolicy := some (Fabric.policy s r) } x
    else x) := if_neg (Nat.not_lt.2 h)

end

/-! ### The drain policy (R114, R118, R119, R303) -/

section
variable {s : State} {r : Fin 512} {c : Chan}

theorem ofNat_region (r : Fin 512) : Fin.ofNat 512 r.val = r := Fin.ext (Nat.mod_eq_of_lt r.isLt)

/-- The collar of region r acknowledges the token on a channel and discards it. -/
def Drains (s : State) (r : Fin 512) (c : Chan) : Prop :=
  s.modes.cur = .m5 ∧ Fabric.acts (Fabric.collar s r) = true ∧ Fabric.policy s r = 1 ∧
    ((Frames.homeOf c).isSome = true ∨ Fabric.draining s = false) ∧
    (∃ p ∈ Fabric.legs s c, p.1 = .collar r c ∨ Fabric.stopAt s c p.2 = some (r.val, false)) ∧
    Fabric.ack s (.collar r c) = false ∧ ∃ v, Fabric.rails s c = .valid v

/-- The guard of `Regions.drain`, but for the code on the channel. -/
theorem drain_guard : (!Fabric.awake s || !Fabric.acts (Fabric.collar s r) || Fabric.policy s r != 1 ||
      ((Frames.homeOf c).isNone && Fabric.draining s) ||
      !((Fabric.legs s c).any fun p => p.1 == .collar (Fin.ofNat 512 r) c || Fabric.stopAt s c p.2 == some (r.val, false)) ||
      Fabric.ack s (.collar (Fin.ofNat 512 r) c)) = false ↔
    s.modes.cur = .m5 ∧ Fabric.acts (Fabric.collar s r) = true ∧ Fabric.policy s r = 1 ∧
      ((Frames.homeOf c).isSome = true ∨ Fabric.draining s = false) ∧
      (∃ p ∈ Fabric.legs s c, p.1 = .collar r c ∨ Fabric.stopAt s c p.2 = some (r.val, false)) ∧
      Fabric.ack s (.collar r c) = false := by
  simp only [ofNat_region, Bool.or_eq_false_iff, Bool.not_eq_false', awake_iff, bne_eq_false_iff_eq, Bool.and_eq_false_iff,
    Option.isNone_eq_false_iff, List.any_eq_true, Bool.or_eq_true, beq_iff_eq, and_assoc]

theorem drain_due (h : Drains s r c) : Regions.drain r c s =
    Ops.bump (0x2600 + r) 5 (Fabric.setAck (.collar r c) true s) := by
  obtain ⟨hm, ha, hp, hv, hl, hk, v, hr⟩ := h
  refine (if_neg (Bool.eq_false_iff.1 (drain_guard.2 ⟨hm, ha, hp, hv, hl, hk⟩))).trans ?_
  simp only [hr, ofNat_region]

theorem drain_idle (h : ¬ Drains s r c) : Regions.drain r c s = s := by
  unfold Regions.drain
  dsimp only
  split
  · rfl
  · next hg =>
    obtain ⟨hm, ha, hp, hv, hl, hk⟩ := drain_guard.1 (Bool.eq_false_iff.2 hg)
    split
    · next v hr => exact absurd ⟨hm, ha, hp, hv, hl, hk, v, hr⟩ h
    · rfl

end

/-! ### The commands -/

/-- Settles O13: a write comes to what the owning chapter makes of it, by its cases; the other commands are their effect on the
state with what the last one sent out gone. -/
theorem collarCommands : Obligations.CollarCommands := by
  unfold Obligations.CollarCommands
  refine fun s t r => ⟨fun v h => ⟨fun hv => ?number, fun hv hm => ?mode, fun hv hm hb => ?busy, fun hv hm hb => ?reset⟩,
    fun h => ?isolates, fun hk => ?ranks, fun hk => ?isolating,
    fun h => ⟨fun hg ho hl => ?ends, fun hc => ?goesOn⟩,
    fun h => ⟨fun hb => ?barred, fun hb hk => ?isOpen, fun hb hk => ?opens⟩,
    fun v h => ⟨fun hv => ?policy, fun hv => ?noPolicy⟩, fun c h => ⟨fun hd => ?drains, fun hd => ?keeps⟩⟩
  case number =>
    exact run_refused h (by decide) (by decide) ((chapterWrite_reset v.isLt t _).trans (congrArg some (writeReset_number hv)))
  case mode =>
    exact run_refused h (by decide) (by decide)
      ((chapterWrite_reset v.isLt t _).trans (congrArg some (writeReset_mode (s := counted s) hv hm)))
  case busy =>
    exact run_refused h (by decide) (by decide) ((chapterWrite_reset v.isLt t _).trans
      (congrArg some ((writeReset_m5 (s := counted s) hv hm).trans (if_pos hb))))
  case reset =>
    exact run_write h (by decide) (by decide) ((chapterWrite_reset v.isLt t _).trans
      (congrArg some ((writeReset_m5 (s := counted s) hv hm).trans (if_neg hb))))
  case isolates => exact run_collar h (.inl rfl) (chapterWrite_collar r t 1 _ _)
  case ranks => exact isolate_isolated (s := counted s) hk 1
  case isolating => exact collar_isolate (s := counted s) hk 1
  case ends =>
    refine run_awake_of h (isolated_ends (s := Ops.begin s) ?_)
    rintro (⟨e, he, hr⟩ | ⟨o, hm, hr⟩ | hn)
    · exact hg e he hr
    · exact ho o hm hr
    · exact hn hl
  case goesOn => exact run_awake_of h (isolated_waits (s := Ops.begin s) hc)
  case barred =>
    exact run_collar_refused h (.inl rfl)
      ((chapterWrite_collar r t 1 _ _).trans (congrArg some (opening_barred (s := counted s) hb)))
  case isOpen =>
    refine run_collar h (.inl rfl) ((chapterWrite_collar r t 1 _ _).trans (congrArg some ?_))
    exact (opening_allowed (s := counted s) hb).trans (congrArg Sum.inr (if_neg (Bool.eq_false_iff.1 hk)))
  case opens =>
    refine run_collar h (.inl rfl) ((chapterWrite_collar r t 1 _ _).trans (congrArg some ?_))
    exact (opening_allowed (s := counted s) hb).trans (congrArg Sum.inr (if_pos hk))
  case policy =>
    have value : Ops.le (le 1 v.toNat) = v.toNat := le_bytes_word (n := 1) rfl v
    refine run_collar h (.inr rfl) ((chapterWrite_collar r t 2 _ _).trans (congrArg some ?_))
    rw [value, ← policy_counted]
    exact writePolicy_taken hv
  case noPolicy =>
    have value : Ops.le (le 1 v.toNat) = v.toNat := le_bytes_word (n := 1) rfl v
    refine run_collar_refused h (.inr rfl) ((chapterWrite_collar r t 2 _ _).trans (congrArg some ?_))
    rw [value]
    exact writePolicy_refused hv
  case drains =>
    rw [← stopAt_begin] at hd
    exact run_awake_of h (drain_due (s := Ops.begin s) hd)
  case keeps =>
    rw [← stopAt_begin] at hd
    exact run_awake_of h (drain_idle (s := Ops.begin s) hd)

end Sys2Proof.Laws
end

section
/-!
SUPPORT. The lens of a region: what a sample counts and when a no-progress window ends (R123, R125), and the object of the
no-progress watch (R127).
-/

namespace Sys2Proof.Laws

open Sys2Proof Sys2Proof.Machine Sys2Proof.Safety

/-! ### Samples (R123) -/

@[simp] theorem waitingIn_begin (s : State) : Fabric.waitingIn (Ops.begin s) = Fabric.waitingIn s := by
  funext r
  simp only [Fabric.waitingIn, passed_begin, stopAt_begin]
  rfl

@[simp] theorem probed_begin (s : State) : Fabric.probed (Ops.begin s) = Fabric.probed s := by
  funext p
  simp only [Fabric.probed, stopAt_begin]
  rfl

section
variable {s : State} {r : Nat}

/-- The probes of a region that show a valid channel. -/
def validProbes (s : State) (r : Nat) : List Nat :=
  (Frames.probes s.fab.frames r).filterMap fun p => if Fabric.probed s p.2 then some p.1 else none

/-- The lens of a region after a sample of the array as it stands. -/
def sampledLens (s : State) (r : Nat) : Lens :=
  let x := Fabric.lens s r
  { x with
    stallSamples := if (validProbes s r).any fun i => x.stuck.contains i then x.stallSamples + 1 else x.stallSamples
    waitSamples := if Fabric.waitingIn s r then x.waitSamples + 1 else x.waitSamples
    stuck := validProbes s r
    sampled := true
    still := x.still && Fabric.waitingIn s r }

@[simp] theorem validProbes_begin (s : State) : validProbes (Ops.begin s) = validProbes s := by
  funext r
  simp only [validProbes, probed_begin]
  rfl

@[simp] theorem sampledLens_begin (s : State) : sampledLens (Ops.begin s) = sampledLens s := by
  funext r
  simp only [sampledLens, validProbes_begin, waitingIn_begin]
  rfl

theorem sample_m5 (hm : s.modes.cur = .m5) : Fabric.sample r s = Fabric.setLens r (sampledLens s r) s :=
  if_neg (by simp [awake_iff.2 hm])

theorem sample_asleep (hm : s.modes.cur ≠ .m5) : Fabric.sample r s = s := if_pos (by simp [asleep_iff.2 hm])

end

/-! ### The end of a window (R125) -/

section
variable {s : State} {r : Nat}

/-- The launch count at which the no-progress window of a region ends. -/
def windowLimit (s : State) (r : Nat) : Nat := (Fabric.lens s r).windowStart + 16000000 * Ops.reg s 0x2500 1

theorem windowEnd_idle (h : s.modes.cur ≠ .m5 ∨ (Ops.launch s).toNat < windowLimit s r) : Fabric.windowEnd r s = s := by
  refine if_pos ?_
  rcases h with hm | hd
  · simp [asleep_iff.2 hm]
  · simpa [windowLimit] using Or.inr hd

/-- In M5 the collars are overridden from the start of an entry to M6 on (R119). -/
theorem overridden_m5 (hm : s.modes.cur = .m5) : Fabric.overridden s = Fabric.draining s := by
  simp [Fabric.overridden, hm]

theorem windowEnd_due (hm : s.modes.cur = .m5) (hd : windowLimit s r ≤ (Ops.launch s).toNat) : Fabric.windowEnd r s =
    let x := Fabric.lens s r
    let y := Fabric.restartWindow r s
    if x.sampled && x.still && !(Fabric.collar s r).isolate && !Fabric.draining s && !x.noProgress then
      Ops.raise 356 (Fabric.setLens r { Fabric.lens y r with noProgress := true } y) else y := by
  rw [← overridden_m5 hm]
  exact if_neg (by simpa [awake_iff.2 hm, windowLimit] using hd)

end

/-! ### The length of the window (R127) -/

theorem exec_window (t : Transport) (v : W32) (s : State) :
    exec (.noProgressWindowWrite t v) s = Run.run (Dict.serve t 2 0x2500 1 (le 4 v.toNat)) s :=
  congrArg (Run.run · s) (operands_write (by decide) t v.toNat)

theorem chapterWrite_window (t : Transport) (v : W32) (s : State) : Dict.chapterWrite t 0x2500 1 (le 4 v.toNat) s =
    some (if v.toNat < 1 ∨ 60000 < v.toNat then .inl 4
      else .inr ((List.range 512).foldl (fun s r => Fabric.restartWindow r s) (Ops.setReg 0x2500 1 v.toNat s))) := by
  have value : Ops.le (le 4 v.toNat) = v.toNat := le_bytes_word (n := 4) rfl v
  show Regions.writeSub 0x2500 1 (Ops.le (le 4 v.toNat)) s = _
  rw [value]
  rfl

/-- Settles O14: a sample and the end of a window are their effect where they are due, and nothing elsewhere; a write of the
window's length is refused or taken by its value. -/
theorem lensAndWatch : Obligations.LensAndWatch := by
  unfold Obligations.LensAndWatch
  refine fun s r => ⟨fun h => ?sampled, fun h hd => ?ends, fun h hd => ?runsOn, fun h hm => ⟨?noSample, ?noEnd⟩,
    fun t v h hl hu => ?length, fun t v h hv => ?noLength⟩
  case sampled =>
    refine run_awake_of h.toAwake ((sample_m5 (s := Ops.begin s) h.m5).trans ?_)
    rw [sampledLens_begin]
    rfl
  case ends => exact run_awake_of h.toAwake (windowEnd_due (s := Ops.begin s) h.m5 hd)
  case runsOn => exact run_awake_of h.toAwake (windowEnd_idle (s := Ops.begin s) (.inr hd))
  case noSample => exact run_awake_of h (sample_asleep (s := Ops.begin s) hm)
  case noEnd => exact run_awake_of h (windowEnd_idle (s := Ops.begin s) (.inl hm))
  case length =>
    have inside : ¬ (v.toNat < 1 ∨ 60000 < v.toNat) := by omega
    rw [exec_window]
    exact run_write h (by decide) (by decide) ((chapterWrite_window t v _).trans (congrArg some (if_neg inside)))
  case noLength =>
    have outside : v.toNat < 1 ∨ 60000 < v.toNat := hv.imp_left (by rintro rfl; decide)
    rw [exec_window]
    exact run_refused h (by decide) (by decide) ((chapterWrite_window t v _).trans (congrArg some (if_pos outside)))

end Sys2Proof.Laws
end

section
/-!
SUPPORT. Lydan time: what each frame of a command, and one period of the timebase, leaves of it.
-/

namespace Sys2Proof.Laws

open Sys2Proof Sys2Proof.Machine Sys2Proof.Safety

/-! ### The frames of the commands (R129, R405) -/

/-- `o` is what one of the three frames of a command makes of `s`, whatever the command's effect is. -/
inductive Framed (s : State) : Out → Prop
  /-- Lydan time is left alone. -/
  | run (f : State → State) : Framed s (Run.run f s)
  /-- Lydan time can step. -/
  | time (f : State → State) : Framed s (Run.runTime f s)
  /-- Supplies and RESET_N, which act in M0 too. -/
  | supply (f : State → State) : Framed s (Run.runSupply f s)

theorem exec_framed (c : Instr) (s : State) : Framed s (exec c s) := by
  cases c with
  | powerUp | resetNLow | resetNHigh | vbatLoss => exact .supply _
  | setTime | ppsInEdge | timeMessage | write | supplyRemoval => exact .time _
  | _ => exact .run _

theorem timeLegal_legalTime (t : TimeState) : TimeLegal (Run.legalTime t) :=
  ⟨Nat.mod_lt _ (by decide), Nat.mod_lt _ (by decide), Nat.mod_lt _ (by decide)⟩

/-- Each frame keeps the time it found, or ends with a legal one. -/
theorem Framed.timeLegal {s t : State} (h : Framed s (.next t)) (hs : TimeLegal s.time) : TimeLegal t.time := by
  generalize ho : Host.Outcome.next t = o at h
  cases h with
  | run f =>
    unfold Run.run at ho
    split at ho <;> cases ho
    · exact hs
    · exact hs
  | time f =>
    unfold Run.runTime at ho
    split at ho <;> cases ho
    · exact hs
    · exact timeLegal_legalTime _
  | supply f =>
    unfold Run.runSupply at ho
    split at ho <;> cases ho
    · exact timeLegal_legalTime _
    · exact timeLegal_legalTime _

theorem idle_timeLegal {s t : State} (h : Run.idle s = .next t) (hs : TimeLegal s.time) : TimeLegal t.time := by
  unfold Run.idle at h
  split at h <;> cases h
  · exact hs
  · exact timeLegal_legalTime _

/-- The fields of a TIME80 are the time's own (R131). -/
theorem time80Nat_fields {t : TimeState} (h : TimeLegal t) :
    Ops.time80Nat t.sec t.ns < 2 ^ 80 ∧ Ops.time80Nat t.sec t.ns % 2 ^ 32 = t.ns ∧ Ops.time80Nat t.sec t.ns / 2 ^ 32 = t.sec := by
  obtain ⟨hsec, hns, -⟩ := h
  unfold Ops.time80Nat
  omega

/-- Settles O3: a command ends in one of three frames, each of which keeps the time it found or cuts it to its fields; a step on an
empty queue does so too. -/
theorem timeStaysLegal : Obligations.TimeStaysLegal := by
  unfold Obligations.TimeStaysLegal
  refine ⟨fun s t hs h => ?_, rfl, rfl, fun t ht => ?_⟩
  · unfold step at h
    split at h
    · exact idle_timeLegal h hs
    · next c rest _ =>
      have framed := exec_framed c { s with pending := rest }
      rw [h] at framed
      exact framed.timeLegal hs
  · obtain ⟨range, ns, sec⟩ := time80Nat_fields ht
    have := ht.2.1
    exact ⟨range, ns, sec, by omega⟩

/-! ### A period of the timebase (R133, R135) -/

/-- Adding to a time adds to its number, modulo 2^48 s. -/
theorem fine_plus (d : Nat) (t : TimeState) : fine (Time.plus d t) = (fine t + d) % (2 ^ 48 * 1000000000 * 2 ^ 40) := by
  simp only [fine, Time.plus, Time.second]
  omega

theorem timeLegal_plus (d : Nat) (t : TimeState) : TimeLegal (Time.plus d t) :=
  ⟨Nat.mod_lt _ (by decide), Nat.mod_lt _ (by decide), Nat.mod_lt _ (by decide)⟩

/-- Settles O15: a period is `Time.plus` of its increment, and the remainder loses the slew step. -/
theorem timebasePeriod : Obligations.TimebasePeriod := by
  unfold Obligations.TimebasePeriod
  exact fun s _ => ⟨fine_plus _ _, timeLegal_plus _ _, rfl, rfl⟩

end Sys2Proof.Laws
end

section
/-!
SUPPORT. The writes to Lydan time and its servo, and the pulse per second.
-/

namespace Sys2Proof.Laws

open Sys2Proof Sys2Proof.Machine Sys2Proof.Safety

/-! ### Requests, by what their chapter makes of them -/

section
variable {s x : State} {t : Transport} {i k n v e : Nat}

/-- A write of a number, which its chapter takes. -/
theorem operands_taken (hn : Operands.size i k = n) (h : Writes s t i k (le n v)) (hi : i < 0xF000) (hc : i ≠ 0xC040)
    (he : Dict.chapterWrite t i k (le n v) (counted s) = some (.inr x)) :
    Run.run (Operands.write t i k v) s = .next (wrote s t i k (le n v) x) := by
  rw [operands_write hn]
  exact run_write h hi hc he

theorem operands_refused (hn : Operands.size i k = n) (h : Writes s t i k (le n v)) (hi : i < 0xF000) (hc : i ≠ 0xC040)
    (he : Dict.chapterWrite t i k (le n v) (counted s) = some (.inl e)) :
    Run.run (Operands.write t i k v) s = .next (after s (answered s t 2 i k (le n v) e [] (counted s))) := by
  rw [operands_write hn]
  exact run_refused h hi hc he

/-- A write of a number that its chapter only stores, all its bits. -/
theorem operands_stored (hn : Operands.size i k = n) (h : Writes s t i k (le n v)) (hi : i < 0xF000) (hc : i ≠ 0xC040)
    {r : Row} (hr : Dict.row (counted s) i k = some r) (hv : Ops.le (le n v) &&& r.bits = v)
    (he : Dict.chapterWrite t i k (le n v) (counted s) = none) :
    Run.run (Operands.write t i k v) s = .next (wrote s t i k (le n v) (Ops.setReg i k v (counted s))) := by
  rw [operands_write hn, run_store h hi hc hr he, hv]

end

theorem runTime_refused {s : State} {t : Transport} {i k e : Nat} {d : List Byte} (h : Writes s t i k d) (hi : i < 0xF000)
    (hc : i ≠ 0xC040) (he : Dict.chapterWrite t i k d (counted s) = some (.inl e)) :
    Run.runTime (Dict.serve t 2 i k d) s = .next (afterTime s (answered s t 2 i k d e [] (counted s))) := by
  rw [runTime_awake h.toAwake, serve_answers h.served]
  simp [Dict.execute, write_refused h.accepted hi hc he]

theorem runTime_awake_of {s x : State} (h : Awake s) {f : State → State} (e : f (Ops.begin s) = x) :
    Run.runTime f s = .next (afterTime s x) := e ▸ runTime_awake h f

/-- Counting a request writes the count alone. -/
theorem reg_counted {i k : Nat} (h : 256 * i + k ≠ 256 * 0x1100 + 3) (s : State) :
    Ops.reg (counted s) i k = Ops.reg s i k := reg_setReg_other h _ _

/-! ### The bytes of a TIME80 (R131) -/

theorem bytes_add (m n v : Nat) : Ops.bytes (m + n) v = Ops.bytes m v ++ Ops.bytes n (v / 256 ^ m) := by
  induction m generalizing v with
  | zero => simp [Ops.bytes, Crypto.bytesLE]
  | succ m ih =>
    rw [Nat.succ_add]
    simp only [Ops.bytes, Crypto.bytesLE, List.cons_append] at ih ⊢
    rw [ih, Nat.div_div_eq_div_mul, Nat.pow_succ']

theorem ofBytes_time80 {v : Nat} (h : v < 2 ^ 80) : Time.ofBytes (le 10 v) =
    if v % 2 ^ 32 < 1000000000 then some { sec := v / 2 ^ 32, ns := v % 2 ^ 32, sub := 0 } else none := by
  have ns : Ops.le ((le 10 v).take 4) = v % 256 ^ 4 := by
    rw [show le 10 v = _ from bytes_add 4 6 v, List.take_left' (length_bytes 4 v), le_bytes]
  have sec : Ops.le (((le 10 v).drop 4).take 6) = v / 256 ^ 4 := by
    rw [show le 10 v = _ from bytes_add 4 6 v, List.drop_left' (length_bytes 4 v),
      List.take_of_length_le (length_bytes 6 _).le, le_bytes_lt (by omega)]
  simp only [Time.ofBytes, ns, sec, Time.second]
  rfl

/-! ### Writes (R134 to R136) -/

section
variable (t : Transport) (s : State) {d : List Byte} {v : Nat} (hv : Ops.le d = v)
include hv

theorem chapterWrite_setTime (hd : d = le 10 v) (hr : v < 2 ^ 80) : Dict.chapterWrite t 0x3000 3 d s =
    some (if v % 2 ^ 32 < 1000000000 then .inr (Ops.setReg 0x3000 3 v
        (Time.step { sec := v / 2 ^ 32, ns := v % 2 ^ 32, sub := 0 } (servo (fun m => { m with remain := 0 }) s)))
      else .inl 4) := by
  have time := ofBytes_time80 hr
  rw [← hd] at time
  show some (match Time.ofBytes d with
    | none => (.inl 4 : Nat ⊕ State)
    | some x => .inr (Ops.setReg 0x3000 3 (Ops.le d) (Time.step x (servo (fun m => { m with remain := 0 }) s)))) = _
  rw [time, hv]
  by_cases hn : v % 2 ^ 32 < 1000000000
  · simp only [if_pos hn]
  · simp only [if_neg hn]

theorem chapterWrite_phase : Dict.chapterWrite t 0x3000 4 d s =
    if Ops.reg s 0x3000 8 ≠ 0 then some (.inl 5)
    else some (if s.servo.remain + Ops.signed 32 v * 2 ^ 36 < -(2 ^ 31 * 2 ^ 36) ∨
        2 ^ 31 * 2 ^ 36 < s.servo.remain + Ops.signed 32 v * 2 ^ 36 then .inl 4
      else .inr (servo (fun m => { m with remain := s.servo.remain + Ops.signed 32 v * 2 ^ 36 }) s)) := by
  subst hv
  simp only [← bne_iff_ne]
  rfl

omit hv in
theorem chapterWrite_rate (d : List Byte) : Dict.chapterWrite t 0x3000 7 d s =
    if Ops.reg s 0x3000 8 ≠ 0 then some (.inl 5) else none := by
  simp only [← bne_iff_ne]
  rfl

theorem chapterWrite_source : Dict.chapterWrite t 0x3000 8 d s =
    if 2 < v then some (.inl 4)
    else some (.inr (Time.followerLane (Ops.setReg 0x3000 8 v (if v = Ops.reg s 0x3000 8 then s
      else servo (fun m => { m with
        state := if v = 0 then 0 else 1, first := true, good := 0, rates := [], exchange := [] }) s)))) := by
  subst hv
  rfl

end

/-- A read of the two-step queue takes its oldest entry (R141). -/
theorem read_twoStep {s : State} {t : Transport} {x : Row} (h : Reads s t 0x3002 2 x) (hb : x.ty = .blob) :
    Dict.read t 0x3002 2 (counted s) =
      (.inr (Time.twoStepBytes s), servo (fun m => { m with twoStep := m.twoStep.drop 1 }) (counted s)) := by
  have reachable : Dict.reachable (counted s) x = true := h.reachable
  simp only [Dict.read, h.row, if_neg h.readable, reachable, hb]
  rfl

/-! ### The pulse per second (R138, R139) -/

section
variable (s : State)

/-- Lydan time at an edge of the pulse per second, in 1/16 ns. -/
def pulseAt : Nat := ((Time.units s.time : Int) - Ops.signed 32 (Ops.reg s 0x3001 5)).toNat

/-- How far the edge lies from the nearest whole second. -/
def pulseError : Int :=
  let k := pulseAt s % (16 * 1000000000)
  if 2 * k ≤ 16 * 1000000000 then (k : Int) else (k : Int) - 16 * 1000000000

/-- The edge is captured and counted. -/
def pulseSeen : State :=
  Ops.setReg 0x3001 1 (Ops.time80Nat (Time.ofUnits (pulseAt s)).sec (Time.ofUnits (pulseAt s)).ns)
    (Ops.setReg 0x3001 2 ((Time.ofUnits (pulseAt s)).sub / 2 ^ 24)
      (Ops.setReg 0x3001 9 (Ops.unsigned 32 (pulseError s)) (Ops.bump 0x3001 3 s)))

/-- Capturing the edge leaves the source selected. -/
theorem reg_pulseSeen : Ops.reg (pulseSeen s) 0x3000 8 = Ops.reg s 0x3000 8 := by
  unfold pulseSeen Ops.bump Ops.add
  iterate 4 rw [reg_setReg_other (by decide)]

theorem pulseSeen_frame : (pulseSeen s).time = s.time ∧ (pulseSeen s).servo = s.servo ∧ (pulseSeen s).modes = s.modes := by
  simp [pulseSeen]

/-- The effect of an edge, in the state that has captured it. -/
theorem ppsEdge_seen : Time.ppsEdge s =
    if Ops.reg (pulseSeen s) 0x3000 8 ≠ 1 then pulseSeen s
    else if (pulseSeen s).servo.first && !Ops.modeIn (pulseSeen s) [.m5, .m6] &&
        (decide (16000 < pulseError s) || decide (pulseError s < -16000)) then
      servo (fun m => { m with first := false, good := 0, state := 1 }) (Time.step
        (Time.ofUnits (Time.units (pulseSeen s).time - pulseAt s % (16 * 1000000000))) (pulseSeen s))
    else Time.servoAct (Time.judge (pulseError s) 320 10 393 (pulseSeen s)) := by
  have captured : ∀ c : Int, (if c < 0 then 0 else c.toNat) = c.toNat := fun c => by
    split
    · omega
    · rfl
  unfold Time.ppsEdge
  simp only [captured, Time.second, Nat.cast_ofNat]
  rfl

theorem ppsEdge_eq : Time.ppsEdge s =
    if Ops.reg s 0x3000 8 ≠ 1 then pulseSeen s
    else if s.servo.first && !Ops.modeIn s [.m5, .m6] && (decide (16000 < pulseError s) || decide (pulseError s < -16000)) then
      servo (fun m => { m with first := false, good := 0, state := 1 })
        (Time.step (Time.ofUnits (Time.units s.time - pulseAt s % (16 * 1000000000))) (pulseSeen s))
    else Time.servoAct (Time.judge (pulseError s) 320 10 393 (pulseSeen s)) := by
  obtain ⟨time, first, modes⟩ := pulseSeen_frame s
  have mode : Ops.modeIn (pulseSeen s) [.m5, .m6] = Ops.modeIn s [.m5, .m6] := by rw [Ops.modeIn, modes, Ops.modeIn]
  rw [ppsEdge_seen, reg_pulseSeen, time, first, mode]

end

section
variable {s : State}

/-- The servo acts on the edge; a step of time is for the first edge, a large error, and the modes M1 to M4 and M7. -/
def Slews (s : State) : Prop :=
  s.servo.first = false ∨ s.modes.cur = .m5 ∨ s.modes.cur = .m6 ∨ (pulseError s ≤ 16000 ∧ -16000 ≤ pulseError s)

theorem ppsEdge_other (h : Ops.reg s 0x3000 8 ≠ 1) : Time.ppsEdge s = pulseSeen s := by rw [ppsEdge_eq, if_pos h]

theorem slews_iff : Slews s ↔ ¬ (s.servo.first && !Ops.modeIn s [.m5, .m6] &&
    (decide (16000 < pulseError s) || decide (pulseError s < -16000))) = true := by
  unfold Slews
  cases s.servo.first <;> cases hm : s.modes.cur <;> simp [hm]

theorem ppsEdge_judged (h : Ops.reg s 0x3000 8 = 1) (hs : Slews s) :
    Time.ppsEdge s = Time.servoAct (Time.judge (pulseError s) 320 10 393 (pulseSeen s)) := by
  rw [ppsEdge_eq, if_neg (not_not.2 h), if_neg (slews_iff.1 hs)]

theorem ppsEdge_steps (h : Ops.reg s 0x3000 8 = 1) (hs : ¬ Slews s) : Time.ppsEdge s =
    servo (fun m => { m with first := false, good := 0, state := 1 })
      (Time.step (Time.ofUnits (Time.units s.time - pulseAt s % (16 * 1000000000))) (pulseSeen s)) := by
  rw [ppsEdge_eq, if_neg (not_not.2 h), if_pos (not_not.1 (mt slews_iff.2 hs))]

/-- Silence of the source selected (R138, R164). -/
theorem holdover_due {source src : Nat} (h : Ops.reg s 0x3000 8 = source) (hs : s.servo.state ≠ 3) :
    Time.holdover source src s = Ops.raise src (servo (fun m => { m with state := 3, good := 0 })
      (if s.servo.rates.isEmpty then s
        else Ops.setReg 0x3000 7 (Ops.unsigned 32 (Int.tdiv s.servo.rates.sum s.servo.rates.length)) s)) :=
  if_neg (by simp [h, hs])

theorem holdover_idle {source src : Nat} (h : Ops.reg s 0x3000 8 ≠ source ∨ s.servo.state = 3) :
    Time.holdover source src s = s := if_pos h

theorem ppsRise_due (h : Ops.reg s 0x3001 6 ≠ 0 ∧ s.servo.ppsHigh = false ∧ s.servo.ppsSecond < Time.ppsCount s) :
    Time.ppsRise s = servo (fun m => { m with
      ppsHigh := true, ppsSecond := Time.ppsCount s
      ppsEnd := Time.ppsCount s * (16 * 1000000000) + Ops.signed 32 (Ops.reg s 0x3001 7) + 16000 * Ops.reg s 0x3001 8 }) s := by
  obtain ⟨on, low, reached⟩ := h
  exact if_neg (by simp [on, low, reached])

theorem ppsRise_idle (h : ¬ (Ops.reg s 0x3001 6 ≠ 0 ∧ s.servo.ppsHigh = false ∧ s.servo.ppsSecond < Time.ppsCount s)) :
    Time.ppsRise s = s := by
  refine if_pos ?_
  by_contra hn
  simp only [not_or, Bool.not_eq_true, not_le] at hn
  exact h hn

theorem ppsFall_due (h : s.servo.ppsHigh = true ∧ (Ops.reg s 0x3001 6 = 0 ∨ s.servo.ppsEnd ≤ Time.units s.time)) :
    Time.ppsFall s = servo (fun m => { m with ppsHigh := false }) s := if_pos (by simpa using h)

theorem ppsFall_idle (h : ¬ (s.servo.ppsHigh = true ∧ (Ops.reg s 0x3001 6 = 0 ∨ s.servo.ppsEnd ≤ Time.units s.time))) :
    Time.ppsFall s = s := if_neg (by simpa using h)

end

/-- Settles O16: each write is what its chapter makes of the counted request, and each event of the pulse per second its effect where
it is due, and nothing elsewhere. -/
theorem timeWrites : Obligations.TimeWrites := by
  unfold Obligations.TimeWrites
  refine ⟨fun s t => ⟨fun v h => ⟨fun hn => ?set, fun hn => ?noTime⟩,
      fun v => ?phases, fun v h hf => ?rate, fun v h hf => ?rateBusy,
      fun v h hv => ?source, fun v h hv => ?noSource, fun x h hb => ?twoStep⟩,
    fun s h => ⟨fun hr => ?other, fun hr hs => ?judged, fun hr hs => ?steps,
      ⟨fun hr hs => ?pulseSilent, fun hs => ?pulseHeard⟩, ⟨fun hr hs => ?lineSilent, fun hs => ?lineHeard⟩, fun hr => ?rises,
      fun hr => ?stays, fun hf => ?falls, fun hf => ?holds⟩⟩
  case set =>
    show Run.runTime (Operands.write t 0x3000 3 v.toNat) s = _
    rw [operands_write (n := 10) (by decide)]
    exact runTime_write h (by decide) (by decide) ((chapterWrite_setTime t _ (le_bytes_word (n := 10) rfl v) rfl v.isLt).trans (congrArg some (if_pos hn)))
  case noTime =>
    show Run.runTime (Operands.write t 0x3000 3 v.toNat) s = _
    rw [operands_write (n := 10) (by decide)]
    exact runTime_refused h (by decide) (by decide)
      ((chapterWrite_setTime t _ (le_bytes_word (n := 10) rfl v) rfl v.isLt).trans (congrArg some (if_neg (Nat.not_lt.2 hn))))
  case phases =>
    intro n h
    have hv : Ops.le (le 4 v.toNat) = v.toNat := le_bytes_word (n := 4) rfl v
    have took := chapterWrite_phase t (counted s) hv
    rw [reg_counted (by decide)] at took
    refine ⟨fun hf lo hi => ?_, fun hf ho => ?_, fun hf => ?_⟩
    · refine operands_taken (by decide) h (by decide) (by decide) ?_
      rw [took, if_neg (not_not.2 hf)]
      exact congrArg some (if_neg (not_or.2 ⟨Int.not_lt.2 lo, Int.not_lt.2 hi⟩))
    · refine operands_refused (by decide) h (by decide) (by decide) ?_
      rw [took, if_neg (not_not.2 hf)]
      exact congrArg some (if_pos ho)
    · exact operands_refused (by decide) h (by decide) (by decide) (took.trans (if_pos hf))
  case rate =>
    refine operands_stored (by decide) h (by decide) (by decide) (r := Objects.r 7 7 .i32 .rw) rfl ?_ ?_
    · rw [le_bytes_word (n := 4) rfl v]
      exact toNat_and_mask (by decide) v
    · rw [chapterWrite_rate, reg_counted (by decide)]
      exact if_neg (not_not.2 hf)
  case rateBusy =>
    refine operands_refused (by decide) h (by decide) (by decide) ?_
    rw [chapterWrite_rate, reg_counted (by decide)]
    exact if_pos hf
  case source =>
    refine operands_taken (by decide) h (by decide) (by decide) ?_
    rw [chapterWrite_source t _ (le_bytes_word (n := 1) rfl v), reg_counted (by decide), if_neg (Nat.not_lt.2 hv)]
    rfl
  case noSource =>
    refine operands_refused (by decide) h (by decide) (by decide) ?_
    rw [chapterWrite_source t _ (le_bytes_word (n := 1) rfl v), if_pos hv]
  case twoStep => exact run_read h (read_twoStep h hb)
  case other => exact runTime_awake_of h (ppsEdge_other (s := Ops.begin s) hr)
  case judged => exact runTime_awake_of h (ppsEdge_judged (s := Ops.begin s) hr hs)
  case steps => exact runTime_awake_of h (ppsEdge_steps (s := Ops.begin s) hr hs)
  case pulseSilent => exact run_awake_of h (holdover_due (s := Ops.begin s) hr hs)
  case pulseHeard => exact run_awake_of h (holdover_idle (s := Ops.begin s) hs)
  case lineSilent => exact run_awake_of h (holdover_due (s := Ops.begin s) hr hs)
  case lineHeard => exact run_awake_of h (holdover_idle (s := Ops.begin s) hs)
  case rises => exact run_awake_of h (ppsRise_due (s := Ops.begin s) hr)
  case stays => exact run_awake_of h (ppsRise_idle (s := Ops.begin s) hr)
  case falls => exact run_awake_of h (ppsFall_due (s := Ops.begin s) hf)
  case holds => exact run_awake_of h (ppsFall_idle (s := Ops.begin s) hf)

end Sys2Proof.Laws
end

section
/-!
SUPPORT. The keepers of the regions, and the time messages.
-/

namespace Sys2Proof.Laws

open Sys2Proof Sys2Proof.Machine Sys2Proof.Safety

/-! ### Keepers (R143 to R145) -/

section
variable {s : State} {r : Nat} {w : W64}

theorem timeWord_locks (h : (Time.keeper s r).locked = false) (hl : (Time.keeper s r).last = some (w - 4096)) :
    Time.timeWord r w s = Time.setKeeper r
      { Time.keeper s r with locked := true, last := none, odd := none, expect := w + 4096, seen := Time.ahead w s } s := by
  simp only [Time.timeWord, h, hl, Bool.not_false, if_true]

theorem timeWord_first (h : (Time.keeper s r).locked = false) (hl : (Time.keeper s r).last ≠ some (w - 4096)) :
    Time.timeWord r w s = Time.setKeeper r { Time.keeper s r with last := some w } s := by
  simp only [Time.timeWord, h, if_neg hl, Bool.not_false, if_true]

theorem timeWord_expected (h : (Time.keeper s r).locked = true) (he : w = (Time.keeper s r).expect) :
    Time.timeWord r w s =
      Time.setKeeper r { Time.keeper s r with expect := (Time.keeper s r).expect + 4096, odd := none } s := by
  simp only [Time.timeWord, h, if_pos he, Bool.not_true, Bool.false_eq_true, if_false]

theorem timeWord_second (h : (Time.keeper s r).locked = true) (he : w ≠ (Time.keeper s r).expect)
    (ho : (Time.keeper s r).odd = some (w - 4096)) : Time.timeWord r w s =
      Time.setKeeper r { Time.keeper s r with expect := w + 4096, odd := none, seen := Time.ahead w s } s := by
  simp only [Time.timeWord, h, if_neg he, if_pos ho, Bool.not_true, Bool.false_eq_true, if_false]

theorem timeWord_odd (h : (Time.keeper s r).locked = true) (he : w ≠ (Time.keeper s r).expect)
    (ho : (Time.keeper s r).odd ≠ some (w - 4096)) : Time.timeWord r w s = Ops.bump 0x3000 0x0B
      (Time.setKeeper r { Time.keeper s r with expect := (Time.keeper s r).expect + 4096, odd := some w } s) := by
  simp only [Time.timeWord, h, if_neg he, if_neg ho, Bool.not_true, Bool.false_eq_true, if_false]

theorem calibrate_mode (h : s.modes.cur = .m2 ∨ s.modes.cur = .m5 ∨ s.modes.cur = .m6) (ok : Bool) (d : Nat) :
    Time.calibrate r ok d s = if ok then Time.setKeeper r { Time.keeper s r with target := d, failed := false } s
      else Ops.raise 397 (Time.setKeeper r { Time.keeper s r with failed := true } s) :=
  if_pos (by rcases h with h | h | h <;> simp [h])

theorem calibrate_otherMode (h2 : s.modes.cur ≠ .m2) (h5 : s.modes.cur ≠ .m5) (h6 : s.modes.cur ≠ .m6) (ok : Bool) (d : Nat) :
    Time.calibrate r ok d s = s := if_neg (by simp [h2, h5, h6])

theorem tick_early (h : Time.units s.time / 64 ≤ s.servo.tick) : Time.tick s = s := if_pos h

theorem tick_due (h : s.servo.tick < Time.units s.time / 64) : Time.tick s =
    { s with
      servo := { s.servo with tick := s.servo.tick + 1 }
      keepers := s.keepers.map fun (e : Nat × Keeper) => (e.1, { e.2 with delay :=
        if e.2.delay < e.2.target then e.2.delay + 1 else if e.2.target < e.2.delay then e.2.delay - 1 else e.2.delay })
      out := s.out ++ [.tick (decide ((s.servo.tick + 1) % 64 = 0))
        ((BitVec.ofNat 64 (((s.servo.tick + 1) / 64 + 1) * 4096) : W64).getLsbD ((s.servo.tick + 1) % 64))] } :=
  if_neg (Nat.not_le.2 h)

end

/-! ### The messages of master and follower (R164) -/

section
variable {s : State} {n k sec ns frac : Nat}

theorem timeSend_idle (h : Ops.reg s 0x3003 2 ≠ 1 ∨ Time.units s.time / 16000000 = s.servo.sentMs) :
    Lanes.timeSend s = s := if_pos h

theorem timeSend_due (h : Ops.reg s 0x3003 2 = 1) (hm : Time.units s.time / 16000000 ≠ s.servo.sentMs) :
    Lanes.timeSend s = (List.range 64).foldl (fun v m =>
      if Ops.bit (Ops.reg v 0x3003 3) m ∧ (Lanes.lane v m).st = .t7 ∧ Lanes.streller v m then
        Lanes.setLane m { Lanes.lane v m with queue := (Lanes.lane v m).queue ++ [.time 0 none] } v
      else v) (servo (fun m => { m with sentMs := Time.units s.time / 16000000 }) s) :=
  if_neg (by simp [h, hm])

/-- The message comes in on a Streller lane that is Up. -/
def Heard (s : State) (n : Nat) : Prop := (Lanes.lane s n).st = .t7 ∧ Lanes.streller s n = true

theorem timeMessage_unheard (h : (Lanes.lane s n).st ≠ .t7 ∨ Lanes.streller s n = false) :
    Lanes.timeMessage n k sec ns frac s = s := if_pos (by simpa using h)

theorem timeMessage_heard (h : Heard s n) : Lanes.timeMessage n k sec ns frac s =
    if k = 1 then
      if Ops.reg s 0x3003 2 = 1 ∧ Ops.bit (Ops.reg s 0x3003 3) n then Lanes.setLane n { Lanes.lane s n with
        queue := (Lanes.lane s n).queue ++ [.time 2 (some (s.time.sec, s.time.ns, Ops.fraction s))] } s
      else s
    else if Ops.reg s 0x3000 8 ≠ 2 ∨ Ops.reg s 0x3003 1 ≠ n then s
    else if k = 0 then
      Lanes.setLane n { Lanes.lane s n with queue := (Lanes.lane s n).queue ++ [.time 1 none] }
        (servo (fun m => { m with
          exchange := [16 * (1000000000 * sec + ns) + frac / 4096, Time.units s.time] }) s)
    else if k = 2 then
      match s.servo.exchange with
      | [t1, t2, t3] => Lanes.follow t1 t2 t3 (16 * (1000000000 * sec + ns) + frac / 4096 : Nat)
          (servo (fun m => { m with exchange := [] }) s)
      | _ => s
    else s := by
  obtain ⟨up, streller⟩ := h
  exact if_neg (by simp [up, streller])

/-- A message that changes nothing on a lane that hears it changes nothing. -/
theorem timeMessage_same (h : Heard s n → Lanes.timeMessage n k sec ns frac s = s) :
    Lanes.timeMessage n k sec ns frac s = s := by
  by_cases hl : Heard s n
  · exact h hl
  · exact timeMessage_unheard ((not_and_or.1 hl).imp_right (Bool.eq_false_iff.2 ·))

theorem timeMessage_noMaster (h : Ops.reg s 0x3003 2 ≠ 1 ∨ Ops.bit (Ops.reg s 0x3003 3) n = false) :
    Lanes.timeMessage n 1 sec ns frac s = s := timeMessage_same fun hl => by
  rw [timeMessage_heard hl, if_pos rfl, if_neg (by simpa [imp_iff_not_or] using h)]

theorem timeMessage_noFollower (h : Ops.reg s 0x3000 8 ≠ 2 ∨ Ops.reg s 0x3003 1 ≠ n) (hk : k ≠ 1) :
    Lanes.timeMessage n k sec ns frac s = s := timeMessage_same fun hl => by
  rw [timeMessage_heard hl, if_neg hk, if_pos h]

theorem timeMessage_noKind (h : 2 < k) : Lanes.timeMessage n k sec ns frac s = s := timeMessage_same fun hl => by
  rw [timeMessage_heard hl, if_neg (by omega), if_neg (c := k = 0) (by omega), if_neg (c := k = 2) (by omega), ite_self]

theorem timeMessage_noExchange (h : s.servo.exchange.length ≠ 3) : Lanes.timeMessage n 2 sec ns frac s = s :=
  timeMessage_same fun hl => by
    rw [timeMessage_heard hl, if_neg (by decide), if_neg (c := 2 = 0) (by decide), if_pos rfl]
    split
    · rfl
    · split
      · next e => simp [e] at h
      · rfl

theorem timeMessage_request (hl : Heard s n) (hm : Ops.reg s 0x3003 2 = 1) (hb : Ops.bit (Ops.reg s 0x3003 3) n = true) :
    Lanes.timeMessage n 1 sec ns frac s = Lanes.setLane n { Lanes.lane s n with
      queue := (Lanes.lane s n).queue ++ [.time 2 (some (s.time.sec, s.time.ns, Ops.fraction s))] } s := by
  rw [timeMessage_heard hl, if_pos rfl, if_pos ⟨hm, hb⟩]

section
variable (hl : Heard s n) (hf : Ops.reg s 0x3000 8 = 2) (hn : Ops.reg s 0x3003 1 = n)
include hl hf hn

theorem timeMessage_sync : Lanes.timeMessage n 0 sec ns frac s =
    Lanes.setLane n { Lanes.lane s n with queue := (Lanes.lane s n).queue ++ [.time 1 none] }
      (servo (fun m => { m with
        exchange := [16 * (1000000000 * sec + ns) + frac / 4096, Time.units s.time] }) s) := by
  rw [timeMessage_heard hl, if_neg (by decide), if_neg (by simp [hf, hn]), if_pos rfl]

theorem timeMessage_response {t1 t2 t3 : Nat} (he : s.servo.exchange = [t1, t2, t3]) :
    Lanes.timeMessage n 2 sec ns frac s = Lanes.follow t1 t2 t3 (16 * (1000000000 * sec + ns) + frac / 4096 : Nat)
      (servo (fun m => { m with exchange := [] }) s) := by
  rw [timeMessage_heard hl, if_neg (by decide), if_neg (by simp [hf, hn]), if_neg (c := 2 = 0) (by decide), if_pos rfl, he]

end

/-- The follower's path delay and offset, in 1/16 ns. -/
def pathDelay (t1 t2 t3 t4 : Int) : Int := (t2 - t1) + (t4 - t3)

def offset (s : State) (t1 t2 t3 t4 : Int) : Int :=
  (t2 - t1) - Int.tdiv (pathDelay t1 t2 t3 t4 + Ops.signed 32 (Ops.reg s 0x3003 4)) 2

/-- The exchange is measured. -/
def measured (t1 t2 t3 t4 : Int) (s : State) : State :=
  Ops.setReg 0x3003 5 (Ops.unsigned 32 (pathDelay t1 t2 t3 t4))
    (Ops.setReg 0x3003 6 (Ops.unsigned 32 (offset s t1 t2 t3 t4)) s)

theorem measured_frame (t1 t2 t3 t4 : Int) (s : State) :
    (measured t1 t2 t3 t4 s).time = s.time ∧ (measured t1 t2 t3 t4 s).modes = s.modes := by
  simp [measured]

/-- The effect of an exchange, in the state that has measured it. -/
theorem follow_measured (t1 t2 t3 t4 : Int) (s : State) : Lanes.follow t1 t2 t3 t4 s =
    if Ops.modeIn (measured t1 t2 t3 t4 s) [.m1, .m2, .m3, .m4, .m7] &&
        (decide (16000 < offset s t1 t2 t3 t4) || decide (offset s t1 t2 t3 t4 < -16000)) then
      servo (fun m => { m with first := false, good := 0, state := 1 }) (Time.step
        (Time.ofUnits ((Time.units (measured t1 t2 t3 t4 s).time : Int) - offset s t1 t2 t3 t4).toNat) (measured t1 t2 t3 t4 s))
    else Time.servoAct (Time.judge (offset s t1 t2 t3 t4) 80 16 396 (measured t1 t2 t3 t4 s)) := rfl

/-- The servo acts on an offset; a step of time is for a large one, in M1 to M4 and M7. -/
def Follows (s : State) (e : Int) : Prop := s.modes.cur = .m5 ∨ s.modes.cur = .m6 ∨ (e ≤ 16000 ∧ -16000 ≤ e)

theorem follows_iff (h : s.modes.cur ≠ .m0) (e : Int) : Follows s e ↔
    ¬ (Ops.modeIn s [.m1, .m2, .m3, .m4, .m7] && (decide (16000 < e) || decide (e < -16000))) = true := by
  unfold Follows
  cases hm : s.modes.cur <;> simp_all

section
variable {t1 t2 t3 t4 : Int}

theorem modeIn_measured (l : List Mode) : Ops.modeIn (measured t1 t2 t3 t4 s) l = Ops.modeIn s l := by
  rw [Ops.modeIn, (measured_frame t1 t2 t3 t4 s).2, Ops.modeIn]

theorem follow_judged (hp : s.modes.cur ≠ .m0) (h : Follows s (offset s t1 t2 t3 t4)) : Lanes.follow t1 t2 t3 t4 s =
    Time.servoAct (Time.judge (offset s t1 t2 t3 t4) 80 16 396 (measured t1 t2 t3 t4 s)) := by
  rw [follow_measured, modeIn_measured, if_neg ((follows_iff hp _).1 h)]

theorem follow_steps (hp : s.modes.cur ≠ .m0) (h : ¬ Follows s (offset s t1 t2 t3 t4)) : Lanes.follow t1 t2 t3 t4 s =
    servo (fun m => { m with first := false, good := 0, state := 1 }) (Time.step
      (Time.ofUnits ((Time.units s.time : Int) - offset s t1 t2 t3 t4).toNat) (measured t1 t2 t3 t4 s)) := by
  rw [follow_measured, modeIn_measured, (measured_frame t1 t2 t3 t4 s).1, if_pos (not_not.1 (mt (follows_iff hp _).2 h))]

end

end

/-- Settles O17: each word, calibration, tick and message has its effect where it is due, and none elsewhere. -/
theorem keepersAndMessages : Obligations.KeepersAndMessages := by
  unfold Obligations.KeepersAndMessages
  refine ⟨fun s r w h => ⟨fun hk hl => ?locks, fun hk hl => ?first, fun hk he => ?expected, fun hk he ho => ?second,
      fun hk he ho => ?odd, fun ok d h2 h5 h6 => ?otherMode, fun d hm => ⟨?good, ?bad⟩, fun ht => ?early, fun ht => ?tick⟩,
    fun s n sent f h => ⟨fun hs => ?quiet, fun hs hm => ?sends, fun hl k => ?unheard, fun hm => ?noMaster,
      fun hf k hk => ?noFollower, fun k hk => ?noKind, fun he => ?noExchange, fun hup hst hm hb => ?request,
      fun hup hst hf hl => ⟨?sync, fun t1 t2 t3 he => ⟨fun hs => ?response, fun hs => ?slew⟩⟩⟩⟩
  case locks => exact run_awake_of h (timeWord_locks (s := Ops.begin s) hk hl)
  case first => exact run_awake_of h (timeWord_first (s := Ops.begin s) hk hl)
  case expected => exact run_awake_of h (timeWord_expected (s := Ops.begin s) hk he)
  case second => exact run_awake_of h (timeWord_second (s := Ops.begin s) hk he ho)
  case odd => exact run_awake_of h (timeWord_odd (s := Ops.begin s) hk he ho)
  case otherMode => exact run_awake_of h (calibrate_otherMode (s := Ops.begin s) h2 h5 h6 ok _)
  case good => exact run_awake_of h (calibrate_mode (s := Ops.begin s) hm true _)
  case bad => exact run_awake_of h (calibrate_mode (s := Ops.begin s) hm false _)
  case early => exact run_awake_of h (tick_early (s := Ops.begin s) ht)
  case tick => exact run_awake_of h (tick_due (s := Ops.begin s) ht)
  case quiet => exact run_awake_of h (timeSend_idle (s := Ops.begin s) hs)
  case sends => exact run_awake_of h (timeSend_due (s := Ops.begin s) hs hm)
  case unheard => exact runTime_awake_of h (timeMessage_unheard (s := Ops.begin s) hl)
  case noMaster => exact runTime_awake_of h (timeMessage_noMaster (s := Ops.begin s) hm)
  case noFollower => exact runTime_awake_of h (timeMessage_noFollower (s := Ops.begin s) hf fun e => hk (BitVec.eq_of_toNat_eq e))
  case noKind => exact runTime_awake_of h (timeMessage_noKind (s := Ops.begin s) hk)
  case noExchange => exact runTime_awake_of h (timeMessage_noExchange (s := Ops.begin s) he)
  case request => exact runTime_awake_of h (timeMessage_request (s := Ops.begin s) ⟨hup, hst⟩ hm hb)
  case sync => exact runTime_awake_of h (timeMessage_sync (s := Ops.begin s) ⟨hup, hst⟩ hf hl)
  case response =>
    exact runTime_awake_of h ((timeMessage_response (s := Ops.begin s) ⟨hup, hst⟩ hf hl he).trans
      (follow_judged (s := servo (fun m => { m with exchange := [] }) (Ops.begin s)) h.powered hs))
  case slew =>
    exact runTime_awake_of h ((timeMessage_response (s := Ops.begin s) ⟨hup, hst⟩ hf hl he).trans
      (follow_steps (s := servo (fun m => { m with exchange := [] }) (Ops.begin s)) h.powered hs))

end Sys2Proof.Laws
end

section
/-!
SUPPORT. The writes that configure a launch gate, fill its banks and commit them.
-/

namespace Sys2Proof.Laws

open Sys2Proof Sys2Proof.Machine Sys2Proof.Safety

/-! ### The rows of a region's launch objects (R161, R162) -/

section
variable (r : Fin 512)

theorem find_launch : Objects.find (0x3200 + r) = some ⟨0x43, .host, [Objects.bits 0xF1FFFFFFFFFFFFFF (Objects.r 1 0x10 .u64 .rw),
    Objects.r 0x11 0x40 .u32 .ro, Objects.r 0x41 0x41 .u64 .rw, Objects.r 0x42 0x42 .u16 .ro, Objects.r 0x43 0x43 .u32 .ro]⟩ := by
  have array : ¬ 0x3200 + r.val < 0x2000 := by omega
  have early : ¬ 0x3200 + r.val < 0x3000 := by omega
  have here : 0x3200 + r.val < 0x4000 := by omega
  simp only [Objects.find, if_neg array, if_neg early, if_pos here]
  unfold Objects.time
  split
  any_goals omega
  exact if_pos (by omega)

theorem size_config (g : Nat) : Operands.size (0x3200 + r) (1 + g % 16) = 8 := by
  have low : 1 + g % 16 ≠ 0 := by omega
  have high : ¬ 0x43 < 1 + g % 16 := by omega
  have here : (decide (1 ≤ 1 + g % 16) && decide (1 + g % 16 ≤ 0x10)) = true := by
    simp only [Bool.and_eq_true, decide_eq_true_eq]
    omega
  simp only [Operands.size, Objects.row, find_launch, if_neg low, if_neg high]
  rw [List.find?_cons_of_pos (p := fun x : Row => decide (x.lo ≤ 1 + g % 16) && decide (1 + g % 16 ≤ x.hi)) here]
  rfl

theorem row_origin (s : State) : Dict.row s (0x3200 + r) 0x41 = some (Objects.r 0x41 0x41 .u64 .rw) := by
  have table : ¬ 0xF000 ≤ 0x3200 + r.val := by omega
  simp only [Dict.row, if_neg table, Objects.row, find_launch]
  rfl

theorem size_origin : Operands.size (0x3200 + r) 0x41 = 8 := by
  simp only [Operands.size, Objects.row, find_launch]
  rfl

theorem chapterWrite_launch (t : Transport) (k : Nat) (d : List Byte) (s : State) :
    Dict.chapterWrite t (0x3200 + r) k d s =
      if 1 ≤ k ∧ k ≤ 16 then some (Time.writeConfig (16 * r + k - 1) (Ops.le d &&& 0xF1FFFFFFFFFFFFFF) s)
      else if k = 0x41 ∧ Time.anyTimed s r then some (.inl 5)
      else none := by
  have modes : ¬ 0x3200 + r.val < 0x1010 := by omega
  have transports : ¬ (0x1100 ≤ 0x3200 + r.val ∧ 0x3200 + r.val < 0x1200) := by omega
  have supplies : ¬ 0x3200 + r.val < 0x2000 := by omega
  have regions : ¬ (0x2400 ≤ 0x3200 + r.val ∧ 0x3200 + r.val < 0x2800) := by omega
  have loader : ¬ 0x3200 + r.val < 0x3000 := by omega
  have select : ¬ (0x3200 + r.val = 0x3010 ∧ k = 3) := by omega
  have here : 0x3200 + r.val < 0x4000 := by omega
  have launch : 0x3200 ≤ 0x3200 + r.val ∧ 0x3200 + r.val < 0x3400 := by omega
  simp only [Dict.chapterWrite, if_neg modes, if_neg transports, if_neg supplies, if_neg regions, if_neg loader,
    if_neg select, if_pos here]
  unfold Time.writeSub
  split
  any_goals omega
  simp only [if_pos launch, Nat.add_sub_cancel_left]

end

/-! ### A gate, its banks and its epochs, in the state that has counted the request -/

section
variable (s : State) (g : Nat)

theorem config_counted : Time.config (counted s) g = Time.config s g := reg_counted (by omega) s

theorem timed_counted : Time.timed (counted s) g = Time.timed s g := by rw [Time.timed, config_counted, Time.timed]

theorem anyTimed_counted (r : Nat) : Time.anyTimed (counted s) r = Time.anyTimed s r := by
  simp only [Time.anyTimed, timed_counted]

theorem gate_counted : Time.gate (counted s) g = Time.gate s g := rfl

theorem since_counted : Time.since (counted s) g = Time.since s g := by
  have origin : Ops.reg (counted s) (0x3200 + g / 16) 0x41 = Ops.reg s (0x3200 + g / 16) 0x41 := reg_counted (by omega) s
  rw [Time.since, origin]
  rfl

theorem startOf_counted (k : Nat) : Time.startOf (counted s) g k = Time.startOf s g k := by
  rw [Time.startOf, config_counted, Time.startOf]

theorem namedEpoch_counted (e : Nat) : Time.namedEpoch (counted s) g e = Time.namedEpoch s g e := by
  simp only [Time.namedEpoch, since_counted, config_counted]

theorem goodEntries_counted (b : Bool) : Time.goodEntries (counted s) g b = Time.goodEntries s g b := by
  simp only [Time.goodEntries, config_counted]
  rfl

end

/-! ### The configuration word (R151) -/

/-- The word is a legal one. -/
def Legal (w : Nat) : Prop := Time.modeOf w ≠ 3 ∧
  (Time.modeOf w = 1 → 1000 ≤ Time.epochLen w ∧ Time.epochLen w ≤ 1000000000 ∧ Time.overlap w ≤ Time.epochLen w / 8)

/-- The word keeps what a timed gate cannot change. -/
def Keeps (old w : Nat) : Prop := Time.modeOf old = 1 →
  Time.epochLen w = Time.epochLen old ∧ Time.overlap w = Time.overlap old ∧ Time.repeats w = Time.repeats old

section
variable {s : State} {g w : Nat}

theorem writeConfig_illegal (h : ¬ Legal w) : Time.writeConfig g w s = .inl 4 := by
  refine if_pos ?_
  by_cases hb : Time.modeOf w = 3
  · exact .inl hb
  · unfold Legal at h
    by_cases ht : Time.modeOf w = 1
    · right
      refine ⟨ht, ?_⟩
      have : ¬ (1000 ≤ Time.epochLen w ∧ Time.epochLen w ≤ 1000000000 ∧ Time.overlap w ≤ Time.epochLen w / 8) :=
        fun hl => h ⟨hb, fun _ => hl⟩
      omega
    · exact absurd ⟨hb, fun t => absurd t ht⟩ h

theorem writeConfig_legal (h : Legal w) : Time.writeConfig g w s =
    if Time.modeOf (Time.config s g) = 1 ∧ (Time.epochLen w ≠ Time.epochLen (Time.config s g) ∨
        Time.overlap w ≠ Time.overlap (Time.config s g) ∨ Time.repeats w ≠ Time.repeats (Time.config s g)) then .inl 5
    else .inr (
      let y := Ops.setReg (0x3200 + g / 16) (1 + g % 16) w
        (if Time.modeOf (Time.config s g) = 1 ∧ Time.modeOf w ≠ 1 then
          Time.setGate g { Time.gate (Time.retireAll g false true s) g with
            fire := Time.dropped (Time.gate (Time.retireAll g false true s) g) } (Time.retireAll g false true s)
        else s)
      let z := if Time.modeOf w = 1 ∧ Time.modeOf (Time.config s g) ≠ 1 then
        Time.setGate g { Time.gate y g with next := Time.firstAfter y g } y else y
      if Time.modeOf w = 2 ∧ Time.modeOf (Time.config s g) ≠ 2 then Fabric.offer (.gate (Fin.ofNat 8192 g)) z else z) := by
  obtain ⟨mode, bounds⟩ := h
  exact if_neg (by omega)

theorem writeConfig_changes (h : Legal w) (hk : ¬ Keeps (Time.config s g) w) : Time.writeConfig g w s = .inl 5 := by
  rw [writeConfig_legal h, if_pos]
  simp only [Keeps, Classical.not_imp, not_and_or] at hk
  exact hk

theorem writeConfig_keeps (h : Legal w) (hk : Keeps (Time.config s g) w) : Time.writeConfig g w s = .inr (
    let y := Ops.setReg (0x3200 + g / 16) (1 + g % 16) w
      (if Time.modeOf (Time.config s g) = 1 ∧ Time.modeOf w ≠ 1 then
        Time.setGate g { Time.gate (Time.retireAll g false true s) g with
          fire := Time.dropped (Time.gate (Time.retireAll g false true s) g) } (Time.retireAll g false true s)
      else s)
    let z := if Time.modeOf w = 1 ∧ Time.modeOf (Time.config s g) ≠ 1 then
      Time.setGate g { Time.gate y g with next := Time.firstAfter y g } y else y
    if Time.modeOf w = 2 ∧ Time.modeOf (Time.config s g) ≠ 2 then Fabric.offer (.gate (Fin.ofNat 8192 g)) z else z) := by
  rw [writeConfig_legal h, if_neg]
  simpa only [Keeps, Classical.not_and_iff_not_or_not, not_or, not_not, imp_iff_not_or] using hk

end

/-! ### The entries of a bank (R155) -/

/-- The first four bytes of both BLOBs: the gate, its bank, and one byte more. -/
def bankHead (g b x : Nat) (rest : List Byte) : List Byte := le 2 g ++ (le 1 b ++ (le 1 x ++ rest))

section
variable (g b x : Nat) (rest : List Byte)

theorem bankHead_gate : Dict.field (bankHead g b x rest) 0 2 = g % 65536 := field_here 2 g _

theorem bankHead_bank : Dict.field (bankHead g b x rest) 2 1 = b % 256 := by
  rw [bankHead, field_skip _ _ _ _ (by simp), length_bytes]
  exact field_here 1 b _

theorem bankHead_third : Dict.field (bankHead g b x rest) 3 1 = x % 256 := by
  rw [bankHead, field_skip _ _ _ _ (by simp), length_bytes, field_skip _ _ _ _ (by simp), length_bytes]
  exact field_here 1 x _

theorem bankHead_rest (off n : Nat) : Dict.field (bankHead g b x rest) (4 + off) n = Dict.field rest off n := by
  rw [bankHead, field_skip _ _ _ _ (by simp; omega), length_bytes, field_skip _ _ _ _ (by simp; omega), length_bytes,
    field_skip _ _ _ _ (by simp; omega), length_bytes]
  congr 1
  omega

theorem length_bankHead : (bankHead g b x rest).length = 4 + rest.length := by
  simp only [bankHead, List.length_append, length_bytes]
  omega

end

/-- The BLOB that writes the entries `l` to a bank from `first` on. -/
def bankBlob (g : Nat) (b : Bool) (first : Nat) (l : List W64) : List Byte :=
  le 2 g ++ le 1 (if b then 1 else 0) ++ le 1 first ++ le 2 l.length ++ le 2 0 ++ l.flatMap fun e => le 8 e.toNat

theorem words_flatMap (l : List W64) : Time.words l.length (l.flatMap fun e => le 8 e.toNat) = l := by
  induction l with
  | nil => rfl
  | cons e l ih =>
    have here : (le 8 e.toNat ++ l.flatMap fun e => le 8 e.toNat).take 8 = le 8 e.toNat := List.take_left' (length_bytes 8 _)
    have rest : (le 8 e.toNat ++ l.flatMap fun e => le 8 e.toNat).drop 8 = l.flatMap fun e => le 8 e.toNat :=
      List.drop_left' (length_bytes 8 _)
    have word : Ops.le (le 8 e.toNat) = e.toNat := le_bytes_word (n := 8) rfl e
    simp only [List.flatMap_cons, List.length_cons, Time.words, here, rest, word, ih, BitVec.ofNat_toNat, BitVec.setWidth_eq]

section
variable {g first : Nat} {b : Bool} {l : List W64}

theorem bankBlob_eq : bankBlob g b first l = bankHead g (if b then 1 else 0) first
    (le 2 l.length ++ (le 2 0 ++ l.flatMap fun e => le 8 e.toNat)) := by
  simp only [bankBlob, bankHead, List.append_assoc]

theorem length_bankBlob : (bankBlob g b first l).length = 8 + 8 * l.length := by
  have entries : (l.flatMap fun e => le 8 e.toNat).length = 8 * l.length := by
    rw [List.length_flatMap, List.map_congr_left (g := fun _ => 8) fun _ _ => length_bytes 8 _]
    simp [mul_comm]
  simp only [bankBlob, List.length_append, length_bytes, entries]

theorem bankBlob_count (hl : l.length < 65536) : Dict.field (bankBlob g b first l) 4 2 = l.length := by
  rw [bankBlob_eq]
  exact (bankHead_rest _ _ _ _ 0 2).trans ((field_here 2 _ _).trans (Nat.mod_eq_of_lt hl))

theorem bankBlob_reserved : Dict.field (bankBlob g b first l) 6 2 = 0 := by
  rw [bankBlob_eq]
  refine (bankHead_rest _ _ _ _ 2 2).trans ?_
  rw [field_skip _ _ _ _ (by simp), length_bytes]
  exact field_here 2 0 _

theorem bankBlob_entries : (bankBlob g b first l).drop 8 = l.flatMap fun e => le 8 e.toNat :=
  List.drop_left' (by simp only [List.length_append, length_bytes])

theorem bankWrite_bankBlob (hg : g < 8192) (hl : l ≠ []) (hf : first + l.length ≤ 64) (s : State) :
    Time.bankWrite (bankBlob g b first l) s =
      if (Time.sched (Time.gate s g) b).phase ≠ .free then .inl 5 else .inr (Time.putEntries g b first l s) := by
  have some : 1 ≤ l.length := List.length_pos_iff.2 hl
  have gate : Ops.le ((bankBlob g b first l).take 2) = g := by
    rw [bankBlob_eq]
    exact (bankHead_gate _ _ _ _).trans (Nat.mod_eq_of_lt (by omega))
  have bank : Ops.le (((bankBlob g b first l).drop 2).take 1) = if b then 1 else 0 := by
    rw [bankBlob_eq]
    exact (bankHead_bank g _ first _).trans (Nat.mod_eq_of_lt (by split <;> decide))
  have start : Ops.le (((bankBlob g b first l).drop 3).take 1) = first := by
    rw [bankBlob_eq]
    exact (bankHead_third g (if b then 1 else 0) first _).trans (Nat.mod_eq_of_lt (by omega))
  have count : Ops.le (((bankBlob g b first l).drop 4).take 2) = l.length :=
    bankBlob_count (g := g) (first := first) (b := b) (by omega)
  have reserved : Ops.le (((bankBlob g b first l).drop 6).take 2) = 0 :=
    bankBlob_reserved (g := g) (first := first) (b := b) (l := l)
  have bit : (if b then 1 else 0 : Nat) ≤ 1 ∧ ((if b then 1 else 0 : Nat) == 1) = b := by cases b <;> decide
  simp only [Time.bankWrite, gate, bank, start, count, reserved, length_bankBlob, bankBlob_entries, words_flatMap, bit.2]
  rw [if_neg (by omega)]

end

theorem bankWrite_malformed {d : List Byte} (s : State)
    (h : d.length ≠ 8 + 8 * Dict.field d 4 2 ∨ 8191 < Dict.field d 0 2 ∨ 1 < Dict.field d 2 1 ∨ Dict.field d 4 2 = 0 ∨
      64 < Dict.field d 3 1 + Dict.field d 4 2 ∨ Dict.field d 6 2 ≠ 0) : Time.bankWrite d s = .inl 4 := by
  simp only [Dict.field, List.drop_zero] at h
  exact if_pos (by omega)

theorem chapterWrite_bank (t : Transport) (d : List Byte) (s : State) :
    Dict.chapterWrite t 0x3010 1 d s = some (Time.bankWrite d s) := rfl

/-! ### Commits (R155) -/

theorem chapterWrite_commit (t : Transport) (d : List Byte) (s : State) :
    Dict.chapterWrite t 0x3010 2 d s = some (Time.commitBlob d s) := rfl

section
variable (g : W16) (bank : Byte) {e : Nat} (he : e < 2 ^ 32) (s : State)
include he

theorem commitBlob_operands : Time.commitBlob (Operands.commitBlob g bank e) s =
    if 8191 < g.toNat ∨ 1 < bank.toNat then .inl 4 else Time.commit g.toNat (bank.toNat == 1) e s := by
  have blob : Operands.commitBlob g bank e = bankHead g.toNat bank.toNat 0 (le 4 e) := by
    simp only [Operands.commitBlob, bankHead, List.append_assoc]
  have gate : Ops.le ((bankHead g.toNat bank.toNat 0 (le 4 e)).take 2) = g.toNat :=
    (bankHead_gate _ _ _ _).trans (Nat.mod_eq_of_lt g.isLt)
  have number : Ops.le (((bankHead g.toNat bank.toNat 0 (le 4 e)).drop 2).take 1) = bank.toNat :=
    (bankHead_bank g.toNat _ 0 _).trans (Nat.mod_eq_of_lt bank.isLt)
  have reserved : Ops.le (((bankHead g.toNat bank.toNat 0 (le 4 e)).drop 3).take 1) = 0 := bankHead_third g.toNat bank.toNat 0 _
  have epoch : Ops.le (((bankHead g.toNat bank.toNat 0 (le 4 e)).drop 4).take 4) = e := by
    refine (bankHead_rest g.toNat bank.toNat 0 (le 4 e) 0 4).trans ?_
    show Ops.le ((le 4 e).take 4) = e
    rw [List.take_of_length_le (length_bytes 4 e).le]
    exact le_bytes_lt he
  have length : (bankHead g.toNat bank.toNat 0 (le 4 e)).length = 8 := by rw [length_bankHead, length_bytes]
  simp [Time.commitBlob, blob, gate, number, reserved, epoch, length]

end

/-- An epoch length that a gate can have. -/
def Long (s : State) (g : Nat) : Prop :=
  1000 ≤ Time.epochLen (Time.config s g) ∧ Time.epochLen (Time.config s g) ≤ 1000000000

/-- The decision instant of epoch `n` is to come. -/
def Early (s : State) (g n : Nat) : Prop := Time.since s g < Time.startOf s g n - 8000

/-- The bank can be committed for epoch `n`. -/
def Fits (s : State) (g : Nat) (b : Bool) (n : Nat) : Prop :=
  (n % 2 = if b then 1 else 0) ∧ (Time.sched (Time.gate s g) b).phase = .free ∧ Time.goodEntries s g b = true

section
variable {s : State} {g e : Nat} {b : Bool}

section
variable (he : e ≠ 0xFFFFFFFF)
include he

theorem commit_short (h : ¬ Long s g) : Time.commit g b e s = .inl 4 := by
  have short : Time.epochLen (Time.config s g) < 1000 ∨ 1000000000 < Time.epochLen (Time.config s g) := by
    unfold Long at h
    omega
  simp only [Time.commit, if_neg he, if_pos short]

theorem commit_long (h : Long s g) : Time.commit g b e s =
    if Time.startOf s g (Time.namedEpoch s g e) - 8000 ≤ Time.since s g then .inl 5
    else if Time.namedEpoch s g e % 2 ≠ (if b then 1 else 0) then .inl 4
    else if (Time.sched (Time.gate s g) b).phase ≠ .free then .inl 4
    else if !Time.goodEntries s g b then .inl 4
    else .inr (Time.setGate g (Time.withSched (Time.gate s g) b { phase := .committed (Time.namedEpoch s g e) false }) s) := by
  have long : ¬ (Time.epochLen (Time.config s g) < 1000 ∨ 1000000000 < Time.epochLen (Time.config s g)) := by
    unfold Long at h
    omega
  simp only [Time.commit, if_neg he, if_neg long]

theorem commit_late (hl : Long s g) (h : ¬ Early s g (Time.namedEpoch s g e)) : Time.commit g b e s = .inl 5 := by
  rw [commit_long he hl, if_pos (not_lt.1 h)]

theorem commit_unfit (hl : Long s g) (hE : Early s g (Time.namedEpoch s g e)) (h : ¬ Fits s g b (Time.namedEpoch s g e)) :
    Time.commit g b e s = .inl 4 := by
  rw [commit_long he hl, if_neg (not_le.2 hE)]
  by_cases parity : Time.namedEpoch s g e % 2 = if b then 1 else 0
  · rw [if_neg (not_not.2 parity)]
    by_cases free : (Time.sched (Time.gate s g) b).phase = .free
    · rw [if_neg (not_not.2 free), if_pos]
      by_contra good
      exact h ⟨parity, free, by simpa using good⟩
    · rw [if_pos free]
  · rw [if_pos parity]

theorem commit_fits (hl : Long s g) (hE : Early s g (Time.namedEpoch s g e)) (h : Fits s g b (Time.namedEpoch s g e)) :
    Time.commit g b e s =
      .inr (Time.setGate g (Time.withSched (Time.gate s g) b { phase := .committed (Time.namedEpoch s g e) false }) s) := by
  obtain ⟨parity, free, good⟩ := h
  rw [commit_long he hl, if_neg (not_le.2 hE), if_neg (not_not.2 parity), if_neg (not_not.2 free), if_neg (by simp [good])]

end

theorem uncommit_early {n : Nat} {m : Bool} (h : (Time.sched (Time.gate s g) b).phase = .committed n m) (hE : Early s g n) :
    Time.commit g b 0xFFFFFFFF s = .inr (Time.setGate g (Time.withSched (Time.gate s g) b {}) s) := by
  simp only [Time.commit, h]
  exact if_neg (not_le.2 hE)

theorem uncommit_late {n : Nat} {m : Bool} (h : (Time.sched (Time.gate s g) b).phase = .committed n m) (hE : ¬ Early s g n) :
    Time.commit g b 0xFFFFFFFF s = .inl 5 := by
  simp only [Time.commit, h]
  exact if_pos (not_lt.1 hE)

theorem uncommit_served {n : Nat}
    (h : (Time.sched (Time.gate s g) b).phase = .active n ∨ (Time.sched (Time.gate s g) b).phase = .tail n) :
    Time.commit g b 0xFFFFFFFF s = .inl 5 := by
  rcases h with h | h <;> simp [Time.commit, h]

theorem uncommit_free (h : (Time.sched (Time.gate s g) b).phase = .free) : Time.commit g b 0xFFFFFFFF s = .inl 4 := by
  simp [Time.commit, h]

end

section
variable (s : State) (g : Nat)

theorem long_counted : Long (counted s) g ↔ Long s g := by rw [Long, config_counted, Long]

theorem early_counted (n : Nat) : Early (counted s) g n ↔ Early s g n := by
  rw [Early, since_counted, startOf_counted, Early]

theorem fits_counted (b : Bool) (n : Nat) : Fits (counted s) g b n ↔ Fits s g b n := by
  rw [Fits, gate_counted, goodEntries_counted, Fits]

end

section
variable (g : Fin 8192) (b : Bool)

theorem commitBlob_numbers (e : Nat) : le 2 g ++ le 1 (if b then 1 else 0) ++ le 1 0 ++ le 4 e =
    Operands.commitBlob (BitVec.ofNat 16 g) (if b then 1 else 0) e := by
  have gate : (BitVec.ofNat 16 g).toNat = g := Nat.mod_eq_of_lt (by omega)
  rw [Operands.commitBlob, gate]
  cases b <;> rfl

theorem commitBlob_commit {d : List Byte} (hd : d = le 2 g ++ le 1 (if b then 1 else 0) ++ le 1 0 ++ le 4 e) (he : e < 2 ^ 32)
    (s : State) : Time.commitBlob d s = Time.commit g b e s := by
  have gate : (BitVec.ofNat 16 g).toNat = g := Nat.mod_eq_of_lt (by omega)
  have bank : ((if b then 1 else 0 : Byte)).toNat ≤ 1 ∧ ((if b then 1 else 0 : Byte).toNat == 1) = b := by
    cases b <;> decide
  rw [hd, commitBlob_numbers, commitBlob_operands _ _ he, gate, bank.2, if_neg (by omega)]

theorem exec_commit (t : Transport) (e : W32) (s : State) : exec (.commit t (BitVec.ofNat 16 g) (if b then 1 else 0) e) s =
    Run.run (Dict.serve t 2 0x3010 2 (le 2 g ++ le 1 (if b then 1 else 0) ++ le 1 0 ++ le 4 e.toNat)) s := by
  rw [commitBlob_numbers]
  rfl

/-- The two commands that take a commit back. -/
theorem exec_uncommit (t : Transport) {c : Instr} (hc : c ∈ [Instr.uncommit t (BitVec.ofNat 16 g) (if b then 1 else 0),
      .commit t (BitVec.ofNat 16 g) (if b then 1 else 0) 0xFFFFFFFF]) (s : State) : exec c s =
    Run.run (Dict.serve t 2 0x3010 2 (le 2 g ++ le 1 (if b then 1 else 0) ++ le 1 0 ++ le 4 0xFFFFFFFF)) s := by
  rw [commitBlob_numbers]
  simp only [List.mem_cons, List.not_mem_nil, or_false] at hc
  rcases hc with rfl | rfl <;> rfl

section
variable {s : State} {t : Transport} {e : Nat} (he : e < 2 ^ 32)
  (h : Writes s t 0x3010 2 (le 2 g ++ le 1 (if b then 1 else 0) ++ le 1 0 ++ le 4 e))
include he h

theorem run_commit {x : State} (hc : Time.commit g b e (counted s) = .inr x) :
    Run.run (Dict.serve t 2 0x3010 2 (le 2 g ++ le 1 (if b then 1 else 0) ++ le 1 0 ++ le 4 e)) s =
      .next (wrote s t 0x3010 2 (le 2 g ++ le 1 (if b then 1 else 0) ++ le 1 0 ++ le 4 e) x) :=
  run_write h (by decide) (by decide)
    ((chapterWrite_commit t _ _).trans (congrArg some ((commitBlob_commit g b rfl he _).trans hc)))

theorem run_commit_refused {n : Nat} (hc : Time.commit g b e (counted s) = .inl n) :
    Run.run (Dict.serve t 2 0x3010 2 (le 2 g ++ le 1 (if b then 1 else 0) ++ le 1 0 ++ le 4 e)) s =
      .next (after s (answered s t 2 0x3010 2 (le 2 g ++ le 1 (if b then 1 else 0) ++ le 1 0 ++ le 4 e) n [] (counted s))) :=
  run_refused h (by decide) (by decide)
    ((chapterWrite_commit t _ _).trans (congrArg some ((commitBlob_commit g b rfl he _).trans hc)))

end

end

/-! ### The writes of a gate's configuration word and of an origin -/

section
variable (g : Fin 8192)

theorem chapterWrite_config (t : Transport) (v : W64) (s : State) :
    Dict.chapterWrite t (0x3200 + g.val / 16) (1 + g.val % 16) (le 8 v.toNat) s =
      some (Time.writeConfig g (v.toNat &&& 0xF1FFFFFFFFFFFFFF) s) := by
  have word : Ops.le (le 8 v.toNat) = v.toNat := le_bytes_word (n := 8) rfl v
  have number : 16 * (g.val / 16) + (1 + g.val % 16) - 1 = g := by omega
  rw [show g.val / 16 = (⟨g.val / 16, by omega⟩ : Fin 512).val from rfl, chapterWrite_launch, if_pos (by omega), word, number]

theorem size_configWord : Operands.size (0x3200 + g.val / 16) (1 + g.val % 16) = 8 :=
  size_config ⟨g.val / 16, by omega⟩ g

end

/-- Settles O18: each write is what its chapter makes of it in the state that has counted the request, which the launch objects
are not changed by. -/
theorem gateWrites : Obligations.GateWrites := by
  unfold Obligations.GateWrites
  refine ⟨fun s t g b => ⟨fun v h => ⟨fun hl => ?illegal, fun hl hk => ?changes, fun hl hk => ?config⟩,
      fun first l h hl hf => ⟨fun hb => ?entries, fun hb => ?inUse⟩,
      fun e h he => ⟨fun hl hE hf => ?commit, fun hl => ?short, fun hl hE => ?late, fun hl hE hf => ?unfit⟩,
      fun h c hc => ⟨fun n m hp hE => ?uncommit, fun n m hp hE => ?decided, fun n hp => ?served, fun hp => ?free⟩⟩,
    fun s t => ⟨fun r v h => ⟨fun ht => ?origin, fun ht => ?timed⟩, fun d h hd => ?malformed, fun g bank e h hg => ?numbers⟩⟩
  case illegal =>
    refine operands_refused (size_configWord g) h (by omega) (by omega) ?_
    rw [chapterWrite_config, writeConfig_illegal hl]
  case changes =>
    refine operands_refused (size_configWord g) h (by omega) (by omega) ?_
    rw [chapterWrite_config, writeConfig_changes hl (by rwa [config_counted])]
  case config =>
    refine operands_taken (size_configWord g) h (by omega) (by omega) ?_
    rw [chapterWrite_config, writeConfig_keeps hl (by rwa [config_counted]), config_counted, Fin.ofNat_val_eq_self]
  case entries =>
    exact run_write h (by decide) (by decide)
      ((chapterWrite_bank t _ _).trans (congrArg some ((bankWrite_bankBlob g.isLt hl hf _).trans (if_neg (not_not.2 hb)))))
  case inUse =>
    exact run_refused h (by decide) (by decide)
      ((chapterWrite_bank t _ _).trans (congrArg some ((bankWrite_bankBlob g.isLt hl hf _).trans (if_pos hb))))
  case commit =>
    rw [exec_commit]
    refine run_commit g b e.isLt h ?_
    rw [← namedEpoch_counted] at hE hf ⊢
    exact commit_fits (fun hn => he (BitVec.eq_of_toNat_eq hn)) ((long_counted s g).2 hl) ((early_counted s g _).2 hE)
      ((fits_counted s g b _).2 hf)
  case short =>
    exact (exec_commit g b t e s).trans (run_commit_refused g b e.isLt h
      (commit_short (fun hn => he (BitVec.eq_of_toNat_eq hn)) (mt (long_counted s g).1 hl)))
  case late =>
    refine (exec_commit g b t e s).trans (run_commit_refused g b e.isLt h ?_)
    rw [← namedEpoch_counted] at hE
    exact commit_late (fun hn => he (BitVec.eq_of_toNat_eq hn)) ((long_counted s g).2 hl) (mt (early_counted s g _).1 hE)
  case unfit =>
    refine (exec_commit g b t e s).trans (run_commit_refused g b e.isLt h ?_)
    rw [← namedEpoch_counted] at hE hf
    exact commit_unfit (fun hn => he (BitVec.eq_of_toNat_eq hn)) ((long_counted s g).2 hl) ((early_counted s g _).2 hE)
      (mt (fits_counted s g b _).1 hf)
  case uncommit =>
    exact (exec_uncommit g b t hc s).trans
      (run_commit g b (by decide) h (uncommit_early (s := counted s) hp ((early_counted s g n).2 hE)))
  case decided =>
    exact (exec_uncommit g b t hc s).trans (run_commit_refused g b (by decide) h
      (uncommit_late (s := counted s) hp (mt (early_counted s g n).1 (not_lt.2 hE))))
  case served =>
    exact (exec_uncommit g b t hc s).trans (run_commit_refused g b (by decide) h (uncommit_served (s := counted s) hp))
  case free =>
    exact (exec_uncommit g b t hc s).trans (run_commit_refused g b (by decide) h (uncommit_free (s := counted s) hp))
  case origin =>
    refine operands_stored (size_origin r) h (by omega) (by omega) (row_origin r _) ?_ ?_
    · rw [le_bytes_word (n := 8) rfl v]
      exact toNat_and_mask (by decide) v
    · rw [chapterWrite_launch, if_neg (by decide), anyTimed_counted, ht]
      rfl
  case timed =>
    refine operands_refused (size_origin r) h (by omega) (by omega) ?_
    rw [chapterWrite_launch, if_neg (by decide), anyTimed_counted, ht]
    rfl
  case malformed =>
    exact run_refused h (by decide) (by decide) ((chapterWrite_bank t _ _).trans (congrArg some (bankWrite_malformed _ hd)))
  case numbers =>
    have refused : Dict.chapterWrite t 0x3010 2 (Operands.commitBlob g bank e.toNat) (counted s) = some (.inl 4) :=
      (chapterWrite_commit t _ _).trans (congrArg some ((commitBlob_operands g bank e.isLt _).trans (if_pos hg)))
    refine ⟨run_refused h (by decide) (by decide) refused, ?_⟩
    rintro rfl
    exact run_refused h (by decide) (by decide) refused

end Sys2Proof.Laws
end

section
/-!
SUPPORT. The decision instants, the epoch starts and the firing loop of a launch gate.
-/

namespace Sys2Proof.Laws

open Sys2Proof Sys2Proof.Machine Sys2Proof.Safety

/-! ### Decision instants and epoch starts (R152, R154) -/

section
variable {s : State} {g : Nat}

/-- The decision instant of the gate's next epoch is reached. -/
def Decides (s : State) (g : Nat) : Prop :=
  Time.timed s g = true ∧ Time.startOf s g (Time.gate s g).next - 8000 ≤ Time.since s g

theorem decision_due (hm : s.modes.cur ≠ .m6) (h : Decides s g) : Time.decision g s =
    let x := Time.gate s g
    let b := decide (x.next % 2 = 1)
    if (Time.sched x b).phase = .committed x.next false then Time.setGate g
      (Time.withSched { x with next := x.next + 1 } b { Time.sched x b with phase := .committed x.next true }) s
    else Ops.raise 394 (Ops.bump (0x3200 + g / 16) 0x43 (Time.setGate g { x with next := x.next + 1 } s)) := by
  obtain ⟨timed, reached⟩ := h
  have next (x : Gate) (b : Bool) (n : Nat) : Time.sched { x with next := n } b = Time.sched x b := by cases b <;> rfl
  refine (if_neg (by simp [timed, hm, reached])).trans ?_
  simp only [next]
  rfl

theorem decision_idle (h : s.modes.cur = .m6 ∨ ¬ Decides s g) : Time.decision g s = s := by
  refine if_pos ?_
  rcases h with hm | hd
  · simp [hm]
  · by_cases ht : Time.timed s g = true
    · simp [not_le.1 fun hs => hd ⟨ht, hs⟩]
    · simp [ht]

theorem epochStart_awake (h : s.modes.cur ≠ .m6) :
    Time.epochStart g s = Time.startBank g true (Time.startBank g false s) := if_neg (by simp [h])

theorem epochStart_m6 (h : s.modes.cur = .m6) : Time.epochStart g s = s := if_pos (by simp [h])

theorem overlapLimit_awake (h : s.modes.cur ≠ .m6) : Time.overlapLimit g s = [false, true].foldl (fun v c =>
    match (Time.sched (Time.gate v g) c).phase with
    | .tail n =>
      if Time.startOf v g (n + 1) + 16 * (Time.overlap (Time.config v g) : Int) ≤ Time.since v g then Time.retire g c n true v
      else v
    | _ => v) s := if_neg (by simp [h])

theorem overlapLimit_m6 (h : s.modes.cur = .m6) : Time.overlapLimit g s = s := if_pos (by simp [h])

end

/-! ### Banks that start, go over and end (R154, R157) -/

section
variable {s : State} {g n : Nat} {c : Bool}

theorem retire_counted : Time.retire g c n true s =
    let x := Time.gate s g
    let left := Time.setGate g
      { Time.withSched x c { phase := if Time.repeats (Time.config s g) then .committed (n + 2) false else .free } with
        fire := if Time.firing x c then Time.dropped x else x.fire } s
    if (Time.unfired s g c).length = 0 then left
    else Ops.raise 395 (Time.count g 0x11 (Time.unfired s g c).length left) := by
  by_cases h : (Time.unfired s g c).length = 0
  · simp [Time.retire, h]
  · simp [Time.retire, h]

theorem startBank_committed {m : Bool} (h : (Time.sched (Time.gate s g) c).phase = .committed n m) : Time.startBank g c s =
    if Time.startOf s g n ≤ Time.since s g then
      Time.setGate g (Time.withSched (Time.gate s g) c (if m then { phase := .active n } else {})) s
    else s := by
  simp only [Time.startBank, h]

theorem startBank_active (h : (Time.sched (Time.gate s g) c).phase = .active n) : Time.startBank g c s =
    if Time.startOf s g (n + 1) ≤ Time.since s g then
      if Time.overlap (Time.config s g) = 0 then Time.retire g c n true s
      else Time.setGate g (Time.withSched (Time.gate s g) c { Time.sched (Time.gate s g) c with phase := .tail n }) s
    else s := by
  simp only [Time.startBank, h]

theorem startBank_idle (h : (∃ m, (Time.sched (Time.gate s g) c).phase = .committed n m ∧ Time.since s g < Time.startOf s g n) ∨
    (Time.sched (Time.gate s g) c).phase = .active n ∧ Time.since s g < Time.startOf s g (n + 1) ∨
    (Time.sched (Time.gate s g) c).phase = .tail n ∨ (Time.sched (Time.gate s g) c).phase = .free) :
    Time.startBank g c s = s := by
  rcases h with ⟨m, hp, hs⟩ | ⟨hp, hs⟩ | hp | hp
  · rw [startBank_committed hp, if_neg (not_le.2 hs)]
  · rw [startBank_active hp, if_neg (not_le.2 hs)]
  · simp only [Time.startBank, hp]
  · simp only [Time.startBank, hp]

end

/-! ### The firing loop (R156) -/

section
variable {s : State} {g : Nat} {b late : Bool} {i : Fin 64} {d : Int}

/-- The gate may release: its keeper is locked, in M5. -/
def MayRelease (s : State) (g : Nat) : Prop := (Time.keeper s (g / 16)).locked = true ∧ s.modes.cur = .m5

theorem mayRelease_iff : Time.mayRelease s g = true ↔ MayRelease s g := by
  simp [Time.mayRelease, Fabric.awake, Ops.modeIn, MayRelease]

section
variable (hf : (Time.gate s g).fire = .idle) (he : Time.earliest s g = some (b, i.val, d))
include hf he

theorem setup_entry : Time.setup g s =
    if !Time.timed s g || Ops.modeIn s [.m6] || decide (Time.sinceLocal s g < d - 128) then s
    else if Time.holds s g && Time.mayRelease s g then Time.setGate g { Time.gate s g with fire := .armed b i false } s
    else Time.missing g b i s := by
  simp only [Time.setup, hf, he, Fin.ofNat_val_eq_self]

theorem setup_arms (hm : s.modes.cur ≠ .m6) (ht : Time.timed s g = true) (hd : d - 128 ≤ Time.sinceLocal s g)
    (hr : Time.holds s g = true ∧ MayRelease s g) :
    Time.setup g s = Time.setGate g { Time.gate s g with fire := .armed b i false } s := by
  rw [setup_entry hf he, if_neg (by simp [ht, hm, hd]), if_pos (by simp [hr.1, mayRelease_iff.2 hr.2])]

theorem setup_misses (hm : s.modes.cur ≠ .m6) (ht : Time.timed s g = true) (hd : d - 128 ≤ Time.sinceLocal s g)
    (hr : ¬ (Time.holds s g = true ∧ MayRelease s g)) : Time.setup g s = Time.missing g b i s := by
  rw [setup_entry hf he, if_neg (by simp [ht, hm, hd]), if_neg]
  rw [Bool.and_eq_true, mayRelease_iff]
  exact hr

theorem setup_early (h : ¬ (Time.timed s g = true ∧ d - 128 ≤ Time.sinceLocal s g)) : Time.setup g s = s := by
  rw [setup_entry hf he, if_pos]
  by_cases ht : Time.timed s g = true
  · simp [not_le.1 fun hs => h ⟨ht, hs⟩]
  · simp [ht]

end

theorem setup_idle (h : s.modes.cur = .m6 ∨ (Time.gate s g).fire ≠ .idle ∨ Time.earliest s g = none) : Time.setup g s = s := by
  unfold Time.setup
  split
  · next b i t hf he =>
    rcases h with hm | hn | hn
    · exact if_pos (by simp [hm])
    · exact absurd hf hn
    · simp [hn] at he
  · rfl

section
variable (hf : (Time.gate s g).fire = .armed b i late) (hd : Time.dueTime s g b i = some d)
include hf hd

theorem releaseDue_armed : Time.releaseDue g s =
    if Ops.modeIn s [.m6] || decide (Time.sinceLocal s g < d) then s
    else if !Time.holds s g then Time.missing g b i s
    else if !Time.mayRelease s g then Time.missing g b i s
    else if Fabric.clear s (.gate (Fin.ofNat 8192 g)) then Time.release g b i late s
    else Time.setGate g { Time.gate s g with fire := .armed b i true } s := by
  simp only [Time.releaseDue, hf, hd]

theorem releaseDue_early (h : Time.sinceLocal s g < d) : Time.releaseDue g s = s := by
  rw [releaseDue_armed hf hd, if_pos (by simp [h])]

theorem releaseDue_due (hm : s.modes.cur ≠ .m6) (h : d ≤ Time.sinceLocal s g) (hh : Time.holds s g = true)
    (hr : MayRelease s g) : Time.releaseDue g s = if Fabric.clear s (.gate (Fin.ofNat 8192 g)) then Time.release g b i late s
      else Time.setGate g { Time.gate s g with fire := .armed b i true } s := by
  rw [releaseDue_armed hf hd, if_neg (by simp [hm, h]), if_neg (by simp [hh]), if_neg (by simp [mayRelease_iff.2 hr])]

theorem releaseDue_lost (hm : s.modes.cur ≠ .m6) (h : d ≤ Time.sinceLocal s g)
    (hr : ¬ (Time.holds s g = true ∧ MayRelease s g)) : Time.releaseDue g s = Time.missing g b i s := by
  rw [releaseDue_armed hf hd, if_neg (by simp [hm, h])]
  by_cases hh : Time.holds s g = true
  · rw [if_neg (by simp [hh]), if_pos]
    simp [mt mayRelease_iff.1 fun hk => hr ⟨hh, hk⟩]
  · rw [if_pos (by simp [hh])]

end

section
variable (hf : (Time.gate s g).fire = .releasing)
include hf

theorem releaseDue_dropped (hm : s.modes.cur ≠ .m6) (hh : ¬ Time.holds s g = true) :
    Time.releaseDue g s = Time.setGate g { Time.gate s g with fire := .idle } s := by
  simp [Time.releaseDue, hf, hm, hh]

theorem releaseDue_releasing (hm : s.modes.cur ≠ .m6) (hh : Time.holds s g = true) : Time.releaseDue g s =
    if Time.mayRelease s g && Fabric.clear s (.gate (Fin.ofNat 8192 g)) then
      Ops.raise 395 (Time.count g 0x11 1 (Time.count g 0x31 1 (Time.setGate g { Time.gate s g with fire := .idle }
        (Fabric.offer (.gate (Fin.ofNat 8192 g)) s))))
    else s := by
  simp only [Time.releaseDue, hf]
  rw [if_neg (by simp [hm]), if_neg (by simp [hh])]

theorem releaseDue_releases (hm : s.modes.cur ≠ .m6) (hh : Time.holds s g = true) (hr : MayRelease s g)
    (hc : Fabric.clear s (.gate (Fin.ofNat 8192 g)) = true) : Time.releaseDue g s =
      Ops.raise 395 (Time.count g 0x11 1 (Time.count g 0x31 1 (Time.setGate g { Time.gate s g with fire := .idle }
        (Fabric.offer (.gate (Fin.ofNat 8192 g)) s)))) := by
  rw [releaseDue_releasing hf hm hh, mayRelease_iff.2 hr, hc]
  rfl

theorem releaseDue_waits (hm : s.modes.cur ≠ .m6) (hh : Time.holds s g = true)
    (hr : ¬ (MayRelease s g ∧ Fabric.clear s (.gate (Fin.ofNat 8192 g)) = true)) : Time.releaseDue g s = s := by
  rw [releaseDue_releasing hf hm hh, if_neg]
  rw [Bool.and_eq_true, mayRelease_iff]
  exact hr

end

theorem releaseDue_idle (h : s.modes.cur = .m6 ∨ ((Time.gate s g).fire ≠ .releasing ∧
    ∀ b i late, (Time.gate s g).fire = .armed b i late → Time.dueTime s g b i = none)) : Time.releaseDue g s = s := by
  cases hf : (Time.gate s g).fire with
  | idle => simp only [Time.releaseDue, hf]
  | waiting b i => simp only [Time.releaseDue, hf]
  | releasing =>
    obtain hm | ⟨hn, -⟩ := h
    · simp only [Time.releaseDue, hf]
      exact if_pos (by simp [hm])
    · exact absurd hf hn
  | armed b i late =>
    cases hd : Time.dueTime s g b i with
    | none => simp only [Time.releaseDue, hf, hd]
    | some d =>
      obtain hm | ⟨-, hn⟩ := h
      · rw [releaseDue_armed hf hd, if_pos (by simp [hm])]
      · simp [hn b i late hf] at hd

section
variable (hf : (Time.gate s g).fire = .waiting b i) (hd : Time.dueTime s g b i = some d)
include hf hd

theorem lateRelease_waiting : Time.lateRelease g s =
    if Ops.modeIn s [.m6] || decide (Time.sinceLocal s g < d) || !Time.holds s g || !Time.mayRelease s g ||
        !Fabric.clear s (.gate (Fin.ofNat 8192 g)) then s
    else Time.release g b i true s := by
  simp only [Time.lateRelease, hf, hd]

/-- The token of the entry that waits can be released. -/
def Comes (s : State) (g : Nat) (d : Int) : Prop :=
  d ≤ Time.sinceLocal s g ∧ Time.holds s g = true ∧ MayRelease s g ∧ Fabric.clear s (.gate (Fin.ofNat 8192 g)) = true

theorem lateRelease_due (hm : s.modes.cur ≠ .m6) (h : Comes s g d) : Time.lateRelease g s = Time.release g b i true s := by
  obtain ⟨past, holds, may, clear⟩ := h
  have mode : Ops.modeIn s [.m6] = false := by simp [hm]
  rw [lateRelease_waiting hf hd, mode, decide_eq_false (not_lt.2 past), holds, mayRelease_iff.2 may, clear]
  rfl

theorem lateRelease_early (h : ¬ Comes s g d) : Time.lateRelease g s = s := by
  rw [lateRelease_waiting hf hd]
  refine ite_eq_left_iff.2 fun hn => absurd ?_ h
  simp only [Bool.or_eq_true, not_or, decide_eq_true_eq, Bool.not_eq_true', Bool.not_eq_false, not_lt] at hn
  obtain ⟨⟨⟨⟨-, past⟩, holds⟩, may⟩, clear⟩ := hn
  exact ⟨past, holds, mayRelease_iff.1 may, clear⟩

end

theorem lateRelease_idle (h : s.modes.cur = .m6 ∨ ∀ b i, (Time.gate s g).fire = .waiting b i → Time.dueTime s g b i = none) :
    Time.lateRelease g s = s := by
  cases hf : (Time.gate s g).fire with
  | idle => simp only [Time.lateRelease, hf]
  | releasing => simp only [Time.lateRelease, hf]
  | armed b i late => simp only [Time.lateRelease, hf]
  | waiting b i =>
    cases hd : Time.dueTime s g b i with
    | none => simp only [Time.lateRelease, hf, hd]
    | some d =>
      obtain hm | hn := h
      · rw [lateRelease_waiting hf hd, if_pos (by simp [hm])]
      · simp [hn b i hf] at hd

end

/-- A release of the token held, late or not. -/
theorem release_gate (g : Fin 8192) (b : Bool) (i : Nat) (late : Bool) (s : State) : Time.release g b i late s =
    let y := Time.count g 0x31 1 (Time.fired g b i (Fabric.offer (.gate g) s))
    if late then Ops.raise 395 (Time.count g 0x11 1 y) else y := by
  simp only [Time.release, Fin.ofNat_val_eq_self]

/-! ### The capture of a gate (R149) -/

section
variable {s : State} (g : Fin 8192)

theorem gateCapture_due {l : List (Nat × Bool)} (hm : s.modes.cur = .m5) (ht : Fabric.thawed s (Frames.regionOf (.gate g)) = true)
    (hh : (Fabric.stage s (.gate g)).held = none) (ha : (Fabric.stage s (.gate g)).inAck = false)
    (hv : Fabric.allValid s (.gate g) = some l) : Time.capture g s =
      let y := Fabric.setStage (.gate g) { Fabric.stage s (.gate g) with held := some (l.any (·.2)), inAck := true } s
      if Time.modeOf (Time.config s g) = 2 then Fabric.offer (.gate g) y else y := by
  have captured := capture_due (g := .gate g) (k := .gate g) hm rfl rfl ht hh ha hv
  simp only [Time.capture, Fin.ofNat_val_eq_self, captured]
  rfl

theorem gateCapture_idle (h : (s.modes.cur ≠ .m5 ∨ Fabric.thawed s (Frames.regionOf (.gate g)) = false) ∨
    (Fabric.stage s (.gate g)).held ≠ none ∨ (Fabric.stage s (.gate g)).inAck = true ∨ Fabric.allValid s (.gate g) = none) :
    Time.capture g s = if Time.modeOf (Time.config s g) = 2 then Fabric.offer (.gate g) s else s := by
  have captured : Fabric.capture (.gate g) s = s := capture_idle (by
    rcases h with (hm | hf) | hh | ha | hv
    · exact .inl hm
    · exact .inr (.inr (.inr (.inr fun k hk => .inl (Option.some.inj hk ▸ hf))))
    · exact .inr (.inr (.inl hh))
    · exact .inr (.inr (.inr (.inl ha)))
    · exact .inr (.inr (.inr (.inr fun k hk => .inr (Option.some.inj hk ▸ hv)))))
  simp only [Time.capture, Fin.ofNat_val_eq_self, captured]

end

/-- Settles O19: the events are their effects where they are due, and nothing elsewhere. -/
theorem gateEvents : Obligations.GateEvents := by
  unfold Obligations.GateEvents
  refine ⟨fun s g h hm => ⟨fun hd hp => ?taken, fun hd hp => ?missed, fun hd => ?undecided, ?starts, ?limits⟩,
    fun v g c n => ⟨retire_counted, fun m hp hs => ?begins, fun hp hs => ?ends, startBank_idle⟩,
    fun s g h => ⟨fun hm => ⟨fun b i d => ⟨fun hf he => ⟨fun hd => ?arms, fun hd => ?tooEarly⟩,
        fun late hf hd => ⟨fun hp hr => ?releases, fun hp hr => ?loses, fun hp => ?notYet⟩,
        fun hf hd => ⟨fun hr => ?comes, fun hr => ?stays⟩⟩,
      fun hf => ⟨fun hh => ?dropped, fun hh hr => ?late, fun hh hr => ?waits⟩⟩,
      fun hi => ?unset, fun hi => ?unreleased, fun hi => ?unexpected, fun hm c hc => ?m6⟩,
    fun s g h => ⟨fun l hf hh ha hv => ?captures, fun hi => ?keeps⟩⟩
  case taken => exact run_awake_of h ((decision_due (s := Ops.begin s) hm hd).trans (if_pos hp))
  case missed => exact run_awake_of h ((decision_due (s := Ops.begin s) hm hd).trans (if_neg hp))
  case undecided => exact run_awake_of h (decision_idle (s := Ops.begin s) (.inr hd))
  case starts => exact run_awake_of h (epochStart_awake (s := Ops.begin s) hm)
  case limits => exact run_awake_of h (overlapLimit_awake (s := Ops.begin s) hm)
  case begins => rw [startBank_committed hp, if_pos hs]
  case ends => rw [startBank_active hp, if_pos hs]
  case arms =>
    obtain ⟨timed, reached⟩ := hd
    refine run_awake_of h ?_
    split
    · next hr => exact setup_arms (s := Ops.begin s) hf he hm timed reached hr
    · next hr => exact setup_misses (s := Ops.begin s) hf he hm timed reached hr
  case tooEarly => exact run_awake_of h (setup_early (s := Ops.begin s) hf he hd)
  case releases =>
    refine run_awake_of h ((releaseDue_due (s := Ops.begin s) hf hd hm hp hr.1 hr.2).trans ?_)
    rw [clear_begin, Fin.ofNat_val_eq_self, release_gate]
    rfl
  case loses => exact run_awake_of h (releaseDue_lost (s := Ops.begin s) hf hd hm hp hr)
  case notYet => exact run_awake_of h (releaseDue_early (s := Ops.begin s) hf hd (not_le.1 hp))
  case comes =>
    refine run_awake_of h ((lateRelease_due (s := Ops.begin s) hf hd hm ?_).trans (release_gate g b i true _))
    rw [Comes, clear_begin, Fin.ofNat_val_eq_self]
    exact hr
  case stays =>
    refine run_awake_of h (lateRelease_early (s := Ops.begin s) hf hd ?_)
    rw [Comes, clear_begin, Fin.ofNat_val_eq_self]
    exact hr
  case dropped => exact run_awake_of h (releaseDue_dropped (s := Ops.begin s) hf hm hh)
  case late =>
    obtain ⟨may, clear⟩ := hr
    refine run_awake_of h ((releaseDue_releases (s := Ops.begin s) hf hm hh may ?_).trans ?_)
    · rw [clear_begin, Fin.ofNat_val_eq_self]
      exact clear
    · rw [Fin.ofNat_val_eq_self]
      rfl
  case waits =>
    refine run_awake_of h (releaseDue_waits (s := Ops.begin s) hf hm hh ?_)
    rw [clear_begin, Fin.ofNat_val_eq_self]
    exact hr
  case unset => exact run_awake_of h (setup_idle (s := Ops.begin s) hi)
  case unreleased => exact run_awake_of h (releaseDue_idle (s := Ops.begin s) hi)
  case unexpected => exact run_awake_of h (lateRelease_idle (s := Ops.begin s) hi)
  case m6 =>
    simp only [List.mem_cons, List.not_mem_nil, or_false] at hc
    rcases hc with rfl | rfl | rfl
    · exact run_awake_of h (decision_idle (s := Ops.begin s) (.inl hm))
    · exact run_awake_of h (epochStart_m6 (s := Ops.begin s) hm)
    · exact run_awake_of h (overlapLimit_m6 (s := Ops.begin s) hm)
  case captures =>
    intro c hc
    have made := gateCapture_due (s := Ops.begin s) g (not_not.1 fun hm => hf (.inl hm))
      (Bool.eq_true_of_not_eq_false fun ht => hf (.inr ht)) hh ha ((congrFun (allValid_begin s) _).trans hv)
    simp only [List.mem_cons, List.not_mem_nil, or_false] at hc
    rcases hc with rfl | rfl
    · exact run_awake_of h made
    · exact run_awake_of h made
  case keeps =>
    intro c hc
    have kept := gateCapture_idle (s := Ops.begin s) g (hi.imp_right fun hh => by rwa [allValid_begin])
    simp only [List.mem_cons, List.not_mem_nil, or_false] at hc
    rcases hc with rfl | rfl
    · exact run_awake_of h kept
    · exact run_awake_of h kept

end Sys2Proof.Laws
end

section
/-!
SUPPORT. The transfer slots of a lane.
-/

namespace Sys2Proof.Laws

open Sys2Proof Sys2Proof.Machine Sys2Proof.Safety

/-! ### Link types from the fabric (R340) -/

/-- A control block of a link type. -/
def linkTyped (b : BitVec 2 × W64) : Bool := b.1 == 0b01#2 && decide (0x80 ≤ b.2.toNat % 256)

section
variable {n : Nat} {l : List (BitVec 2 × W64)} {s : State}

theorem replaceLinks_none (h : l.all (fun b => !linkTyped b) = true) : Lanes.replaceLinks n l s = (l, s) := by
  have none (b) (hb : b ∈ l) : linkTyped b = false := by simpa using List.all_eq_true.1 h b hb
  have blocks : (l.map fun b => if linkTyped b then Lanes.idle false else b) = l :=
    (List.map_congr_left fun b hb => by rw [none b hb]; rfl).trans (List.map_id l)
  have count : (l.filter linkTyped).length = 0 := by simpa using none
  show ((l.map fun b => if linkTyped b then Lanes.idle false else b), if (l.filter linkTyped).length = 0 then s else _) = _
  rw [blocks, if_pos count]

theorem replaceLinks_some (h : l.all (fun b => !linkTyped b) = false) : Lanes.replaceLinks n l s =
    (l.map fun b => if linkTyped b then (0b01, 0) else b,
      Lanes.cause n 12 (Ops.add (0x7100 + n) 0x13 32 (l.filter linkTyped).length s)) := by
  have count : (l.filter linkTyped).length ≠ 0 := by simpa using h
  exact congrArg (Prod.mk _) (if_neg count)

end

/-! ### The slots (R339, R340, R343, R358, R363, R369) -/

section
variable {s : State} {n : Nat}

section
variable (hp : Lanes.portOf s n = none)
include hp

theorem slot_idle (h : Lanes.readyTransfer (Lanes.captureSlices n s) n false = none) :
    Lanes.slot n s = (List.replicate 8 (0b01, 0), 0, Lanes.captureSlices n s) := by
  simp only [Lanes.slot, hp, Option.isSome_none, h]
  rfl

theorem slot_ready {l : List (BitVec 2 × W64)} {k : Nat}
    (h : Lanes.readyTransfer (Lanes.captureSlices n s) n false = some (l, k)) :
    Lanes.slot n s = ((Lanes.replaceLinks n l (Lanes.clearTx n (Lanes.captureSlices n s))).1, k,
      (Lanes.replaceLinks n l (Lanes.clearTx n (Lanes.captureSlices n s))).2) := by
  simp only [Lanes.slot, hp, Option.isSome_none, h]
  rfl

end

theorem transmit_test (h : (Lanes.lane s n).st = .test) : Lanes.transmit n s = Lanes.testSlot n s := by
  simp only [Lanes.transmit, h]

theorem transmit_up (h : (Lanes.lane s n).st = .t7) (hp : Lanes.portOf s n = none) (hb : Lanes.bondOf s n = none) :
    Lanes.transmit n s = if Lanes.due (Lanes.lane s n) then s
      else Lanes.send n (Lanes.slot n (Lanes.countSlot n s)).1 (Lanes.slot n (Lanes.countSlot n s)).2.2 := by
  simp only [Lanes.transmit, h, hp, hb]

theorem transmit_bond {b : Nat} (h : (Lanes.lane s n).st = .t7) (hp : Lanes.portOf s n = none) (hb : Lanes.bondOf s n = some b) :
    Lanes.transmit n s = if Lanes.due (Lanes.lane s n) then s else Lanes.countSlot n (Lanes.bondTransmit b n s) := by
  simp only [Lanes.transmit, h, hp, hb]

theorem transmit_port {f : Nat} (h : (Lanes.lane s n).st = .t7) (hp : Lanes.portOf s n = some f) : Lanes.transmit n s =
    if (Lanes.ethPort s f).tx % Lanes.portWidth (Lanes.portCode s f) ≠ n - f then s
    else Lanes.portSend f n (Lanes.slot n s).1 (Lanes.slot n s).2.1 (Lanes.slot n s).2.2 := by
  simp only [Lanes.transmit, h, hp]

theorem transmit_portDown {f : Nat} (h : (Lanes.lane s n).st = .t0 ∨ (Lanes.lane s n).st = .t1 ∨ (Lanes.lane s n).st = .t2)
    (hp : Lanes.portOf s n = some f) : Lanes.transmit n s = Lanes.send n (List.replicate 8 (0b01, 0x1E)) s := by
  rcases h with h | h | h
  all_goals
    simp only [Lanes.transmit, h, hp]
    rfl

theorem transmit_portSilent {f : Nat} (h : (Lanes.lane s n).st ∉ [LaneSt.t0, .t1, .t2, .t7, .test])
    (hp : Lanes.portOf s n = some f) : Lanes.transmit n s = s := by
  cases hs : (Lanes.lane s n).st <;> simp_all [Lanes.transmit]

theorem transmit_bondDown {b : Nat} (h7 : (Lanes.lane s n).st ≠ .t7) (ht : (Lanes.lane s n).st ≠ .test)
    (hp : Lanes.portOf s n = none) (hb : Lanes.bondOf s n = some b) : Lanes.transmit n s = Lanes.bondTransmit b n s := by
  cases hs : (Lanes.lane s n).st <;> simp_all [Lanes.transmit]

theorem transmit_silent (h7 : (Lanes.lane s n).st ≠ .t7) (ht : (Lanes.lane s n).st ≠ .test)
    (hp : Lanes.portOf s n = none) (hb : Lanes.bondOf s n = none) : Lanes.transmit n s = s := by
  cases hs : (Lanes.lane s n).st <;> simp_all [Lanes.transmit]

end

/-- A capture on the crossing of a transmit slice takes what the slice's channels hold. -/
theorem bridgeCapture_txCrossing (n : Fin 64) (k : Fin 4) (w : W64) (s : State) :
    Lanes.bridgeCapture (Lanes.txCrossing n k) w s = Lanes.captureSlice n k s := by
  have slot : (Lanes.txCrossing n k).slot.val / 8 = 8 * n.val + k.val := by
    show 8 * (8 * n.val + k.val) % 4096 / 8 = _
    omega
  have lane : (8 * n.val + k.val) / 8 = n := by omega
  have slice : (8 * n.val + k.val) % 8 = k := by omega
  simp only [Lanes.bridgeCapture, slot, lane, slice]
  exact if_pos ⟨trivial, by omega⟩

end Sys2Proof.Laws
end

section
/-!
SUPPORT. The transfers that a lane receives.
-/

namespace Sys2Proof.Laws

open Sys2Proof Sys2Proof.Machine Sys2Proof.Safety

/-! ### A transfer is judged (R341, R355) -/

section
variable {s : State} {n : Nat} {l : List Block} (w : List Nat)

theorem eight_of_length (eth : Bool) (h : l.length = 8) : Lanes.eight eth l = l := List.take_left' h

/-- The state that has judged the transfer. -/
def judged (n : Nat) (l : List Block) (w : List Nat) (s : State) : State :=
  Lanes.judge n (Lanes.unscramble n l s).1 w (Lanes.unscramble n l s).2

section
variable (h8 : l.length = 8)
include h8

theorem receive_lanes (h : (Lanes.lane s n).st ∈ [LaneSt.t2, .t3, .t4, .t5, .t6, .t7, .lp1]) : Lanes.receive n l w s =
    if ((Lanes.lane s n).st = .t7 ∨ (Lanes.lane s n).st = .lp1) ∧ (Lanes.lane (judged n l w s) n).st = (Lanes.lane s n).st then
      Lanes.accept n (Lanes.unscramble n l s).1 (judged n l w s)
    else judged n l w s := by
  unfold judged
  cases hs : (Lanes.lane s n).st <;> simp_all [Lanes.receive, eight_of_length]

theorem receive_judged (h : (Lanes.lane s n).st ∈ [LaneSt.t2, .t3, .t4, .t5, .t6] ∨
    ((Lanes.lane s n).st = .t7 ∨ (Lanes.lane s n).st = .lp1) ∧ (Lanes.lane (judged n l w s) n).st ≠ (Lanes.lane s n).st) :
    Lanes.receive n l w s = judged n l w s := by
  rcases h with h | ⟨h, hl⟩
  · have trains : ¬ ((Lanes.lane s n).st = .t7 ∨ (Lanes.lane s n).st = .lp1) := by
      rintro (e | e)
      all_goals simp [e] at h
    rw [receive_lanes w h8 (List.mem_append_left [LaneSt.t7, .lp1] h), if_neg fun e => trains e.1]
  · rw [receive_lanes w h8 (by rcases h with h | h <;> simp [h]), if_neg fun e => hl e.2]

theorem receive_accepted (h : ((Lanes.lane s n).st = .t7 ∨ (Lanes.lane s n).st = .lp1) ∧
    (Lanes.lane (judged n l w s) n).st = (Lanes.lane s n).st) :
    Lanes.receive n l w s = Lanes.accept n (Lanes.unscramble n l s).1 (judged n l w s) := by
  rw [receive_lanes w h8 (by rcases h.1 with h | h <;> simp [h]), if_pos h]

theorem receive_test (h : (Lanes.lane s n).st = .test) : Lanes.receive n l w s = Lanes.testReceive n l s := by
  simp only [Lanes.receive, h, eight_of_length _ h8]

end

theorem receive_deaf (h : (Lanes.lane s n).st ∉ [LaneSt.t2, .t3, .t4, .t5, .t6, .t7, .lp1, .test]) :
    Lanes.receive n l w s = s := by
  cases hs : (Lanes.lane s n).st <;> simp_all [Lanes.receive]

end

/-! ### What leads a transfer on from its lane (R341, R343, R363, R369) -/

/-- `t` has the lanes, the Ethernet ports' counts, Lydan time, and the masks and port maps of `s`. -/
structure Routes (s t : State) : Prop where
  lanes : t.lanes = s.lanes
  ports : t.ethPorts = s.ethPorts
  time : t.time = s.time
  maps : ∀ i, 0x7200 ≤ i → i < 0x8000 → Ops.reg t i 1 = Ops.reg s i 1

namespace Routes

variable {s t u : State}

theorem refl (s : State) : Routes s s := ⟨rfl, rfl, rfl, fun _ _ _ => rfl⟩

theorem trans (h : Routes s t) (g : Routes t u) : Routes s u :=
  ⟨g.lanes.trans h.lanes, g.ports.trans h.ports, g.time.trans h.time,
    fun i lo hi => (g.maps i lo hi).trans (h.maps i lo hi)⟩

theorem of_spares (h : Spares s t) : Routes s t := by
  obtain ⟨frame, regs⟩ := h
  refine ⟨?_, ?_, ?_, fun i lo hi => regs i 1 ?_ (by decide)⟩
  · rw [frame, spare]
  · rw [frame, spare]
  · rw [frame, spare]
  · refine ⟨?_, ?_, ?_, ?_, ?_, ?_, ?_⟩ <;> omega

/-- A write of an object of a lane itself. -/
theorem setReg {i k : Nat} (hi : i < 0x7200) (hk : k < 256) (v : Nat) (s : State) : Routes s (Ops.setReg i k v s) :=
  ⟨by simp, by simp, by simp, fun j lo _ => reg_setReg_other (by omega) v s⟩

theorem track (n : Nat) (b : Bool) (s : State) : Routes s (Ops.track n b s) := by
  unfold Ops.track Ops.level
  cases b with
  | true =>
    rw [if_pos rfl]
    split
    · exact refl s
    · exact of_spares (spares_raise n s)
  | false => exact ⟨rfl, rfl, rfl, fun _ _ _ => rfl⟩

theorem trackHalf (n h : Nat) (s : State) : Routes s (Lanes.trackHalf n h s) := by
  unfold Lanes.trackHalf
  dsimp only
  split
  · exact track _ _ _
  · split
    · exact track _ _ _
    · exact refl _

theorem cause (n : Fin 64) (b : Nat) (s : State) : Routes s (Lanes.cause n b s) :=
  (setReg (i := 0x7100 + n) (k := 0x10) (by omega) (by decide) _ s).trans (trackHalf n (b / 8) _)

theorem unknowns (n : Fin 64) (l : List Block) (s : State) : Routes s (Lanes.unknowns n l s) := by
  unfold Lanes.unknowns
  dsimp only
  split
  · exact refl s
  · exact (setReg (i := 0x7100 + n) (k := 0x13) (by omega) (by decide) _ s).trans (cause n 13 _)

variable (h : Routes s t) (n : Fin 64)
include h

theorem lane_eq (n : Nat) : Lanes.lane t n = Lanes.lane s n := by rw [Lanes.lane, h.lanes, Lanes.lane]

theorem ethPort_eq (f : Nat) : Lanes.ethPort t f = Lanes.ethPort s f := by rw [Lanes.ethPort, h.ports, Lanes.ethPort]

theorem launch_eq : Ops.launch t = Ops.launch s := by rw [Ops.launch, Ops.fraction, h.time, Ops.launch, Ops.fraction]

theorem portCode_eq {f : Nat} (hf : f < 64) : Lanes.portCode t f = Lanes.portCode s f := by
  rw [Lanes.portCode, h.maps _ (by omega) (by omega), Lanes.portCode]

theorem portOf_eq : Lanes.portOf t n = Lanes.portOf s n := by
  simp only [Lanes.portOf, ← List.head?_filterMap]
  congr 1
  refine List.filterMap_congr fun p hp => ?_
  rw [h.portCode_eq (by have := List.mem_range.1 hp; omega)]

theorem bondOf_eq : Lanes.bondOf t n = Lanes.bondOf s n :=
  List.find?_congr fun b hb => by rw [h.maps _ (by omega) (by have := List.mem_range.1 hb; omega)]

end Routes

/-! ### A transfer is accepted (R341, R343, R344, R363, R369) -/

@[simp] theorem lane_setLane_same (n : Nat) (x : Lane) (s : State) : Lanes.lane (Lanes.setLane n x s) n = x :=
  Table.get_put_same _ _ _

/-- The lane has followed the transfer, and has counted its unknown link blocks. -/
def heard (n : Nat) (l : List Block) (s : State) : State :=
  Lanes.unknowns n l (Lanes.setLane n (Lanes.tracked (Lanes.portOf s n).isSome l (Lanes.lane s n)) s)

/-- The transfer as the fabric gets it. -/
def transferOf (n : Nat) (l : List Block) (s : State) : RxTransfer :=
  { blocks := l.map (Lanes.received (Lanes.portOf s n).isSome), time := Ops.launch s
    tsf := (Lanes.portOf s n).isSome && l.any (fun b => !Lanes.inError b && Lanes.isStart b.hdr b.payload), bseq := 0 }

section
variable (n : Fin 64) (l : List Block) (s : State)

/-- What leads the transfer on is as the lane's own fields leave it. -/
theorem heard_routes :
    Routes (Lanes.setLane n (Lanes.tracked (Lanes.portOf s n).isSome l (Lanes.lane s n)) s) (heard n l s) :=
  Routes.unknowns n l _

theorem portOf_heard : Lanes.portOf (heard n l s) n = Lanes.portOf s n := (heard_routes n l s).portOf_eq n

theorem bondOf_heard : Lanes.bondOf (heard n l s) n = Lanes.bondOf s n := (heard_routes n l s).bondOf_eq n

theorem ethPort_heard (f : Nat) : Lanes.ethPort (heard n l s) f = Lanes.ethPort s f := (heard_routes n l s).ethPort_eq f

theorem portCode_heard {f : Nat} (h : f < 64) : Lanes.portCode (heard n l s) f = Lanes.portCode s f :=
  (heard_routes n l s).portCode_eq h

theorem launch_heard : Ops.launch (heard n l s) = Ops.launch s := (heard_routes n l s).launch_eq

theorem st_heard : (Lanes.lane (heard n l s) n).st = (Lanes.lane s n).st := by
  rw [(heard_routes n l s).lane_eq, lane_setLane_same]
  rfl

variable {n s}

theorem portOf_lt {f : Nat} (h : Lanes.portOf s n = some f) : f < 64 := by
  obtain ⟨p, -, hp⟩ := List.exists_of_findSome?_eq_some h
  dsimp only at hp
  split at hp
  · cases hp
    omega
  · cases hp

section
variable (hp : Lanes.portOf s n = none)
include hp

theorem accept_nothing (h : l.all (fun b => Lanes.empty false b) = true ∨ Lanes.isMaintenance l = true) :
    Lanes.accept n l s = heard n l s := by
  have nothing : (Lanes.isMaintenance l || l.all fun b => Lanes.empty false b) = true := by
    rw [Bool.or_eq_true, or_comm]
    exact h
  simp only [Lanes.accept]
  rw [← heard]
  simp only [portOf_heard, hp, Option.isSome_none, Bool.not_false, Bool.true_and, nothing, if_true]

section
variable (hb : ¬ l.all (fun b => Lanes.empty false b) = true) (hm : Lanes.isMaintenance l = false)
include hb hm

omit hp in
theorem not_nothing : (Lanes.isMaintenance l || l.all fun b => Lanes.empty false b) = false := by
  rw [hm, Bool.eq_false_iff.2 hb]
  rfl

theorem accept_delivers (h : Lanes.bondOf s n = none ∨ (Lanes.lane s n).st ≠ .t7 ∧ (Lanes.lane s n).st ≠ .lp1) :
    Lanes.accept n l s = Lanes.deliver n (transferOf n l s) (heard n l s) := by
  have whole := not_nothing l hb hm
  simp only [Lanes.accept]
  rw [← heard]
  simp only [portOf_heard, bondOf_heard, st_heard, launch_heard, transferOf, hp, Option.isSome_none, Bool.not_false,
    Bool.true_and, whole, Bool.false_eq_true, if_false]
  split
  · next hb7 h7 => simp [hb7, h7] at h
  · next hbl hl => simp [hbl, hl] at h
  · rfl

theorem accept_bonded {b : Nat} (hbond : Lanes.bondOf s n = some b)
    (h : (Lanes.lane s n).st = .t7 ∨ (Lanes.lane s n).st = .lp1) :
    Lanes.accept n l s = Lanes.bondReceive b n (transferOf n l s) (heard n l s) := by
  have whole := not_nothing l hb hm
  simp only [Lanes.accept]
  rw [← heard]
  simp only [portOf_heard, bondOf_heard, st_heard, launch_heard, transferOf, hp, Option.isSome_none, Bool.not_false,
    Bool.true_and, whole, Bool.false_eq_true, if_false, hbond]
  rcases h with h | h <;> simp only [h]

end

end

section
variable {f : Nat} (hp : Lanes.portOf s n = some f)
include hp

/-- The transfer is counted as the port's next. -/
def portCounted (f : Nat) (s v : State) : State :=
  Lanes.setEthPort f { Lanes.ethPort s f with rx := (Lanes.ethPort s f).rx + 1 } v

theorem accept_port : Lanes.accept n l s =
    if (Lanes.ethPort s f).rx % Lanes.portWidth (Lanes.portCode s f) ≠ n - f then heard n l s
    else if l.all (fun b => Lanes.empty true b) then portCounted f s (heard n l s)
    else Lanes.deliver n (transferOf n l s) (portCounted f s (heard n l s)) := by
  simp only [Lanes.accept]
  rw [← heard]
  simp only [portOf_heard, ethPort_heard, portCode_heard n l s (portOf_lt hp), transferOf, launch_heard, hp, Option.isSome_some,
    Bool.not_true, Bool.false_and, Bool.false_or]
  rfl

end

end

/-! ### Blocks as they come (R338, R341) -/

section
variable {b : Block}

theorem inError_data (hf : b.fecBad = false) (h : b.hdr = 0b10#2) : Lanes.inError b = false := by simp [Lanes.inError, hf, h]

theorem inError_control (hf : b.fecBad = false) (h : b.hdr = 0b01#2) : Lanes.inError b = false := by
  simp [Lanes.inError, hf, h]

theorem controlType_data (h : b.hdr = 0b10#2) : Lanes.controlType b = none := by
  simp [Lanes.controlType, h]

theorem controlType_control (hf : b.fecBad = false) (h : b.hdr = 0b01#2) :
    Lanes.controlType b = some (b.payload.toNat % 256) := by
  simp [Lanes.controlType, inError_control hf h, h]

/-- A data block, or a control block that is no link block. -/
def Plain (b : Block) : Prop := b.fecBad = false ∧ (b.hdr = 0b10#2 ∨ b.hdr = 0b01#2 ∧ b.payload.toNat % 256 < 0x80)

theorem received_plain (h : Plain b) :
    Lanes.received false b = { ctrl := b.hdr == 0b01#2, err := false, payload := b.payload } := by
  obtain ⟨hf, hd | ⟨hc, ht⟩⟩ := h
  · simp [Lanes.received, inError_data hf hd, hd]
  · simp [Lanes.received, inError_control hf hc, hc, Nat.not_le.2 ht]

/-- A plain block has no type of a link block. -/
theorem controlType_plain (h : Plain b) {t : Nat} (ht : Lanes.controlType b = some t) : t < 0x80 := by
  obtain ⟨hf, hd | ⟨hc, hlt⟩⟩ := h
  · simp [controlType_data hd] at ht
  · rw [controlType_control hf hc] at ht
    exact Option.some.inj ht ▸ hlt

theorem empty_plain (h : Plain b) (he : Lanes.empty false b = true) : b.hdr ≠ 0b10#2 ∧ b.payload.toNat % 256 = 0 := by
  obtain ⟨hf, hd | ⟨hc, hlt⟩⟩ := h
  · simp [Lanes.empty, controlType_data hd] at he
  · have idle : b.payload.toNat % 256 = 0 := by
      simp only [Lanes.empty, controlType_control hf hc, Bool.false_eq_true, if_false, Bool.or_eq_true, beq_iff_eq,
        decide_eq_true_eq] at he
      omega
    exact ⟨by simp [hc], idle⟩

/-- Idle, or a link block of the table. -/
def Bare (b : Block) : Prop := b.fecBad = false ∧ b.hdr = 0b01#2 ∧
  (b.payload.toNat % 256 = 0 ∨ Lanes.knownLink (b.payload.toNat % 256) = true)

theorem knownLink_type {t : Nat} (h : Lanes.knownLink t = true) : 0x80 ≤ t := by
  simp only [Lanes.knownLink, List.contains_iff_mem, List.mem_cons, List.not_mem_nil, or_false] at h
  omega

theorem empty_bare (h : Bare b) : Lanes.empty false b = true := by
  obtain ⟨hf, hc, ht⟩ := h
  rcases ht with ht | ht
  · simp [Lanes.empty, controlType_control hf hc, ht]
  · simp [Lanes.empty, controlType_control hf hc, knownLink_type ht]

end

theorem unknowns_same {n : Nat} {l : List Block} {s : State}
    (h : ∀ b ∈ l, ∀ t, Lanes.controlType b = some t → t < 0x80 ∨ Lanes.knownLink t = true) : Lanes.unknowns n l s = s := by
  have none (b) (hb : b ∈ l) : ((Lanes.controlType b).any fun t => decide (0x80 ≤ t) && !Lanes.knownLink t) = false := by
    cases ht : Lanes.controlType b with
    | none => rfl
    | some t =>
      rcases h b hb t ht with hl | hk
      · simp [Nat.not_le.2 hl]
      · simp [hk]
  have count : (l.filter fun b => (Lanes.controlType b).any fun t => decide (0x80 ≤ t) && !Lanes.knownLink t).length = 0 := by
    rw [List.filter_eq_nil_iff.2 fun b hb => Bool.eq_false_iff.1 (none b hb)]
    rfl
  exact if_pos (.inr count)

section
variable {n : Fin 64} {l : List Block} {s : State} (hp : Lanes.portOf s n = none)
include hp

theorem heard_known (h : ∀ b ∈ l, ∀ t, Lanes.controlType b = some t → t < 0x80 ∨ Lanes.knownLink t = true) :
    heard n l s = Lanes.setLane n (Lanes.tracked false l (Lanes.lane s n)) s := by
  rw [heard, hp, unknowns_same h]
  rfl

theorem accept_plain (hb : Lanes.bondOf s n = none) (h : ∀ b ∈ l, Plain b)
    (hd : ∃ b ∈ l, b.hdr = 0b10#2 ∨ b.payload.toNat % 256 ≠ 0) : Lanes.accept n l s = Lanes.deliver n
      { blocks := l.map fun b => { ctrl := b.hdr == 0b01#2, err := false, payload := b.payload }
        time := Ops.launch s, tsf := false, bseq := 0 } (Lanes.setLane n (Lanes.tracked false l (Lanes.lane s n)) s) := by
  have content : ¬ l.all (fun b => Lanes.empty false b) = true := fun he => by
    obtain ⟨b, hl, hx⟩ := hd
    obtain ⟨hc, hi⟩ := empty_plain (h b hl) (List.all_eq_true.1 he b hl)
    exact hx.elim hc (· hi)
  have unmarked : Lanes.isMaintenance l = false := by
    cases l with
    | nil => rfl
    | cons b l =>
      refine beq_false_of_ne fun ht => ?_
      exact absurd (controlType_plain (h b List.mem_cons_self) ht) (by decide)
  have transfer : transferOf n l s = { blocks := l.map fun b => { ctrl := b.hdr == 0b01#2, err := false, payload := b.payload }
                                       time := Ops.launch s, tsf := false, bseq := 0 } := by
    have blocks := List.map_congr_left fun b hl => received_plain (h b hl)
    rw [transferOf, hp, Option.isSome_none, blocks, Bool.false_and]
  rw [accept_delivers l hp content unmarked (.inl hb), transfer,
    heard_known hp fun b hl t ht => .inl (controlType_plain (h b hl) ht)]

theorem accept_bare (h : ∀ b ∈ l, Bare b) :
    Lanes.accept n l s = Lanes.setLane n (Lanes.tracked false l (Lanes.lane s n)) s := by
  rw [accept_nothing l hp (.inl (List.all_eq_true.2 fun b hl => empty_bare (h b hl))), heard_known hp]
  intro b hl t ht
  obtain ⟨hf, hc, hk⟩ := h b hl
  rw [controlType_control hf hc] at ht
  cases ht
  exact hk.imp_left fun e => by omega

end

/-! ### The scrambler (R336) -/

/-- What a lane scrambles, its partner's descrambler gives back, and the registers stay the same. -/
theorem descramble_scramble (k v : Nat) (r : BitVec 58) :
    Line.descramble k r (Line.scramble k r v).1 = (v % 2 ^ k, (Line.scramble k r v).2) := by
  induction k generalizing r v with
  | zero => simp [Line.descramble, Line.scramble, Nat.mod_one]
  | succ k ih =>
    have low (b : Bool) (m : Nat) : (2 * m + Line.one b).testBit 0 = b ∧ (2 * m + Line.one b) / 2 = m := by
      cases b
      · simp [Line.one]
      · exact ⟨by simp [Line.one], by simp only [Line.one, if_true]; omega⟩
    have bit : Line.one (v.testBit 0) = v % 2 := by
      rw [Nat.testBit_zero]
      rcases Nat.mod_two_eq_zero_or_one v with h | h <;> simp [Line.one, h]
    obtain ⟨first, rest⟩ := low (v.testBit 0 ^^ Line.mask r) (Line.scramble k (Line.shift r (v.testBit 0 ^^ Line.mask r)) (v / 2)).1
    simp only [Line.descramble, Line.scramble, first, rest, ih, Bool.xor_assoc, Bool.xor_self, Bool.xor_false, bit]
    congr 1
    rw [Nat.pow_succ', Nat.mod_mul]
    omega

end Sys2Proof.Laws
end

section
/-!
SUPPORT. The maintenance transfers of a lane, and its margin.
-/

namespace Sys2Proof.Laws

open Sys2Proof Sys2Proof.Machine Sys2Proof.Safety

/-! ### Eight blocks go out (R336, R337, R369) -/

/-- `t` has what lane `n` of `s` goes by in its training, with Lydan time and its servo. -/
structure PutsOut (n : Nat) (s t : State) : Prop where
  time : t.time = s.time
  servo : t.servo = s.servo
  st : (Lanes.lane t n).st = (Lanes.lane s n).st
  run : (Lanes.lane t n).run = (Lanes.lane s n).run
  proposal : Lanes.proposal t n = Lanes.proposal s n

theorem send_putsOut (n : Nat) (l : List (BitVec 2 × W64)) (s : State) : PutsOut n s (Lanes.send n l s) := by
  have stores (r : BitVec 58) (c : List (BitVec 257)) :
      PutsOut n s (Lanes.setLane n { Lanes.lane s n with scrambler := r, fecLine := c } s) :=
    ⟨rfl, rfl, by rw [lane_setLane_same], by rw [lane_setLane_same],
      by simp only [Lanes.proposal, Lanes.common, lane_setLane_same]; rfl⟩
  have emits {t : State} (o : Output) (h : PutsOut n s t) : PutsOut n s (Ops.emit o t) :=
    ⟨h.time, h.servo, h.st, h.run, h.proposal⟩
  have same : PutsOut n s s := ⟨rfl, rfl, rfl, rfl, rfl⟩
  unfold Lanes.send
  dsimp only
  split
  · exact same
  · split
    · exact emits _ same
    · split
      · unfold Lanes.sendFec
        dsimp only
        split
        · exact stores _ _
        · exact emits _ (stores _ _)
      · exact emits _ (stores _ (Lanes.lane s n).fecLine)

/-! ### The maintenance transfers (R339, R346 to R349, R362) -/

/-- A maintenance transfer of the blocks `l` has gone out, and `f` is what it makes of the lane. -/
def maintained (n : Nat) (l : List (BitVec 2 × W64)) (f : Lane → Lane) (s : State) : State :=
  Lanes.setLane n
    (f { Lanes.lane (Lanes.send n l s) n with maintenance := (Lanes.lane s n).maintenance + 1 }) (Lanes.send n l s)

section
variable {s : State} {n : Nat}

theorem maintenance_none (h : Lanes.streller s n = false ∨
    (Lanes.lane s n).st ∈ [LaneSt.off, .t0, .lp1, .lp2, .test, .retired]) : Lanes.maintenance n s = s := by
  unfold Lanes.maintenance
  by_cases hs : Lanes.streller s n = true
  · simp only [hs, Bool.not_true, Bool.false_eq_true, if_false]
    cases hx : (Lanes.lane s n).st <;> simp_all
  · simp [hs]

theorem markBlock_single (h : Lanes.bondOf s n = none) :
    Lanes.markBlock s n = Lanes.linkBlock 0x80 (((Lanes.lane s n).maintenance + 1) % 256) := by
  simp [Lanes.markBlock, Lanes.nextBseq, h]

theorem markBlock_member {b i k : Nat} (h : Lanes.bondOf s n = some b) (hi : (Lanes.members s b).idxOf? n = some i)
    (hk : Lanes.nextAt (Lanes.bond s b).txLive (Lanes.bond s b).txSwitch i (Lanes.bond s b).txNext = some k) :
    Lanes.markBlock s n = Lanes.linkBlock 0x80 (((Lanes.lane s n).maintenance + 1) % 256 + k % 65536 * 2 ^ 8 +
      if Ops.bit (Lanes.bond s b).txLive i then 2 ^ 24 else 0) := by
  simp only [Lanes.markBlock, Lanes.nextBseq, h, hi, hk, Option.getD_some]

section
variable (hs : Lanes.streller s n = true)
include hs

theorem maintenance_training (h : (Lanes.lane s n).st ∈ [LaneSt.t1, .t2, .t3, .t4, .t5, .t6]) : Lanes.maintenance n s =
    Lanes.tryT4 n (maintained n (Lanes.markBlock s n :: Lanes.stageBlocks s n) (fun y => { y with
      sent := if (Lanes.lane s n).st = .t4 then (Lanes.lane s n).sent + 7 else (Lanes.lane s n).sent
      prbs := if (Lanes.lane s n).st = .t6 then (Line.dataBlocks 6 (Lanes.lane s n).prbs).2 else (Lanes.lane s n).prbs }) s) := by
  simp only [List.mem_cons, List.not_mem_nil, or_false] at h
  simp only [Lanes.maintenance, hs, Bool.not_true, Bool.false_eq_true, if_false]
  rcases h with h | h | h | h | h | h
  all_goals
    simp only [h]
    rfl

/-- In training but for T4, the transfer alone goes out. -/
theorem maintenance_stage {l : List (BitVec 2 × W64)} {p : BitVec 31}
    (h : (Lanes.lane s n).st ∈ [LaneSt.t1, .t2, .t3, .t5, .t6]) (hl : Lanes.stageBlocks s n = l)
    (hp : (if (Lanes.lane s n).st = .t6 then (Line.dataBlocks 6 (Lanes.lane s n).prbs).2 else (Lanes.lane s n).prbs) = p) :
    Lanes.maintenance n s = maintained n (Lanes.markBlock s n :: l)
      (fun y => { y with sent := (Lanes.lane s n).sent, prbs := p }) s := by
  have training : (Lanes.lane s n).st ≠ .t4 := by
    rintro e
    simp [e] at h
  rw [maintenance_training hs (List.Sublist.subset (by decide) h), if_neg training, hl, hp]
  refine if_neg ?_
  rw [maintained, lane_setLane_same]
  exact fun e => training ((send_putsOut n _ s).st.symm.trans e.1)

theorem maintenance_mark (h : (Lanes.lane s n).st = .t1 ∨ (Lanes.lane s n).st = .t2) : Lanes.maintenance n s =
    maintained n (Lanes.markBlock s n :: List.replicate 7 (0b01, 0))
      (fun y => { y with sent := (Lanes.lane s n).sent, prbs := (Lanes.lane s n).prbs }) s := by
  rcases h with h | h
  all_goals
    refine maintenance_stage hs (by simp [h]) ?_ (if_neg (by simp [h]))
    simp only [Lanes.stageBlocks, h]
    rfl

theorem maintenance_capability (h : (Lanes.lane s n).st = .t3) : Lanes.maintenance n s =
    maintained n (Lanes.markBlock s n :: List.replicate 7 (Lanes.linkBlock 0x81 (Lanes.ownCapability s n)))
      (fun y => { y with sent := (Lanes.lane s n).sent, prbs := (Lanes.lane s n).prbs }) s :=
  maintenance_stage hs (by simp [h]) (by simp only [Lanes.stageBlocks, h]) (if_neg (by simp [h]))

theorem maintenance_verify (h : (Lanes.lane s n).st = .t5) : Lanes.maintenance n s =
    maintained n (Lanes.markBlock s n :: (List.replicate 6 (0b01, 0) ++
        [Lanes.linkBlock 0x84 (if (Lanes.lane s n).converged then 1 else 0)]))
      (fun y => { y with sent := (Lanes.lane s n).sent, prbs := (Lanes.lane s n).prbs }) s := by
  refine maintenance_stage hs (by simp [h]) ?_ (if_neg (by simp [h]))
  simp only [Lanes.stageBlocks, h]
  rfl

/-- What a Verify block says of the lane's own check. -/
def verdict (o : Option Bool) : Nat := match o with
  | none => 1
  | some true => 2
  | some false => 3

theorem maintenance_pattern (h : (Lanes.lane s n).st = .t6) : Lanes.maintenance n s =
    maintained n (Lanes.markBlock s n :: ((Line.dataBlocks 6 (Lanes.lane s n).prbs).1 ++
        [Lanes.linkBlock 0x84 (verdict (Lanes.lane s n).ownPass)]))
      (fun y => { y with sent := (Lanes.lane s n).sent, prbs := (Line.dataBlocks 6 (Lanes.lane s n).prbs).2 }) s := by
  refine maintenance_stage hs (by simp [h]) ?_ (if_pos h)
  simp only [Lanes.stageBlocks, h]
  rfl

omit hs in
theorem tryT4_eq (h : (Lanes.lane s n).st = .t4) : Lanes.tryT4 n s =
    if 16 ≤ (Lanes.lane s n).sent ∧ 4 ≤ (Lanes.lane s n).run then
      Lanes.enter n .t5 (Lanes.setRate n (Lanes.proposal s n).1 (Lanes.proposal s n).2 s)
    else s := by
  simp only [Lanes.tryT4, h, true_and]

/-- The transfer of T4 has gone out. -/
def proposed (n : Nat) (s : State) : State :=
  maintained n (Lanes.markBlock s n :: List.replicate 7 (Lanes.linkBlock 0x82
      ((Lanes.proposal s n).1 + if (Lanes.proposal s n).2 then 256 else 0)))
    (fun y => { y with sent := (Lanes.lane s n).sent + 7, prbs := (Lanes.lane s n).prbs }) s

omit hs in
theorem proposed_lane : (Lanes.lane (proposed n s) n).st = (Lanes.lane s n).st ∧
    (Lanes.lane (proposed n s) n).sent = (Lanes.lane s n).sent + 7 ∧
    (Lanes.lane (proposed n s) n).run = (Lanes.lane s n).run ∧ Lanes.proposal (proposed n s) n = Lanes.proposal s n := by
  have out := fun l => send_putsOut n l s
  refine ⟨?_, ?_, ?_, ?_⟩
  · rw [proposed, maintained, lane_setLane_same]
    exact (out _).st
  · rw [proposed, maintained, lane_setLane_same]
  · rw [proposed, maintained, lane_setLane_same]
    exact (out _).run
  · rw [← (out _).proposal]
    simp only [Lanes.proposal, Lanes.common, proposed, maintained, lane_setLane_same]
    rfl

theorem maintenance_t4 (h : (Lanes.lane s n).st = .t4) : Lanes.maintenance n s =
    if 16 ≤ (Lanes.lane s n).sent + 7 ∧ 4 ≤ (Lanes.lane s n).run then
      Lanes.enter n .t5 (Lanes.setRate n (Lanes.proposal s n).1 (Lanes.proposal s n).2 (proposed n s))
    else proposed n s := by
  have blocks : Lanes.stageBlocks s n =
      List.replicate 7 (Lanes.linkBlock 0x82 ((Lanes.proposal s n).1 + if (Lanes.proposal s n).2 then 256 else 0)) := by
    simp only [Lanes.stageBlocks, h]
  obtain ⟨st, sent, run, proposal⟩ := proposed_lane (s := s) (n := n)
  rw [maintenance_training hs (by simp [h]), if_pos h, if_neg (by simp [h]), blocks, ← proposed, tryT4_eq (st.trans h), sent,
    run, proposal]

end

/-! ### The maintenance transfers in T7 (R164, R339, R362) -/

/-- The link blocks that the next maintenance transfer carries, and those that go on waiting. -/
def carried (x : Lane) : List LinkBlock × List LinkBlock := Lanes.fit 7 (Lanes.priority x.queue)

/-- A delay request of the follower is among the link blocks. -/
def asks (l : List LinkBlock) : Bool := l.any fun b => match b with
  | .time 1 _ => true
  | _ => false

/-- The low-power state that the link blocks announce. -/
def announced (l : List LinkBlock) : Option Nat := l.findSome? fun b => match b with
  | .lowPower k => some k
  | _ => none

theorem announced_none {l : List LinkBlock} (h : ∀ k, .lowPower k ∉ l) : announced l = none := by
  refine List.findSome?_eq_none_iff.2 fun b hb => ?_
  cases b with
  | lowPower k => exact absurd hb (h k)
  | time k v => rfl
  | bond k tx rx => rfl

theorem announced_last {l : List LinkBlock} (h : ∀ j, .lowPower j ∉ l) (k : Nat) : announced (l ++ [.lowPower k]) = some k := by
  have before := announced_none h
  unfold announced at before ⊢
  rw [List.findSome?_append, before]
  rfl

/-- The due transfer has gone out. -/
def carriedOut (n : Nat) (s : State) : State :=
  maintained n ((Lanes.markBlock s n :: (carried (Lanes.lane s n)).1.flatMap (Lanes.spell s) ++
      List.replicate 7 (0b01, 0)).take 8)
    (fun y => { y with since := 0, queue := (carried (Lanes.lane s n)).2 }) s

/-- It has, and the follower has noted the time of its request. -/
def noted (n : Nat) (s : State) : State :=
  if asks (carried (Lanes.lane s n)).1 = true ∧ s.servo.exchange.length = 2 then
    servo (fun m => { m with exchange := m.exchange ++ [Time.units s.time] }) (carriedOut n s)
  else carriedOut n s

theorem carriedOut_frame : (carriedOut n s).servo = s.servo ∧ (carriedOut n s).time = s.time :=
  ⟨(send_putsOut n _ s).servo, (send_putsOut n _ s).time⟩

theorem noted_eq : noted n s =
    if asks (carried (Lanes.lane s n)).1 && decide ((carriedOut n s).servo.exchange.length = 2) then
      servo (fun m => { m with exchange := m.exchange ++ [Time.units (carriedOut n s).time] }) (carriedOut n s)
    else carriedOut n s := by
  obtain ⟨servo, time⟩ := carriedOut_frame (s := s) (n := n)
  simp only [noted, servo, time, Bool.and_eq_true, decide_eq_true_eq]

section
variable (hs : Lanes.streller s n = true) (h : (Lanes.lane s n).st = .t7)
include hs h

theorem maintenance_early (hd : Lanes.due (Lanes.lane s n) = false) : Lanes.maintenance n s = s := by
  simp only [Lanes.maintenance, hs, h, hd, Bool.not_true, Bool.not_false, Bool.false_eq_true, if_true, if_false]

/-- What the lane does next is what the link blocks announce. -/
theorem maintenance_due (hd : Lanes.due (Lanes.lane s n) = true) : Lanes.maintenance n s =
    if announced (carried (Lanes.lane s n)).1 = some 1 then Lanes.enter n .lp1 (noted n s)
    else if announced (carried (Lanes.lane s n)).1 = some 2 then Lanes.enter n .lp2 (noted n s)
    else noted n s := by
  rw [noted_eq]
  simp only [Lanes.maintenance, hs, h, hd, Bool.not_true, Bool.false_eq_true, if_false]
  split
  · next e =>
    have one : announced (carried (Lanes.lane s n)).1 = some 1 := e
    exact (if_pos one).symm
  · next e =>
    have two : announced (carried (Lanes.lane s n)).1 = some 2 := e
    exact ((if_neg (two.trans_ne (by decide))).trans (if_pos two)).symm
  · next e1 e2 =>
    have other : announced (carried (Lanes.lane s n)).1 ≠ some 1 ∧ announced (carried (Lanes.lane s n)).1 ≠ some 2 := ⟨e1, e2⟩
    exact ((if_neg other.1).trans (if_neg other.2)).symm

theorem maintenance_silent (hd : Lanes.due (Lanes.lane s n) = true)
    (ha : announced (carried (Lanes.lane s n)).1 = none) : Lanes.maintenance n s = noted n s := by
  rw [maintenance_due hs h hd, ha, if_neg (by decide), if_neg (by decide)]

theorem maintenance_announces {k : Nat} (hd : Lanes.due (Lanes.lane s n) = true)
    (ha : announced (carried (Lanes.lane s n)).1 = some k) (hk : k = 1 ∨ k = 2) :
    Lanes.maintenance n s = Lanes.enter n (if k = 1 then .lp1 else .lp2) (noted n s) := by
  rw [maintenance_due hs h hd, ha]
  rcases hk with rfl | rfl
  · rw [if_pos rfl, if_pos rfl]
  · rw [if_neg (by decide), if_pos rfl, if_neg (by decide)]

end

/-- Nothing waits: Idle goes out. -/
theorem noted_empty (h : (Lanes.lane s n).queue = []) : noted n s =
    maintained n (Lanes.markBlock s n :: List.replicate 7 (0b01, 0)) (fun y => { y with since := 0, queue := [] }) s := by
  have none : carried (Lanes.lane s n) = ([], []) := by
    rw [carried, h]
    rfl
  rw [noted, carriedOut, none]
  exact if_neg (by simp [asks])

theorem carried_lowPower {k : Nat} (h : (Lanes.lane s n).queue = [.lowPower k]) :
    carried (Lanes.lane s n) = ([.lowPower k], []) := by
  rw [carried, h]
  rfl

/-- A Low power block alone waits. -/
theorem noted_lowPower {k : Nat} (h : (Lanes.lane s n).queue = [.lowPower k]) : noted n s =
    maintained n (Lanes.markBlock s n :: Lanes.linkBlock 0x87 k :: List.replicate 6 (0b01, 0))
      (fun y => { y with since := 0, queue := [] }) s := by
  rw [noted, carriedOut, carried_lowPower h]
  exact if_neg (by simp [asks])

section
variable (hs : Lanes.streller s n = true) (h : (Lanes.lane s n).st = .t7) (hd : Lanes.due (Lanes.lane s n) = true)
include hs h hd

theorem maintenance_empty (hq : (Lanes.lane s n).queue = []) : Lanes.maintenance n s =
    maintained n (Lanes.markBlock s n :: List.replicate 7 (0b01, 0)) (fun y => { y with since := 0, queue := [] }) s := by
  refine (maintenance_silent hs h hd ?_).trans (noted_empty hq)
  rw [carried, hq]
  rfl

theorem maintenance_lowPower {k : Nat} (hq : (Lanes.lane s n).queue = [.lowPower k]) (hk : k = 1 ∨ k = 2) :
    Lanes.maintenance n s = Lanes.enter n (if k = 1 then .lp1 else .lp2)
      (maintained n (Lanes.markBlock s n :: Lanes.linkBlock 0x87 k :: List.replicate 6 (0b01, 0))
        (fun y => { y with since := 0, queue := [] }) s) := by
  have last : announced (carried (Lanes.lane s n)).1 = some k := by
    rw [carried_lowPower hq]
    rfl
  rw [maintenance_announces hs h hd last hk, noted_lowPower hq]

end

end

/-! ### The margin (R356, R357) -/

section
variable {s : State} {n m : Nat}

/-- The sample is below the level that a short retrain is called for at. -/
def Weak (x : Lane) (m : Nat) : Prop := 1000 * m < 850 * x.reference

/-- No short retrain is called for: one runs, or the pause after one is not over. -/
def Held (s : State) (x : Lane) : Prop := x.retraining = true ∨ (Ops.launch s).toNat < x.pauseUntil

/-- The `low`th weak sample in a row calls for a short retrain. -/
def calls (s : State) (x : Lane) (low : Nat) : Bool :=
  decide (3 ≤ low) && !x.retraining && decide (x.pauseUntil ≤ (Ops.launch s).toNat)

theorem calls_iff {x : Lane} {low : Nat} : calls s x low = true ↔ 3 ≤ low ∧ ¬ Held s x := by
  simp [calls, Held, not_or, and_assoc]

theorem marginSample_reference
    (h : (Lanes.lane s n).st = .t6 ∨ (Lanes.lane s n).refDue = true ∧ (Lanes.lane s n).st ≠ .t7) :
    Lanes.marginSample n m s = Lanes.setLane n { Lanes.lane s n with margin := m, measured := some m } s := if_pos h

theorem marginSample_none (h6 : (Lanes.lane s n).st ≠ .t6) (h7 : (Lanes.lane s n).st ≠ .t7)
    (hr : (Lanes.lane s n).refDue = false) : Lanes.marginSample n m s = s := by
  simp [Lanes.marginSample, h6, h7, hr]

section
variable (h : (Lanes.lane s n).st = .t7)
include h

theorem marginSample_up : Lanes.marginSample n m s =
    let x := Lanes.lane s n
    let low := if Lanes.weak x m then x.low + 1 else 0
    Lanes.setLane n { x with
      margin := m, low := if calls s x low then 0 else low, retraining := x.retraining || calls s x low
      slow := x.slow && !calls s x low } s := by
  refine (if_neg ?_).trans (if_neg (not_not.2 h))
  rintro (h6 | ⟨-, h7⟩)
  · simp [show (Lanes.lane s n).st = .t6 from h6] at h
  · exact h7 h

theorem marginSample_good (hw : ¬ Weak (Lanes.lane s n) m) :
    Lanes.marginSample n m s = Lanes.setLane n { Lanes.lane s n with margin := m, low := 0 } s := by
  have good : Lanes.weak (Lanes.lane s n) m = false := decide_eq_false hw
  have stays : calls s (Lanes.lane s n) 0 = false := rfl
  rw [marginSample_up h]
  simp [good, stays]

section
variable (hw : Weak (Lanes.lane s n) m)
include hw

theorem marginSample_weak (hh : (Lanes.lane s n).low < 2 ∨ Held s (Lanes.lane s n)) : Lanes.marginSample n m s =
    Lanes.setLane n { Lanes.lane s n with margin := m, low := (Lanes.lane s n).low + 1 } s := by
  have weak : Lanes.weak (Lanes.lane s n) m = true := decide_eq_true hw
  have stays : calls s (Lanes.lane s n) ((Lanes.lane s n).low + 1) = false := by
    refine Bool.eq_false_iff.2 fun hc => ?_
    obtain ⟨third, free⟩ := calls_iff.1 hc
    exact hh.elim (by omega) free
  rw [marginSample_up h]
  simp [weak, stays]

theorem marginSample_retrains (hl : 2 ≤ (Lanes.lane s n).low) (hh : ¬ Held s (Lanes.lane s n)) : Lanes.marginSample n m s =
    Lanes.setLane n { Lanes.lane s n with margin := m, low := 0, retraining := true, slow := false } s := by
  have weak : Lanes.weak (Lanes.lane s n) m = true := decide_eq_true hw
  have goes : calls s (Lanes.lane s n) ((Lanes.lane s n).low + 1) = true := calls_iff.2 ⟨by omega, hh⟩
  rw [marginSample_up h]
  simp [weak, goes]

end

theorem retrainEnd_due (hr : (Lanes.lane s n).retraining = true) : Lanes.retrainEnd n m s =
    Lanes.cause n 8 (Ops.bump (0x7100 + n) 0x0E (Lanes.setLane n { Lanes.lane s n with
      margin := m, retraining := false, low := 0
      pauseUntil := if 1000 * m < 850 * (Lanes.lane s n).reference then (Ops.launch s).toNat + 1600000000
        else (Lanes.lane s n).pauseUntil } s)) := by
  refine (if_neg (by simp [h, hr])).trans ?_
  simp only [Lanes.weak, decide_eq_true_eq]

theorem slowDown_due (hr : (Lanes.lane s n).retraining = false) :
    Lanes.slowDown n s = Lanes.setLane n { Lanes.lane s n with slow := true } s := if_pos (by simp [h, hr])

end

theorem retrainEnd_none (h : (Lanes.lane s n).st ≠ .t7 ∨ (Lanes.lane s n).retraining = false) :
    Lanes.retrainEnd n m s = s := if_pos (by simpa using h)

theorem slowDown_none (h : (Lanes.lane s n).st ≠ .t7 ∨ (Lanes.lane s n).retraining = true) :
    Lanes.slowDown n s = s := by
  refine if_neg ?_
  rcases h with h | h <;> simp [h]

end

end Sys2Proof.Laws
end

section
/-!
SUPPORT. What settles the transfers of a lane.
-/

namespace Sys2Proof.Laws

open Sys2Proof Sys2Proof.Machine Sys2Proof.Safety

/-- Settles O47: each slot, transfer and sample has the effect of its case, on the state of which the last outputs are cleared. -/
theorem laneTransfers : Obligations.LaneTransfers := by
  unfold Obligations.LaneTransfers
  refine ⟨fun s n h => ⟨fun h7 hp hb => ⟨fun hd => ?slotDue, fun hd => ⟨fun hr => ?slotIdle, fun l k hr => ⟨fun hl => ?slotSends,
        fun hl => ?slotReplaces⟩⟩⟩,
      fun b h7 hp hb => ?slotBond, fun ht => ?slotTest, fun f h7 hp => ?slotPort, fun f ht hp => ?slotPortDown,
      fun f ht hp => ?slotPortSilent, fun b h7 ht hp hb => ?slotBondDown, fun h7 ht hp hb => ?slotSilent, fun k w => ?crossing⟩,
    fun s n l w h h8 => ⟨fun hst => ?judges, fun hst => ?accepts, fun ht => ?tests, fun hst => ?deaf⟩,
    fun s n l hp hb => ⟨fun _ hl hd => accept_plain hp hb hl hd, fun hl => accept_bare hp hl⟩,
    fun s n l => ⟨fun hp => ⟨fun hb => ?nothing, fun hb hm => ⟨fun hbond => ?delivers, fun b hbond hst => ?bonded⟩⟩,
      fun f hp => ⟨fun ht => ?otherTurn, fun ht hb => ?portBare, fun ht hb => ?portDelivers⟩⟩,
    descramble_scramble,
    fun s n h => ⟨fun hi => ?noMaintenance, fun hb => ?single, fun b i k hb hi hk => ?member,
      fun hs => ⟨fun ht => ?mark, fun ht => ?capability, fun ht => ?proposal, fun ht => ?verify, fun ht => ?pattern,
        fun h7 hd => ?early, fun h7 hd hq => ?empty, fun k h7 hd hq hk => ?lowPower,
        fun h7 hd => ⟨fun hn => ?carries, fun l k hl hn hk => ?announces⟩⟩⟩,
    fun s n m h => ⟨fun h7 => ⟨fun hw => ?good, fun hw hh => ?weak, fun hw hl hh => ?retrains, fun hr => ?retrained, fun hr => ?slows⟩,
      fun hst => ?reference, fun h6 h7 hr => ?noSample, fun hr => ?noRetrain, fun hr => ?notSlower⟩⟩
  case slotDue => exact run_awake_of h ((transmit_up (s := Ops.begin s) h7 hp hb).trans (if_pos hd))
  case slotIdle =>
    refine run_awake_of h ((transmit_up (s := Ops.begin s) h7 hp hb).trans ((if_neg (Bool.eq_false_iff.1 hd)).trans ?_))
    rw [slot_idle (s := Lanes.countSlot n (Ops.begin s)) hp hr]
  case slotSends =>
    refine run_awake_of h ((transmit_up (s := Ops.begin s) h7 hp hb).trans ((if_neg (Bool.eq_false_iff.1 hd)).trans ?_))
    rw [slot_ready (s := Lanes.countSlot n (Ops.begin s)) hp hr, replaceLinks_none hl]
  case slotReplaces =>
    refine run_awake_of h ((transmit_up (s := Ops.begin s) h7 hp hb).trans ((if_neg (Bool.eq_false_iff.1 hd)).trans ?_))
    rw [slot_ready (s := Lanes.countSlot n (Ops.begin s)) hp hr, replaceLinks_some hl]
    rfl
  case slotBond => exact run_awake_of h (transmit_bond (s := Ops.begin s) h7 hp hb)
  case slotTest => exact run_awake_of h (transmit_test (s := Ops.begin s) ht)
  case slotPort => exact run_awake_of h (transmit_port (s := Ops.begin s) h7 hp)
  case slotPortDown => exact run_awake_of h (transmit_portDown (s := Ops.begin s) ht hp)
  case slotPortSilent => exact run_awake_of h (transmit_portSilent (s := Ops.begin s) ht hp)
  case slotBondDown => exact run_awake_of h (transmit_bondDown (s := Ops.begin s) h7 ht hp hb)
  case slotSilent => exact run_awake_of h (transmit_silent (s := Ops.begin s) h7 ht hp hb)
  case crossing => exact run_awake_of h (bridgeCapture_txCrossing n k w _)
  case judges => exact run_awake_of h (receive_judged (s := Ops.begin s) w h8 hst)
  case accepts => exact run_awake_of h (receive_accepted (s := Ops.begin s) w h8 hst)
  case tests => exact run_awake_of h (receive_test (s := Ops.begin s) w h8 ht)
  case deaf => exact run_awake_of h (receive_deaf (s := Ops.begin s) w hst)
  case nothing =>
    rw [hp] at hb
    exact accept_nothing l hp hb
  case delivers =>
    rw [hp] at hb
    exact accept_delivers l hp hb hm hbond
  case bonded =>
    rw [hp] at hb
    exact accept_bonded l hp hb hm hbond hst
  case otherTurn => exact (accept_port l hp).trans (if_pos ht)
  case portBare =>
    rw [hp] at hb
    exact (accept_port l hp).trans ((if_neg (not_not.2 ht)).trans (if_pos hb))
  case portDelivers =>
    rw [hp] at hb
    exact (accept_port l hp).trans ((if_neg (not_not.2 ht)).trans (if_neg hb))
  case noMaintenance => exact run_awake_of h (maintenance_none (s := Ops.begin s) hi)
  case single => exact markBlock_single hb
  case member => exact markBlock_member hb hi hk
  case mark => exact run_awake_of h (maintenance_mark (s := Ops.begin s) hs ht)
  case capability => exact run_awake_of h (maintenance_capability (s := Ops.begin s) hs ht)
  case proposal => exact run_awake_of h (maintenance_t4 (s := Ops.begin s) hs ht)
  case verify => exact run_awake_of h (maintenance_verify (s := Ops.begin s) hs ht)
  case pattern => exact run_awake_of h (maintenance_pattern (s := Ops.begin s) hs ht)
  case early => exact run_awake_of h (maintenance_early (s := Ops.begin s) hs h7 hd)
  case empty => exact run_awake_of h (maintenance_empty (s := Ops.begin s) hs h7 hd hq)
  case lowPower => exact run_awake_of h (maintenance_lowPower (s := Ops.begin s) hs h7 hd hq hk)
  case carries =>
    exact run_awake_of h (maintenance_silent (s := Ops.begin s) hs h7 hd (announced_none hn))
  case announces =>
    have last : announced (carried (Lanes.lane s n)).1 = some k := by
      rw [show (carried (Lanes.lane s n)).1 = _ from hl]
      exact announced_last hn k
    exact run_awake_of h (maintenance_announces (s := Ops.begin s) hs h7 hd last hk)
  case good => exact run_awake_of h (marginSample_good (s := Ops.begin s) h7 hw)
  case weak => exact run_awake_of h (marginSample_weak (s := Ops.begin s) h7 hw hh)
  case retrains => exact run_awake_of h (marginSample_retrains (s := Ops.begin s) h7 hw hl hh)
  case retrained => exact run_awake_of h (retrainEnd_due (s := Ops.begin s) h7 hr)
  case slows => exact run_awake_of h (slowDown_due (s := Ops.begin s) h7 hr)
  case reference => exact run_awake_of h (marginSample_reference (s := Ops.begin s) hst)
  case noSample => exact run_awake_of h (marginSample_none (s := Ops.begin s) h6 h7 hr)
  case noRetrain => exact run_awake_of h (retrainEnd_none (s := Ops.begin s) hr)
  case notSlower => exact run_awake_of h (slowDown_none (s := Ops.begin s) hr)

end Sys2Proof.Laws
end

section
/-!
SUPPORT. The statements about the error code of the memory banks (R191 to R194): check bits and syndrome are linear, and the
columns of the 72 bits differ from one another and from 0.
-/

namespace Sys2Proof.Laws

open Sys2Proof Sys2Proof.Machine Sys2Proof.Safety

/-! ### Parity and the check bits (R191) -/

/-- The bit that an exclusive or starts from can be taken out in front. -/
theorem foldl_xor_init {α : Type} (f : α → Bool) (l : List α) (b : Bool) :
    l.foldl (fun a i => a ^^ f i) b = (b ^^ l.foldl (fun a i => a ^^ f i) false) := by
  induction l generalizing b with
  | nil => simp
  | cons x l ih => simp only [List.foldl_cons]; rw [ih (b ^^ f x), ih (false ^^ f x)]; simp

theorem foldl_xor_xor {α : Type} (f g : α → Bool) (l : List α) :
    l.foldl (fun a i => a ^^ (f i ^^ g i)) false =
      (l.foldl (fun a i => a ^^ f i) false ^^ l.foldl (fun a i => a ^^ g i) false) := by
  induction l with
  | nil => rfl
  | cons x l ih =>
    simp only [List.foldl_cons]
    rw [foldl_xor_init, ih, foldl_xor_init f l (false ^^ f x), foldl_xor_init g l (false ^^ g x)]
    cases f x <;> cases g x <;> simp

theorem parity_xor {n : Nat} (v w : BitVec n) : Flags.parity (v ^^^ w) = (Flags.parity v ^^ Flags.parity w) := by
  simp only [Flags.parity, BitVec.getLsbD_xor]
  exact foldl_xor_xor _ _ _

/-- The parity of two values side by side. -/
theorem parity_append {m n : Nat} (v : BitVec m) (w : BitVec n) :
    Flags.parity (v ++ w) = (Flags.parity w ^^ Flags.parity v) := by
  have low : ∀ i ∈ List.range n, (v ++ w).getLsbD i = w.getLsbD i := fun i hi => by
    simp [BitVec.getLsbD_append, List.mem_range.1 hi]
  have high : ∀ i, (v ++ w).getLsbD (n + i) = v.getLsbD i := fun i => by simp [BitVec.getLsbD_append]
  have split : List.range (m + n) = List.range n ++ (List.range m).map (n + ·) := by rw [Nat.add_comm, List.range_add]
  simp only [Flags.parity, split, List.foldl_append, List.foldl_map, high]
  rw [foldl_xor_init]
  congr 1
  exact List.foldl_ext _ _ _ fun a i hi => by rw [low i hi]

/-- Bit j of the exclusive or of the columns that a word selects. -/
theorem getLsbD_foldl_columns {w : Nat} (sel : Nat → Bool) (h : Nat → BitVec w) (l : List Nat) (a : BitVec w) (j : Nat) :
    (l.foldl (fun a i => if sel i then a ^^^ h i else a) a).getLsbD j =
      ((l.filter fun i => (h i).getLsbD j).map sel).foldl (fun a b => a ^^ b) (a.getLsbD j) := by
  induction l generalizing a with
  | nil => rfl
  | cons i l ih =>
    rw [List.foldl_cons, ih]
    cases hs : sel i <;> cases hb : (h i).getLsbD j <;> simp [hs, hb]

/-- A column that exactly one of two words selects is in the sum; one that both select cancels. -/
theorem xor_select {w : Nat} (x y : Bool) (a b c : BitVec w) :
    (if (x ^^ y) = true then (a ^^^ b) ^^^ c else a ^^^ b) = (if x then a ^^^ c else a) ^^^ (if y then b ^^^ c else b) := by
  match x, y with
  | false, false => rfl
  | false, true => exact BitVec.xor_assoc a b c
  | true, false =>
    show (a ^^^ b) ^^^ c = (a ^^^ c) ^^^ b
    ac_rfl
  | true, true =>
    show a ^^^ b = (a ^^^ c) ^^^ (b ^^^ c)
    rw [BitVec.xor_comm b c, ← BitVec.xor_assoc, BitVec.xor_assoc a c c, BitVec.xor_self, BitVec.xor_zero]

/-- The columns that a sum of two words selects. -/
theorem check_xor (d e : W64) : Flags.check (d ^^^ e) = Flags.check d ^^^ Flags.check e := by
  have step (l : List Nat) (a b : BitVec 7) :
      l.foldl (fun a i => if (d ^^^ e).getLsbD i then a ^^^ Flags.column i else a) (a ^^^ b) =
        l.foldl (fun a i => if d.getLsbD i then a ^^^ Flags.column i else a) a ^^^
          l.foldl (fun a i => if e.getLsbD i then a ^^^ Flags.column i else a) b := by
    induction l generalizing a b with
    | nil => rfl
    | cons i l ih =>
      simp only [List.foldl_cons]
      rw [← ih, ← xor_select, BitVec.getLsbD_xor]
  exact step (List.range 64) 0 0

/-! #### The fields of a word with fresh check bits -/

/-- The three fields of a word, with the widths that make it 72 bits. -/
theorem encode_eq (d : W64) : Flags.encode d =
    ((BitVec.ofBool (Flags.parity d ^^ Flags.parity (Flags.check d)) ++ Flags.check d) ++ d : BitVec (1 + 7 + 64)) := rfl

theorem encode_getLsbD (d : W64) (i : Nat) : (Flags.encode d).getLsbD i =
    if i < 64 then d.getLsbD i
    else if i - 64 < 7 then (Flags.check d).getLsbD (i - 64)
    else (BitVec.ofBool (Flags.parity d ^^ Flags.parity (Flags.check d))).getLsbD (i - 64 - 7) := by
  rw [encode_eq, BitVec.getLsbD_append, BitVec.getLsbD_append]

theorem encode_data (d : W64) : (Flags.encode d).extractLsb' 0 64 = d := by
  apply BitVec.eq_of_getLsbD_eq
  intro i hi
  simp [encode_getLsbD, hi]

theorem encode_getLsbD_check (d : W64) {j : Nat} (h : j < 7) :
    (Flags.encode d).getLsbD (64 + j) = (Flags.check d).getLsbD j := by
  simp [encode_getLsbD, h]

theorem encode_check (d : W64) : (Flags.encode d).extractLsb' 64 7 = Flags.check d := by
  apply BitVec.eq_of_getLsbD_eq
  intro i hi
  simp [encode_getLsbD_check d hi, hi]

theorem encode_getLsbD_last (d : W64) :
    (Flags.encode d).getLsbD 71 = (Flags.parity d ^^ Flags.parity (Flags.check d)) := by
  rw [encode_getLsbD]
  simp

/-- The columns are the numbers of R191. -/
theorem columns_eq : (List.range 64).map (fun i => (Flags.column i).toNat) =
    (((List.range 128).filter fun n => 1 ≤ n ∧ ∀ j, j < 7 → n ≠ 2 ^ j).take 64) := by decide

/-- Settles O20: the fields of `encode`, bit by bit. -/
theorem checkBits : Obligations.CheckBits := by
  unfold Obligations.CheckBits
  intro h xor
  refine ⟨columns_eq, fun d => ⟨encode_data d, fun j hj => ?column, ?last⟩⟩
  case column =>
    rw [encode_getLsbD_check d hj]
    refine (getLsbD_foldl_columns (fun i => d.getLsbD i) Flags.column (List.range 64) 0 j).trans ?_
    rw [show (0 : BitVec 7).getLsbD j = false from BitVec.getLsbD_zero]
  case last =>
    have hc : (List.range 7).map (fun j => (Flags.encode d).getLsbD (64 + j)) =
        (List.range 7).map (Flags.check d).getLsbD :=
      List.map_congr_left fun j hj => encode_getLsbD_check d (List.mem_range.1 hj)
    rw [encode_getLsbD_last, hc]
    simp only [xor, List.foldl_append, List.foldl_map]
    rw [foldl_xor_init]
    rfl

/-! ### The decoder (R192) -/

theorem syndrome_xor (v w : BitVec 72) : Flags.syndrome (v ^^^ w) = Flags.syndrome v ^^^ Flags.syndrome w := by
  simp only [Flags.syndrome, BitVec.extractLsb'_xor, check_xor]
  ac_rfl

theorem syndrome_encode (d : W64) : Flags.syndrome (Flags.encode d) = 0 := by
  rw [Flags.syndrome, encode_data, encode_check, BitVec.xor_self]
  rfl

theorem parity_encode (d : W64) : Flags.parity (Flags.encode d) = false := by
  have single (b : Bool) : Flags.parity (BitVec.ofBool b) = b := by cases b <;> rfl
  rw [encode_eq, parity_append, parity_append, single]
  cases Flags.parity d <;> cases Flags.parity (Flags.check d) <;> rfl

/-- A single bit has odd parity. -/
theorem parity_twoPow : ∀ i, i < 72 → Flags.parity (BitVec.twoPow 72 i) = true := by decide +kernel

theorem syndrome_data_bit : ∀ i, i < 64 → Flags.syndrome (BitVec.twoPow 72 i) = Flags.column i := by decide

theorem syndrome_check_bit : ∀ j, j < 7 → Flags.syndrome (BitVec.twoPow 72 (64 + j)) = BitVec.twoPow 7 j := by decide

theorem syndrome_last_bit : Flags.syndrome (BitVec.twoPow 72 71) = 0 := by decide

/-- No two of the 72 bits have the same syndrome. -/
theorem syndrome_bits_nodup : ((List.range 72).map fun i => Flags.syndrome (BitVec.twoPow 72 i)).Nodup := by decide +kernel

theorem syndrome_twoPow_inj {i j : Nat} (hi : i < 72) (hj : j < 72)
    (h : Flags.syndrome (BitVec.twoPow 72 i) = Flags.syndrome (BitVec.twoPow 72 j)) : i = j :=
  List.inj_on_of_nodup_map syndrome_bits_nodup (List.mem_range.2 hi) (List.mem_range.2 hj) h

theorem twoPow_eq_ofNat (w i : Nat) : BitVec.twoPow w i = BitVec.ofNat w (2 ^ i) := by
  apply BitVec.eq_of_toNat_eq
  rw [BitVec.toNat_twoPow, BitVec.toNat_ofNat]

/-- The searches of the decoder, by the bits whose syndromes they go through. -/
theorem decode_odd {w : BitVec 72} (hp : Flags.parity w = true) : Flags.decode w =
    if Flags.syndrome w = 0 then .corrected (w ^^^ BitVec.twoPow 72 71)
    else match (List.range 7).find? (fun j => Flags.syndrome w == Flags.syndrome (BitVec.twoPow 72 (64 + j))) with
      | some j => .corrected (w ^^^ BitVec.twoPow 72 (64 + j))
      | none => match (List.range 64).find? (fun i => Flags.syndrome w == Flags.syndrome (BitVec.twoPow 72 i)) with
        | some i => .corrected (w ^^^ BitVec.twoPow 72 i)
        | none => .bad := by
  have checks : (List.range 7).find? (fun j => Flags.syndrome w == Flags.syndrome (BitVec.twoPow 72 (64 + j))) =
      (List.range 7).find? (fun j => Flags.syndrome w == BitVec.ofNat 7 (2 ^ j)) :=
    List.find?_congr fun j hj => by rw [syndrome_check_bit j (List.mem_range.1 hj), twoPow_eq_ofNat]
  have datas : (List.range 64).find? (fun i => Flags.syndrome w == Flags.syndrome (BitVec.twoPow 72 i)) =
      (List.range 64).find? (fun i => Flags.syndrome w == Flags.column i) :=
    List.find?_congr fun i hi => by rw [syndrome_data_bit i (List.mem_range.1 hi)]
  rw [checks, datas]
  unfold Flags.decode
  simp only [hp, BitVec.twoPow_eq]
  rfl

/-- A search for a syndrome among those of the bits from `k` on. -/
theorem find?_bit {k n j : Nat} (hj : j < n) (hk : k + n ≤ 72) :
    (List.range n).find? (fun i => Flags.syndrome (BitVec.twoPow 72 (k + j)) == Flags.syndrome (BitVec.twoPow 72 (k + i))) =
      some j := by
  refine List.find?_range_eq_some.2 ⟨by simp, List.mem_range.2 hj, fun i hi => ?_⟩
  have : Flags.syndrome (BitVec.twoPow 72 (k + j)) ≠ Flags.syndrome (BitVec.twoPow 72 (k + i)) := fun h => by
    have := syndrome_twoPow_inj (by omega) (by omega) h
    omega
  simpa using this

section
variable {w : BitVec 72}

/-- A word of odd parity with the syndrome of one of the 72 bits has that bit flipped. -/
theorem decode_bit (hp : Flags.parity w = true) {i : Nat} (hi : i < 72)
    (hs : Flags.syndrome w = Flags.syndrome (BitVec.twoPow 72 i)) : Flags.decode w = .corrected (w ^^^ BitVec.twoPow 72 i) := by
  rw [decode_odd hp, hs]
  by_cases last : i = 71
  · rw [if_pos (last ▸ syndrome_last_bit), last]
  have hn : Flags.syndrome (BitVec.twoPow 72 i) ≠ 0 := fun h =>
    last (syndrome_twoPow_inj hi (by omega) (h.trans syndrome_last_bit.symm))
  rw [if_neg hn]
  by_cases data : i < 64
  · have none : (List.range 7).find? (fun j => Flags.syndrome (BitVec.twoPow 72 i) ==
        Flags.syndrome (BitVec.twoPow 72 (64 + j))) = none := by
      refine List.find?_range_eq_none.2 fun j hj => ?_
      have : Flags.syndrome (BitVec.twoPow 72 i) ≠ Flags.syndrome (BitVec.twoPow 72 (64 + j)) := fun h => by
        have := syndrome_twoPow_inj hi (by omega) h
        omega
      simpa using this
    have some := find?_bit (k := 0) data (by omega)
    simp only [Nat.zero_add] at some
    rw [none, some]
  · obtain ⟨j, rfl⟩ : ∃ j, i = 64 + j := ⟨i - 64, by omega⟩
    rw [find?_bit (by omega) (by omega)]

theorem decode_good (hp : Flags.parity w = false) (hs : Flags.syndrome w = 0) : Flags.decode w = .good := by
  unfold Flags.decode
  simp only [hp]
  exact if_pos hs

theorem decode_even (hp : Flags.parity w = false) (hs : Flags.syndrome w ≠ 0) : Flags.decode w = .bad := by
  unfold Flags.decode
  simp only [hp]
  exact if_neg hs

/-- A word of odd parity with a syndrome that no bit has. -/
theorem decode_none (hp : Flags.parity w = true) (hs : ∀ i, i < 72 → Flags.syndrome w ≠ Flags.syndrome (BitVec.twoPow 72 i)) :
    Flags.decode w = .bad := by
  have checks : (List.range 7).find? (fun j => Flags.syndrome w == Flags.syndrome (BitVec.twoPow 72 (64 + j))) = none :=
    List.find?_range_eq_none.2 fun j hj => by simpa using hs (64 + j) (by omega)
  have datas : (List.range 64).find? (fun i => Flags.syndrome w == Flags.syndrome (BitVec.twoPow 72 i)) = none :=
    List.find?_range_eq_none.2 fun i hi => by simpa using hs i (by omega)
  rw [decode_odd hp, checks, datas, if_neg]
  rw [← syndrome_last_bit]
  exact hs 71 (by omega)

end

/-! ### What an access makes of a word (R173, R194) -/

/-- A write needs no decode; every other operation goes by it. -/
theorem access_write (m : W64) (v : BitVec 72) : Flags.access 1 m v = ⟨Flags.encode m, 0, false, false⟩ := rfl

section
variable {op : BitVec 2} (h : op ≠ 1) (m : W64) {v : BitVec 72}
include h

theorem access_bad (hv : Flags.decode v = .bad) : Flags.access op m v = ⟨v, v.extractLsb' 0 64, false, true⟩ := by
  rw [Flags.access, if_neg h, hv]

theorem access_good (hv : Flags.decode v = .good) : Flags.access op m v =
    ⟨if op = 0 then v else Flags.encode (Flags.modify op (v.extractLsb' 0 64) m), v.extractLsb' 0 64, false, false⟩ := by
  rw [Flags.access, if_neg h, hv]

theorem access_corrected {f : BitVec 72} (hv : Flags.decode v = .corrected f) : Flags.access op m v =
    ⟨if op = 0 then f else Flags.encode (Flags.modify op (f.extractLsb' 0 64) m), f.extractLsb' 0 64, true, false⟩ := by
  rw [Flags.access, if_neg h, hv]

end

/-- Settles O21: the searches of the decoder find the bit that has the syndrome, for no two bits share one. -/
theorem syndromeTable : Obligations.SyndromeTable := by
  unfold Obligations.SyndromeTable
  intro w
  rw [encode_check]
  intro s p
  refine ⟨decode_good, fun hp h => ?last, fun j hj hp h => ?check, fun i hi hp h => ?data,
    fun hp h0 h7 h64 => decode_none hp fun i hi => ?other, decode_even, fun op m hop => ?access⟩
  case last => exact decode_bit hp (by omega) (h.trans syndrome_last_bit.symm)
  case check => exact decode_bit hp (by omega) (h.trans (syndrome_check_bit j hj).symm)
  case data => exact decode_bit hp (by omega) (h.trans (syndrome_data_bit i hi).symm)
  case other =>
    by_cases last : i = 71
    · rwa [last, syndrome_last_bit]
    by_cases data : i < 64
    · rw [syndrome_data_bit i data]
      exact h64 i data
    · obtain ⟨j, rfl⟩ : ∃ j, i = 64 + j := ⟨i - 64, by omega⟩
      rw [syndrome_check_bit j (by omega)]
      exact h7 j (by omega)
  case access =>
    cases hv : Flags.decode w with
    | good => simp [access_good hop m hv]
    | corrected f => simp [access_corrected hop m hv]
    | bad => simp [access_bad hop m hv]

/-! ### Errors of one and of two bits -/

theorem decode_encode (d : W64) : Flags.decode (Flags.encode d) = .good :=
  decode_good (parity_encode d) (syndrome_encode d)

/-- A word with one bit flipped has the syndrome of that bit. -/
theorem decode_flip (d : W64) {i : Nat} (hi : i < 72) :
    Flags.decode (Flags.encode d ^^^ BitVec.twoPow 72 i) = .corrected (Flags.encode d) := by
  have hp : Flags.parity (Flags.encode d ^^^ BitVec.twoPow 72 i) = true := by
    rw [parity_xor, parity_encode, parity_twoPow i hi]
    rfl
  have hs : Flags.syndrome (Flags.encode d ^^^ BitVec.twoPow 72 i) = Flags.syndrome (BitVec.twoPow 72 i) := by
    rw [syndrome_xor, syndrome_encode]
    exact BitVec.zero_xor
  rw [decode_bit hp hi hs, BitVec.xor_assoc, BitVec.xor_self, BitVec.xor_zero]

/-- A word with two bits flipped has even parity, and a syndrome, for those of the two bits differ. -/
theorem decode_flip_flip (d : W64) {i j : Nat} (hi : i < j) (hj : j < 72) :
    Flags.decode (Flags.encode d ^^^ BitVec.twoPow 72 i ^^^ BitVec.twoPow 72 j) = .bad := by
  refine decode_even ?even fun h => ?zero
  case even =>
    rw [parity_xor, parity_xor, parity_encode, parity_twoPow i (by omega), parity_twoPow j hj]
    rfl
  case zero =>
    rw [syndrome_xor, syndrome_xor, syndrome_encode, show (0 : BitVec 7) = 0#7 from rfl, BitVec.zero_xor,
      BitVec.xor_eq_zero_iff] at h
    have := syndrome_twoPow_inj (by omega) hj h
    omega

/-- Settles O22: check bits, syndrome and parity are linear, so that a flipped bit alone decides what the decoder finds. -/
theorem errorCode : Obligations.ErrorCode := by
  unfold Obligations.ErrorCode
  refine ⟨fun d i => decode_flip d, fun d => ⟨decode_encode d, fun i j => decode_flip_flip d⟩,
    fun d m v => ⟨?read, access_write m v, ?set, ?clear, fun op hop hv => access_bad hop m hv⟩⟩
  all_goals
    rw [access_good (by decide) m (decode_encode d), encode_data]
    rfl

end Sys2Proof.Laws
end

section
/-!
SUPPORT. Capture, arbitration and grants at the ports of a bank (R171, R174, R178, R180, R184).
-/

namespace Sys2Proof.Laws

open Sys2Proof Sys2Proof.Machine Sys2Proof.Safety

/-! ### Capture (R171, R174) -/

@[simp] theorem captured_begin (s : State) : Fabric.captured (Ops.begin s) = Fabric.captured s := by
  funext k
  simp only [Fabric.captured, allValid_begin]
  rfl

section
variable {s : State} {n : Fin 2048} {portB : Bool}

/-- A port that holds no request captures the one that its channels spell. -/
theorem request_captured {v : Nat} (hw : (Banks.port (Ops.bank s n) portB).waiting = none)
    (hm : Frames.portMode s.fab.frames n portB = 1 ∨ Frames.portMode s.fab.frames n portB = 2)
    (hv : Fabric.captured s (.bankPort n portB) = some v) :
    Banks.request n portB s = Ops.wakeBank n false (Fabric.setAck (.bankPort n portB) true
      (Ops.claim Ops.raise n (Banks.setPort n portB { Banks.port (Ops.bank s n) portB with
        waiting := some (Banks.requestOf (Frames.portMode s.fab.frames n portB == 1) v)
        after := (Ops.bank s n).leaving.isSome } s))) := by
  rcases hm with hm | hm <;> simp [Banks.request, hw, hm, hv]

/-- A port that cannot capture one, or to which none is offered. -/
theorem request_none
    (h : ¬ ((Banks.port (Ops.bank s n) portB).waiting = none ∧
        (Frames.portMode s.fab.frames n portB = 1 ∨ Frames.portMode s.fab.frames n portB = 2)) ∨
      Fabric.captured s (.bankPort n portB) = none) : Banks.request n portB s = s := by
  simp only [Banks.request]
  split
  · rfl
  · next hf =>
    simp only [Bool.or_eq_true, Bool.and_eq_true, bne_iff_ne, not_or, Bool.not_eq_true, Option.isSome_eq_false_iff,
      Option.isNone_iff_eq_none] at hf
    have hv : Fabric.captured s (.bankPort n portB) = none := h.resolve_left fun k => k ⟨hf.1, by omega⟩
    simp [hv]

end

/-! ### Grants -/

theorem grantPort_eq (n : Nat) (portB : Bool) (v : State) : Banks.grantPort n portB v =
    if Ops.refuses v n then
      Banks.respond n portB { refused := true } (Ops.refuse Ops.raise n
        (Banks.setPort n portB { Banks.port (Ops.bank v n) portB with waiting := none, after := false } v))
    else Banks.setPort n portB { Banks.port (Ops.bank v n) portB with
      granted := (Banks.port (Ops.bank v n) portB).waiting, waiting := none } v := rfl

/-- A bank that is neither On nor refusing grants nothing. -/
theorem grant_asleep {s : State} {n : Nat} (hr : Ops.ready s n = false) (hf : Ops.refuses s n = false) :
    Banks.grant n s = s := by simp [Banks.grant, hr, hf]

section
variable {s : State} {n : Nat} (h : Ops.ready s n = true ∨ Ops.refuses s n = true)
include h

theorem grant_single (hd : Banks.dual n = false) : Banks.grant n s = Banks.grantSingle 4 n s := by
  rcases h with h | h <;> simp [Banks.grant, h, hd]

theorem grant_dual (hd : Banks.dual n = true) : Banks.grant n s = Banks.grantDual n s := by
  rcases h with h | h <;> simp [Banks.grant, h, hd]

end

section
variable {s : State} {n k : Nat}

theorem grantSingle_busy (hg : Ops.granted (Ops.bank s n) = true) : Banks.grantSingle (k + 1) n s = s := by
  simp [Banks.grantSingle, hg]

section
variable (hg : Ops.granted (Ops.bank s n) = false)
include hg

/-- What the arbiter's decision comes to in a single-port bank with a free array. -/
theorem grantSingle_free : Banks.grantSingle (k + 1) n s =
    (let r := Banks.arbitrate (Ops.bank s n) (Banks.maintWaits (Ops.bank s n))
     match r.1 with
     | none => s
     | some (.port p) => Banks.grantPort n p (Ops.setBank n r.2 s)
     | some .maint => Banks.grantSingle k n (Banks.performHead n (Ops.setBank n r.2 s))) := by
  rw [Banks.grantSingle, if_neg (by simp [hg])]
  generalize Banks.arbitrate (Ops.bank s n) (Banks.maintWaits (Ops.bank s n)) = r
  obtain ⟨_ | _ | _, _⟩ := r <;> rfl

end
end

/-- The arbiter of a single-port bank, where port A does not ask and where it does. -/
theorem arbitrate_notA {b : Bank} {m : Bool} (ha : Ops.grantable b b.portA = false) : Banks.arbitrate b m =
    if Ops.grantable b b.portB && m then (some (if b.bWins then .port true else .maint), { b with bWins := !b.bWins })
    else if Ops.grantable b b.portB then (some (.port true), b)
    else if m then (some .maint, b) else (none, b) := by
  simp only [Banks.arbitrate, ha]

theorem arbitrate_A {b : Bank} {m : Bool} (ha : Ops.grantable b b.portA = true) : Banks.arbitrate b m =
    if Ops.grantable b b.portB && m then
      (some (if b.aWins then .port false else if b.bWins then .port true else .maint),
        { b with aWins := !b.aWins, bWins := !b.bWins })
    else if Ops.grantable b b.portB then (some (if b.aWins then .port false else .port true), { b with aWins := !b.aWins })
    else if m then (some (if b.aWins then .port false else .maint), { b with aWins := !b.aWins })
    else (some (.port false), b) := by
  simp only [Banks.arbitrate, ha]
  cases Ops.grantable b b.portB <;> cases m <;> rfl

/-- Settles O23: the arbiter by who asks, and each grant by the arbiter's decision. -/
theorem bankArbitration : Obligations.BankArbitration := by
  unfold Obligations.BankArbitration
  refine ⟨fun s n portB h => ⟨fun v hf hv => ?captures, fun hf => ?idle⟩, fun b => ?arbiter,
    fun s n h hr hf => run_awake_of h (grant_asleep (s := Ops.begin s) hr hf), fun s n h hr => ?grants⟩
  case captures => exact run_awake_of h (request_captured (s := Ops.begin s) hf.1 hf.2 ((congrFun (captured_begin s) _).trans hv))
  case idle => exact run_awake_of h (request_none (s := Ops.begin s) (hf.imp_right (congrFun (captured_begin s) _).trans))
  case arbiter =>
    intro a c flipA flipB lone
    refine ⟨fun h => ?lone, fun ha hc => ?alone, fun ha hc => ?ports, fun ha hc => ?withA, fun ha hc => ?withB,
      fun ha hc => ?all⟩
    case lone =>
      cases ha : a with
      | false =>
        rw [arbitrate_notA ha]
        cases hc : c <;> simp [lone, ha, hc, show Ops.grantable b b.portB = _ from hc]
      | true =>
        have hc : c = false := h.resolve_left (by simp [ha])
        rw [arbitrate_A ha]
        simp [lone, ha, show Ops.grantable b b.portB = _ from hc]
    case alone => simp [arbitrate_notA ha, show Ops.grantable b b.portB = _ from hc]
    case ports =>
      rw [arbitrate_A ha]
      cases hw : b.aWins <;> simp [flipA, hw, show Ops.grantable b b.portB = _ from hc]
    case withA => simp [arbitrate_A ha, flipA, show Ops.grantable b b.portB = _ from hc]
    case withB => simp [arbitrate_notA ha, flipB, show Ops.grantable b b.portB = _ from hc]
    case all => simp [arbitrate_A ha, flipA, flipB, show Ops.grantable b b.portB = _ from hc]
  case grants =>
    intro u b c
    have ready : Ops.ready u n = true ∨ Ops.refuses u n = true := hr
    refine ⟨fun portB v => grantPort_eq n portB v, fun hd hg => ?single, fun hd hg => ?busy, fun hd => ?dual⟩
    case single =>
      intro r
      have free : Banks.grant n u = match r.1 with
          | none => u
          | some (.port p) => Banks.grantPort n p (Ops.setBank n r.2 u)
          | some .maint => Banks.grantSingle 3 n (Banks.performHead n (Ops.setBank n r.2 u)) :=
        (grant_single ready hd).trans (grantSingle_free (s := u) (k := 3) hg)
      exact ⟨fun hr => run_awake_of h (free.trans (by rw [hr])), fun p hr => run_awake_of h (free.trans (by rw [hr])),
        fun hr => run_awake_of h (free.trans (by rw [hr]))⟩
    case busy => exact run_awake_of h ((grant_single ready hd).trans (grantSingle_busy (k := 3) hg))
    case dual =>
      intro m x grants
      have made {y : State} (e : Banks.grantDual n u = y) : grants y := run_awake_of h ((grant_dual ready hd).trans e)
      have eq : Banks.grantDual n u =
          if m && !(c && b.bWins) then
            if (Ops.bank x n).held.head?.any fun q => Banks.defers q (Ops.bank x n).portA.granted then
              Ops.setBank n { Ops.bank x n with deferred := true } x
            else
              let y := Banks.performHead n x
              if c && (Ops.bank x n).portA.granted.isNone then Banks.grantPort n true y else y
          else if c then Banks.grantPort n true x
          else x := rfl
      refine ⟨fun hm => made (eq.trans (if_neg ?away)), fun hm hc q rest hq => ?enters⟩
      case away =>
        rcases hm with hm | ⟨hc, hb⟩
        · simp [hm]
        · simp [hc, hb]
      case enters =>
        have enters : (m && !(c && b.bWins)) = true := by rcases hc with hc | hc <;> simp [hm, hc]
        rw [if_pos enters, hq, List.head?_cons, Option.any_some] at eq
        exact ⟨fun hw => made (eq.trans (if_pos hw)), fun hw => made (eq.trans (if_neg (by rw [hw]; decide)))⟩

end Sys2Proof.Laws
end

section
/-!
SUPPORT. The access of a granted port and the cycle of a dual-port bank (R172, R173, R176, R180 to R182).
-/

namespace Sys2Proof.Laws

open Sys2Proof Sys2Proof.Machine Sys2Proof.Safety

/-! ### The access of a granted port (R172, R175) -/

section
variable {s : State} {n : Nat} {q : BankReq} {f : BitVec 72}

/-- What the array makes of a request is `accessed` and the access itself. -/
theorem bankAccess_eq (n : Nat) (q : BankReq) (f : BitVec 72) (s : State) : Ops.bankAccess Ops.raise n q f s =
    (accessed n q (Ops.word s n q.addr.toNat ^^^ f) s,
      Flags.access q.op q.data (Ops.word s n q.addr.toNat ^^^ f)) := rfl

theorem bankAccess_unflipped (n : Nat) (q : BankReq) (s : State) : Ops.bankAccess Ops.raise n q 0 s =
    (accessed n q (Ops.word s n q.addr.toNat) s, Flags.access q.op q.data (Ops.word s n q.addr.toNat)) := by
  rw [bankAccess_eq, show (0 : BitVec 72) = 0#72 from rfl, BitVec.xor_zero]

theorem completePort_granted {portB : Bool} (h : (Banks.port (Ops.bank s n) portB).granted = some q) :
    Banks.completePort n portB f s =
      Banks.respond n portB (Banks.responseOf (Flags.access q.op q.data (Ops.word s n q.addr.toNat ^^^ f)))
        (accessed n q (Ops.word s n q.addr.toNat ^^^ f) s) := by
  simp only [Banks.completePort, h, bankAccess_eq]

theorem completePort_unflipped {portB : Bool} (h : (Banks.port (Ops.bank s n) portB).granted = some q) :
    Banks.completePort n portB 0 s =
      Banks.respond n portB (Banks.responseOf (Flags.access q.op q.data (Ops.word s n q.addr.toNat)))
        (accessed n q (Ops.word s n q.addr.toNat) s) := by
  simp only [Banks.completePort, h, bankAccess_unflipped]

theorem completePort_none {portB : Bool} (h : (Banks.port (Ops.bank s n) portB).granted = none) :
    Banks.completePort n portB f s = s := by
  simp only [Banks.completePort, h]

/-! #### A single-port bank -/

theorem complete_dual (hd : Banks.dual n = true) : Banks.complete n f s = s := if_pos hd

section
variable (hd : Banks.dual n = false)
include hd

theorem complete_portA (h : (Ops.bank s n).portA.granted.isSome = true) :
    Banks.complete n f s = Banks.afterCycle n (Banks.completePort n false f s) := by
  simp [Banks.complete, hd, h]

theorem complete_portB (h : (Ops.bank s n).portA.granted = none) :
    Banks.complete n f s = Banks.afterCycle n (Banks.completePort n true f s) := by
  simp [Banks.complete, hd, h]

theorem cycle_single : Banks.cycle n s = s := by simp [Banks.cycle, hd]

end

/-! #### A dual-port bank -/

section
variable (hd : Banks.dual n = true) {qa qb : BankReq}
include hd

theorem cycle_none (ha : (Ops.bank s n).portA.granted = none) (hb : (Ops.bank s n).portB.granted = none) :
    Banks.cycle n s = s := by simp [Banks.cycle, hd, ha, hb]

theorem cycle_portA (ha : (Ops.bank s n).portA.granted = some qa) (hb : (Ops.bank s n).portB.granted = none) :
    Banks.cycle n s = Banks.afterCycle n (Banks.completePort n false 0 s) := by simp [Banks.cycle, hd, ha, hb]

theorem cycle_portB (ha : (Ops.bank s n).portA.granted = none) (hb : (Ops.bank s n).portB.granted = some qb) :
    Banks.cycle n s = Banks.afterCycle n (Banks.completePort n true 0 s) := by simp [Banks.cycle, hd, ha, hb]

theorem cycle_both (ha : (Ops.bank s n).portA.granted = some qa) (hb : (Ops.bank s n).portB.granted = some qb) :
    Banks.cycle n s = Banks.afterCycle n
      (if qa.addr = qb.addr then Banks.sameWord n qa qb s
        else Banks.completePort n true 0 (Banks.completePort n false 0 s)) := by
  rw [Banks.cycle, if_neg (by simp [hd]), ha, hb]
  exact (apply_ite _ _ _ _).symm

end
end

/-! ### Two accesses to one word (R181, R182) -/

/-- Both ports' accesses to one word, by what each makes of the stored bits `v`: the word `x` is left, and `c` says whether
port B's operation would change it again. -/
theorem pairAccess_eq {n : Nat} {qa qb : BankReq} {s : State} {v x : BitVec 72} {a b : Flags.Access} (c : Bool)
    (h : qa.addr = qb.addr) (hv : Ops.word s n qa.addr.toNat = v) (ha : Flags.access qa.op qa.data v = a)
    (hb : Flags.access qb.op qb.data v = b) (hx : (if qa.op = 0 then b.word else a.word) = x)
    (hc : (qa.op != 0 && qb.op != 0 && !a.bad &&
      Flags.modify qb.op (x.extractLsb' 0 64) qb.data != x.extractLsb' 0 64) = c) :
    Banks.pairAccess n qa qb s =
      ((Banks.responseOf a, { refused := false, collision := c, poison := b.bad, corrected := b.corrected, data := b.data }),
        let y := Ops.noteAccess Ops.raise n qa.addr.toNat v (if qa.op = 1 then b else a) (Ops.setWord n qa.addr.toNat x s)
        if c then Banks.collide n qa.addr.toNat y else y) := by
  subst hv ha hb hx hc
  simp only [Banks.pairAccess, Banks.modifying, Banks.responseOf, h, bne_iff_ne, ite_not, ne_eq]

/-- An operation on a word that holds `d`, whether it had to be corrected for that or not. -/
theorem access_holding {v : BitVec 72} {fixed : Bool} {d : W64} (hg : fixed = false → v = Flags.encode d)
    (hf : fixed = true → Flags.decode v = .corrected (Flags.encode d)) (op : BitVec 2) (m : W64) :
    Flags.access op m v = { word := Flags.encode (Flags.modify op d m), data := if op = 1 then 0 else d
                            corrected := fixed && op != 1, bad := false } := by
  by_cases h1 : op = 1
  · subst h1
    simp only [bne_self_eq_false, Bool.and_false, if_true]
    exact access_write m v
  · have word : (if op = 0 then Flags.encode d else Flags.encode (Flags.modify op d m)) =
        Flags.encode (Flags.modify op d m) := by
      split
      · next h0 => subst h0; rfl
      · rfl
    cases fixed with
    | false => rw [hg rfl, access_good h1 m (decode_encode d), encode_data, word, if_neg h1]; rfl
    | true => rw [access_corrected h1 m (hf rfl), encode_data, word, if_neg h1, bne_iff_ne.2 h1]; rfl

/-- The response to an operation on a word that holds `d`. -/
def heldResp (fixed : Bool) (d : W64) (op : BitVec 2) (c : Bool) : BankResp :=
  { collision := c, corrected := fixed && op != 1, data := if op = 1 then 0 else d }

/-- Two operations on a word that holds `d`, where `x` is left and `c` says whether port B's would change it again. -/
theorem pairAccess_holding {n : Nat} {qa qb : BankReq} {s : State} {v : BitVec 72} {fixed : Bool} {d : W64} (x : W64) (c : Bool)
    (h : qa.addr = qb.addr) (hv : Ops.word s n qa.addr.toNat = v) (hg : fixed = false → v = Flags.encode d)
    (hf : fixed = true → Flags.decode v = .corrected (Flags.encode d))
    (hx : (if qa.op = 0 then Flags.modify qb.op d qb.data else Flags.modify qa.op d qa.data) = x)
    (hc : (qa.op != 0 && qb.op != 0 && Flags.modify qb.op x qb.data != x) = c) :
    Banks.pairAccess n qa qb s = ((heldResp fixed d qa.op false, heldResp fixed d qb.op c),
      let y := Ops.noteAccess Ops.raise n qa.addr.toNat v
        (if qa.op = 1 then Flags.access qb.op qb.data v else Flags.access qa.op qa.data v)
        (Ops.setWord n qa.addr.toNat (Flags.encode x) s)
      if c then Banks.collide n qa.addr.toNat y else y) := by
  have ha := access_holding hg hf qa.op qa.data
  have hb := access_holding hg hf qb.op qb.data
  have left : (if qa.op = 0 then (Flags.access qb.op qb.data v).word else (Flags.access qa.op qa.data v).word) =
      Flags.encode x := by
    rw [ha, hb, ← hx]
    split <;> rfl
  refine (pairAccess_eq c h hv rfl rfl left ?_).trans ?_
  · rw [encode_data, ← hc, ha, Bool.not_false, Bool.and_true]
  · have answersA : Banks.responseOf (Flags.access qa.op qa.data v) = heldResp fixed d qa.op false := by rw [ha]; rfl
    have answersB : ({ refused := false, collision := c, poison := (Flags.access qb.op qb.data v).bad
                       corrected := (Flags.access qb.op qb.data v).corrected
                       data := (Flags.access qb.op qb.data v).data } : BankResp) = heldResp fixed d qb.op c := by rw [hb]; rfl
    rw [answersA, answersB]

/-- An access to an uncorrectable word corrects nothing. -/
theorem access_bad_corrected {v : BitVec 72} (hv : Flags.decode v = .bad) (op : BitVec 2) (m : W64) :
    (Flags.access op m v).corrected = false := by
  by_cases h1 : op = 1
  · rw [h1, access_write]
  · rw [access_bad h1 m hv]

/-- Two operations on an uncorrectable word: port B's is dropped only where port A has written the word anew. -/
theorem pairAccess_bad {n : Nat} {qa qb : BankReq} {s : State} {v : BitVec 72} {p : Prop} [Decidable p] (h : qa.addr = qb.addr)
    (hv : Ops.word s n qa.addr.toNat = v) (hb : Flags.decode v = .bad)
    (hp : p ↔ qa.op = 1 ∧ qb.op ≠ 0 ∧ Flags.modify qb.op qa.data qb.data ≠ qa.data) :
    Banks.pairAccess n qa qb s =
      (let a := Flags.access qa.op qa.data v
       let b := Flags.access qb.op qb.data v
       let y := Ops.noteAccess Ops.raise n qa.addr.toNat v (if qa.op = 1 then b else a)
         (Ops.setWord n qa.addr.toNat (if qa.op = 0 then b.word else a.word) s)
       (({ poison := a.bad, data := a.data }, { poison := b.bad, collision := decide p, data := b.data }),
         if p then Banks.collide n qa.addr.toNat y else y)) := by
  refine (pairAccess_eq (decide p) h hv rfl rfl rfl ?_).trans ?_
  · by_cases h1 : qa.op = 1
    · have h0 : ¬ qa.op = 0 := by rw [h1]; decide
      have ha : Flags.access qa.op qa.data v = ⟨Flags.encode qa.data, 0, false, false⟩ := by rw [h1, access_write]
      rw [if_neg h0, ha, encode_data, bne_iff_ne.2 h0, Bool.eq_iff_iff]
      simp [hp, h1]
    · have np : ¬ p := fun k => h1 (hp.1 k).1
      rw [access_bad h1 qa.data hb, decide_eq_false np]
      simp
  · simp only [Banks.responseOf, access_bad_corrected hb, decide_eq_true_eq]

/-- Settles O24: a granted access is `accessed`, and a pair of them to one word is decided by the two operations. -/
theorem bankAccess : Obligations.BankAccess := by
  unfold Obligations.BankAccess
  refine ⟨fun s n f q h hd => ?single, fun s n qa qb h hd => ?dual, fun s n qa qb haddr => ?pair⟩
  case single =>
    intro b v a r done
    refine ⟨fun ha => run_awake_of h ?_, fun ha hb => run_awake_of h ?_, fun ha hb => run_awake_of h ?_,
      run_awake_of h (cycle_single hd)⟩
    · rw [complete_portA hd (s := Ops.begin s) (by rw [show (Ops.bank (Ops.begin s) n).portA.granted = _ from ha]; rfl)]
      exact congrArg _ (completePort_granted (portB := false) ha)
    · rw [complete_portB hd (s := Ops.begin s) ha]
      exact congrArg _ (completePort_granted (portB := true) hb)
    · rw [complete_portB hd (s := Ops.begin s) ha]
      exact congrArg _ (completePort_none (portB := true) hb)
  case dual =>
    intro u b
    refine ⟨fun f => run_awake_of h (complete_dual hd), fun ha hb => run_awake_of h (cycle_none hd ha hb),
      fun ha hb => run_awake_of h ?_, fun ha hb => run_awake_of h ?_, fun ha hb hne => run_awake_of h ?_,
      fun ha hb he => run_awake_of h ?_⟩
    · rw [cycle_portA hd (s := Ops.begin s) ha hb]
      exact congrArg _ (completePort_unflipped (portB := false) ha)
    · rw [cycle_portB hd (s := Ops.begin s) ha hb]
      exact congrArg _ (completePort_unflipped (portB := true) hb)
    · rw [cycle_both hd (s := Ops.begin s) ha hb, if_neg hne]
      exact congrArg (fun x => Banks.afterCycle n (Banks.completePort n true 0 x)) (completePort_unflipped (portB := false) ha)
    · rw [cycle_both hd (s := Ops.begin s) ha hb, if_pos he]
      rfl
  case pair =>
    intro w v a b counts
    refine ⟨fun fixed d hg hf => ?holding, fun hv => ?bad⟩
    case holding =>
      intro tells both store xa
      have stores {x : W64} (hx : (if qa.op = 0 then Flags.modify qb.op d qb.data else xa) = x)
          (hc : (qa.op != 0 && qb.op != 0 && Flags.modify qb.op x qb.data != x) = false) :
          Banks.pairAccess n qa qb s = both false (store x) :=
        (pairAccess_holding x false haddr rfl hg hf hx hc).trans (by rw [if_neg Bool.false_ne_true]; rfl)
      have collides (hqa : qa.op ≠ 0) (hc : (qa.op != 0 && qb.op != 0 && Flags.modify qb.op xa qb.data != xa) = true) :
          Banks.pairAccess n qa qb s = both true (Banks.collide n w (store xa)) :=
        (pairAccess_holding xa true haddr rfl hg hf (if_neg hqa) hc).trans (by rw [if_pos rfl]; rfl)
      refine ⟨fun hqa hqb => stores (x := d) ?_ ?_, fun hqa hqb => stores (if_pos hqa) ?_,
        fun hqa hqb => stores (if_neg hqa) ?_, fun hqa hqb he => stores (if_neg hqa) ?_,
        fun hqa hqb he => collides hqa ?_⟩
      · rw [if_pos hqa, hqb]; rfl
      · simp [hqa]
      · simp [hqa]
      · simp [hqb]
      · simp [he]
      · rw [bne_iff_ne.2 hqa, bne_iff_ne.2 hqb, bne_iff_ne.2 he]; rfl
    case bad =>
      intro drops tells y
      exact pairAccess_bad haddr rfl hv Iff.rfl

end Sys2Proof.Laws
end

section
/-!
SUPPORT. The host's accesses to the bank part of BAR2 (R183 to R186, R385, R396).
-/

namespace Sys2Proof.Laws

open Sys2Proof Sys2Proof.Machine Sys2Proof.Safety

/-! ### The link (R379, R396) -/

theorem viaLink_up {s : State} (h : HostLink.up s = true) (f : State → State) :
    HostLink.viaLink f s = f (Ops.toL0 Ops.raise s) := if_pos h

theorem viaLink_down {s : State} (h : HostLink.up s = false) (f : State → State) : HostLink.viaLink f s = s :=
  if_neg (by simp [h])

/-- An access of the host with the link up. -/
theorem run_viaLink {s y : State} (h : Awake s) (hup : HostLink.up s = true) {f : State → State}
    (e : f (Ops.toL0 Ops.raise (Ops.begin s)) = y) : Run.run (HostLink.viaLink f) s = .next (after s y) :=
  run_awake_of h ((viaLink_up (s := Ops.begin s) hup f).trans e)

theorem run_viaLink_down {s : State} (h : Awake s) (hd : HostLink.up s = false) (f : State → State) :
    Run.run (HostLink.viaLink f) s = .next (after s (Ops.begin s)) :=
  run_awake_of h (viaLink_down (s := Ops.begin s) hd f)

/-- The return to L0 is no change of mode. -/
@[simp] theorem cur_toL0 (s : State) : (Ops.toL0 Ops.raise s).modes.cur = s.modes.cur := by
  unfold Ops.toL0
  split <;> simp

/-- Outside M6 an access finds the link in L0. -/
theorem toL0_awake {s : State} (h : s.modes.cur ≠ .m6) : Ops.toL0 Ops.raise s = s := by
  simp [Ops.toL0, h]

/-! ### Accesses by their offset and mode (R183, R185, R186) -/

/-- The modes in which the host's accesses reach the banks (R186). -/
def Reached (s : State) : Prop := s.modes.cur = .m5 ∨ s.modes.cur = .m7

theorem reached_iff {s : State} : Ops.modeIn s [.m5, .m7] = true ↔ Reached s := by simp [Reached]

section
variable {s : State} {off : Nat}

theorem apertureRead_past (h : 0x18000000 ≤ off) (len : Nat) : Banks.apertureRead off len s =
    Ops.emit (.completion (List.replicate len 0xFF) false) (Ops.bump 0x8000 7 s) := if_pos h

theorem apertureRead_away (h : off < 0x18000000) (hm : ¬ Reached s) (len : Nat) : Banks.apertureRead off len s =
    Ops.emit (.completion (List.replicate len 0xFF) false) s := by
  rw [Banks.apertureRead, if_neg (by omega), if_neg (reached_iff.not.2 hm)]

theorem apertureRead_reached (h : off < 0x18000000) (hm : Reached s) (len : Nat) : Banks.apertureRead off len s =
    Banks.hostRead len off len s := by
  rw [Banks.apertureRead, if_neg (by omega), if_pos (reached_iff.2 hm)]

theorem apertureWrite_away (hm : ¬ Reached s) (op : BitVec 2) (data : List Byte) : Banks.apertureWrite op off data s = s :=
  if_pos (by simpa [reached_iff] using reached_iff.not.2 hm)

theorem apertureWrite_ragged (hm : Reached s) (op : BitVec 2) {data : List Byte} (h : off % 8 ≠ 0 ∨ data.length % 8 ≠ 0) :
    Banks.apertureWrite op off data s = Ops.bankCause Ops.raise (off / 65536 % 2048) 4 (Ops.bump 0x4000 5 s) := by
  rw [Banks.apertureWrite, if_neg (by simp [reached_iff.2 hm]), if_pos h]

theorem apertureWrite_words (hm : Reached s) (op : BitVec 2) {data : List Byte} (ho : off % 8 = 0) (hl : data.length % 8 = 0) :
    Banks.apertureWrite op off data s = Banks.hostWrite op data.length off data s := by
  rw [Banks.apertureWrite, if_neg (by simp [reached_iff.2 hm]), if_neg (by simp [ho, hl])]

end

/-! ### An access within one word -/

/-- The offset of byte `lo` of word w of bank n in the aperture, or in copy `al` of it (R183). -/
structure Spells (off al n w lo : Nat) : Prop where
  eq : off = 0x08000000 * al + (65536 * n + 8 * w) + lo
  bank : n < 2048
  word : w < 8192
  byte : lo < 8

theorem Spells.bankNo {off al n w lo : Nat} (h : Spells off al n w lo) : off / 65536 % 2048 = n := by
  obtain ⟨rfl, hn, hw, hl⟩ := h
  omega

theorem Spells.addr {off al n w lo : Nat} (h : Spells off al n w lo) : BitVec.ofNat 13 (off / 8) = BitVec.ofNat 13 w := by
  obtain ⟨rfl, hn, hw, hl⟩ := h
  apply BitVec.eq_of_toNat_eq
  simp only [BitVec.toNat_ofNat]
  omega

theorem Spells.lowByte {off al n w lo : Nat} (h : Spells off al n w lo) : off % 8 = lo := by
  obtain ⟨rfl, hn, hw, hl⟩ := h
  omega

/-- A read within one word is one request. -/
theorem hostRead_word {off al n w lo len : Nat} (h : Spells off al n w lo) (ha : al < 3) (hlen : 0 < len) (hend : lo + len ≤ 8)
    (s : State) : Banks.hostRead len off len s =
      Banks.arrive n { kind := .host lo len, req := { op := 0, addr := BitVec.ofNat 13 w, data := 0 } } s := by
  obtain ⟨k, rfl⟩ : ∃ k, len = k + 1 := ⟨len - 1, by omega⟩
  have inside : ¬ 0x18000000 ≤ off := by have := h.eq; have := h.bank; have := h.word; have := h.byte; omega
  have whole : min (k + 1) (8 - lo) = k + 1 := by omega
  have done (fuel off : Nat) (x : State) : Banks.hostRead fuel off 0 x = x := by cases fuel <;> rfl
  simp only [Banks.hostRead, h.lowByte, h.bankNo, h.addr, whole, Nat.sub_self, done, inside, if_false]
  simp

/-- A write of one whole word is one request. -/
theorem hostWrite_word {off al n w : Nat} (h : Spells off al n w 0) (op : BitVec 2) (x : W64) (s : State) :
    Banks.hostWrite op 8 off (le 8 x.toNat) s =
      Banks.arrive n { kind := .host 0 8, req := { op := op, addr := BitVec.ofNat 13 w, data := x } } s := by
  have long : (le 8 x.toNat).length = 8 := length_bytes 8 _
  have some : (le 8 x.toNat).isEmpty = false := by cases hl : le 8 x.toNat <;> simp_all
  have data : BitVec.ofNat 64 (Ops.le ((le 8 x.toNat).take 8)) = x := by
    rw [List.take_of_length_le long.le, le_bytes_word (n := 8) rfl, BitVec.ofNat_toNat, BitVec.setWidth_eq]
  have rest : (le 8 x.toNat).drop 8 = [] := List.drop_eq_nil_of_le long.le
  simp only [Banks.hostWrite, some, data, rest, h.bankNo, h.addr, List.isEmpty_nil, if_true]
  rfl

/-- A read within one word, and a write of one, in the modes in which the banks are reached. -/
theorem apertureRead_word {off al n w lo len : Nat} (h : Spells off al n w lo) (ha : al < 3) (hlen : 0 < len)
    (hend : lo + len ≤ 8) {s : State} (hm : Reached s) : Banks.apertureRead off len s =
      Banks.arrive n { kind := .host lo len, req := { op := 0, addr := BitVec.ofNat 13 w, data := 0 } } s := by
  have inside : off < 0x18000000 := by have := h.eq; have := h.bank; have := h.word; have := h.byte; omega
  rw [apertureRead_reached inside hm, hostRead_word h ha hlen hend]

theorem apertureWrite_word {off al n w : Nat} (h : Spells off al n w 0) (op : BitVec 2) (x : W64) {s : State}
    (hm : Reached s) : Banks.apertureWrite op off (le 8 x.toNat) s =
      Banks.arrive n { kind := .host 0 8, req := { op := op, addr := BitVec.ofNat 13 w, data := x } } s := by
  have long : (le 8 x.toNat).length = 8 := length_bytes 8 _
  rw [apertureWrite_words hm op h.lowByte (by rw [long]), long, hostWrite_word h]

/-! #### A request that arrives (R184, R185) -/

section
variable {s : State} {n : Nat}

theorem arrive_refused (h : Ops.refuses s n = true) (m : MaintReq) : Banks.arrive n m s = Banks.refuseOne n m s := if_pos h

theorem arrive_now (h : Ops.refuses s n = false) (hr : Ops.ready (Ops.claim Ops.raise n s) n = true ∧
      Ops.arrayFree (Ops.bank (Ops.claim Ops.raise n s) n) = true) (m : MaintReq) :
    Banks.arrive n m s = Banks.perform n m (Ops.claim Ops.raise n s) := by
  simp [Banks.arrive, h, hr.1, hr.2]

theorem arrive_held (h : Ops.refuses s n = false) (hr : ¬ (Ops.ready (Ops.claim Ops.raise n s) n = true ∧
      Ops.arrayFree (Ops.bank (Ops.claim Ops.raise n s) n) = true)) (m : MaintReq) :
    Banks.arrive n m s = Ops.hold n m (Ops.claim Ops.raise n s) := by
  rw [Banks.arrive, if_neg (by simp [h])]
  exact if_neg (by simpa using hr)

variable {lo len : Nat} {q : BankReq}

theorem perform_read (h : q.op = 0) : Banks.perform n { kind := .host lo len, req := q } s =
    (let a := Flags.access q.op q.data (Ops.word s n q.addr.toNat)
     Ops.emit (.completion ((Ops.bytes 8 a.data.toNat).drop lo |>.take len) a.bad)
       (accessed n q (Ops.word s n q.addr.toNat) s)) := by
  simp only [Banks.perform, bankAccess_unflipped, Banks.completion, h, if_true]
  exact if_neg nofun

theorem perform_write (h : q.op ≠ 0) : Banks.perform n { kind := .host lo len, req := q } s =
    accessed n q (Ops.word s n q.addr.toNat) s := by
  simp only [Banks.perform, bankAccess_unflipped, Banks.completion, h, if_false]
  exact if_neg nofun

/-- A refused read returns ones. -/
theorem refuseOne_read (h : q.op = 0) (hend : lo + len ≤ 8) : Banks.refuseOne n { kind := .host lo len, req := q } s =
    Ops.emit (.completion (List.replicate len 0xFF) false) (Ops.refuse Ops.raise n s) := by
  have ones : Ops.bytes 8 (BitVec.allOnes 64).toNat = List.replicate 8 0xFF := by decide
  have part : ((List.replicate 8 (0xFF : Byte)).drop lo).take len = List.replicate len 0xFF := by
    rw [List.drop_replicate, List.take_replicate, Nat.min_eq_left (by omega)]
  simp only [Banks.refuseOne, Banks.completion, h, ones, part, if_true]
  exact if_neg nofun

theorem refuseOne_write (h : q.op ≠ 0) : Banks.refuseOne n { kind := .host lo len, req := q } s =
    Ops.refuse Ops.raise n s := by
  simp only [Banks.refuseOne, Banks.completion, h, if_false]
  exact if_neg nofun

end

/-! ### The commands -/

theorem exec_hostBankRead (off : BitVec 29) (len : W16) (s : State) : exec (.hostBankRead off len) s =
    Run.run (HostLink.viaLink (Banks.apertureRead off.toNat len.toNat)) s := rfl

theorem exec_hostBankWrite (off : BitVec 27) (l : List Byte) (s : State) : exec (.hostBankWrite off l) s =
    Run.run (HostLink.viaLink (Banks.apertureWrite 1 off.toNat l)) s := rfl

theorem exec_hostBankSet (off : BitVec 27) (l : List Byte) (s : State) : exec (.hostBankSet off l) s =
    Run.run (HostLink.viaLink (Banks.apertureWrite 2 off.toNat l)) s := rfl

theorem exec_hostBankClear (off : BitVec 27) (l : List Byte) (s : State) : exec (.hostBankClear off l) s =
    Run.run (HostLink.viaLink (Banks.apertureWrite 3 off.toNat l)) s := rfl

/-- Settles O25: an access goes by its offset and the mode, and one within a word is one request that arrives at its bank. -/
theorem hostBankAccess : Obligations.HostBankAccess := by
  unfold Obligations.HostBankAccess
  refine ⟨fun s off len op o l h => ?offsets, fun s n w x al lo len h hup hm hlen hend => ?word⟩
  case offsets =>
    intro u served put
    have reached : Reached u ↔ served := by simp [Reached, served, u]
    refine ⟨fun hd => ?down, fun hup => ?up⟩
    case down =>
      have stays := run_viaLink_down h hd
      exact ⟨(exec_hostBankRead _ _ _).trans (stays _), fun _ => (exec_hostBankWrite _ _ _).trans (stays _),
        fun _ => (exec_hostBankSet _ _ _).trans (stays _), fun _ => (exec_hostBankClear _ _ _).trans (stays _)⟩
    case up =>
      have puts {y : State} (e : Banks.apertureWrite op o.toNat l u = y) : put y := by
        refine ⟨fun ho => ?_, fun ho => ?_, fun ho => ?_⟩ <;> subst ho
        · exact (exec_hostBankWrite o l s).trans (run_viaLink h hup e)
        · exact (exec_hostBankSet o l s).trans (run_viaLink h hup e)
        · exact (exec_hostBankClear o l s).trans (run_viaLink h hup e)
      have reads {y : State} (e : Banks.apertureRead off.toNat len.toNat u = y) :
          exec (.hostBankRead off len) s = .next (after s y) := (exec_hostBankRead off len s).trans (run_viaLink h hup e)
      exact ⟨fun ho => reads (apertureRead_past ho _), fun ho hs => reads (apertureRead_away ho (reached.not.2 hs) _),
        fun ho hs => reads (apertureRead_reached ho (reached.2 hs) _), fun hs => puts (apertureWrite_away (reached.not.2 hs) _ _),
        fun hs hw => puts (apertureWrite_ragged (reached.2 hs) _ hw),
        fun hs ho hl => puts (apertureWrite_words (reached.2 hs) _ ho hl)⟩
  case word =>
    intro u at' read puts host req mine now v
    have l0 : Ops.toL0 Ops.raise u = u := toL0_awake (by rcases hm with hm | hm <;> simp [u, hm])
    have hw := w.isLt
    have hn := n.isLt
    have hal := al.isLt
    have spells : Spells (BitVec.ofNat 29 (0x08000000 * al.val + at' + lo)).toNat al n w lo :=
      ⟨by rw [BitVec.toNat_ofNat, Nat.mod_eq_of_lt (by omega)], hn, hw, by omega⟩
    have place : Spells (BitVec.ofNat 27 at').toNat 0 n w 0 :=
      ⟨by rw [BitVec.toNat_ofNat, Nat.mod_eq_of_lt (by omega)]; omega, hn, hw, by decide⟩
    have size : (BitVec.ofNat 16 len).toNat = len := by rw [BitVec.toNat_ofNat, Nat.mod_eq_of_lt (by omega)]
    have addr (op : BitVec 2) (v : W64) : (req op v).addr.toNat = w := by
      rw [BitVec.toNat_ofNat, Nat.mod_eq_of_lt hw]
    have reads {y : State} (e : Banks.arrive n (host lo len (req 0 0)) u = y) : read y := by
      refine (exec_hostBankRead _ _ _).trans (run_viaLink h hup ?_)
      rw [size, l0, apertureRead_word spells hal hlen hend (s := u) hm]
      exact e
    have acts {op k : BitVec 2} {y : State} (e : op ≠ 0 → Banks.arrive n (host 0 8 (req op x)) u = y) (hk : k ≠ 0) (ho : op = k) :
        Run.run (HostLink.viaLink (Banks.apertureWrite k (BitVec.ofNat 27 at').toNat (le 8 x.toNat))) s = .next (after s y) := by
      subst ho
      refine run_viaLink h hup ?_
      rw [l0, apertureWrite_word place op x (s := u) hm]
      exact e hk
    have writes {op : BitVec 2} {y : State} (e : op ≠ 0 → Banks.arrive n (host 0 8 (req op x)) u = y) : puts op y :=
      ⟨fun ho => (exec_hostBankWrite _ _ _).trans (acts e (by decide) ho),
        fun ho => (exec_hostBankSet _ _ _).trans (acts e (by decide) ho),
        fun ho => (exec_hostBankClear _ _ _).trans (acts e (by decide) ho)⟩
    refine ⟨fun hr hnow => ⟨reads ?_, fun op => writes fun ho => ?_⟩, fun hr => ⟨reads ?_, fun op => writes fun ho => ?_⟩,
      fun hr hnow => ⟨reads ?_, fun op => writes fun ho => ?_⟩⟩
    · rw [arrive_now (s := u) hr hnow, perform_read rfl, addr]
    · rw [arrive_now (s := u) hr hnow, perform_write ho, addr]
    · exact (arrive_refused (s := u) hr _).trans (refuseOne_read rfl hend)
    · exact (arrive_refused (s := u) hr _).trans (refuseOne_write ho)
    · exact arrive_held (s := u) hr hnow _
    · exact arrive_held (s := u) hr hnow _

end Sys2Proof.Laws
end

section
/-!
SUPPORT. A write of TARGET to an On bank that still names a state to follow a change which is not in progress (R188, R190).
-/

namespace Sys2Proof.Laws

open Sys2Proof Sys2Proof.Machine Sys2Proof.Safety

/-- Bank 0 is On, idle and in no change of state, and has a state to go on to after one. -/
def followerLeft : State := { State.reset with banks := [(0, { power := some .on, next := some 0 })] }

/-- A write of Retain is taken, and the state to go on to right after it: the bank wakes again. -/
theorem power_applyTarget_followerLeft : Ops.power (Banks.applyTarget 0 1 followerLeft) 0 = .waking false 0 := by decide

/-- Refutes O26: its second part says that an On bank with nothing left to serve takes the state written to TARGET, whatever its
record names to follow. In `followerLeft`, written with Retain, the bank does not end in Retain, for the change that the write
starts goes on to the state that was left over. No command leaves a bank so; the statement has no premise that excludes it. -/
theorem not_bankStates : ¬ Obligations.BankStates := by
  unfold Obligations.BankStates
  rintro ⟨-, target, -⟩
  obtain ⟨x, rfl, -, retains⟩ := (target followerLeft 0 1).1 ⟨rfl, rfl⟩ rfl rfl
  exact absurd (power_applyTarget_followerLeft.symm.trans retains) (by decide)

end Sys2Proof.Laws
end

section
/-!
SUPPORT. The operations of an attachment on a queue, and the reasons for which they are refused (R209 to R217).
-/

namespace Sys2Proof.Laws

open Sys2Proof Sys2Proof.Machine Sys2Proof.Safety

/-! ### An operation of an attachment (R209, R211, R212, R214) -/

section
variable {s x : State} {a p : Nat} {r : QReq} {f : PoolFault}

theorem command_answered {y : QResp} (ha : a / 1024 ≠ 1) (h : Queues.operate a r f s = (some y, x)) :
    Queues.command a r f s = Queues.wakeConsumer r.queue.toNat (Ops.emit (.queue y) x) := by
  simp only [Queues.command, if_neg ha, h]

theorem command_held (ha : a / 1024 ≠ 1) (h : Queues.operate a r f s = (none, x)) : Queues.command a r f s = x := by
  simp only [Queues.command, if_neg ha, h]

theorem command_fabric (ha : a / 1024 = 1) : Queues.command a r f s = Queues.capture (a % 1024) r f s := if_pos ha

/-- A port that holds no request captures the one that its channels spell, and serves it. -/
theorem queuePort_captures {v : Nat} (hon : Queues.portOn s p = true) (hw : (Queues.qport s p).waiting = none)
    (hv : Fabric.captured s (.queuePort (Fin.ofNat 1024 p)) = some v) (hr : Queues.sameRequest (Queues.requestOf v) r = true) :
    Queues.capture p r f s = Queues.wakeConsumer r.queue.toNat (Queues.serve p f
      (Fabric.setAck (.queuePort (Fin.ofNat 1024 p)) true
        (Queues.setQPort p { Queues.qport s p with waiting := some (Queues.requestOf v) } s))) := by
  simp only [Queues.capture, hon, hw, hv, hr]
  rfl

/-- A port that is off or has a request waiting, or whose channels do not spell the one named. -/
theorem queuePort_idle (h : Queues.portOn s p = false ∨ (Queues.qport s p).waiting ≠ none ∨
      ∀ v, Fabric.captured s (.queuePort (Fin.ofNat 1024 p)) = some v → Queues.sameRequest (Queues.requestOf v) r = false) :
    Queues.capture p r f s = s := by
  simp only [Queues.capture]
  split
  · rfl
  · next hb =>
    simp only [Bool.or_eq_true, Bool.not_eq_true', not_or, Bool.not_eq_false, Bool.not_eq_true, Option.isSome_eq_false_iff,
      Option.isNone_iff_eq_none] at hb
    have spelled := (h.resolve_left (by simp [hb.1])).resolve_left (not_not.2 hb.2)
    split
    · rfl
    · next v hv => rw [spelled v hv]; rfl

end

/-- The commands of the attachments are the operations that they name. -/
theorem exec_operations (a q : BitVec 12) (d : W64) (f : PoolFault) (s : State) :
    exec (.push a q d) s = Run.run (Queues.command a.toNat { op := .push, queue := q, data := d } Queues.sound) s ∧
    exec (.pushAndClose a q d) s = Run.run (Queues.command a.toNat { op := .pushClose, queue := q, data := d } Queues.sound) s ∧
    exec (.pop a q f) s = Run.run (Queues.command a.toNat { op := .pop, queue := q, data := 0 } f) s ∧
    exec (.peek a q f) s = Run.run (Queues.command a.toNat { op := .peek, queue := q, data := 0 } f) s ∧
    exec (.abort a q) s = Run.run (Queues.command a.toNat { op := .abort, queue := q, data := 0 } Queues.sound) s :=
  ⟨rfl, rfl, rfl, rfl, rfl⟩

/-! ### The common checks (R215) -/

section
variable {s : State} {q : Nat}

theorem precheck_closed (h : s.modes.cur ≠ .m5 ∨ Queues.enabled s q = false) (a who : Nat) :
    Queues.precheck s a q who = some 4 := by
  rcases h with hm | he
  · simp [Queues.precheck, hm]
  · simp [Queues.precheck, he]

theorem precheck_open (h : Open s q) (a who : Nat) : Queues.precheck s a q who = if a ≠ who then some 3 else none := by
  simp [Queues.precheck, h.m5, h.enabled]

theorem precheck_stranger (h : Open s q) {a who : Nat} (ha : a ≠ who) : Queues.precheck s a q who = some 3 := by
  rw [precheck_open h, if_pos ha]

theorem precheck_passes (h : Open s q) {a who : Nat} (ha : a = who) : Queues.precheck s a q who = none := by
  rw [precheck_open h, if_neg (not_not.2 ha)]

variable {a e : Nat}

theorem push_refused (h : Queues.precheck s a q (Queues.producer s q) = some e) (d : W64) (close : Bool) :
    Queues.push a q d close s = (Queues.refused e, s) := by
  simp only [Queues.push, h]

theorem pop_refused (h : Queues.precheck s a q (Queues.consumer s q) = some e) (remove : Bool) (f : PoolFault) :
    Queues.pop a q remove f s = (some (Queues.refused e), s) := by
  simp only [Queues.pop, h]

theorem abort_refused (h : Queues.precheck s a q (Queues.producer s q) = some e) :
    Queues.abort a q s = (Queues.refused e, s) := by
  simp only [Queues.abort, h]

end

/-! ### A push that passes the checks (R213, R215, R217) -/

section
variable {s : State} {a q : Nat} {d : W64} {close : Bool} (h : Queues.precheck s a q (Queues.producer s q) = none)
include h

theorem push_discarding (hd : (Queues.queue s q).discarding = true) :
    (Queues.push a q d close s).1 = Queues.refused 6 := by
  simp only [Queues.push, h, hd, if_true]

variable (hd : (Queues.queue s q).discarding = false) (hw : (Queues.queue s q).swallowing = false)
include hd hw
variable (hr : (Queues.isOpen (Queues.queue s q) && Queues.hasRoom (Queues.queue s q)) = false)
include hr

theorem push_full (hf : Queues.depth (Queues.queue s q) = Queues.maxDepth s q) :
    (Queues.push a q d close s).1 = Queues.refused 1 := by
  simp only [Queues.push, h, hd, hw, hr, hf, Bool.false_eq_true, if_true, if_false]

variable (hf : Queues.depth (Queues.queue s q) ≠ Queues.maxDepth s q)
include hf

theorem push_poolEmpty (hn : Queues.allocate q s = none) : (Queues.push a q d close s).1 = Queues.refused 2 := by
  simp only [Queues.push, h, hd, hw, hr, hn, if_neg hf, Bool.false_eq_true, if_false]

end

/-- Settles O27: a command of an attachment is one operation of the queue or one capture at its port, and an operation that the
common checks do not pass is refused before it looks at what the queue holds. -/
theorem queueAnswers : Obligations.QueueAnswers := by
  unfold Obligations.QueueAnswers
  refine ⟨fun s a q d f h => ?commands, fun s a q d close => ⟨fun hc => ?closed, fun ho ha => ?stranger,
    fun ho ha hd => ?discarding, fun ho ha hd hw hr => ⟨fun hf => ?full, fun hf hn => ?poolEmpty⟩, fun e who he => ?others,
    fun r f hr => ?reserved⟩⟩
  case commands =>
    intro u does
    have one {c : Instr} {o : QOp} {d : W64} {f : PoolFault}
        (hc : exec c s = Run.run (Queues.command a.toNat { op := o, queue := q, data := d } f) s) : does c o d f := by
      refine ⟨fun ha y x e => ?_, fun ha x e => ?_, fun ha v => ?_, fun ha => ?_⟩
      · exact hc.trans (run_awake_of h (command_answered ha e))
      · exact hc.trans (run_awake_of h (command_held ha e))
      · intro p hon hw hv hr
        exact hc.trans (run_awake_of h ((command_fabric ha).trans
          (queuePort_captures (s := u) hon hw ((congrFun (captured_begin s) _).trans hv) hr)))
      · intro p hi
        refine hc.trans (run_awake_of h ((command_fabric ha).trans (queuePort_idle (s := u) ?_)))
        rw [captured_begin]
        exact hi
    obtain ⟨push, pushAndClose, pop, peek, abort⟩ := exec_operations a q d f s
    exact ⟨one push, one pushAndClose, one pop, one peek, one abort⟩
  case closed => exact push_refused (precheck_closed hc _ _) d close
  case stranger => exact push_refused (precheck_stranger ho ha) d close
  case discarding => exact push_discarding (precheck_passes ho ha) hd
  case full => exact push_full (precheck_passes ho ha) hd hw hr hf
  case poolEmpty => exact push_poolEmpty (precheck_passes ho ha) hd hw hr hf hn
  case others =>
    rcases he with ⟨rfl, hc⟩ | ⟨rfl, ho, ha⟩
    · exact ⟨fun _ => pop_refused (precheck_closed hc _ _), fun _ => abort_refused (precheck_closed hc _ _)⟩
    · refine ⟨fun hw => ?_, fun hw => ?_⟩
      · obtain rfl := hw.resolve_left (by decide)
        exact pop_refused (precheck_stranger ho ha)
      · obtain rfl := hw.resolve_left (by decide)
        exact abort_refused (precheck_stranger ho ha)
  case reserved => simp only [Queues.operate, hr]

end Sys2Proof.Laws
end

section
/-!
SUPPORT. The number of no queue, whose control word would be a sub of another object (R206, R224, R480).
-/

namespace Sys2Proof.Laws

open Sys2Proof Sys2Proof.Machine Sys2Proof.Safety

/-- The queue number, past 4095, whose control word would be 0xA000.09, the count of the slices that an access has cut. -/
def strayQueue : Nat := 16 * (0xA000 - 0x5100) + 1

theorem sub_strayQueue (s : State) : Queues.sub s strayQueue 1 = Ops.reg s 0xA000 9 := rfl

/-- A closed packet of one visible word. -/
def strayPacket : Packet := { cells := [{ id := 0, words := [0], visible := true }], opened := false }

/-- M5, with such a queue enabled and `strayPacket` in it. Source 306 is delivered to the event word of engine 0, which lies in
bank 0, and self-test has borrowed that bank. -/
def strayState : State :=
  { State.reset with
    modes := { State.reset.modes with cur := .m5 }
    regs := [(256 * 0xA000 + 9, 2 ^ 63), (256 * 0xB001 + 1, 2 ^ 31), (256 * 0xB102 + 51, 2 ^ 31 + 2 ^ 25)]
    queues := [(strayQueue, { packets := [strayPacket] })]
    banks := [(0, { power := some .on, borrowed := true })] }

/-- The state in which a link entry of that queue has been lost (R206). -/
def strayLost : State :=
  Ops.raise 306 (Queues.notice strayQueue 4 (Ops.bump 0x5000 6 (Queues.flush strayQueue true strayState)))

/-- The delivery of source 306 claims the bank and counts the slice that it cuts: the count, taken for a control word, disables
the queue. -/
theorem enabled_strayLost : Queues.enabled strayLost strayQueue = false := by
  rw [Queues.enabled, sub_strayQueue]
  decide +kernel

/-- The pop that loses the link entry finds the queue empty. -/
theorem answer_stray : (Queues.pop 0 strayQueue false { correctedLink := false, badLink := true, flips := 0 } strayState).1 =
    some {} := by decide +kernel

/-- Refutes O28: where a link entry is lost, its second part compares a pop with one made after source 306 has been raised, for
any number of a queue. Past 4095 a queue's control word is a sub of another object, which the delivery of that source can write: in
`strayState` the first pop answers that the queue is empty, and the second, which finds the queue disabled, is refused. No sender
can name such a queue; the statement has no premise that excludes it. -/
theorem not_queueOrder : ¬ Obligations.QueueOrder := by
  unfold Obligations.QueueOrder
  rintro ⟨-, pops, -⟩
  obtain ⟨reads, -⟩ := pops strayState 0 strayQueue ⟨rfl, by decide⟩ (by decide)
  obtain ⟨-, -, -, lost⟩ := reads strayPacket [] _ [] 0 [] rfl rfl rfl rfl rfl (.inr (by decide))
  have refused := pop_refused (precheck_closed (.inr enabled_strayLost) 0 _) false Queues.sound
  have same := answer_stray.symm.trans (congrArg Prod.fst ((lost false 0).trans refused))
  exact absurd same (by decide)

end Sys2Proof.Laws
end

section
/-!
SUPPORT. The words of a queue, by what their chapter makes of a write (R219, R223 to R225).
-/

namespace Sys2Proof.Laws

open Sys2Proof Sys2Proof.Machine Sys2Proof.Safety

/-! ### The objects of the queues (R224) -/

section
variable (n : BitVec 12)

theorem find_queue : Objects.find (0x5100 + n.toNat / 16) = some ⟨0x80, .host, (List.range 16).flatMap fun m =>
    [Objects.r (1 + 8 * m) (1 + 8 * m) .u64 .rw, Objects.r (2 + 8 * m) (2 + 8 * m) .u64 .rw 0x100000000000,
      Objects.r (3 + 8 * m) (3 + 8 * m) .u64 .ro, Objects.bits 0x3F (Objects.r (4 + 8 * m) (4 + 8 * m) .u8 .rw),
      Objects.r (5 + 8 * m) (8 + 8 * m) .u32 .ro]⟩ := by
  have number := n.isLt
  have array : ¬ 0x5100 + n.toNat / 16 < 0x2000 := by omega
  have early : ¬ 0x5100 + n.toNat / 16 < 0x3000 := by omega
  have time : ¬ 0x5100 + n.toNat / 16 < 0x4000 := by omega
  have banks : ¬ 0x5100 + n.toNat / 16 < 0x5000 := by omega
  have here : 0x5100 + n.toNat / 16 < 0x6000 := by omega
  have pool : ¬ 0x5100 + n.toNat / 16 = 0x5000 := by omega
  have queues : 0x5100 ≤ 0x5100 + n.toNat / 16 ∧ 0x5100 + n.toNat / 16 < 0x5200 := by omega
  simp only [Objects.find, if_neg array, if_neg early, if_neg time, if_neg banks, if_pos here, Objects.queues, if_neg pool,
    if_pos queues]

/-- The control and limits words have 8 bytes. -/
theorem size_queueWord {k : Nat} (hk : k = 1 ∨ k = 2) : Operands.size (0x5100 + n.toNat / 16) (k + 8 * (n.toNat % 16)) = 8 := by
  obtain ⟨m, hm⟩ : ∃ m : Fin 16, m.val = n.toNat % 16 := ⟨⟨_, Nat.mod_lt _ (by decide)⟩, rfl⟩
  simp only [Operands.size, Objects.row, find_queue, ← hm]
  clear hm
  rcases hk with rfl | rfl
  · revert m; decide
  · revert m; decide

theorem chapterWrite_queue (t : Transport) (k : Nat) (d : List Byte) (s : State) :
    Dict.chapterWrite t (0x5100 + n.toNat / 16) k d s = Queues.writeSub (0x5100 + n.toNat / 16) k (Ops.le d) s := by
  have number := n.isLt
  have modes : ¬ 0x5100 + n.toNat / 16 < 0x1010 := by omega
  have transports : ¬ (0x1100 ≤ 0x5100 + n.toNat / 16 ∧ 0x5100 + n.toNat / 16 < 0x1200) := by omega
  have supplies : ¬ 0x5100 + n.toNat / 16 < 0x2000 := by omega
  have regions : ¬ (0x2400 ≤ 0x5100 + n.toNat / 16 ∧ 0x5100 + n.toNat / 16 < 0x2800) := by omega
  have loader : ¬ 0x5100 + n.toNat / 16 < 0x3000 := by omega
  have select : ¬ (0x5100 + n.toNat / 16 = 0x3010 ∧ k = 3) := by omega
  have time : ¬ 0x5100 + n.toNat / 16 < 0x4000 := by omega
  have banks : ¬ 0x5100 + n.toNat / 16 < 0x5000 := by omega
  have here : 0x5100 + n.toNat / 16 < 0x6000 := by omega
  simp only [Dict.chapterWrite, if_neg modes, if_neg transports, if_neg supplies, if_neg regions, if_neg loader, if_neg select,
    if_neg time, if_neg banks, if_pos here]

/-- The queue and the word that a sub of a queue object names. -/
theorem writeSub_queue {k : Nat} (hk : k = 1 ∨ k = 2) (v : Nat) (s : State) :
    Queues.writeSub (0x5100 + n.toNat / 16) (k + 8 * (n.toNat % 16)) v s =
      some (if k = 1 then Queues.writeControl n.toNat v s else Queues.writeLimits n.toNat v s) := by
  have number := n.isLt
  have pool : ¬ (0x5100 + n.toNat / 16 = 0x5000 ∧ k + 8 * (n.toNat % 16) = 2) := by omega
  have queues : 0x5100 ≤ 0x5100 + n.toNat / 16 ∧ 0x5100 + n.toNat / 16 < 0x5200 := by omega
  have named : 16 * (0x5100 + n.toNat / 16 - 0x5100) + (k + 8 * (n.toNat % 16) - 1) / 8 = n.toNat := by omega
  have word : (k + 8 * (n.toNat % 16)) % 8 = k := by omega
  simp only [Queues.writeSub, if_neg pool, if_pos queues, named, word]
  rcases hk with rfl | rfl <;> rfl

theorem writeSub_control (v : Nat) (s : State) : Queues.writeSub (0x5100 + n.toNat / 16) (1 + 8 * (n.toNat % 16)) v s =
    some (Queues.writeControl n.toNat v s) := (writeSub_queue n (.inl rfl) v s).trans (congrArg some (if_pos rfl))

theorem writeSub_limits (v : Nat) (s : State) : Queues.writeSub (0x5100 + n.toNat / 16) (2 + 8 * (n.toNat % 16)) v s =
    some (Queues.writeLimits n.toNat v s) := (writeSub_queue n (.inr rfl) v s).trans (congrArg some (if_neg (by decide)))

end

section
variable {s x : State} {t : Transport} {n : BitVec 12} {k v e : Nat} (hk : k = 1 ∨ k = 2)
  (h : Writes s t (0x5100 + n.toNat / 16) (k + 8 * (n.toNat % 16)) (le 8 v))
include hk h

/-- A write of a queue's word, by what its chapter makes of it. -/
theorem run_queueWord (he : Queues.writeSub (0x5100 + n.toNat / 16) (k + 8 * (n.toNat % 16)) (Ops.le (le 8 v)) (counted s) =
      some (.inr x)) :
    Run.run (Operands.write t (0x5100 + n.toNat / 16) (k + 8 * (n.toNat % 16)) v) s =
      .next (wrote s t (0x5100 + n.toNat / 16) (k + 8 * (n.toNat % 16)) (le 8 v) x) :=
  have number := n.isLt
  operands_taken (size_queueWord n hk) h (by omega) (by omega) ((chapterWrite_queue n t _ _ _).trans he)

theorem run_queueWord_refused (he : Queues.writeSub (0x5100 + n.toNat / 16) (k + 8 * (n.toNat % 16)) (Ops.le (le 8 v))
      (counted s) = some (.inl e)) :
    Run.run (Operands.write t (0x5100 + n.toNat / 16) (k + 8 * (n.toNat % 16)) v) s =
      .next (after s (answered s t 2 (0x5100 + n.toNat / 16) (k + 8 * (n.toNat % 16)) (le 8 v) e [] (counted s))) :=
  have number := n.isLt
  operands_refused (size_queueWord n hk) h (by omega) (by omega) ((chapterWrite_queue n t _ _ _).trans he)

end

/-- The request's count is no word of a queue. -/
theorem sub_counted (s : State) (q k : Nat) : Queues.sub (counted s) q k = Queues.sub s q k := reg_counted (by omega) s

/-! ### The control word (R219, R225) -/

/-- A field of the word that a mask keeps whole. -/
theorem field_and_mask {m i k : Nat} (h : m / 2 ^ i % 2 ^ k = 2 ^ k - 1) (w : Nat) :
    (w &&& m) / 2 ^ i % 2 ^ k = w / 2 ^ i % 2 ^ k := by
  rw [Nat.and_div_two_pow, Nat.and_mod_two_pow, h, Nat.and_two_pow_sub_one_eq_mod, Nat.mod_mod]

/-- The bits of a control word that are not reserved. -/
def controlBits : Nat := 0xE0FF000FFFFFF000

/-- A word of bytes keeps the bits of a control word. -/
theorem word_and_controlBits (f : Nat) : Ops.le (le 8 f) &&& controlBits = f &&& controlBits := by
  rw [le_bytes, show (256 : Nat) ^ 8 = 2 ^ 64 from rfl]
  calc f % 2 ^ 64 &&& controlBits = f % 2 ^ 64 &&& controlBits % 2 ^ 64 := rfl
    _ = (f &&& controlBits) % 2 ^ 64 := (Nat.and_mod_two_pow ..).symm
    _ = f &&& controlBits := Nat.mod_eq_of_lt (lt_of_le_of_lt Nat.and_le_right (by decide))

/-- A write of a control word looks at these bits alone. -/
theorem writeControl_congr {v w : Nat} (h : v &&& controlBits = w &&& controlBits) (q : Nat) (s : State) :
    Queues.writeControl q v s = Queues.writeControl q w s := by
  unfold Queues.writeControl
  rw [show v &&& 0xE0FF000FFFFFF000 = w &&& 0xE0FF000FFFFFF000 from h]

/-- A control word keeps what that of an enabled queue cannot change, and does not disable one in use (R225). -/
def KeepsQueue (s : State) (q w : Nat) : Prop :=
  Ops.bit (Queues.sub s q 1) 63 = true →
    w / 2 ^ 12 % 2 ^ 24 = Queues.sub s q 1 / 2 ^ 12 % 2 ^ 24 ∧ w / 2 ^ 48 % 256 = Queues.sub s q 1 / 2 ^ 48 % 256 ∧
    (Ops.bit w 63 = false → Ops.bit w 62 = false → Queues.depth (Queues.queue s q) = 0 ∧
      Queues.isOpen (Queues.queue s q) = false ∧ (Queues.queue s q).swallowing = false)

/-- A control word names attachments (R225). -/
def GoodControl (w : Nat) : Prop :=
  Queues.badAttachment (w / 2 ^ 24 % 4096) = false ∧ Queues.badAttachment (w / 2 ^ 12 % 4096) = false

theorem goodControl_and (w : Nat) : GoodControl (w &&& controlBits) ↔ GoodControl w := by
  have producer : (w &&& controlBits) / 2 ^ 24 % 4096 = w / 2 ^ 24 % 4096 := field_and_mask (k := 12) (by decide) w
  have consumer : (w &&& controlBits) / 2 ^ 12 % 4096 = w / 2 ^ 12 % 4096 := field_and_mask (k := 12) (by decide) w
  rw [GoodControl, producer, consumer, GoodControl]

theorem keepsQueue_counted (s : State) (q w : Nat) : KeepsQueue (counted s) q w ↔ KeepsQueue s q w := by
  simp only [KeepsQueue, sub_counted]
  rfl

section
variable {s : State} {q v : Nat}

/-- The two reasons for which a control word finds its queue busy. -/
theorem not_keepsQueue_iff {w : Nat} : ¬ KeepsQueue s q w ↔
    (Ops.bit (Queues.sub s q 1) 63 = true ∧ (w / 2 ^ 12 % 2 ^ 24 ≠ Queues.sub s q 1 / 2 ^ 12 % 2 ^ 24 ∨
      w / 2 ^ 48 % 256 ≠ Queues.sub s q 1 / 2 ^ 48 % 256)) ∨
    (Ops.bit (Queues.sub s q 1) 63 = true ∧ Ops.bit w 63 = false ∧ Ops.bit w 62 = false ∧
      (Queues.depth (Queues.queue s q) ≠ 0 ∨ Queues.isOpen (Queues.queue s q) = true ∨
        (Queues.queue s q).swallowing = true)) := by
  simp only [KeepsQueue, Classical.not_imp, not_and_or, Bool.not_eq_false]
  tauto

theorem writeControl_busy (h : ¬ KeepsQueue s q (v &&& controlBits)) : Queues.writeControl q v s = .inl 5 := by
  unfold Queues.writeControl
  rcases not_keepsQueue_iff.1 h with hc | ⟨ho, h63, h62, hu⟩
  · exact if_pos hc
  · dsimp only
    split
    · rfl
    · exact if_pos (by simpa [controlBits] using ⟨ho, h63, h62, hu⟩)

theorem writeControl_keeps (h : KeepsQueue s q (v &&& controlBits)) : Queues.writeControl q v s =
    if Queues.badAttachment ((v &&& controlBits) / 2 ^ 24 % 4096) ||
        Queues.badAttachment ((v &&& controlBits) / 2 ^ 12 % 4096) then .inl 4
    else .inr (Queues.trackNotices q
      (Ops.setReg (0x5100 + q / 16) (1 + 8 * (q % 16)) (Ops.clearBits (v &&& controlBits) (2 ^ 62))
        (if Ops.bit (v &&& controlBits) 62 then Queues.wakeConsumer q (Queues.watermarks q (Queues.flush q false s)) else s))) := by
  have busy := mt not_keepsQueue_iff.2 (not_not.2 h)
  rw [not_or] at busy
  unfold Queues.writeControl
  refine (if_neg busy.1).trans ((if_neg ?_).trans rfl)
  simpa [controlBits] using busy.2

theorem writeControl_refused (h : KeepsQueue s q (v &&& controlBits)) (hg : ¬ GoodControl (v &&& controlBits)) :
    Queues.writeControl q v s = .inl 4 := by
  rw [writeControl_keeps h, if_pos]
  simpa only [GoodControl, not_and_or, Bool.not_eq_false, Bool.or_eq_true] using hg

theorem writeControl_stored (h : KeepsQueue s q (v &&& controlBits)) (hg : GoodControl (v &&& controlBits)) :
    Queues.writeControl q v s = .inr (Queues.trackNotices q
      (Ops.setReg (0x5100 + q / 16) (1 + 8 * (q % 16)) (Ops.clearBits (v &&& controlBits) (2 ^ 62))
        (if Ops.bit (v &&& controlBits) 62 then Queues.wakeConsumer q (Queues.watermarks q (Queues.flush q false s)) else s))) := by
  rw [writeControl_keeps h, if_neg]
  rw [hg.1, hg.2]
  decide

end

/-! ### A flush (R219) -/

/-- The word of QUEUE_FLUSH: the stored one with FLUSH. -/
abbrev flushWord (s : State) (q : Nat) : Nat := Operands.replace (Queues.sub s q 1) 62 1 1

theorem bit_flushWord (s : State) (q : Nat) : Ops.bit (flushWord s q &&& controlBits) 62 = true := by
  have flush : flushWord s q / 2 ^ 62 % 2 = 1 := by
    simp only [Operands.replace]
    omega
  rw [Ops.bit, Nat.testBit_and, Nat.testBit_eq_decide_div_mod_eq, decide_eq_true flush]
  decide

/-- It changes no field of the stored word but FLUSH. -/
theorem keepsQueue_flushWord (s : State) (q : Nat) : KeepsQueue s q (flushWord s q &&& controlBits) := by
  refine fun _ => ⟨?_, ?_, fun _ h => absurd h (by simp [bit_flushWord])⟩
  · rw [field_and_mask (by decide)]
    simp only [Operands.replace]
    omega
  · rw [show (256 : Nat) = 2 ^ 8 from rfl, field_and_mask (by decide)]
    simp only [Operands.replace]
    omega

theorem writeControl_flush {s : State} {q : Nat} (h : GoodControl (flushWord s q)) : Queues.writeControl q (flushWord s q) s =
    .inr (Queues.trackNotices q (Ops.setReg (0x5100 + q / 16) (1 + 8 * (q % 16))
      (Ops.clearBits (flushWord s q &&& controlBits) (2 ^ 62))
      (Queues.wakeConsumer q (Queues.watermarks q (Queues.flush q false s))))) := by
  rw [writeControl_stored (keepsQueue_flushWord s q) ((goodControl_and _).2 h), if_pos (bit_flushWord s q)]

theorem flushWord_counted (s : State) (q : Nat) : flushWord (counted s) q = flushWord s q := by
  rw [flushWord, sub_counted]

/-- A write of a field of a stored word is one of the whole word, as it is before the command. -/
theorem run_writeField {s : State} {t : Transport} {i k lo w v : Nat} (h : Awake s) :
    Run.run (Operands.writeField t i k lo w v) s =
      Run.run (Operands.write t i k (Operands.replace (Ops.reg s i k) lo w v)) s := by
  have stored : Ops.reg (Ops.begin s) i k = Ops.reg s i k := rfl
  rw [run_awake h, run_awake h, Operands.writeField, stored]

theorem exec_queueFlush {s : State} (h : Awake s) (t : Transport) (q : BitVec 12) : exec (.queueFlush t q) s =
    Run.run (Operands.write t (0x5100 + q.toNat / 16) (1 + 8 * (q.toNat % 16)) (flushWord s q.toNat)) s := run_writeField h

section
variable {s : State} {t : Transport} {q : BitVec 12}
  (h : Writes s t (0x5100 + q.toNat / 16) (1 + 8 * (q.toNat % 16)) (le 8 (flushWord s q.toNat)))
include h

/-- A flush leaves the queue with the stored control word, in which FLUSH reads 0. -/
theorem queueFlush_taken (hg : GoodControl (flushWord s q.toNat)) : exec (.queueFlush t q) s =
    .next (wrote s t (0x5100 + q.toNat / 16) (1 + 8 * (q.toNat % 16)) (le 8 (flushWord s q.toNat))
      (Queues.trackNotices q.toNat (Ops.setReg (0x5100 + q.toNat / 16) (1 + 8 * (q.toNat % 16))
        (Ops.clearBits (flushWord s q.toNat &&& controlBits) (2 ^ 62))
        (Queues.wakeConsumer q.toNat (Queues.watermarks q.toNat (Queues.flush q.toNat false (counted s))))))) := by
  have flushes := writeControl_flush (s := counted s) (q := q.toNat)
  rw [flushWord_counted] at flushes
  exact (exec_queueFlush h.toAwake t q).trans (run_queueWord (.inl rfl) h
    ((writeSub_control q _ _).trans (congrArg some ((writeControl_congr (word_and_controlBits _) _ _).trans (flushes hg)))))

theorem queueFlush_refused (hg : ¬ GoodControl (flushWord s q.toNat)) : exec (.queueFlush t q) s =
    .next (after s (answered s t 2 (0x5100 + q.toNat / 16) (1 + 8 * (q.toNat % 16)) (le 8 (flushWord s q.toNat)) 4 []
      (counted s))) := by
  have keeps := (keepsQueue_counted s q.toNat _).2 (keepsQueue_flushWord s q.toNat)
  exact (exec_queueFlush h.toAwake t q).trans (run_queueWord_refused (.inl rfl) h
    ((writeSub_control q _ _).trans (congrArg some ((writeControl_congr (word_and_controlBits _) _ _).trans
      (writeControl_refused keeps (mt (goodControl_and _).1 hg))))))

end

/-! ### The limits word (R223) -/

section
variable {s : State} {q v : Nat}

/-- A limits word is a legal one. -/
def GoodLimits (v : Nat) : Prop :=
  1 ≤ v / 2 ^ 38 % 2 ^ 19 ∧ v / 2 ^ 38 % 2 ^ 19 ≤ 262144 ∧ (v / 2 ^ 19 % 2 ^ 19 = 0 ∨
    v % 2 ^ 19 < v / 2 ^ 19 % 2 ^ 19 ∧ v / 2 ^ 19 % 2 ^ 19 ≤ v / 2 ^ 38 % 2 ^ 19)

/-- What a write of the limits checks, in the fields of the written word. -/
theorem writeLimits_eq (q v : Nat) (s : State) : Queues.writeLimits q v s =
    let m := v / 2 ^ 38 % 2 ^ 19
    let h := v / 2 ^ 19 % 2 ^ 19
    if m = 0 ∨ 262144 < m ∨ (h ≠ 0 ∧ (h ≤ v % 2 ^ 19 ∨ m < h)) then .inl 4
    else if m < Queues.depth (Queues.queue s q) then .inl 5
    else .inr (Ops.setReg (0x5100 + q / 16) (2 + 8 * (q % 16)) (v % 2 ^ 57) s) := by
  have depth : v % 2 ^ 57 / 2 ^ 38 = v / 2 ^ 38 % 2 ^ 19 := by omega
  have high : v % 2 ^ 57 / 2 ^ 19 % 2 ^ 19 = v / 2 ^ 19 % 2 ^ 19 := by omega
  have low : v % 2 ^ 57 % 2 ^ 19 = v % 2 ^ 19 := by omega
  simp only [Queues.writeLimits, depth, high, low]

theorem writeLimits_illegal (h : ¬ GoodLimits v) : Queues.writeLimits q v s = .inl 4 := by
  rw [writeLimits_eq]
  refine if_pos ?_
  unfold GoodLimits at h
  omega

theorem writeLimits_legal (h : GoodLimits v) : Queues.writeLimits q v s =
    if v / 2 ^ 38 % 2 ^ 19 < Queues.depth (Queues.queue s q) then .inl 5
    else .inr (Ops.setReg (0x5100 + q / 16) (2 + 8 * (q % 16)) (v % 2 ^ 57) s) := by
  rw [writeLimits_eq]
  refine if_neg ?_
  unfold GoodLimits at h
  omega

end

end Sys2Proof.Laws
end

section
/-!
SUPPORT. The trace rings: what the fabric's channels ask of them, and the host's read (R228, R229, R231).
-/

namespace Sys2Proof.Laws

open Sys2Proof Sys2Proof.Machine Sys2Proof.Safety

/-! ### The oldest entry of a ring -/

@[simp] theorem ring_setRing_same (r : Nat) (g : Ring) (s : State) : Queues.ring (Queues.setRing r g s) r = g :=
  Table.get_put_same _ _ _

theorem ring_setRing_other {r j : Nat} (h : j ≠ r) (g : Ring) (s : State) :
    Queues.ring (Queues.setRing r g s) j = Queues.ring s j := Table.get_put_other _ _ h

/-- The oldest entry of ring r. -/
abbrev oldest (s : State) (r : Nat) : W64 :=
  Table.get (fun _ => (0 : W64)) s.ringMem (256 * r + (Queues.ring s r).rp.toNat % 256)

section
variable {s : State} {r : Nat}

theorem ringRead_empty (h : (Queues.ring s r).wp = (Queues.ring s r).rp) (remove : Bool) :
    Queues.ringRead r remove s = (0, s) := if_pos h

theorem ringRead_peek (h : (Queues.ring s r).wp ≠ (Queues.ring s r).rp) :
    Queues.ringRead r false s = (1#1 ++ oldest s r, s) := if_neg h

theorem ringRead_pop (h : (Queues.ring s r).wp ≠ (Queues.ring s r).rp) : Queues.ringRead r true s =
    (1#1 ++ oldest s r, Queues.setRing r { Queues.ring s r with rp := (Queues.ring s r).rp + 1 } s) := if_neg h

end

/-! ### A write from the fabric (R228, R229) -/

section
variable {s : State} {r : Nat}

/-- The ring after entry `d` has joined it, with its oldest entry at `rp`. -/
def joined (r : Nat) (d : W64) (rp : BitVec 9) (s : State) : State :=
  let x := Queues.setRing r { Queues.ring s r with wp := (Queues.ring s r).wp + 1, rp := rp } s
  { x with ringMem := Table.put (fun _ => 0) s.ringMem (256 * r + (Queues.ring s r).wp.toNat % 256) d }

theorem ringWrite_room (h : (Queues.ring s r).wp - (Queues.ring s r).rp ≠ 256) (d : W64) :
    Queues.ringWrite r d s = joined r d (Queues.ring s r).rp s := by
  simp only [Queues.ringWrite, beq_false_of_ne h]
  rfl

theorem ringWrite_full (h : (Queues.ring s r).wp - (Queues.ring s r).rp = 256) (d : W64) : Queues.ringWrite r d s =
    (let y := Ops.bump (0x5300 + r) 4 (joined r d ((Queues.ring s r).rp + 1) s)
     if Ops.reg y (0x5300 + r) 7 = 1 then Ops.raise (288 + r / 32) y else y) := by
  simp only [Queues.ringWrite, h]
  rfl

end

section
variable {s : State} {r : Fin 512}

theorem traceWrite_none (h : Fabric.captured s (.traceWrite r) = none) : Queues.traceWrite r s = s := by
  simp only [Queues.traceWrite, Fin.ofNat_val_eq_self, h]

theorem traceWrite_some {v : Nat} (h : Fabric.captured s (.traceWrite r) = some v) : Queues.traceWrite r s =
    Queues.ringWrite r (BitVec.ofNat 64 v) (Fabric.setAck (.traceWrite r) true s) := by
  simp only [Queues.traceWrite, Fin.ofNat_val_eq_self, h]

end

/-! ### A read from the fabric (R228, R229, R231) -/

section
variable {s : State} {r : Fin 512}

/-- What a read of ring r answers the fabric, and the state after it: an empty ring, and one that the host drains, answers 0. -/
def fabricRead (r : Nat) (remove : Bool) (s : State) : BitVec 65 × State :=
  if Ops.reg s (0x5300 + r) 5 = 1 then (0, s) else Queues.ringRead r remove s

theorem fabricRead_zero (h : Ops.reg s (0x5300 + r) 5 = 1 ∨ (Queues.ring s r).wp = (Queues.ring s r).rp) (remove : Bool) :
    fabricRead r remove s = (0, s) := by
  unfold fabricRead
  split
  · rfl
  · next hn => exact ringRead_empty (h.resolve_left hn) remove

theorem fabricRead_entry (h : ¬ (Ops.reg s (0x5300 + r) 5 = 1 ∨ (Queues.ring s r).wp = (Queues.ring s r).rp)) (remove : Bool) :
    fabricRead r remove s = (1#1 ++ oldest s r,
      if remove then Queues.setRing r { Queues.ring s r with rp := (Queues.ring s r).rp + 1 } s else s) := by
  rw [not_or] at h
  refine (if_neg h.1).trans ?_
  cases remove
  · exact ringRead_peek h.2
  · exact ringRead_pop h.2

/-- A read that is not asked for, or while a response waits. -/
theorem traceRead_idle {remove : Bool} (h : (Queues.ring s r).resp ≠ none ∨ Fabric.captured s (.traceRead r) = none ∨
      ∃ v, Fabric.captured s (.traceRead r) = some v ∧ (v == 1) ≠ remove) : Queues.traceRead r remove s = s := by
  simp only [Queues.traceRead, Fin.ofNat_val_eq_self]
  split
  · rfl
  · next hr =>
    rw [Bool.not_eq_true, Option.isSome_eq_false_iff, Option.isNone_iff_eq_none] at hr
    rcases h.resolve_left (not_not.2 hr) with hn | ⟨v, hv, hm⟩
    · rw [hn]
    · rw [hv]
      exact if_pos (bne_iff_ne.2 hm)

theorem traceRead_asked {remove : Bool} {v : Nat} (hr : (Queues.ring s r).resp = none)
    (hv : Fabric.captured s (.traceRead r) = some v) (hm : (v == 1) = remove) : Queues.traceRead r remove s =
    (let p := fabricRead r remove (Fabric.setAck (.traceRead r) true s)
     Fabric.pump (.trace r) (Queues.setRing r { Queues.ring p.2 r with resp := some p.1, offer := {} } p.2)) := by
  simp only [Queues.traceRead, Fin.ofNat_val_eq_self, hr, hv, hm]
  simp only [bne_self_eq_false, Option.isSome_none, Bool.false_eq_true, if_false]
  rfl

/-- `y` is `s` after ring r has acknowledged a read and offers `word`, with its oldest entry at `rp`. -/
def Answers (s : State) (r : Fin 512) (word : BitVec 65) (rp : BitVec 9) (y : State) : Prop :=
  ∃ x, y = Fabric.pump (.trace r) x ∧ x = { Fabric.setAck (.traceRead r) true s with rings := x.rings } ∧
    Queues.ring x r = { Queues.ring s r with rp := rp, resp := some word, offer := {} } ∧
    ∀ j, j ≠ r.val → Queues.ring x j = Queues.ring s j

section
variable {remove : Bool} {v : Nat} (hr : (Queues.ring s r).resp = none)
  (hv : Fabric.captured s (.traceRead r) = some v) (hm : (v == 1) = remove)
include hr hv hm

theorem answers_zero (h : Ops.reg s (0x5300 + r) 5 = 1 ∨ (Queues.ring s r).wp = (Queues.ring s r).rp) :
    Answers s r 0 (Queues.ring s r).rp (Queues.traceRead r remove s) := by
  refine ⟨_, traceRead_asked hr hv hm, ?_⟩
  rw [fabricRead_zero (s := Fabric.setAck (.traceRead r) true s) h]
  exact ⟨rfl, ring_setRing_same _ _ _, fun j hj => ring_setRing_other hj _ _⟩

theorem answers_entry (h : ¬ (Ops.reg s (0x5300 + r) 5 = 1 ∨ (Queues.ring s r).wp = (Queues.ring s r).rp)) :
    Answers s r (1#1 ++ oldest s r) (if remove then (Queues.ring s r).rp + 1 else (Queues.ring s r).rp)
      (Queues.traceRead r remove s) := by
  refine ⟨_, traceRead_asked hr hv hm, ?_⟩
  rw [fabricRead_entry (s := Fabric.setAck (.traceRead r) true s) h]
  cases remove with
  | false => exact ⟨rfl, ring_setRing_same _ _ _, fun j hj => ring_setRing_other hj _ (Fabric.setAck (.traceRead r) true s)⟩
  | true =>
    refine ⟨rfl, ?_, fun j hj => (ring_setRing_other hj _ _).trans (ring_setRing_other hj _ _)⟩
    simp only [if_true, ring_setRing_same]
    rfl

end

/-! ### The host's read (R231) -/

theorem hostPop_entry (hh : Ops.reg s (0x5300 + r) 5 = 1) (he : (Queues.ring s r).wp ≠ (Queues.ring s r).rp) :
    Queues.hostPop r s = (Ops.bytes 1 1 ++ Ops.bytes 8 (oldest s r).toNat,
      Queues.setRing r { Queues.ring s r with rp := (Queues.ring s r).rp + 1 } s) := by
  have valid : (1#1 ++ oldest s r).toNat = 2 ^ 64 + (oldest s r).toNat := by
    rw [BitVec.toNat_append, ← Nat.shiftLeft_add_eq_or_of_lt (oldest s r).isLt]
    rfl
  have entry := (oldest s r).isLt
  simp only [Queues.hostPop, if_pos hh, ringRead_pop he, valid, show (2 ^ 64 + (oldest s r).toNat) / 2 ^ 64 = 1 by omega,
    show (2 ^ 64 + (oldest s r).toNat) % 2 ^ 64 = (oldest s r).toNat by omega]

theorem hostPop_zero (h : ¬ (Ops.reg s (0x5300 + r) 5 = 1) ∨ (Queues.ring s r).wp = (Queues.ring s r).rp) :
    Queues.hostPop r s = (List.replicate 9 0, s) := by
  by_cases hh : Ops.reg s (0x5300 + r) 5 = 1
  · simp only [Queues.hostPop, if_pos hh, ringRead_empty (h.resolve_left (not_not.2 hh))]
    rfl
  · simp only [Queues.hostPop, if_neg hh]
    rfl

/-- A read of the entry of a ring is the host's pop (R231). -/
theorem read_trace {t : Transport} {x : Row} (h : Reads s t (0x5300 + r) 6 x) (hb : x.ty = .blob) :
    Dict.read t (0x5300 + r) 6 (counted s) =
      (.inr (Queues.hostPop r (counted s)).1, (Queues.hostPop r (counted s)).2) := by
  have reachable : Dict.reachable (counted s) x = true := h.reachable
  have published : ¬ 0xF000 ≤ 0x5300 + r.val := by omega
  have security : ¬ 0xC000 ≤ 0x5300 + r.val := by omega
  have rings : 0x5300 ≤ 0x5300 + r.val ∧ 0x5300 + r.val < 0x5500 := by omega
  have two : 0x5300 + r.val ≠ 0x3002 := by omega
  have banks : 0x5300 + r.val ≠ 0x3010 := by omega
  have time : ¬ (0x5300 + r.val = 0x3000 ∧ 6 = 1) := by omega
  have steps : ¬ (0x5300 + r.val = 0x3002 ∧ 6 = 2) := by omega
  have blob : Dict.blob (counted s) (Transports.context (counted s) t) (0x5300 + r) 6 =
      some (.inr (Queues.hostPop r (counted s)).1) := by
    simp only [Dict.blob, if_neg security, if_neg two, if_neg banks, if_pos rings, Nat.add_sub_cancel_left]
  have after : Dict.afterRead t (0x5300 + r) 6 (counted s) = (Queues.hostPop r (counted s)).2 := by
    simp only [Dict.afterRead, if_neg time, if_neg steps, rings, Nat.add_sub_cancel_left]
    rfl
  simp only [Dict.read, h.row, if_neg h.readable, reachable, if_neg published, hb, Objects.sizeOf, blob, after]
  rfl

end

/-- Settles O29: a word of a queue is written by what its chapter makes of it, and a ring by what the fabric's channels, or the
host, ask of it. -/
theorem queueWrites : Obligations.QueueWrites := by
  unfold Obligations.QueueWrites
  refine ⟨fun s t q => ?words, fun s r h => ?rings⟩
  case words =>
    intro n i k u old f flushed store good fails
    refine ⟨fun h => ⟨fun hg => ?flush, fun hg => ?flushRefused⟩, fun v => ?control, fun v => ?limits,
      fun h => run_awake h Queues.sweep⟩
    case flush => exact queueFlush_taken h hg
    case flushRefused => exact queueFlush_refused h hg
    case control =>
      intro w x d keeps h
      have written : Queues.writeSub i (1 + k) (Ops.le d) u = some (Queues.writeControl n v.toNat u) := by
        rw [le_bytes_word (n := 8) rfl v]
        exact writeSub_control q _ _
      refine ⟨fun hk hg => run_queueWord (.inl rfl) h ?_, fun hk => run_queueWord_refused (.inl rfl) h ?_,
        fun hk hg => run_queueWord_refused (.inl rfl) h ?_⟩
      · exact written.trans (congrArg some (writeControl_stored ((keepsQueue_counted s n w).2 hk) hg))
      · exact written.trans (congrArg some (writeControl_busy (mt (keepsQueue_counted s n w).1 hk)))
      · exact written.trans (congrArg some (writeControl_refused ((keepsQueue_counted s n w).2 hk) hg))
    case limits =>
      intro m high d legal h
      have written : Queues.writeSub i (2 + k) (Ops.le d) u = some (Queues.writeLimits n v.toNat u) := by
        rw [le_bytes_word (n := 8) rfl v]
        exact writeSub_limits q _ _
      refine ⟨fun hl hd => run_queueWord (.inr rfl) h ?_, fun hl => run_queueWord_refused (.inr rfl) h ?_,
        fun hl hd => run_queueWord_refused (.inr rfl) h ?_⟩
      · exact written.trans (congrArg some ((writeLimits_legal (s := u) hl).trans (if_neg (not_lt.2 hd))))
      · exact written.trans (congrArg some (writeLimits_illegal hl))
      · exact written.trans (congrArg some ((writeLimits_legal (s := u) hl).trans (if_pos hd)))
  case rings =>
    intro u g e full host
    have channels {k : Taker} {o : Option Nat} (ho : Fabric.captured s k = o) : Fabric.captured u k = o :=
      (congrFun (captured_begin s) k).trans ho
    refine ⟨fun hn => ?unwritten, fun hi => ?noPeek, fun hi => ?noPop, fun v hv => ?written, fun hr => ?answered,
      fun t x hx hb => ?host⟩
    case unwritten => exact run_awake_of h (traceWrite_none (s := u) (channels hn))
    case noPeek =>
      refine run_awake_of h (traceRead_idle (s := u) (hi.imp_right ?_))
      exact Or.imp channels fun hv => ⟨1, channels hv, by decide⟩
    case noPop =>
      refine run_awake_of h (traceRead_idle (s := u) (hi.imp_right fun hv => ?_))
      cases hc : Fabric.captured s (.traceRead r) with
      | none => exact .inl (channels hc)
      | some v => exact .inr ⟨v, channels hc, fun hm => hv (hc.trans (congrArg some (beq_iff_eq.1 hm)))⟩
    case written =>
      have joins := traceWrite_some (s := u) (channels hv)
      exact ⟨fun hf => run_awake_of h (joins.trans (ringWrite_room (s := Fabric.setAck (.traceWrite r) true u) hf _)),
        fun hf => run_awake_of h (joins.trans (ringWrite_full (s := Fabric.setAck (.traceWrite r) true u) hf _))⟩
    case answered =>
      intro word answers
      have reads {c : Instr} {remove : Bool} {y : BitVec 65} {rp : BitVec 9}
          (hc : exec c s = Run.run (Queues.traceRead r remove) s)
          (ha : Answers u r y rp (Queues.traceRead r remove u)) (hy : word = y) : answers c (.traceRead r) rp := by
        obtain ⟨x, hp, hx, hg, ho⟩ := ha
        exact ⟨x, hc.trans (run_awake_of h hp), hx, hy ▸ hg, ho⟩
      by_cases hz : host ∨ g.wp = g.rp
      · rw [if_pos hz]
        exact ⟨fun hv => reads rfl (answers_zero (s := u) hr (channels hv) rfl hz) (if_pos hz),
          fun hv => reads rfl (answers_zero (s := u) hr (channels hv) rfl hz) (if_pos hz)⟩
      · rw [if_neg hz]
        exact ⟨fun hv => reads rfl (answers_entry (s := u) hr (channels hv) rfl hz) (if_neg hz),
          fun hv => reads rfl (answers_entry (s := u) hr (channels hv) rfl hz) (if_neg hz)⟩
    case host =>
      have drains : Ops.reg (counted s) (0x5300 + r) 5 = Ops.reg s (0x5300 + r) 5 := reg_counted (by omega) s
      refine ⟨fun hh he => run_read hx ?_, fun hz => run_read hx ?_⟩
      · rw [read_trace hx hb, hostPop_entry (s := counted s) (drains.trans hh) he]
        rfl
      · rw [read_trace hx hb, hostPop_zero (s := counted s) (by rwa [drains])]

end Sys2Proof.Laws
end

section
/-!
SUPPORT. The instructions of the Prism engines that only compute: their values, and the register file (R235, R236, R240, R244).
-/

namespace Sys2Proof.Laws

open Sys2Proof Sys2Proof.Machine Sys2Proof.Safety

/-! ### The values of R240 -/

theorem mul_eq (a b : W32) : a * b = BitVec.ofNat 32 (a.toNat * b.toNat) := by
  apply BitVec.eq_of_toNat_eq
  simp

theorem shiftLeft_eq (a : W32) (k : Nat) : a <<< k = BitVec.ofNat 32 (a.toNat * 2 ^ k) := by
  apply BitVec.eq_of_toNat_eq
  simp [Nat.shiftLeft_eq]

theorem shiftRight_eq (a : W32) (k : Nat) : a >>> k = BitVec.ofNat 32 (a.toNat / 2 ^ k) := by
  apply BitVec.eq_of_toNat_eq
  have := a.isLt
  have := Nat.div_le_self a.toNat (2 ^ k)
  rw [BitVec.toNat_ushiftRight, BitVec.toNat_ofNat, Nat.shiftRight_eq_div_pow, Nat.mod_eq_of_lt (by omega)]

theorem shiftSigned_eq (a : W32) (k : Nat) : shiftSigned a k = BitVec.ofInt 32 (a.toInt / 2 ^ k) := by
  rw [shiftSigned, BitVec.sshiftRight, Int.shiftRight_eq_div_pow]
  norm_cast

theorem compare_signed (a b : W32) : Machine.compare BitVec.slt a b =
    if a.toInt < b.toInt then BitVec.ofInt 32 (-1) else if a.toInt = b.toInt then 0 else 1 := by
  simp only [Machine.compare, BitVec.slt, decide_eq_true_eq, BitVec.toInt_inj]
  rfl

theorem compare_unsigned (a b : W32) : Machine.compare BitVec.ult a b =
    if a.toNat < b.toNat then BitVec.ofInt 32 (-1) else if a.toNat = b.toNat then 0 else 1 := by
  simp only [Machine.compare, BitVec.ult, decide_eq_true_eq, BitVec.toNat_inj]
  rfl

theorem not_slt_iff (a b : W32) : (!a.slt b) = true ↔ a.toInt ≥ b.toInt := by simp [BitVec.slt]

theorem not_ult_iff (a b : W32) : (!a.ult b) = true ↔ a.toNat ≥ b.toNat := by simp [BitVec.ult]

theorem zext_eq (w : W32) : Engines.zext w = BitVec.ofNat 32 (w.toNat % 2 ^ 18) := by
  apply BitVec.eq_of_toNat_eq
  simp [Engines.zext, Nat.shiftRight_eq_div_pow]

theorem sext_eq (w : W32) : Engines.sext w = BitVec.ofInt 32
    (if w.toNat % 2 ^ 18 < 2 ^ 17 then ((w.toNat % 2 ^ 18 : Nat) : Int) else ((w.toNat % 2 ^ 18 : Nat) : Int) - 2 ^ 18) := by
  rw [Engines.sext, BitVec.signExtend, BitVec.toInt_eq_toNat_cond, BitVec.extractLsb'_toNat, Nat.shiftRight_zero]
  congr 1
  split <;> split <;> omega

theorem high_eq (w : W32) : Engines.zext w <<< 14 = BitVec.ofNat 32 (w.toNat % 2 ^ 18 * 2 ^ 14) := by
  rw [zext_eq, shiftLeft_eq]
  apply BitVec.eq_of_toNat_eq
  simp

/-! ### The instructions by their format (R239, R240) -/

section
variable {o : Nat} {s : State} {n : Fin 128} {w : W32} (h : Issues o s n w)
include h

theorem run_alu (f : W32 → W32 → W32) {v : W32} (hv : f (r2 s n w) (r3 s n w) = v) :
    Run.run (Engines.alu o n f) s = .next (result s n w v) := hv ▸ run_retire h rfl

theorem run_aluImm (f : W32 → W32 → W32) {v : W32} (hv : f (r2 s n w) w = v) :
    Run.run (Engines.aluImm o n f) s = .next (result s n w v) := hv ▸ run_retire h rfl

theorem run_branch {f : W32 → W32 → Bool} {c : Prop} [Decidable c] (hc : f (r1 s n w) (r2 s n w) = true ↔ c) :
    Run.run (Engines.branch o n f) s = .next (retired s n (Engines.engine s n) (if c then taken s n w else next s n)) := by
  rw [← if_congr hc rfl rfl]
  exact run_retire h rfl

/-- The amount of an immediate shift has five bits (R241). -/
theorem amount_imm (ho : 0x15 ≤ o ∧ o ≤ 0x17) : amount w = w.toNat % 2 ^ 18 := by
  have hl := h.legal
  rw [Engines.illegal, Bool.or_eq_false_iff, Bool.not_eq_false', Engines.fieldsGood, h.op] at hl
  have small : (w.toNat % 2 ^ 18) / 32 = 0 := by
    obtain ⟨hl, -⟩ := hl
    rw [if_neg (by omega), if_neg (by omega), if_neg (by omega), if_pos ho] at hl
    exact beq_iff_eq.1 hl
  unfold amount
  omega

end

/-! ### The register file (R235, R238, R244) -/

@[simp] theorem get_zero (e : Engine) : Engines.get e 0 = 0 := rfl

@[simp] theorem put_zero (v : W32) (e : Engine) : Engines.put 0 v e = e := rfl

theorem put_pos {g : Nat} (h : g ≠ 0) (v : W32) (e : Engine) : Engines.put g v e =
    { e with regs := Table.put (fun _ => 0) e.regs g v, marks := e.marks.filter fun m => m.1.val != g } := if_neg h

theorem get_put_same {g : Nat} (h : g ≠ 0) (v : W32) (e : Engine) : Engines.get (Engines.put g v e) g = v := by
  rw [put_pos h, Engines.get, if_neg h, Table.get_put_same]

theorem get_put_other {g k : Nat} (h : k ≠ g) (v : W32) (e : Engine) :
    Engines.get (Engines.put g v e) k = Engines.get e k := by
  by_cases hg : g = 0
  · rw [hg, put_zero]
  · rw [put_pos hg, Engines.get, Engines.get]
    exact if_congr Iff.rfl rfl (Table.get_put_other _ v h)

/-- A register that has been written is no longer pending. -/
theorem pends_put {g : Nat} (h : g ≠ 0) (v : W32) (e : Engine) : Engines.pends (Engines.put g v e) g = false := by
  rw [put_pos h]
  simp [Engines.pends]

/-- Settles O30: each format by its shape, with the value or the condition of each instruction, and the register file. -/
theorem prismRegister : Obligations.PrismRegister := by
  unfold Obligations.PrismRegister
  refine ⟨fun s n w => ?registers, fun s n w => ?immediates, fun s n w => ?flow, fun e g k v => ?file⟩
  case registers =>
    intro a b
    exact ⟨fun h => run_alu h _ rfl, fun h => run_alu h _ rfl, fun h => run_alu h _ rfl, fun h => run_alu h _ rfl,
      fun h => run_alu h _ rfl, fun h => run_alu h _ (mul_eq a b), fun h => run_alu h _ (compare_signed a b),
      fun h => run_alu h _ (compare_unsigned a b), fun h => run_alu h _ (shiftLeft_eq a _),
      fun h => run_alu h _ (shiftRight_eq a _), fun h => run_alu h _ (shiftSigned_eq a _)⟩
  case immediates =>
    intro a k
    have shifts {o : Nat} (h : Issues o s n w) (ho : 0x15 ≤ o ∧ o ≤ 0x17) : amount w = k := amount_imm h ho
    refine ⟨fun h => run_aluImm h _ (congrArg (a + ·) (sext_eq w)), fun h => run_aluImm h _ (congrArg (a &&& ·) (zext_eq w)),
      fun h => run_aluImm h _ (congrArg (a ||| ·) (zext_eq w)), fun h => run_aluImm h _ (congrArg (a ^^^ ·) (zext_eq w)),
      fun h => run_aluImm h _ (high_eq w), fun h => run_aluImm h _ ?_, fun h => run_aluImm h _ ?_,
      fun h => run_aluImm h _ ?_⟩
    · rw [shifts h (by decide), shiftLeft_eq]
    · rw [shifts h (by decide), shiftRight_eq]
    · rw [shifts h (by decide), shiftSigned_eq]
  case flow =>
    intro e a b go
    exact ⟨fun h => run_branch h beq_iff_eq, fun h => run_branch h bne_iff_ne, fun h => run_branch h decide_eq_true_iff,
      fun h => run_branch h (not_slt_iff a b), fun h => run_branch h decide_eq_true_iff,
      fun h => run_branch h (not_ult_iff a b), fun h => run_retire h rfl, fun h => run_retire h rfl⟩
  case file =>
    exact ⟨get_zero e, put_zero v e, fun h => get_put_same h v e, fun h => get_put_other h v e, fun h => pends_put h v e⟩

end Sys2Proof.Laws
end

section
/-!
SUPPORT. The loads and stores of the Prism engines, and the operands that are pairs (R237, R238, R240, R262).
-/

namespace Sys2Proof.Laws

open Sys2Proof Sys2Proof.Machine Sys2Proof.Safety

/-! ### Pairs (R238) -/

section
variable {o : Nat} {s : State} {n : Fin 128} {w : W32} (h : Issues o s n w) {l : List Nat}
include h

theorem op_mem (ho : o ∈ l) : Engines.op w ∈ l := h.op.symm ▸ ho

theorem op_notMem (ho : o ∉ l) : Engines.op w ∉ l := h.op.symm ▸ ho

end

section
variable {w : W32}

/-- D, or the source in its place, is a pair. -/
theorem pairs_first (h : Engines.op w ∈ [0x22, 0x26, 0x2A, 0x2B, 0x30, 0x35]) : Engines.pairs w = [Engines.f1 w] := by
  simp only [List.mem_cons, List.not_mem_nil, or_false] at h
  rcases h with h | h | h | h | h | h <;> simp [Engines.pairs, h]

/-- A, or S, is a pair. -/
theorem pairs_second (h : Engines.op w ∈ [0x28, 0x29, 0x31, 0x32, 0x34]) : Engines.pairs w = [Engines.f2 w] := by
  simp only [List.mem_cons, List.not_mem_nil, or_false] at h
  rcases h with h | h | h | h | h <;> simp [Engines.pairs, h]

/-- No other instruction has a pair. -/
theorem pairs_none (h : Engines.op w ∉ [0x22, 0x26, 0x2A, 0x2B, 0x30, 0x35] ++ [0x28, 0x29, 0x31, 0x32, 0x34]) :
    Engines.pairs w = [] := by
  simp only [List.cons_append, List.nil_append, List.mem_cons, List.not_mem_nil, or_false, not_or] at h
  unfold Engines.pairs
  split <;> simp_all

theorem oddPair_none (h : Engines.op w ∉ [0x22, 0x26, 0x2A, 0x2B, 0x30, 0x35] ++ [0x28, 0x29, 0x31, 0x32, 0x34]) :
    Engines.oddPair w = false := by
  rw [Engines.oddPair, pairs_none h]
  rfl

theorem oddPair_first (h : Engines.op w ∈ [0x22, 0x26, 0x2A, 0x2B, 0x30, 0x35]) (he : Engines.f1 w % 2 = 0) :
    Engines.oddPair w = false := by
  simp [Engines.oddPair, pairs_first h, he]

theorem oddPair_second (h : Engines.op w ∈ [0x28, 0x29, 0x31, 0x32, 0x34]) (he : Engines.f2 w % 2 = 0) :
    Engines.oddPair w = false := by
  simp [Engines.oddPair, pairs_second h, he]

end

/-- An even pair lets the body run (R238). -/
theorem pair_body {w : W32} (hp : Engines.oddPair w = false) {n : Nat} {body : Engine → W32 → State → State} {e : Engine}
    {u x : State} (hb : body e w u = x) : (if Engines.oddPair w then Engines.fault n 5 u else body e w u) = x := by
  rw [hp]
  exact hb

/-! ### The faults of an access (R237, R238, R262) -/

section
variable {w : W32} {a k : Nat} {store : Bool}

theorem accessFault_unaligned (h : a % k ≠ 0) : Engines.accessFault w a k store = some 2 := if_pos h

variable (h : a % k = 0)
include h

theorem accessFault_outside (ha : 0x18000 ≤ a) : Engines.accessFault w a k store = some 3 := by
  simp [Engines.accessFault, h, ha]

theorem accessFault_window (ha : 0x10000 ≤ a) (hb : a < 0x18000) : Engines.accessFault w a k true = some 4 := by
  simp [Engines.accessFault, h, ha, hb]

theorem accessFault_inside (ha : a < if store then 0x10000 else 0x18000) :
    Engines.accessFault w a k store = if Engines.oddPair w then some 5 else none := by
  have outside : ¬ 0x18000 ≤ a := by split at ha <;> omega
  have window : ¬ (store = true ∧ 0x10000 ≤ a) := by
    rintro ⟨rfl, hw⟩
    simp at ha
    omega
  simp only [Engines.accessFault, h, ne_eq, not_true_eq_false, if_false, outside, window]

theorem accessFault_none (ha : a < if store then 0x10000 else 0x18000) (hp : Engines.oddPair w = false) :
    Engines.accessFault w a k store = none := by
  rw [accessFault_inside h ha, hp]
  rfl

end

/-! ### Bytes that make a word -/

theorem ofNat_byte {m : Nat} (v : Nat) (b : Byte) : BitVec.ofNat (m + 8) (b.toNat + 256 * v) = BitVec.ofNat m v ++ b := by
  apply BitVec.eq_of_toNat_eq
  have hb := b.isLt
  have hp : 2 ^ (m + 8) = 256 * 2 ^ m := by rw [pow_add, mul_comm]; rfl
  rw [BitVec.toNat_append, BitVec.toNat_ofNat, BitVec.toNat_ofNat, ← Nat.shiftLeft_add_eq_or_of_lt hb, Nat.shiftLeft_eq, hp,
    Nat.mod_mul, Nat.add_mul_mod_self_left, Nat.mod_eq_of_lt hb, Nat.add_mul_div_left _ _ (by decide), Nat.div_eq_of_lt hb,
    Nat.zero_add]
  omega

theorem le_cons (b : Byte) (d : List Byte) : Ops.le (b :: d) = b.toNat + 256 * Ops.le d := rfl

theorem le_nil : Ops.le [] = 0 := rfl

theorem word_of_bytes (a b c d : Byte) : BitVec.ofNat 32 (Ops.le [a, b, c, d]) = d ++ c ++ b ++ a := by
  rw [le_cons, le_cons, le_cons, le_cons]
  have top : BitVec.ofNat 8 (d.toNat + 256 * Ops.le []) = d := by simp [le_nil]
  exact (ofNat_byte (m := 24) _ a).trans (congrArg (· ++ a)
    ((ofNat_byte (m := 16) _ b).trans (congrArg (· ++ b) ((ofNat_byte (m := 8) _ c).trans (congrArg (· ++ c) top)))))

/-- The halves of a pair. -/
theorem halves_ofNat {x y : Nat} (h : x < 256 ^ 4) : (BitVec.ofNat 64 (x + 2 ^ 32 * y)).extractLsb' 0 32 = BitVec.ofNat 32 x ∧
    (BitVec.ofNat 64 (x + 2 ^ 32 * y)).extractLsb' 32 32 = BitVec.ofNat 32 y := by
  constructor
  · apply BitVec.eq_of_toNat_eq
    rw [BitVec.extractLsb'_toNat, BitVec.toNat_ofNat, BitVec.toNat_ofNat, Nat.shiftRight_zero]
    omega
  · apply BitVec.eq_of_toNat_eq
    rw [BitVec.extractLsb'_toNat, BitVec.toNat_ofNat, BitVec.toNat_ofNat, Nat.shiftRight_eq_div_pow]
    omega

/-! ### Loads -/

section
variable {o : Nat} {s : State} {n : Fin 128} {w : W32} (h : Issues o s n w)
include h

theorem run_load {k : Nat} (hf : Engines.accessFault w (Engines.address (Engines.engine s n) w) k false = none)
    (f : Nat → Nat → Engine → Engine) : Run.run (Engines.load o n k f) s = .next (retired s n
      (f (Engines.f1 w) (Engines.readData s n (Engines.address (Engines.engine s n) w) k) (Engines.engine s n))
      (next s n)) := by
  refine run_retire h ?_
  simp only [hf]
  rfl

end

/-- A load of four bytes, and its word. -/
theorem readData_word (s : State) (n a : Nat) : BitVec.ofNat 32 (Engines.readData s n a 4) =
    byteAt s n (a + 3) ++ byteAt s n (a + 2) ++ byteAt s n (a + 1) ++ byteAt s n (a + 0) := word_of_bytes _ _ _ _

theorem readData_byte (s : State) (n a : Nat) :
    BitVec.ofNat 32 (Engines.readData s n a 1) = (byteAt s n (a + 0)).setWidth 32 := by
  apply BitVec.eq_of_toNat_eq
  show ((Engines.dataByte s n (a + 0)).toNat + 256 * 0) % 2 ^ 32 = _
  rw [BitVec.toNat_setWidth]
  rfl

/-- The two halves of a load of eight bytes. -/
theorem readData_pair (s : State) (n a : Nat) (d : Nat) (e : Engine) :
    Engines.putPair d (BitVec.ofNat 64 (Engines.readData s n a 8)) e =
      Engines.put (d + 1) (byteAt s n (a + 7) ++ byteAt s n (a + 6) ++ byteAt s n (a + 5) ++ byteAt s n (a + 4))
        (Engines.put d (byteAt s n (a + 3) ++ byteAt s n (a + 2) ++ byteAt s n (a + 1) ++ byteAt s n (a + 0)) e) := by
  have whole : Engines.readData s n a 8 =
      Ops.le [byteAt s n (a + 0), byteAt s n (a + 1), byteAt s n (a + 2), byteAt s n (a + 3)] +
      2 ^ 32 * Ops.le [byteAt s n (a + 4), byteAt s n (a + 5), byteAt s n (a + 6), byteAt s n (a + 7)] := by
    show Ops.le [byteAt s n (a + 0), byteAt s n (a + 1), byteAt s n (a + 2), byteAt s n (a + 3), byteAt s n (a + 4),
      byteAt s n (a + 5), byteAt s n (a + 6), byteAt s n (a + 7)] = _
    simp only [le_cons, le_nil]
    omega
  obtain ⟨low, high⟩ := halves_ofNat
    (y := Ops.le [byteAt s n (a + 4), byteAt s n (a + 5), byteAt s n (a + 6), byteAt s n (a + 7)])
    (le_lt [byteAt s n (a + 0), byteAt s n (a + 1), byteAt s n (a + 2), byteAt s n (a + 3)])
  rw [Engines.putPair, whole, low, high, word_of_bytes, word_of_bytes]

/-! ### Stores -/

/-- A store changes the data scratchpads alone. -/
theorem writeData_frame (n a v k : Nat) (s : State) : Engines.writeData n a v k s =
    { s with eng := { s.eng with dmem := (Engines.writeData n a v k s).eng.dmem } } := by
  induction k with
  | zero => rfl
  | succ k ih => rw [Engines.writeData, ih]; rfl

theorem dmem_setDmem (n a : Nat) (b : Byte) (s : State) (m x : Nat) (ha : a < 65536) (hx : x < 65536) :
    Engines.dmem (Engines.setDmem n a b s) m x = if m = n ∧ x = a then b else Engines.dmem s m x := by
  rw [Engines.dmem, Engines.setDmem, Table.get_put]
  exact if_congr (by omega) rfl rfl

theorem dmem_writeData {n a k : Nat} (hk : a + k ≤ 65536) (v : Nat) (s : State) (m : Nat) {x : Nat} (hx : x < 65536) :
    Engines.dmem (Engines.writeData n a v k s) m x =
      if m = n ∧ a ≤ x ∧ x < a + k then BitVec.ofNat 8 (v / 2 ^ (8 * (x - a))) else Engines.dmem s m x := by
  induction k with
  | zero => rw [if_neg (by omega)]; rfl
  | succ k ih =>
    rw [Engines.writeData, dmem_setDmem _ _ _ _ _ _ (by omega) hx, ih (by omega)]
    by_cases here : m = n ∧ x = a + k
    · obtain ⟨rfl, rfl⟩ := here
      rw [if_pos ⟨rfl, rfl⟩, if_pos (by omega), Nat.add_sub_cancel_left]
    · rw [if_neg here]
      exact if_congr (by omega) rfl rfl

section
variable {o : Nat} {s : State} {n : Fin 128} {w : W32} (h : Issues o s n w)
include h

theorem run_stores {a k v : Nat} (ha : Engines.address (Engines.engine s n) w = a)
    (hf : Engines.accessFault w a k true = none) (hk : a + k ≤ 65536) {f : Engine → Nat → Nat}
    (hv : f (Engines.engine s n) (Engines.f1 w) = v) :
    ∃ t, Run.run (Engines.store o n k f) s = .next t ∧ Stored s t n a k v := by
  have bytes := dmem_writeData (n := n) hk v (Ops.begin s)
  have left := writeData_frame n a v k (Ops.begin s)
  generalize hx : Engines.writeData n a v k (Ops.begin s) = x at bytes left
  refine ⟨_, run_issue h (t := Engines.retire n (next s n) (Engines.engine s n) x) ?body ?calm ?time ?pending, x.eng.dmem, ?_,
    fun m y hy => bytes m hy⟩
  case body => simp only [ha, hf, hv, hx]; rfl
  case calm => rw [left]; exact calm_of_regs h.toCalm rfl rfl rfl rfl
  case time => rw [left]; rfl
  case pending => rw [left]; rfl
  · rw [left]; rfl

end

theorem toNat_getPair (e : Engine) (g : Nat) :
    (Engines.getPair e g).toNat = (Engines.get e g).toNat + 2 ^ 32 * (Engines.get e (g + 1)).toNat := by
  rw [Engines.getPair, BitVec.toNat_append, ← Nat.shiftLeft_add_eq_or_of_lt (Engines.get e g).isLt, Nat.shiftLeft_eq]
  ring

/-- Settles O31: a load or store without a fault retires with the bytes of its address, lowest first. -/
theorem prismMemory : Obligations.PrismMemory := by
  unfold Obligations.PrismMemory
  refine ⟨fun s n w => ?loads, fun s n w => ?stores⟩
  case loads =>
    intro a x
    have fine {o k : Nat} (h : Issues o s n w) (hk : a % k = 0) (ha : a < 0x18000) (hp : Engines.oddPair w = false) :
        Engines.accessFault w a k false = none := accessFault_none hk ha hp
    refine ⟨fun h hk ha => ?word, fun h ha => ?byte, fun h hk ha he => ?pair⟩
    case word =>
      refine (run_load h (fine h hk ha (oddPair_none (op_notMem h (by decide)))) _).trans ?_
      rw [readData_word]
      rfl
    case byte =>
      refine (run_load h (fine h (Nat.mod_one a) ha (oddPair_none (op_notMem h (by decide)))) _).trans ?_
      rw [readData_byte]
      rfl
    case pair =>
      refine (run_load h (fine h hk ha (oddPair_first (op_mem h (by decide)) he)) _).trans ?_
      rw [readData_pair]
  case stores =>
    intro a v
    refine ⟨fun h hk ha => ?_, fun h ha => ?_, fun h hk ha he => ?_⟩
    · exact run_stores h rfl (accessFault_none hk ha (oddPair_none (op_notMem h (by decide)))) (by omega) rfl
    · exact run_stores h rfl (accessFault_none (Nat.mod_one a) ha (oddPair_none (op_notMem h (by decide)))) (by omega) rfl
    · exact run_stores h rfl (accessFault_none hk ha (oddPair_first (op_mem h (by decide)) he)) (by omega) (toNat_getPair _ _)

end Sys2Proof.Laws
end

section
/-!
SUPPORT. The issue of a tagged request: its tag, its marks and what it asks (R242 to R244, R249, R250, R253).
-/

namespace Sys2Proof.Laws

open Sys2Proof Sys2Proof.Machine Sys2Proof.Safety

/-- The lowest free tag is found (R242). -/
theorem freeTag_lowest {e : Engine} {t : Fin 8} (h : LowestFree e t) : Engines.freeTag e = some t := by
  obtain ⟨free, below⟩ := h
  rw [Engines.freeTag, ← Fin.find?_eq_find?_finRange, Fin.find?_eq_some_iff]
  refine ⟨by simpa using free, fun u hu => ?_⟩
  obtain ⟨x, hx, rfl⟩ := below u hu
  simpa using ⟨x, hx, rfl⟩

/-- With all eight in flight there is none. -/
theorem freeTag_none {e : Engine} (h : ∀ t : Fin 8, ∃ x ∈ e.tags, x.tag = t) : Engines.freeTag e = none := by
  rw [Engines.freeTag, List.find?_eq_none]
  intro t _
  simpa using h t

/-- Marks take no tag. -/
@[simp] theorem tags_mark (g : Nat) (t : Fin 8) (e : Engine) : (Engines.mark g t e).tags = e.tags := by
  unfold Engines.mark
  split <;> rfl

@[simp] theorem tags_marks (l : List Nat) (t : Fin 8) (e : Engine) :
    (l.foldl (fun x g => Engines.mark g t x) e).tags = e.tags := by
  induction l generalizing e with
  | nil => rfl
  | cons g l ih => exact (ih _).trans (tags_mark g t e)

/-! ### The destinations of the tagged instructions (R240) -/

section
variable {w : W32}

theorem destinations_status (h : Engines.op w ∈ [0x28, 0x29, 0x2C, 0x32, 0x33]) : Engines.destinations w = [Engines.f1 w] := by
  simp only [List.mem_cons, List.not_mem_nil, or_false] at h
  exact if_pos (by omega)

theorem destinations_pop (h : Engines.op w ∈ [0x2A, 0x2B]) :
    Engines.destinations w = [Engines.f1 w, Engines.f1 w + 1, Engines.f2 w] := by
  simp only [List.mem_cons, List.not_mem_nil, or_false] at h
  exact (if_neg (by omega)).trans ((if_neg (by omega)).trans (if_pos h))

theorem destinations_bits (h : Engines.op w ∈ [0x2E, 0x2F]) : Engines.destinations w = [Engines.f1 w, Engines.f2 w] := by
  simp only [List.mem_cons, List.not_mem_nil, or_false] at h
  exact (if_neg (by omega)).trans ((if_neg (by omega)).trans ((if_neg (by omega)).trans (if_pos h)))

end

theorem run_tagged {o : Nat} {s : State} {n : Fin 128} {w : W32} (h : Issues o s n w) (hp : Engines.oddPair w = false)
    {t : Fin 8} (ht : LowestFree (Engines.engine s n) t) {l : List Nat} (hd : Engines.destinations w = l)
    (f : Engine → W32 → TagReq) : Run.run (Engines.tagged o n f) s =
      .next (issued s n (l.foldl (fun x g => marked g t x) (Engines.engine s n)) t (f (Engines.engine s n) w)) := by
  subst hd
  refine run_retire h ((if_neg (by simp [hp])).trans ?_)
  simp only [freeTag_lowest ht]
  rw [← tags_marks (Engines.destinations w) t (Engines.engine s n)]
  rfl

/-- Settles O32: a tagged instruction issues under the lowest free tag, by the destinations of its form. -/
theorem prismTaggedIssue : Obligations.PrismTaggedIssue := by
  unfold Obligations.PrismTaggedIssue
  intro s n w t e d x q f ht
  refine ⟨fun h he => ?_, fun h he => ?_, fun h he => ?_, fun h he => ?_, fun h => ?_, fun h => ?_, fun h => ?_, fun h he => ?_,
    fun h => ?_⟩
  · exact run_tagged h (oddPair_second (op_mem h (by decide)) he) ht (destinations_status (op_mem h (by decide))) _
  · exact run_tagged h (oddPair_second (op_mem h (by decide)) he) ht (destinations_status (op_mem h (by decide))) _
  · exact run_tagged h (oddPair_first (op_mem h (by decide)) he) ht (destinations_pop (op_mem h (by decide))) _
  · exact run_tagged h (oddPair_first (op_mem h (by decide)) he) ht (destinations_pop (op_mem h (by decide))) _
  · exact run_tagged h (oddPair_none (op_notMem h (by decide))) ht (destinations_status (op_mem h (by decide))) _
  · exact run_tagged h (oddPair_none (op_notMem h (by decide))) ht (destinations_bits (op_mem h (by decide))) _
  · exact run_tagged h (oddPair_none (op_notMem h (by decide))) ht (destinations_bits (op_mem h (by decide))) _
  · exact run_tagged h (oddPair_second (op_mem h (by decide)) he) ht (destinations_status (op_mem h (by decide))) _
  · exact run_tagged h (oddPair_none (op_notMem h (by decide))) ht (destinations_status (op_mem h (by decide))) _

end Sys2Proof.Laws
end

section
/-!
SUPPORT. The Prism instructions that meet time, the channel ports and the rest of the machine (R240, R246, R251, R252, R255,
R256, R272).
-/

namespace Sys2Proof.Laws

open Sys2Proof Sys2Proof.Machine Sys2Proof.Safety

/-! ### What an instruction leaves -/

theorem awake_of_calm {s : State} (h : Calm s) : Awake s := ⟨h.powered, h.stays⟩

/-- A command in a calm state whose effect is another calm state, with time and the queue kept. -/
theorem run_calm_of {s t : State} (h : Calm s) {f : State → State} (e : f (Ops.begin s) = t) (hc : Calm t)
    (ht : t.time = s.time) (hp : t.pending = s.pending) : Run.run f s = .next t := by
  rw [run_calm h (by rw [e]; exact hc), e, commit_eq ht hp]

section
variable {o : Nat} {s : State} {n : Fin 128} {w : W32} (h : Issues o s n w) {body : Engine → W32 → State → State}
include h

/-- An instruction by what its body makes of the state. -/
theorem run_issue_after {x : State} (hb : body (Engines.engine s n) w (Ops.begin s) = x) :
    Run.run (Engines.issue o n body) s = .next (after s x) :=
  run_awake_of (awake_of_calm h.toCalm) ((issue_body h body).trans hb)

/-- One that waits. -/
theorem run_issue_waits (hb : body (Engines.engine s n) w (Ops.begin s) = Ops.begin s) :
    Run.run (Engines.issue o n body) s = .next (Ops.begin s) :=
  run_issue h hb (calm_begin h.toCalm) rfl rfl

end

/-! ### TRD and TWAIT (R251, R252) -/

/-- The lateness saturates. -/
theorem lateness_eq {d : W64} (h : 0 ≤ d.toInt) : Engines.lateness d.toInt = BitVec.ofNat 32 (min d.toNat 0xFFFFFFFF) := by
  have hd : d.toInt = d.toNat := by
    rw [BitVec.toInt_eq_toNat_cond] at h ⊢
    split at h <;> omega
  rw [Engines.lateness, hd]
  split
  · rw [Nat.min_eq_right (by omega)]
    rfl
  · rw [Nat.min_eq_left (by omega)]
    norm_cast

section
variable {n : Nat} {x : W64} {e : Engine} {w : W32} {s : State}

theorem twaitDone_reached (h : 0 ≤ (Ops.launch s - x).toInt) : Engines.twaitDone n x e w s =
    Engines.retire n (e.pc + 4)
      (Engines.put (Engines.f1 w) (BitVec.ofNat 32 (min (Ops.launch s - x).toNat 0xFFFFFFFF)) e) s := by
  rw [← lateness_eq h]
  exact if_pos h

theorem twaitDone_waits (h : (Ops.launch s - x).toInt < 0) : Engines.twaitDone n x e w s =
    Engines.setEngine n { e with twait := some x } s := if_neg (by omega)

theorem running_iff : Engines.running s n = true ↔ s.modes.cur = .m5 ∧ (Engines.engine s n).state = .running := by
  simp [Engines.running]

/-- The target of an engine that does not wait, or does not run, is never reached. -/
theorem twaitReached_idle (h : s.modes.cur ≠ .m5 ∨ (Engines.engine s n).state ≠ .running ∨ (Engines.engine s n).twait = none) :
    Engines.twaitReached n s = s := by
  simp only [Engines.twaitReached]
  split
  · rfl
  · next t ht =>
    refine if_neg fun hr => ?_
    obtain ⟨hm, hs⟩ := running_iff.1 hr
    rcases h with h | h | h
    · exact h hm
    · exact h hs
    · simp [h] at ht

theorem twaitReached_waiting (hm : s.modes.cur = .m5) (hs : (Engines.engine s n).state = .running)
    (hx : (Engines.engine s n).twait = some x) : Engines.twaitReached n s =
      Engines.twaitDone n x (Engines.engine s n) (Engines.imem s n ((Engines.engine s n).pc.toNat / 4)) s := by
  simp only [Engines.twaitReached, hx]
  exact if_pos (running_iff.2 ⟨hm, hs⟩)

end

/-! ### The port status word (R256) -/

/-- Bit i of the port status word: receive buffers, send buffers, ports that are off. -/
def portFlag (s : State) (n : Nat) (i : Fin 12) : Bool :=
  if i.val < 4 then (Engines.port s (4 * n + i)).recv.isSome
  else if i.val < 8 then (Engines.port s (4 * n + (i - 4 : Nat))).send.isNone
  else Engines.recvOff s n (i - 8 : Nat)

theorem flag_weight (b : Bool) (k : Nat) : (if b = true then k else 0) = k * b.toNat := by cases b <;> simp

theorem pollWord_eq (s : State) (n : Nat) : Engines.pollWord s n = BitVec.ofNat 32 (Nat.ofBits (portFlag s n)) := by
  have r : List.range 4 = [0, 1, 2, 3] := rfl
  simp only [Engines.pollWord, r, List.foldl, flag_weight, Nat.ofBits, Fin.foldr_succ, Fin.foldr_zero]
  simp only [portFlag]
  congr 1
  simp
  omega

theorem getLsbD_pollWord (s : State) (n : Nat) (i : Fin 12) : (Engines.pollWord s n).getLsbD i = portFlag s n i := by
  rw [pollWord_eq, BitVec.getLsbD_ofNat, Nat.testBit_ofBits_lt _ _ i.isLt, decide_eq_true (by omega), Bool.true_and]

theorem pollWord_lt (s : State) (n : Nat) : (Engines.pollWord s n).toNat < 2 ^ 12 := by
  have := Nat.ofBits_lt_two_pow (portFlag s n)
  rw [pollWord_eq, BitVec.toNat_ofNat]
  omega

/-! ### The rest -/

theorem imm18_mod {m : Nat} (h : m ∣ 2 ^ 18) (w : W32) : Engines.imm18 w % m = w.toNat % m := Nat.mod_mod_of_dvd _ h

section
variable {s : State} {n : Fin 128} {w : W32}

theorem run_rdspec (h : Issues 0x3A s n w) {v : Nat} (hv : w.toNat % 2 ^ 18 = v) :
    exec (.rdspec n) s = .next (result s n w (Engines.special s n v)) := hv ▸ run_retire h rfl

/-- SEND fills its empty buffer. -/
theorem sendBody_empty {e : Engine} (h : (Engines.port s (4 * n + w.toNat % 4)).send = none) : sendBody n e w s =
    Engines.retire n (e.pc + 4) e (Pins.engineSend n (w.toNat % 4) (Engines.getPair e (Engines.f2 w))
      (Engines.fillSend (4 * n + w.toNat % 4) (Engines.getPair e (Engines.f2 w)) s)) := by
  simp only [sendBody, imm18_mod (m := 4) (by decide), h]
  rfl

theorem sendBody_full {e : Engine} (h : (Engines.port s (4 * n + w.toNat % 4)).send.isSome = true) : sendBody n e w s = s := by
  simp only [sendBody, imm18_mod (m := 4) (by decide), h, if_true]

theorem recvBody_off {e : Engine} (h : Engines.recvOff s n (w.toNat % 4) = true) :
    recvBody n e w s = Engines.fault n 6 s := by
  simp only [recvBody, imm18_mod (m := 4) (by decide), h, if_true]

theorem recvBody_empty {e : Engine} (h : Engines.recvOff s n (w.toNat % 4) = false)
    (hp : (Engines.port s (4 * n + w.toNat % 4)).recv = none) : recvBody n e w s = s := by
  simp [recvBody, imm18_mod (m := 4) (by decide), h, hp]

theorem recvBody_full {e : Engine} {v : W64} (h : Engines.recvOff s n (w.toNat % 4) = false)
    (hp : (Engines.port s (4 * n + w.toNat % 4)).recv = some v) : recvBody n e w s =
      Engines.retire n (e.pc + 4) (Engines.putPair (Engines.f1 w) v e)
        (Engines.setPort (4 * n + w.toNat % 4) { Engines.port s (4 * n + w.toNat % 4) with recv := none } s) := by
  simp [recvBody, imm18_mod (m := 4) (by decide), h, hp]

end

/-- Settles O33: each instruction by what its body makes of the state, TWAIT by whether its target has passed. -/
theorem prismOther : Obligations.PrismOther := by
  unfold Obligations.PrismOther
  refine ⟨fun s n w => ?time, fun s n w => ?rest⟩
  case time =>
    intro e l late
    refine ⟨fun h he => ?trd, fun x hx h he => ⟨fun hl => ?passed, fun hl => ?ahead⟩, fun h hi => ?idle,
      fun x h hs hx => ⟨fun hl => ?reached, fun hl => ?early⟩⟩
    case trd => exact run_retire h (pair_body (oddPair_first (op_mem h (by decide)) he) rfl)
    case passed =>
      subst hx
      exact run_retire h (pair_body (oddPair_second (op_mem h (by decide)) he) (twaitDone_reached (s := Ops.begin s) hl))
    case ahead =>
      subst hx
      exact run_issue h (pair_body (oddPair_second (op_mem h (by decide)) he) (twaitDone_waits (s := Ops.begin s) hl))
        (calm_of_regs h.toCalm rfl rfl rfl rfl) rfl rfl
    case idle => exact run_awake_of h (twaitReached_idle (s := Ops.begin s) hi)
    case reached =>
      exact run_calm_of h.toCalm ((twaitReached_waiting (s := Ops.begin s) h.m5 hs hx).trans (twaitDone_reached hl))
        (calm_of_regs h.toCalm rfl rfl rfl rfl) rfl rfl
    case early =>
      refine run_calm_of h.toCalm ((twaitReached_waiting (s := Ops.begin s) h.m5 hs hx).trans
        ((twaitDone_waits (s := Ops.begin s) hl).trans ?_)) (calm_of_regs h.toCalm rfl rfl rfl rfl) rfl rfl
      show Engines.setEngine n { e with twait := some x } (Ops.begin s) = _
      rw [← hx]
      rfl
  case rest =>
    intro e u port p pair
    refine ⟨fun h he hp => ?send, fun v h he hp => ?sendWaits, fun v h he ho hp => ?recv, fun h he ho hp => ?recvWaits,
      fun h => run_retire h rfl, fun k => ⟨?recvFlag, ?sendFlag, ?offFlag, pollWord_lt s n⟩, fun h => ?evr, fun h ht => ?fence,
      fun h ht => ?fenceWaits, fun h => ⟨fun hv => run_rdspec h hv, fun hv => run_rdspec h hv, fun hv => run_rdspec h hv,
        fun hv => run_rdspec h hv, fun hv => run_rdspec h hv, fun hv => run_rdspec h hv⟩, fun h => run_issue_after h rfl⟩
    case send =>
      exact run_issue_after h (pair_body (oddPair_second (op_mem h (by decide)) he) (sendBody_empty (s := Ops.begin s) hp))
    case sendWaits =>
      exact run_issue_waits h (pair_body (oddPair_second (op_mem h (by decide)) he)
        (sendBody_full (s := Ops.begin s) (Option.isSome_of_eq_some hp)))
    case recv =>
      exact run_issue_after h (pair_body (oddPair_first (op_mem h (by decide)) he) (recvBody_full (s := Ops.begin s) ho hp))
    case recvWaits =>
      exact run_issue_waits h (pair_body (oddPair_first (op_mem h (by decide)) he) (recvBody_empty (s := Ops.begin s) ho hp))
    case recvFlag =>
      exact (getLsbD_pollWord s n ⟨k, by omega⟩).trans (if_pos k.isLt)
    case sendFlag =>
      refine (getLsbD_pollWord s n ⟨4 + k, by omega⟩).trans ((if_neg (by simp)).trans ((if_pos (by simp; omega)).trans ?_))
      simp only [Nat.add_sub_cancel_left]
    case offFlag =>
      refine (getLsbD_pollWord s n ⟨8 + k, by omega⟩).trans ((if_neg (by simp; omega)).trans ((if_neg (by simp)).trans ?_))
      simp only [Nat.add_sub_cancel_left]
    case evr =>
      refine run_issue_after h ?_
      rw [evrBody, imm18_mod (by decide)]
      rfl
    case fence => exact run_retire h (if_pos (List.isEmpty_iff.2 ht))
    case fenceWaits => exact run_issue_waits h (if_neg (mt List.isEmpty_iff.1 ht))

end Sys2Proof.Laws
end

section
/-!
SUPPORT. When a Prism instruction faults, and when it waits (R237, R238, R241 to R243, R259, R262).
-/

namespace Sys2Proof.Laws

open Sys2Proof Sys2Proof.Machine Sys2Proof.Safety

/-! ### An instruction that does not reach its body -/

section
variable {s : State} {n : Nat}

theorem issue_idle (h : s.modes.cur ≠ .m5 ∨ (Engines.engine s n).state ≠ .running) (o : Nat)
    (body : Engine → W32 → State → State) : Engines.issue o n body s = s := by
  refine if_pos ?_
  rw [Bool.not_eq_true', Bool.eq_false_iff]
  exact fun hr => h.elim (· (running_iff.1 hr).1) (· (running_iff.1 hr).2)

variable (hm : s.modes.cur = .m5) (hs : (Engines.engine s n).state = .running) (o : Nat) (body : Engine → W32 → State → State)
include hm hs

/-- A fetch past the instruction scratchpad. -/
theorem issue_beyond (hp : 0x7FFC < (Engines.engine s n).pc.toNat) : Engines.issue o n body s = Engines.fault n 7 s :=
  (if_neg (by simp [running_iff.2 ⟨hm, hs⟩])).trans (if_pos hp)

variable {w : W32} (hp : (Engines.engine s n).pc.toNat ≤ 0x7FFC)
  (hw : Engines.imem s n ((Engines.engine s n).pc.toNat / 4) = w)
include hp hw

theorem issue_illegal (hl : Engines.illegal w = true) : Engines.issue o n body s = Engines.fault n 1 s := by
  subst hw
  exact (if_neg (by simp [running_iff.2 ⟨hm, hs⟩])).trans ((if_neg (by omega)).trans (if_pos hl))

variable (hl : Engines.illegal w = false)
include hl

theorem issue_other (ho : Engines.op w ≠ o) : Engines.issue o n body s = s := by
  subst hw
  exact (if_neg (by simp [running_iff.2 ⟨hm, hs⟩])).trans
    ((if_neg (by omega)).trans ((if_neg (by simp [hl])).trans (if_pos ho)))

theorem issue_pending {g : Nat} (hg : g ∈ Engines.sources w) (hq : Engines.pends (Engines.engine s n) g = true) :
    Engines.issue o n body s = s := by
  by_cases ho : Engines.op w = o
  · subst hw
    exact (if_neg (by simp [running_iff.2 ⟨hm, hs⟩])).trans ((if_neg (by omega)).trans ((if_neg (by simp [hl])).trans
      ((if_neg (not_not.2 ho)).trans (if_pos (List.any_eq_true.2 ⟨g, hg, hq⟩)))))
  · exact issue_other hm hs o body hp hw hl ho

end

/-- A request waits while all eight tags are in flight (R242). -/
theorem tagged_waits {o : Nat} {s : State} {n : Fin 128} {w : W32} (h : Issues o s n w) (hp : Engines.oddPair w = false)
    (ht : ∀ t : Fin 8, ∃ x ∈ (Engines.engine s n).tags, x.tag = t) (f : Engine → W32 → TagReq) :
    Engines.tagged o n f (Ops.begin s) = Ops.begin s := by
  rw [Engines.tagged, Engines.issuePair, issue_body h, hp]
  simp only [freeTag_none ht]
  rfl

/-! ### The instructions by their shape -/

/-- Every instruction is issued by its OP. -/
theorem instructions_issue (n : Fin 128) : ∀ x ∈ instructions n,
    ∃ body, ∀ s, exec x.2 s = Run.run (Engines.issue x.1 n body) s := by
  simp only [instructions, List.cons_append, List.nil_append, List.forall_mem_cons, List.not_mem_nil, false_imp_iff,
    implies_true, and_true]
  and_intros
  all_goals exact ⟨_, fun _ => rfl⟩

/-- The instructions with a pair that check it first: all but the loads and stores. -/
def pairOps : List Nat := [0x28, 0x29, 0x2A, 0x2B, 0x30, 0x31, 0x32, 0x34, 0x35]

theorem instructions_issuePair (n : Fin 128) : ∀ x ∈ (instructions n).filter fun x => x.1 ∈ pairOps,
    ∃ body, ∀ s, exec x.2 s = Run.run (Engines.issuePair x.1 n body) s := by
  have paired : ((instructions n).filter fun x => x.1 ∈ pairOps) =
    [(0x28, .qpush n), (0x29, .qpushc n), (0x2A, .qpop n), (0x2B, .qpeek n), (0x30, .trd n), (0x31, .twait n), (0x32, .gent n),
      (0x34, .send n), (0x35, .recv n)] := rfl
  simp only [paired, List.forall_mem_cons, List.not_mem_nil, false_imp_iff, implies_true, and_true]
  and_intros
  all_goals exact ⟨_, fun _ => rfl⟩

/-- The instructions that need a tag. -/
def tagOps : List Nat := [0x28, 0x29, 0x2A, 0x2B, 0x2C, 0x2E, 0x2F, 0x32, 0x33]

theorem instructions_tagged (n : Fin 128) : ∀ x ∈ (instructions n).filter fun x => x.1 ∈ tagOps,
    ∃ f, ∀ s, exec x.2 s = Run.run (Engines.tagged x.1 n f) s := by
  have asking : ((instructions n).filter fun x => x.1 ∈ tagOps) =
    [(0x28, .qpush n), (0x29, .qpushc n), (0x2A, .qpop n), (0x2B, .qpeek n), (0x2C, .qabort n), (0x2E, .bset n),
      (0x2F, .bclr n), (0x32, .gent n), (0x33, .garm n)] := rfl
  simp only [asking, List.forall_mem_cons, List.not_mem_nil, false_imp_iff, implies_true, and_true]
  and_intros
  all_goals exact ⟨_, fun _ => rfl⟩

/-- A load or store checks its address before its body. -/
theorem transfers_issue (n : Fin 128) : ∀ x ∈ transfers n, ∃ body, (∀ s, exec x.2.1 s = Run.run (Engines.issue x.1 n body) s) ∧
    ∀ e w s c, Engines.accessFault w (Engines.address e w) x.2.2.1 x.2.2.2 = some c → body e w s = Engines.fault n c s := by
  simp only [transfers, List.forall_mem_cons, List.not_mem_nil, false_imp_iff, implies_true, and_true]
  and_intros
  all_goals exact ⟨_, fun _ => rfl, fun e w s c hc => by simp only [hc]⟩

/-- Settles O34: the checks of an instruction in their order, for every instruction by its shape. -/
theorem prismFaults : Obligations.PrismFaults := by
  unfold Obligations.PrismFaults
  refine ⟨fun s n w h => ?faults, fun s n w h => ?waits⟩
  case faults =>
    intro e faults hs hw
    have issued {o k : Nat} {c : Instr} {body : Engine → W32 → State → State}
        (hc : exec c s = Run.run (Engines.issue o n body) s)
        (hb : Engines.issue o n body (Ops.begin s) = Engines.fault n k (Ops.begin s)) : faults c k :=
      hc.trans (run_awake_of h.toAwake hb)
    refine ⟨fun hp x hx => ?beyond, fun hp hl x hx => ?illegal, fun x hx hi => ?transfer, fun x hx ho hi hq => ?pair,
      fun hi he hr => ?off⟩
    case beyond =>
      obtain ⟨body, hc⟩ := instructions_issue n x hx
      exact issued (hc s) (issue_beyond (s := Ops.begin s) h.m5 hs _ _ hp)
    case illegal =>
      obtain ⟨body, hc⟩ := instructions_issue n x hx
      exact issued (hc s) (issue_illegal (s := Ops.begin s) h.m5 hs _ _ hp hw hl)
    case transfer =>
      intro c k a
      obtain ⟨body, hc, hf⟩ := transfers_issue n x hx
      have access {j : Nat} (hj : Engines.accessFault w a k x.2.2.2 = some j) : faults c j :=
        issued (hc s) ((issue_body hi body).trans (hf e w _ j hj))
      refine ⟨fun hk => access (accessFault_unaligned hk), fun hk ha => access (accessFault_outside hk ha),
        fun hk ha hb ht => access ?_, fun hk ha hq => access ?_⟩
      · rw [ht]
        exact accessFault_window hk ha hb
      · rw [accessFault_inside hk ha, hq]
        rfl
    case pair =>
      have odd : x.1 ∈ pairOps := by
        by_contra hn
        rw [oddPair_none] at hq
        · exact absurd hq (by decide)
        · rw [hi.op]
          simp only [pairOps, List.cons_append, List.nil_append, List.mem_cons, List.not_mem_nil, or_false, not_or] at hn ho ⊢
          omega
      obtain ⟨body, hc⟩ := instructions_issuePair n x (List.mem_filter.2 ⟨hx, decide_eq_true odd⟩)
      exact issued (hc s) ((issue_body hi _).trans (if_pos hq))
    case off =>
      exact issued (body := fun e w s => if Engines.oddPair w then Engines.fault n 5 s else recvBody n e w s) rfl
        ((issue_body hi _).trans (pair_body (oddPair_first (op_mem hi (by decide)) he) (recvBody_off (s := Ops.begin s) hr)))
  case waits =>
    intro e waits x hx
    obtain ⟨body, hc⟩ := instructions_issue n x hx
    have stays (hb : Engines.issue x.1 n body (Ops.begin s) = Ops.begin s) : waits x.2 := (hc s).trans (run_awake_of h hb)
    refine ⟨fun hi => stays (issue_idle (s := Ops.begin s) hi _ _),
      fun hm hs hp hw hl => ⟨fun ho => stays (issue_other (s := Ops.begin s) hm hs _ _ hp hw hl ho),
        fun ⟨g, hg, hq⟩ => stays (issue_pending (s := Ops.begin s) hm hs _ _ hp hw hl hg hq)⟩, fun hi ho hp ht => ?_⟩
    obtain ⟨f, hc⟩ := instructions_tagged n x (List.mem_filter.2 ⟨hx, decide_eq_true ho⟩)
    exact (hc s).trans (run_awake_of h (tagged_waits hi hp ht f))

end Sys2Proof.Laws
end

section
/-!
SUPPORT. The completion of a tagged request: its order at the engine, and what each kind of request does at its target (R242 to
R250, R253).
-/

namespace Sys2Proof.Laws

open Sys2Proof Sys2Proof.Machine Sys2Proof.Safety

/-! ### The completion of a tag (R244 to R247) -/

section
variable {s : State} {n : Nat} {t : Fin 8} {f : PoolFault}

theorem complete_idle (h : s.modes.cur ≠ .m5 ∨ (Engines.engine s n).tags.find? (fun y => y.tag == t) = none) :
    Engines.complete n t f s = s := by
  by_cases hm : s.modes.cur = .m5
  · have hf := h.resolve_left (not_not.2 hm)
    simp [Engines.complete, hf]
  · simp [Engines.complete, hm]

variable {q : TagReq} (hm : s.modes.cur = .m5)
  (hf : (Engines.engine s n).tags.find? (fun y => y.tag == t) = some { tag := t, req := q })
include hm hf

/-- An earlier request to the same target holds it back (R245). -/
theorem complete_behind (ha : Engines.firstAtTarget (Engines.engine s n) { tag := t, req := q } = false) :
    Engines.complete n t f s = s := by
  simp [Engines.complete, hm, hf, ha]

variable (ha : Engines.firstAtTarget (Engines.engine s n) { tag := t, req := q } = true) {x : State}
include ha

theorem complete_waits (hp : Engines.perform n q f s = (none, x)) : Engines.complete n t f s = x := by
  simp [Engines.complete, hm, hf, ha, hp]

theorem complete_lands {l : List (Nat × W32)} (hp : Engines.perform n q f s = (some l, x)) : Engines.complete n t f s =
    (let e := l.foldl (fun e g => Engines.land t g.1 g.2 e) (Engines.engine x n)
     Engines.setEngine n { e with
       tags := e.tags.filter fun y => y.tag != t, marks := e.marks.filter fun m => m.2 != t } x) := by
  simp [Engines.complete, hm, hf, ha, hp]

end

theorem land_unmarked {e : Engine} {t : Fin 8} {g : Nat} (h : ∀ m ∈ e.marks, m.1.val = g → m.2 ≠ t) (v : W32) :
    Engines.land t g v e = e := by
  refine if_neg fun ha => ?_
  obtain ⟨m, hm, he⟩ := List.any_eq_true.1 ha
  rw [Bool.and_eq_true, beq_iff_eq, beq_iff_eq] at he
  exact h m hm he.1 he.2

theorem land_marked {e : Engine} {t : Fin 8} {g : Nat} (h : ∃ m ∈ e.marks, m.1.val = g ∧ m.2 = t) (v : W32) :
    Engines.land t g v e = Engines.put g v e := by
  obtain ⟨m, hm, hg, ht⟩ := h
  exact if_pos (List.any_eq_true.2 ⟨m, hm, by simp [hg, ht]⟩)

/-! ### A queue's answer (R248) -/

theorem toNat_append_add {m n : Nat} (x : BitVec m) (y : BitVec n) : (x ++ y).toNat = x.toNat * 2 ^ n + y.toNat := by
  rw [BitVec.toNat_append, ← Nat.shiftLeft_add_eq_or_of_lt y.isLt, Nat.shiftLeft_eq]

/-- The status word, field by field. -/
theorem queueStatus_eq (r : QResp) : Engines.queueStatus r =
    (0 : BitVec 20) ++ BitVec.ofBool r.refused ++ (if r.refused then r.data.extractLsb' 0 3 else 0) ++ (0 : BitVec 1) ++
      BitVec.ofBool r.flushed ++ BitVec.ofBool r.poison ++ BitVec.ofBool r.eop ++ BitVec.ofBool r.sop ++
      BitVec.ofBool r.valid ++ (0 : BitVec 2) := by
  apply BitVec.eq_of_toNat_eq
  have := Bool.toNat_lt r.flushed
  have := Bool.toNat_lt r.poison
  have := Bool.toNat_lt r.eop
  have := Bool.toNat_lt r.sop
  have := Bool.toNat_lt r.valid
  simp only [toNat_append_add, BitVec.toNat_ofBool, Engines.queueStatus, flag_weight r.flushed, flag_weight r.poison,
    flag_weight r.eop, flag_weight r.sop, flag_weight r.valid, BitVec.toNat_ofNat, BitVec.ofNat_eq_ofNat]
  cases r.refused with
  | false => simp; omega
  | true => simp; omega

/-- The pair of a pop or peek, with the two halves of the answer (R249). -/
def pairOf (r : QResp) : Option (Fin 16) → List (Nat × W32)
  | none => []
  | some p => [(p.val, r.data.extractLsb' 0 32), (p.val + 1, r.data.extractLsb' 32 32)]

section
variable {s x : State} {n : Nat} {f : PoolFault} {o : QOp} {q : BitVec 12} {d : W64}

theorem perform_queue_answered {r : QResp} (h : Queues.operate (0x800 + n) { op := o, queue := q, data := d } f s = (some r, x))
    (pair : Option (Fin 16)) (st : Fin 16) : Engines.perform n (.queue o q d pair st) f s =
      (some (pairOf r pair ++ [(st.val, Engines.queueStatus r)]), Queues.wakeConsumer q.toNat x) := by
  simp only [Engines.perform, Engines.attachment, h]
  cases pair <;> rfl

theorem perform_queue_held (h : Queues.operate (0x800 + n) { op := o, queue := q, data := d } f s = (none, x))
    (pair : Option (Fin 16)) (st : Fin 16) : Engines.perform n (.queue o q d pair st) f s = (none, x) := by
  simp only [Engines.perform, Engines.attachment, h]

end

/-! ### A bit-set or bit-clear of a half-word (R250) -/

/-- An access that poisons has corrected nothing. -/
theorem access_corrected_of_bad {op : BitVec 2} {m : W64} {v : BitVec 72} (h : (Flags.access op m v).bad = true) :
    (Flags.access op m v).corrected = false := by
  by_cases h1 : op = 1
  · rw [h1, access_write]
  · cases hv : Flags.decode v with
    | good => rw [access_good h1 m hv]
    | corrected f => rw [access_corrected h1 m hv] at h; cases h
    | bad => rw [access_bad h1 m hv]

/-- The status word of an access: POISON or CORRECTED, never both. -/
theorem access_status {op : BitVec 2} {m : W64} {v : BitVec 72} {r : Flags.Access} (h : Flags.access op m v = r) :
    BitVec.ofNat 32 ((if r.bad then 32 else 0) + (if r.corrected then 2 else 0)) =
      (if r.bad then 32 else if r.corrected then 2 else 0 : W32) := by
  subst h
  cases hb : (Flags.access op m v).bad with
  | false => cases (Flags.access op m v).corrected <;> rfl
  | true => rw [access_corrected_of_bad hb]; rfl

/-- An operation that is no write, on a word that holds `d`, leaves the new word and counts nothing. -/
theorem accessed_encode {q : BankReq} (hq : q.op ≠ 1) (n : Nat) (d : W64) (u : State) : accessed n q (Flags.encode d) u =
    Ops.setWord n q.addr.toNat (Flags.access q.op q.data (Flags.encode d)).word u := by
  rw [accessed, access_good hq q.data (decode_encode d)]
  rfl

/-- The request of R250 at bank word w, by whether it clears. -/
def halfReq (clear : Bool) (a m : W32) : BankReq :=
  { op := if clear then 3 else 2, addr := BitVec.ofNat 13 (a.toNat % 8192)
    data := if a.getLsbD 24 then m ++ (0 : W32) else (0 : W32) ++ m }

theorem halfReq_addr (clear : Bool) (a m : W32) : (halfReq clear a m).addr.toNat = a.toNat % 8192 := by
  rw [halfReq, BitVec.toNat_ofNat]
  omega

theorem halfReq_op (clear : Bool) (a m : W32) : (halfReq clear a m).op ≠ 1 := by
  cases clear <;> simp [halfReq]

/-- The half of a word that the address names. -/
def halfOf (a : W32) (d : W64) : W32 := if a.getLsbD 24 then d.extractLsb' 32 32 else d.extractLsb' 0 32

theorem extract_halfOf (a : W32) (d : W64) : d.extractLsb' (if a.getLsbD 24 = true then 32 else 0) 32 = halfOf a d := by
  unfold halfOf
  split <;> rfl

section
variable {s : State} {n : Nat} {f : PoolFault} {clear : Bool} {a m : W32} {old st : Fin 16}

theorem perform_bank_absent (h : 2 ^ 25 ≤ a.toNat) : Engines.perform n (.bank clear a m old st) f s =
    (some [(old.val, 0), (st.val, BitVec.ofNat 32 (2 ^ 11 + 2 * 2 ^ 8))], s) :=
  if_pos (by omega)

variable (h : a.toNat < 2 ^ 25) {b : Nat} (bank : a.toNat / 8192 % 2048 = b)
include h bank

theorem perform_bank_refused (hr : Ops.refuses s b = true) :
    Engines.perform n (.bank clear a m old st) f s =
      (some [(old.val, 0), (st.val, BitVec.ofNat 32 (2 ^ 11))], Ops.refuse Ops.raise b s) := by
  simp only [Engines.perform, Nat.div_eq_of_lt h, bank, hr]
  rfl

variable (hr : Ops.refuses s b = false)
include hr

theorem perform_bank_held (he : Banks.entered (Banks.turn b s) b = false) :
    Engines.perform n (.bank clear a m old st) f s = (none, Ops.wakeBank b true (Banks.turn b s)) := by
  simp only [Engines.perform, Nat.div_eq_of_lt h, bank, hr, he]
  rfl

/-- What it leaves and answers, by the access to the word that it meets. -/
theorem perform_bank_made {y : State} (hy : Banks.turn b s = y) (he : Banks.entered y b = true) {v : BitVec 72}
    (hv : Ops.word y b (a.toNat % 8192) = v) {r : Flags.Access}
    (ha : Flags.access (halfReq clear a m).op (halfReq clear a m).data v = r) :
    Engines.perform n (.bank clear a m old st) f s =
      (some [(old.val, halfOf a r.data), (st.val, if r.bad then 32 else if r.corrected then 2 else 0)],
        accessed b (halfReq clear a m) v y) := by
  have addr : BitVec.ofNat 13 a.toNat = BitVec.ofNat 13 (a.toNat % 8192) := by
    apply BitVec.eq_of_toNat_eq
    rw [BitVec.toNat_ofNat, BitVec.toNat_ofNat]
    omega
  have made : Ops.bankAccess Ops.raise b (halfReq clear a m) 0 y = (accessed b (halfReq clear a m) v y, r) := by
    rw [bankAccess_unflipped, halfReq_addr, hv, ha]
  have hi : Ops.bit a.toNat 24 = a.getLsbD 24 := rfl
  have request : halfReq clear a m = { op := if clear = true then 3 else 2, addr := BitVec.ofNat 13 (a.toNat % 8192)
                                       data := if a.getLsbD 24 = true then m ++ (0 : W32) else (0 : W32) ++ m } := rfl
  simp only [Engines.perform, Nat.div_eq_of_lt h, bank, hr, hy, he, hi, addr, ← request, made, access_status ha, extract_halfOf]
  rfl

end

/-! ### The turn at a free array (R178, R184) -/

theorem bank_setBank_bank (n : Nat) (s : State) (k : Nat) : Ops.bank (Ops.setBank n (Ops.bank s n) s) k = Ops.bank s k := by
  rw [Ops.bank, Ops.setBank, Table.get_put]
  split
  · next h => rw [h]
  · rfl

/-- The array whose turn comes at once is left as it is. -/
theorem turn_free {s : State} {n : Nat} (h : BankOn s n) (hf : Ops.arrayFree (Ops.bank s n) = true) :
    Banks.turn n s = Ops.setBank n (Ops.bank s n) s := by
  have free := hf
  simp only [Ops.arrayFree, Bool.and_eq_true, Bool.not_eq_true'] at free
  obtain ⟨⟨⟨⟨hl, hh⟩, hg⟩, hA⟩, hB⟩ := free
  have claimed : Ops.claim Ops.raise n s = s := if_neg (by simp [h.own])
  have on : Ops.ready s n = true := by simp [Ops.ready, h.power, h.own]
  have held : (Ops.bank s n).held = [] := List.isEmpty_iff.1 hh
  have asks : Banks.maintWaits (Ops.bank s n) = false := by rw [Banks.maintWaits, held]; rfl
  have decided : Banks.arbitrate (Ops.bank s n) true = (some .maint, Ops.bank s n) := by
    rw [arbitrate_notA hA, hB]
    rfl
  rw [Banks.turn, claimed, held, List.length_nil, Banks.runArray]
  simp only [on, hg, hl, Bool.true_or, decided, asks]
  rfl

theorem entered_free {s : State} {n : Nat} (h : BankOn s n) (hf : Ops.arrayFree (Ops.bank s n) = true) :
    Banks.entered (Banks.turn n s) n = true := by
  have kept : Ops.bank (Banks.turn n s) n = Ops.bank s n := by rw [turn_free h hf, bank_setBank_bank]
  have on : Ops.power (Banks.turn n s) n = .on := by
    rw [turn_free h hf, Ops.power, bank_setBank_bank]
    exact h.power
  simp only [Ops.arrayFree, Bool.and_eq_true, Bool.not_eq_true'] at hf
  simp [Banks.entered, Ops.ready, on, kept, h.own, hf]

theorem word_free {s : State} {n : Nat} (h : BankOn s n) (hf : Ops.arrayFree (Ops.bank s n) = true) (k i : Nat) :
    Ops.word (Banks.turn n s) k i = Ops.word s k i := by
  rw [turn_free h hf]
  simp only [Ops.word, Ops.steered, bank_setBank_bank]
  rfl

/-! ### Entries and commits of a gate (R253) -/

section
variable {s : State} {n : Nat} {f : PoolFault} {p e : W32} {v : W64} {st : Fin 16}

theorem perform_entry_absent (h : 2 ^ 20 ≤ p.toNat) : Engines.perform n (.entry p v st) f s =
    (some [(st.val, BitVec.ofNat 32 (2 ^ 11 + 2 * 2 ^ 8))], s) :=
  if_pos (by omega)

theorem perform_arm_absent (h : 2 ^ 20 ≤ p.toNat) : Engines.perform n (.arm p e st) f s =
    (some [(st.val, BitVec.ofNat 32 (2 ^ 11 + 2 * 2 ^ 8))], s) :=
  if_pos (by omega)

variable (h : p.toNat < 2 ^ 20)
include h

theorem perform_entry_free (hf : (Time.sched (Time.gate s (p.toNat % 8192)) (p.getLsbD 13)).phase = .free) :
    Engines.perform n (.entry p v st) f s =
      (some [(st.val, 0)], Time.putEntries (p.toNat % 8192) (p.getLsbD 13) (p.toNat / 2 ^ 14 % 64) [v] s) := by
  have hb : Ops.bit p.toNat 13 = p.getLsbD 13 := rfl
  simp only [Engines.perform, Nat.div_eq_of_lt h, hb, hf]
  rfl

theorem perform_entry_busy (hf : (Time.sched (Time.gate s (p.toNat % 8192)) (p.getLsbD 13)).phase ≠ .free) :
    Engines.perform n (.entry p v st) f s = (some [(st.val, BitVec.ofNat 32 (2 ^ 11 + 2 ^ 8))], s) :=
  (if_neg (by omega)).trans (if_pos hf)

theorem perform_arm_taken {x : State} (hc : Time.commit (p.toNat % 8192) (p.getLsbD 13) e.toNat s = .inr x) :
    Engines.perform n (.arm p e st) f s = (some [(st.val, 0)], x) := by
  have hb : Ops.bit p.toNat 13 = p.getLsbD 13 := rfl
  simp only [Engines.perform, Nat.div_eq_of_lt h, hb, hc]
  rfl

theorem perform_arm_refused {k : Nat} (hc : Time.commit (p.toNat % 8192) (p.getLsbD 13) e.toNat s = .inl k) :
    Engines.perform n (.arm p e st) f s = (some [(st.val, Engines.refusedStatus (if k = 5 then 1 else 2))], s) := by
  have hb : Ops.bit p.toNat 13 = p.getLsbD 13 := rfl
  simp only [Engines.perform, Nat.div_eq_of_lt h, hb, hc]
  rfl

end

/-- Settles O35: the order of R245 first, then each request by its target, an access of a bank by the word that it meets. -/
theorem tagCompletes : Obligations.TagCompletes := by
  unfold Obligations.TagCompletes
  refine ⟨fun s n t f q x h hf => ⟨fun ha => ⟨fun l hp => ?lands, fun hp => ?waits⟩, fun ha => ?behind⟩,
    fun s n t f h hi => ?idle, fun e t g v => ⟨fun h => land_unmarked h v, fun h => land_marked h v⟩,
    fun s n f o q d pair st r x => ?queue, fun s n f clear a m p v old st => ?targets⟩
  case lands => exact run_awake_of h.toAwake (complete_lands (s := Ops.begin s) h.m5 hf ha hp)
  case waits => exact run_awake_of h.toAwake (complete_waits (s := Ops.begin s) h.m5 hf ha hp)
  case behind => exact run_awake_of h.toAwake (complete_behind (s := Ops.begin s) h.m5 hf ha)
  case idle => exact run_awake_of h (complete_idle (s := Ops.begin s) hi)
  case queue =>
    intro one
    refine ⟨fun h => ?_, fun h => perform_queue_held h pair st⟩
    have answer := perform_queue_answered h pair st
    rw [queueStatus_eq] at answer
    cases pair <;> exact answer
  case targets =>
    intro b w hi mask half y bits op
    refine ⟨fun ha => perform_bank_absent ha, fun ha hr => perform_bank_refused ha rfl hr,
      fun ha hr he => ⟨?met, fun d hd => ?clean⟩, fun ha hr he => perform_bank_held ha rfl hr he,
      fun h hf => ⟨entered_free h hf, word_free h hf b⟩, ?entry, ?arm⟩
    case met => exact perform_bank_made ha rfl hr rfl he rfl rfl
    case clean =>
      refine (perform_bank_made ha rfl hr rfl he hd rfl).trans ?_
      rw [accessed_encode (halfReq_op clear a m), access_good (halfReq_op clear a m) _ (decode_encode d), encode_data,
        halfReq_addr]
      cases clear <;> rfl
    case entry =>
      intro entry free
      exact ⟨fun h => perform_entry_absent h, fun h hf => perform_entry_free h hf, fun h hf => perform_entry_busy h hf⟩
    case arm =>
      intro arm commit
      exact ⟨fun h => perform_arm_absent h, fun x h hc => perform_arm_taken h hc, fun h hc => perform_arm_refused h hc,
        fun h hc => perform_arm_refused h hc⟩

end Sys2Proof.Laws
end

section
/-!
SUPPORT. The channel ports of the engines and of the host (R255, R386, R447), and the commands START, STOP and RESUME (R260,
R266).
-/

namespace Sys2Proof.Laws

open Sys2Proof Sys2Proof.Machine Sys2Proof.Safety

/-! ### The capture of a port (R255, R386, R447) -/

/-- A fold that collects one result for each entry. -/
theorem foldr_collects {α β : Type} {f : α → Option (List β) → Option (List β)} {R : α → β → Prop}
    {l : List α} {a : List β} (h : List.Forall₂ R l a) (hf : ∀ e b l, R e b → f e (some l) = some (b :: l)) :
    l.foldr f (some []) = some a := by
  induction h with
  | nil => rfl
  | cons h _ ih => rw [List.foldr_cons, ih, hf _ _ _ h]

/-- One that meets an entry without a result. -/
theorem foldr_misses {α β : Type} {f : α → Option (List β) → Option (List β)} (hn : ∀ e, f e none = none) {e : α}
    (he : ∀ o, f e o = none) {l : List α} (hl : e ∈ l) (o : Option (List β)) : l.foldr f o = none := by
  induction hl with
  | head l => exact he _
  | tail b _ ih => rw [List.foldr_cons, ih, hn]

/-- The channels of a port, by its number in the state. -/
def portTaker (i : Nat) : Taker :=
  if decide (i < 512) then .enginePort (Fin.ofNat 512 i) else .hostPort (Fin.ofNat 512 (i - 512))

/-- The pins that replace some of them (R447). -/
def portPins (s : State) (i : Nat) : List (Nat × Nat) := if decide (i < 512) then Pins.engineInputs s (i / 4) (i % 4) else []

/-- The engine of the port is lost (R270). -/
def portLost (s : State) (i : Nat) : Bool := decide (i < 512) && (Engines.engine s (i / 4)).state == .lost

/-- The receive channels of a port that no pin replaces. -/
def portChannels (s : State) (i : Nat) : List (Nat × Option (Chan × List Frames.Cross)) :=
  (Frames.inputs s.fab.frames (portTaker i)).filter fun e => !(portPins s i).any fun y => y.1 == e.1

/-- The token that a pin holds out to an engine's port, if its last one does not still stand on IN of its slot (R447). -/
def pinWord (s : State) (y : Nat) : Option (BitVec 256) :=
  if Pins.onSlot s y = true then none else (Table.get (fun _ => ({} : WordOut)) s.pinIn y).word

theorem pinWord_eq_some {s : State} {y : Nat} {w : BitVec 256} : pinWord s y = some w ↔
    Pins.onSlot s y = false ∧ (Table.get (fun _ => ({} : WordOut)) s.pinIn y).word = some w := by
  unfold pinWord
  split <;> simp_all

/-- A channel's token joins those of the channels after it. -/
def channelStep (s : State) (k : Taker) (e : Nat × Option (Chan × List Frames.Cross)) (acc : Option (List (Nat × Bool))) :
    Option (List (Nat × Bool)) :=
  match Fabric.seen s k e, acc with
  | .valid v, some l => some ((e.1, v) :: l)
  | _, _ => none

/-- The same for a pin's token. -/
def pinStep (s : State) (y : Nat × Nat) (acc : Option (List (Nat × Bool))) : Option (List (Nat × Bool)) :=
  match (Table.get (fun _ => ({} : WordOut)) s.pinIn y.2).word, Pins.onSlot s y.2, acc with
  | some w, false, some l => some ((y.1, w.getLsbD 0) :: l)
  | _, _, _ => none

section
variable {s : State} {k : Taker} {e : Nat × Option (Chan × List Frames.Cross)} {y : Nat × Nat}

theorem channelStep_none : channelStep s k e none = none := by
  unfold channelStep
  cases Fabric.seen s k e <;> rfl

theorem channelStep_valid {x : Nat × Bool} (h : x.1 = e.1 ∧ Fabric.seen s k e = .valid x.2) (l : List (Nat × Bool)) :
    channelStep s k e (some l) = some (x :: l) := by
  simp only [channelStep, h.2, ← h.1]

theorem channelStep_empty (h : ∀ v, Fabric.seen s k e ≠ .valid v) (o : Option (List (Nat × Bool))) :
    channelStep s k e o = none := by
  unfold channelStep
  cases hs : Fabric.seen s k e with
  | valid v => exact absurd hs (h v)
  | spacer => rfl
  | illegal => rfl

theorem pinStep_none : pinStep s y none = none := by
  unfold pinStep
  cases (Table.get (fun _ => ({} : WordOut)) s.pinIn y.2).word <;> cases Pins.onSlot s y.2 <;> rfl

theorem pinStep_word {x : Nat × Bool} (h : x.1 = y.1 ∧ (pinWord s y.2).map (·.getLsbD 0) = some x.2) (l : List (Nat × Bool)) :
    pinStep s y (some l) = some (x :: l) := by
  obtain ⟨channel, token⟩ := h
  obtain ⟨w, hw, value⟩ := Option.map_eq_some_iff.1 token
  obtain ⟨rests, word⟩ := pinWord_eq_some.1 hw
  simp only [pinStep, rests, word, ← channel, value]

theorem pinStep_empty (h : pinWord s y.2 = none) (o : Option (List (Nat × Bool))) : pinStep s y o = none := by
  unfold pinStep
  unfold pinWord at h
  cases ho : Pins.onSlot s y.2 with
  | true => cases (Table.get (fun _ => ({} : WordOut)) s.pinIn y.2).word <;> rfl
  | false =>
    rw [ho, if_neg (by decide)] at h
    rw [h]

end

/-- The tokens that a port would take, once all its channels have one, and all its pins. -/
def channelTokens (s : State) (i : Nat) : Option (List (Nat × Bool)) :=
  (portChannels s i).foldr (channelStep s (portTaker i)) (some [])

def pinTokens (s : State) (i : Nat) : Option (List (Nat × Bool)) := (portPins s i).foldr (pinStep s) (some [])

/-- A port that is not asked for a word, has one, or has not let go of the last (R255). -/
def portBlocked (s : State) (i : Nat) : Bool :=
  (Engines.port s i).recv.isSome || portLost s i || !Fabric.awake s || Fabric.ack s (portTaker i) ||
    ((portChannels s i).isEmpty && (portPins s i).isEmpty)

theorem ports_setAck (k : Taker) (b : Bool) (s : State) : (Fabric.setAck k b s).ports = s.ports := by cases k <;> rfl

section
variable {s : State} {i : Nat}

theorem portBlocked_iff : portBlocked s i = true ↔ s.modes.cur ≠ .m5 ∨ portLost s i = true ∨ (Engines.port s i).recv ≠ none ∨
    Fabric.ack s (portTaker i) = true ∨ (portChannels s i = [] ∧ portPins s i = []) := by
  simp only [portBlocked, Bool.or_eq_true, Bool.and_eq_true, Bool.not_eq_true', Option.isSome_iff_ne_none, List.isEmpty_iff,
    asleep_iff]
  tauto

theorem capture_blocked (h : portBlocked s i = true) : Engines.capture i s = s := if_pos h

theorem capture_waits (h : channelTokens s i = none ∨ pinTokens s i = none) : Engines.capture i s = s := by
  show (if portBlocked s i then s else match channelTokens s i, pinTokens s i with | some a, some b => _ | _, _ => s) = s
  split
  · rfl
  · rcases h with h | h
    · rw [h]
    · rw [h]
      cases channelTokens s i <;> rfl

/-- A port all of whose inputs hold a token takes them together. -/
theorem capture_takes (h : portBlocked s i = false) {a b : List (Nat × Bool)} (ha : channelTokens s i = some a)
    (hb : pinTokens s i = some b) : Engines.capture i s = Pins.takeEngine (portPins s i) (Engines.setPort i
      { Engines.port s i with recv := some (BitVec.ofNat 64 (Fabric.gather (a ++ b))) }
      (if portChannels s i = [] then s else Fabric.setAck (portTaker i) true s)) := by
  have taken : Engines.capture i s = if portBlocked s i then s else
      match channelTokens s i, pinTokens s i with
      | some a, some b =>
        let x := if (portChannels s i).isEmpty then s else Fabric.setAck (portTaker i) true s
        Pins.takeEngine (portPins s i)
          (Engines.setPort i { Engines.port x i with recv := some (BitVec.ofNat 64 (Fabric.gather (a ++ b))) } x)
      | _, _ => s := rfl
  rw [taken, h, ha, hb]
  by_cases hc : portChannels s i = []
  · simp [hc]
  · have kept : Engines.port (Fabric.setAck (portTaker i) true s) i = Engines.port s i := by
      rw [Engines.port, ports_setAck]
      rfl
    simp [hc, kept]

end

@[simp] theorem channelTokens_begin (s : State) (i : Nat) : channelTokens (Ops.begin s) i = channelTokens s i := by
  have step (k : Taker) : channelStep (Ops.begin s) k = channelStep s k := by
    funext e o
    simp only [channelStep, seen_begin]
  simp only [channelTokens, step]
  rfl

/-! ### The ports by their region (R254, R386) -/

section
variable (r : Fin 512)

theorem portTaker_engine : portTaker r = .enginePort r :=
  (if_pos (decide_eq_true r.isLt)).trans (congrArg Taker.enginePort (Fin.ofNat_val_eq_self r))

theorem portTaker_host : portTaker (512 + r) = .hostPort r := by
  refine (if_neg (by simp)).trans (congrArg Taker.hostPort ?_)
  rw [Nat.add_sub_cancel_left]
  exact Fin.ofNat_val_eq_self r

theorem portPins_engine (s : State) : portPins s r = Pins.engineInputs s (r / 4) (r % 4) := if_pos (decide_eq_true r.isLt)

theorem portPins_host (s : State) : portPins s (512 + r) = [] := if_neg (by simp)

theorem portLost_engine (s : State) : portLost s r = true ↔ (Engines.engine s (r / 4)).state = .lost := by
  simp [portLost]

theorem portLost_host (s : State) : portLost s (512 + r) = false := by simp [portLost]

end

/-! ### The object of an engine (R272) -/

section
variable (n : Fin 128)

theorem find_engine : Objects.find (0x6100 + n) = Objects.engines (0x6100 + n) := by
  have early : ¬ 0x6100 + n.val < 0x2000 := by omega
  have array : ¬ 0x6100 + n.val < 0x3000 := by omega
  have time : ¬ 0x6100 + n.val < 0x4000 := by omega
  have banks : ¬ 0x6100 + n.val < 0x5000 := by omega
  have queues : ¬ 0x6100 + n.val < 0x6000 := by omega
  have here : 0x6100 + n.val < 0x7000 := by omega
  simp only [Objects.find, if_neg early, if_neg array, if_neg time, if_neg banks, if_neg queues, if_pos here]

/-- The command of an engine has one byte. -/
theorem size_engineCommand : Operands.size (0x6100 + n) 1 = 1 := by
  have images : ¬ 0x6100 + n.val = 0x6000 := by omega
  have here : 0x6100 ≤ 0x6100 + n.val ∧ 0x6100 + n.val < 0x6180 := by omega
  simp only [Operands.size, Objects.row, find_engine, Objects.engines, if_neg images, if_pos here]
  rfl

theorem chapterWrite_engine (t : Transport) (k : Nat) (d : List Byte) (s : State) :
    Dict.chapterWrite t (0x6100 + n) k d s = Engines.writeSub (Security.slots s) (0x6100 + n) k d s := by
  have modes : ¬ 0x6100 + n.val < 0x1010 := by omega
  have transports : ¬ (0x1100 ≤ 0x6100 + n.val ∧ 0x6100 + n.val < 0x1200) := by omega
  have supplies : ¬ 0x6100 + n.val < 0x2000 := by omega
  have regions : ¬ (0x2400 ≤ 0x6100 + n.val ∧ 0x6100 + n.val < 0x2800) := by omega
  have loader : ¬ 0x6100 + n.val < 0x3000 := by omega
  have select : ¬ (0x6100 + n.val = 0x3010 ∧ k = 3) := by omega
  have time : ¬ 0x6100 + n.val < 0x4000 := by omega
  have banks : ¬ 0x6100 + n.val < 0x5000 := by omega
  have queues : ¬ 0x6100 + n.val < 0x6000 := by omega
  have here : 0x6100 + n.val < 0x7000 := by omega
  simp only [Dict.chapterWrite, if_neg modes, if_neg transports, if_neg supplies, if_neg regions, if_neg loader, if_neg select,
    if_neg time, if_neg banks, if_neg queues, if_pos here]

/-- What a command comes to. -/
theorem chapterWrite_command (t : Transport) {k : Nat} (hk : k < 256) (s : State) :
    Dict.chapterWrite t (0x6100 + n) 1 (le 1 k) s = some (Engines.command n k s) := by
  have images : ¬ 0x6100 + n.val = 0x6000 := by omega
  have here : 0x6100 ≤ 0x6100 + n.val ∧ 0x6100 + n.val < 0x6180 := by omega
  simp only [chapterWrite_engine, Engines.writeSub, if_neg images, if_pos here, Nat.add_sub_cancel_left,
    le_bytes_lt (n := 1) hk]

end

section
variable {s x : State} {t : Transport} {n : Fin 128} {k : Nat} (hk : k < 256) (h : Writes s t (0x6100 + n) 1 (le 1 k))
include hk h

theorem run_command (he : Engines.command n k (counted s) = .inr x) :
    Run.run (Operands.write t (0x6100 + n) 1 k) s = .next (wrote s t (0x6100 + n) 1 (le 1 k) x) :=
  operands_taken (size_engineCommand n) h (by omega) (by omega) ((chapterWrite_command n t hk _).trans (congrArg some he))

theorem run_command_refused {e : Nat} (he : Engines.command n k (counted s) = .inl e) :
    Run.run (Operands.write t (0x6100 + n) 1 k) s = .next (after s (answered s t 2 (0x6100 + n) 1 (le 1 k) e [] (counted s))) :=
  operands_refused (size_engineCommand n) h (by omega) (by omega) ((chapterWrite_command n t hk _).trans (congrArg some he))

end

/-! ### The commands by the state of their engine (R260) -/

section
variable {s : State} {n k : Nat}

theorem command_mode (h : s.modes.cur ≠ .m5) : Engines.command n k s = .inl 3 := if_pos (by simp [h])

variable (hm : s.modes.cur = .m5)
include hm

theorem command_busy (h : (k = 1 ∧ (Engines.engine s n).tags ≠ []) ∨ Engines.busyWith s n = true) :
    Engines.command n k s = .inl 5 := (if_neg (by simp [hm])).trans (if_pos h)

variable (hb : Engines.busyWith s n = false)
include hb

theorem start_runs (ht : (Engines.engine s n).tags = []) (hs : (Engines.engine s n).state = .stopped ∨
      (Engines.engine s n).state = .halted ∨ (Engines.engine s n).state = .fault) : Engines.command n 1 s =
    .inr (Engines.setEngine n { Engines.engine s n with
      state := .running, regs := [], marks := [], pc := (Engines.engine s n).entry, twait := none } s) := by
  rcases hs with hs | hs | hs <;> simp [Engines.command, hm, hb, ht, hs]

theorem start_refused (ht : (Engines.engine s n).tags = []) (h1 : (Engines.engine s n).state ≠ .stopped)
    (h2 : (Engines.engine s n).state ≠ .halted) (h3 : (Engines.engine s n).state ≠ .fault) :
    Engines.command n 1 s = .inl 4 := by
  cases hs : (Engines.engine s n).state <;> simp_all [Engines.command]

theorem stop_stops (hs : (Engines.engine s n).state = .running) : Engines.command n 2 s =
    .inr (Engines.setEngine n { Engines.engine s n with state := .stopped, twait := none } s) := by
  simp [Engines.command, hm, hb, hs]

theorem stop_refused (hs : (Engines.engine s n).state ≠ .running) : Engines.command n 2 s = .inl 4 := by
  cases h : (Engines.engine s n).state <;> simp_all [Engines.command]

theorem resume_runs (hs : (Engines.engine s n).state = .stopped ∨ (Engines.engine s n).state = .halted) :
    Engines.command n 3 s = .inr (Engines.setEngine n { Engines.engine s n with state := .running } s) := by
  rcases hs with hs | hs <;> simp [Engines.command, hm, hb, hs]

theorem resume_refused (h1 : (Engines.engine s n).state ≠ .stopped) (h2 : (Engines.engine s n).state ≠ .halted) :
    Engines.command n 3 s = .inl 4 := by
  cases hs : (Engines.engine s n).state <;> simp_all [Engines.command]

end

/-- Settles O36: a port by the tokens of its channels and pins, a command by the state of its engine. -/
theorem engineCommands : Obligations.EngineCommands := by
  unfold Obligations.EngineCommands
  refine ⟨fun s p h => ?ports, fun s t n => ?commands⟩
  case ports =>
    intro u i k pins lost channels pin
    have taker : portTaker i = k := by
      cases p with
      | engine r => exact portTaker_engine r
      | host r => exact portTaker_host r
    have replaced : portPins s i = pins := by
      cases p with
      | engine r => exact portPins_engine r s
      | host r => exact portPins_host r s
    have gone : portLost s i = true ↔ lost := by
      cases p with
      | engine r => exact portLost_engine r s
      | host r => exact iff_false_intro (by simp [show i = 512 + r.val from rfl, portLost_host])
    have left : portChannels s i = channels := by rw [portChannels, taker, replaced]
    refine ⟨fun a b hm hl hr hk hs ha hb => ?takes, fun hi => ?idle, run_awake_of h rfl, fun j _ => ?acknowledged⟩
    case takes =>
      have asked : portBlocked s i = false := by
        rw [Bool.eq_false_iff, Ne, portBlocked_iff, gone, taker, left, replaced, hk]
        simp only [hm, hr]
        tauto
      have tokens : channelTokens s i = some a := by
        rw [channelTokens, taker, left]
        exact foldr_collects ha fun _ _ l hx => channelStep_valid hx l
      have levels : pinTokens s i = some b := by
        rw [pinTokens, replaced]
        exact foldr_collects hb fun _ _ l hx => pinStep_word hx l
      refine run_awake_of h ((capture_takes (s := u) asked ((channelTokens_begin s i).trans tokens) levels).trans ?_)
      rw [← left, ← replaced, ← taker]
      rfl
    case idle =>
      refine run_awake_of h ?_
      by_cases hb : portBlocked s i = true
      · exact capture_blocked (s := u) hb
      · rw [portBlocked_iff, gone, taker, left, replaced] at hb
        have waits : channelTokens s i = none ∨ pinTokens s i = none := by
          rw [channelTokens, pinTokens, taker, left, replaced]
          simp only [not_or] at hb
          obtain ⟨mode, here, room, ready, used⟩ := hb
          rcases ((((hi.resolve_left mode).resolve_left here).resolve_left room).resolve_left ready).resolve_left used with
            ⟨e, he, hn⟩ | ⟨y, hy, hn⟩
          · exact .inl (foldr_misses (f := channelStep s k) (fun _ => channelStep_none) (channelStep_empty hn) he _)
          · exact .inr (foldr_misses (f := pinStep s) (fun _ => pinStep_none) (pinStep_empty hn) hy _)
        exact capture_waits (s := u) (waits.imp_left (channelTokens_begin s i).trans)
    case acknowledged =>
      intro c hj
      refine acknowledge_idle (.inr (hj.imp_left fun hr v hv => ?_))
      rw [hr] at hv
      cases hv
  case commands =>
    intro e i does fails m5 busy
    have makes {c : Instr} {k : Nat} {e' : Engine} (hk : k < 256) (hc : exec c s = Run.run (Operands.write t i 1 k) s)
        (he : Engines.command n k (counted s) = .inr (Engines.setEngine n e' (counted s))) : does c k e' :=
      fun h => hc.trans (run_command hk h he)
    have refuses {c : Instr} {k err : Nat} (hk : k < 256) (hc : exec c s = Run.run (Operands.write t i 1 k) s)
        (he : Engines.command n k (counted s) = .inl err) : fails c k err :=
      fun h => hc.trans (run_command_refused hk h he)
    refine ⟨fun hm => ?mode, fun hm hb => ?busy, fun hm hb => ⟨fun ht => ?inFlight,
      fun ht => ⟨fun hs => ?start, fun h1 h2 h3 => ?noStart⟩, fun hs => ?stop, fun hs => ?noStop,
      fun hs => ?resume, fun h1 h2 => ?noResume⟩⟩
    case mode =>
      exact ⟨refuses (by decide) rfl (command_mode hm), refuses (by decide) rfl (command_mode hm),
        refuses (by decide) rfl (command_mode hm)⟩
    case busy =>
      exact ⟨refuses (by decide) rfl (command_busy hm (.inr hb)), refuses (by decide) rfl (command_busy hm (.inr hb)),
        refuses (by decide) rfl (command_busy hm (.inr hb))⟩
    case inFlight => exact refuses (by decide) rfl (command_busy hm (.inl ⟨rfl, ht⟩))
    case start => exact makes (by decide) rfl (start_runs (s := counted s) hm hb ht hs)
    case noStart => exact refuses (by decide) rfl (start_refused (s := counted s) hm hb ht h1 h2 h3)
    case stop => exact makes (by decide) rfl (stop_stops (s := counted s) hm hb hs)
    case noStop => exact refuses (by decide) rfl (stop_refused (s := counted s) hm hb hs)
    case resume => exact makes (by decide) rfl (resume_runs (s := counted s) hm hb hs)
    case noResume => exact refuses (by decide) rfl (resume_refused (s := counted s) hm hb h1 h2)

end Sys2Proof.Laws
end

section
/-!
SUPPORT. The images of the engines: the staging buffer and the install (R265, R266), and the rotation and migration of a group
(R267 to R269, R492).
-/

namespace Sys2Proof.Laws

open Sys2Proof Sys2Proof.Machine Sys2Proof.Safety

/-! ### The staging buffer (R265) -/

theorem stage_cons (off : Nat) (b : Byte) (d : List Byte) (i : Installer) : Engines.stage off (b :: d) i =
    Engines.stage (off + 1) d
      { i with staged := Table.put (fun _ => 0) i.staged off b, stagedLen := max i.stagedLen (off + 1) } := rfl

theorem stagedLen_stage {d : List Byte} (h : 0 < d.length) (off : Nat) (i : Installer) :
    (Engines.stage off d i).stagedLen = max i.stagedLen (off + d.length) := by
  induction d generalizing off i with
  | nil => exact absurd h (by decide)
  | cons b d ih =>
    rw [stage_cons]
    cases d with
    | nil => rfl
    | cons c d =>
      rw [ih (by simp)]
      simp only [List.length_cons]
      omega

theorem staged_stage (d : List Byte) (off : Nat) (i : Installer) (k : Nat) :
    Table.get (fun _ => 0) (Engines.stage off d i).staged k =
      if off ≤ k ∧ k < off + d.length then d.getD (k - off) 0 else Table.get (fun _ => 0) i.staged k := by
  induction d generalizing off i with
  | nil => exact (if_neg (by simp)).symm
  | cons b d ih =>
    rw [stage_cons, ih, Table.get_put, List.length_cons]
    by_cases here : k = off
    · rw [if_neg (by omega), if_pos here, if_pos (by omega), here, Nat.sub_self]
      rfl
    · rw [if_neg here]
      by_cases after : off + 1 ≤ k
      · obtain ⟨j, rfl⟩ : ∃ j, k = off + 1 + j := ⟨k - (off + 1), by omega⟩
        refine if_congr (by omega) ?_ rfl
        rw [show off + 1 + j - (off + 1) = j by omega, show off + 1 + j - off = j + 1 by omega, List.getD_cons_succ]
      · rw [if_neg (by omega), if_neg (by omega)]

section
variable {s : State} (slot : Nat → Engines.Slot) {off : W32} {d : List Byte}

/-- What a write of the staging buffer comes to. -/
theorem writeSub_staging : Engines.writeSub slot 0x6000 1 (le 4 off.toNat ++ d) s =
    some (if Engines.installing s then .inl 5 else if 99328 < off.toNat + d.length then .inl 4
      else .inr (Engines.setInstaller (Engines.stage off.toNat d s.eng.installer) s)) := by
  have offset : Ops.le ((le 4 off.toNat ++ d).take 4) = off.toNat := by
    rw [List.take_left' (length_bytes 4 _), le_bytes_word (n := 4) rfl]
  have data : (le 4 off.toNat ++ d).drop 4 = d := List.drop_left' (length_bytes 4 _)
  have length : (le 4 off.toNat ++ d).length = 4 + d.length := by rw [List.length_append, length_bytes]
  simp only [Engines.writeSub, offset, data, length, Nat.add_sub_cancel_left]
  simp

end

/-! ### The engine-image window (R266, R381, R385, R396) -/

/-- The return to L0 leaves the engines alone. -/
@[simp] theorem eng_toL0 (s : State) : (Ops.toL0 Ops.raise s).eng = s.eng := by
  unfold Ops.toL0
  split <;> simp

theorem installing_congr {s x : State} (h : x.eng = s.eng) : Engines.installing x = Engines.installing s := by
  rw [Engines.installing, h]
  rfl

section
variable {s : State} {off : Nat} {d : List Byte}

theorem windowWrite_past (h : 99328 < off + d.length) : windowWrite off d s = Ops.bump 0x8000 7 s := if_pos h

variable (h : off + d.length ≤ 99328)
include h

theorem windowWrite_discarded (hi : Engines.installing s = true) : windowWrite off d s = Ops.bump 0x6000 8 s :=
  (if_neg (by omega)).trans (if_pos hi)

theorem windowWrite_staged (hi : Engines.installing s = false) :
    windowWrite off d s = Engines.setInstaller (Engines.stage off d s.eng.installer) s :=
  (if_neg (by omega)).trans (if_neg (by simp [hi]))

end

/-! ### The install (R265, R266) -/

/-- The engines of a target mask. -/
def targetsOf (m : BitVec 128) : List Nat := (List.range 128).filter fun n => m.getLsbD n

/-- What a write of the install mask comes to. -/
theorem writeSub_install (slot : Nat → Engines.Slot) (m : BitVec 128) (s : State) :
    Engines.writeSub slot 0x6000 3 (le 16 m.toNat) s =
      some (if ¬ (s.modes.cur = .m5 ∨ s.modes.cur = .m7) then .inl 3 else if Engines.installing s then .inl 5
        else .inr (Engines.install slot m s)) := by
  have mask : BitVec.ofNat 128 (Ops.le (le 16 m.toNat)) = m := by
    rw [le_bytes_word (n := 16) rfl, BitVec.ofNat_toNat, BitVec.setWidth_eq]
  simp only [Engines.writeSub, mask, length_bytes]
  simp

section
variable {s : State} {slot : Nat → Engines.Slot} {m : BitVec 128}

theorem install_fails {c : Nat} (h : Engines.installChecks slot m s = some c) : Engines.install slot m s =
    (targetsOf m).foldl (fun x n => Engines.cause n 16 x)
      (Engines.setInstaller { s.eng.installer with status := 4, result := c, mask := m } s) := by
  simp only [Engines.install, h]
  rfl

theorem install_starts (h : Engines.installChecks slot m s = none) : Engines.install slot m s =
    (targetsOf m).foldl (fun x n => Engines.setEngine n { Engines.engine x n with state := .installing } x)
      (Engines.setInstaller { s.eng.installer with status := 2, result := 0, mask := m } s) := by
  simp only [Engines.install, h]
  rfl

theorem installComplete_waits (h : s.eng.installer.status ≠ 2 ∨
      (s.eng.migrations.any fun x => (targetsOf s.eng.installer.mask).contains x.2.engine) = true) :
    Engines.installComplete s = s := if_pos h

theorem installComplete_done (h : s.eng.installer.status = 2)
    (hm : (s.eng.migrations.any fun x => (targetsOf s.eng.installer.mask).contains x.2.engine) = false) :
    Engines.installComplete s = (let x := (targetsOf s.eng.installer.mask).foldl (fun x n => Engines.load1 n x) s
      Ops.bump 0x6000 7 (Engines.setInstaller { x.eng.installer with status := 3, result := 0 } x)) := by
  refine if_neg ?_
  rintro (hs | ha)
  · exact hs h
  · exact absurd (hm.symm.trans ha) (by decide)

end

/-! ### Rotation and migration (R267 to R269, R492) -/

section
variable {s : State} {g : Nat}

theorem rotation_due (hm : s.modes.cur = .m5) (hp : Ops.reg s 0x6000 6 ≠ 0) : rotationStep s =
    ((List.range 4).filter (passedOver s)).foldl (fun x k => Ops.broken 4 2 3 k x)
      ((List.range 4).foldl (fun x k => Engines.rotate k x) s) := by
  simp [rotationStep, Engines.rotation, hm, hp]

theorem rotation_idle (h : s.modes.cur ≠ .m5 ∨ Ops.reg s 0x6000 6 = 0) : rotationStep s = s := by
  rcases h with h | h <;> simp [rotationStep, Engines.rotation, h]

/-- A group without a migration holds back no rotation. -/
theorem heldRotation_none (h : s.eng.migrations = []) : Engines.heldRotation s g = none := by
  simp [Engines.heldRotation, h]

theorem passedOver_none (h : s.eng.migrations = []) : passedOver s g = false := by
  simp [passedOver, heldRotation_none h]

theorem rotate_none (h : s.eng.migrations = []) : Engines.rotate g s = Engines.rotateNext g s := by
  simp [Engines.rotate, heldRotation_none h, Engines.migrating, h]

theorem copyDone_none (h : s.eng.migrations.find? (fun x => x.1 == g) = none) : Engines.copyDone g s = s := by
  simp only [Engines.copyDone, h]

variable {m : Migration} (h : s.eng.migrations.find? (fun x => x.1 == g) = some (g, m))
include h

theorem copyDone_held (hf : m.forced = false) (hh : Engines.heldBack s m.engine = true) : Engines.copyDone g s = s := by
  simp [Engines.copyDone, h, hf, hh]

theorem copyDone_moves (hf : m.forced = true ∨ Engines.heldBack s m.engine = false) : Engines.copyDone g s =
    Engines.cause m.engine 8
      (let a := Engines.physical s m.engine
       let x := { s with eng := { s.eng with
         migrations := s.eng.migrations.filter fun x => x.1 != g
         physical := Table.put (fun n => 33 * (n / 32) + n % 32) s.eng.physical m.engine m.target } }
       let y := Engines.setPhys m.target 0 x
       if Engines.physState y a = 4 then y else Engines.setPhys a 1 y) := by
  have moves : ¬ (!m.forced && Engines.heldBack s m.engine) = true := by
    rcases hf with hf | hf <;> simp [hf]
  simp only [Engines.copyDone, h, if_neg moves]

end

/-- Settles O37: each write by what its chapter makes of it, and rotation and migration by the group's migration. -/
theorem engineImages : Obligations.EngineImages := by
  unfold Obligations.EngineImages
  refine ⟨fun s t => ?staging, fun s t m => ?installs, fun s g h => ?rotations⟩
  case staging =>
    intro u i
    have free (hi : Engines.installing s = false) : ¬ Engines.installing u = true := ne_true_of_eq_false hi
    refine ⟨fun off d h => ?writes, fun off d h => ?window, fun h hi => ?clears, fun h hi => ?kept,
      fun off d k hd => ⟨stagedLen_stage hd off i, staged_stage d off i k⟩⟩
    case writes =>
      intro fails
      have comes := writeSub_staging (s := u) (Security.slots u) (off := off) (d := d)
      refine ⟨fun hi hl => ?_, fun hi hl => ?_, fun hi => ?_⟩
      · exact run_write h (by decide) (by decide)
          (comes.trans (congrArg some ((if_neg (free hi)).trans (if_neg (by omega)))))
      · exact run_refused h (by decide) (by decide) (comes.trans (congrArg some ((if_neg (free hi)).trans (if_pos hl))))
      · exact run_refused h (by decide) (by decide) (comes.trans (congrArg some (if_pos hi)))
    case window =>
      intro v makes
      have same : v.eng = s.eng := eng_toL0 (Ops.begin s)
      have busy : Engines.installing v = Engines.installing s := installing_congr same
      refine ⟨fun hu => ⟨fun hl hi => ?_, fun hl hi => run_viaLink h hu (windowWrite_discarded hl (busy.trans hi)),
        fun hl => run_viaLink h hu (windowWrite_past hl)⟩, fun hd => run_viaLink_down h hd _⟩
      refine run_viaLink h hu ((windowWrite_staged hl (busy.trans hi)).trans ?_)
      rw [show (Ops.toL0 Ops.raise (Ops.begin s)).eng = s.eng from same]
    case clears =>
      exact operands_taken (by decide) h (by decide) (by decide)
        (congrArg some ((if_neg (free hi)).trans (if_neg (by decide))))
    case kept => exact operands_refused (by decide) h (by decide) (by decide) (congrArg some (if_pos hi))
  case installs =>
    intro u i targets fails
    refine ⟨fun h => ?request, fun h hs => ?idle, fun h hs hm => ?completes⟩
    case request =>
      have comes := writeSub_install (Security.slots u) m u
      refine ⟨fun h5 h7 => ?_, fun hm hi => ?_, fun hm hi => ?_⟩
      · exact run_refused h (by decide) (by decide) (comes.trans (congrArg some (if_pos (not_or.2 ⟨h5, h7⟩))))
      · exact run_refused h (by decide) (by decide) (comes.trans (congrArg some ((if_neg (not_not.2 hm)).trans (if_pos hi))))
      · have free : ¬ Engines.installing u = true := ne_true_of_eq_false hi
        have accepted := comes.trans (congrArg some ((if_neg (not_not.2 hm)).trans (if_neg free)))
        exact ⟨fun c hc => run_write h (by decide) (by decide) (accepted.trans (congrArg (some ∘ Sum.inr) (install_fails hc))),
          fun hc => run_write h (by decide) (by decide) (accepted.trans (congrArg (some ∘ Sum.inr) (install_starts hc)))⟩
    case idle => exact run_awake_of h (installComplete_waits (s := Ops.begin s) (.inl hs))
    case completes =>
      intro moving
      subst hm
      exact ⟨fun hm => run_awake_of h (installComplete_done (s := Ops.begin s) hs hm),
        fun hm => run_awake_of h (installComplete_waits (s := Ops.begin s) (.inr hm))⟩
  case rotations =>
    intro u
    refine ⟨fun hm hp => ?due, fun hi => ?none, fun hn => ?still, fun hn => ⟨passedOver_none hn, rotate_none hn⟩,
      fun m hm => ⟨fun hf => ?moves, fun hf hh => ?held⟩⟩
    case due => exact run_awake_of h (rotation_due (s := u) hm hp)
    case none => exact run_awake_of h (rotation_idle (s := u) hi)
    case still => exact run_awake_of h (copyDone_none (s := u) hn)
    case moves => exact run_awake_of h (copyDone_moves (s := u) hm hf)
    case held => exact run_awake_of h (copyDone_held (s := u) hm hf hh)

end Sys2Proof.Laws
end

section
/-!
SUPPORT. The header and the frames of a load, what ends one, and the refused writes of the load object (R280 to R285, R293 to R299,
R308, R309).
-/

namespace Sys2Proof.Laws

open Sys2Proof Sys2Proof.Machine Sys2Proof.Safety

/-! ### The header (R293, R294) -/

section
variable {s : State}

theorem streamHeader_accepts (hp : s.loader.phase = .header) (hl : 512 ≤ s.loader.unit.length)
    (hc : Loader.headerChecks s.loader.unit s = none) :
    Loader.streamHeader s = Loader.refill (Loader.accept (Loader.parse s.loader.unit) s) := by
  simp [Loader.streamHeader, hp, hl, hc]

theorem streamHeader_rejects (hp : s.loader.phase = .header) (hl : 512 ≤ s.loader.unit.length) {c : Nat}
    (hc : Loader.headerChecks s.loader.unit s = some c) :
    Loader.streamHeader s = Loader.fail c 0 (Ops.setReg 0x2000 4 (Loader.field s.loader.unit 20 4) s) := by
  simp [Loader.streamHeader, hp, hl, hc]

theorem streamHeader_waits (h : s.loader.phase ≠ .header ∨ s.loader.unit.length < 512) : Loader.streamHeader s = s := if_pos h

end

/-! ### The checks on a frame (R280, R284, R285, R295) -/

/-- The address of the frame that the loader holds. -/
abbrev heldAddress (s : State) : Nat := Ops.le (s.loader.unit.take 8)

/-- Its payload as it came. -/
abbrev heldCipher (s : State) : List Byte := (s.loader.unit.drop 8).take 512

/-- Its payload in clear (R285). -/
abbrev heldPlain (s : State) (l : Load) : List Byte :=
  if l.header.enc = 0 then heldCipher s
  else Crypto.gcmDecryptFrame (Loader.keyOf s l.header.enc) l.header.iv l.accepted (heldCipher s)

/-- That payload as bits. -/
abbrev heldValue (s : State) (l : Load) : BitVec 4096 := BitVec.ofNat 4096 (Ops.le (heldPlain s l))

/-- The CRC that it carries. -/
abbrev heldCrc (s : State) : Nat := Ops.le (s.loader.unit.drop 520)

/-- Its CRC matches. -/
abbrev HeldGood (s : State) (l : Load) : Prop := heldCrc s = (Crypto.crc32c (s.loader.unit.take 8 ++ heldPlain s l)).toNat

/-- Its payload is invalid. -/
abbrev heldInvalid (s : State) (l : Load) : Bool := Loader.invalidFrame l.header.facetOnly (heldAddress s) (heldValue s l) s

/-- A partial load's frame is for another facet (R284). -/
abbrev Elsewhere (l : Load) (a : Nat) : Prop :=
  l.header.facetOnly = true ∧ (Loader.typeOf a = 1 ∨ Loader.typeOf a = 2) ∧
    ¬ (Loader.dieOf a = l.header.facet / 128 ∧ Loader.localOf a = l.header.facet % 128)

/-- The loader holds a whole frame, and not one that it discards while it awaits another again. -/
structure Takes (s : State) (l : Load) : Prop where
  load : s.loader.load = some l
  whole : 524 ≤ s.loader.unit.length
  phase : s.loader.phase = .frames ∨ s.loader.phase = .resend ∧ heldAddress s = l.rejected

/-- The load with what the checks at its end are to know of the frame. -/
def notedLoad (s : State) (l : Load) : Load :=
  { l with
    firstCrc := if HeldGood s l then l.firstCrc else some (l.firstCrc.getD (heldAddress s))
    firstInvalid := if heldInvalid s l then some (l.firstInvalid.getD (heldAddress s)) else l.firstInvalid }

/-- The load that awaits the frame once more. -/
def resent (s : State) (l : Load) : Loader :=
  { s.loader with phase := .resend, unit := [], load := some { l with tries := l.tries + 1, rejected := heldAddress s } }

/-- What a frame at a legal address of the load comes to, by its CRC and its payload. -/
def checkContents (s : State) (l : Load) : State :=
  if ¬ HeldGood s l ∧ l.header.perFrame = true then
    if l.tries = 2 then Loader.fail 0x0B (heldAddress s) s
    else Loader.refill (Ops.raise 354 (Ops.setReg 0x2000 7 (heldAddress s) { s with loader := resent s l }))
  else if heldInvalid s l = true ∧ l.header.perFrame = true then Loader.fail 0x09 (heldAddress s) s
  else Loader.acceptFrame (notedLoad s l) (heldAddress s) (heldCrc s) s.loader.unit (heldPlain s l) (heldCipher s)
    (heldValue s l) s

section
variable {s : State} {l : Load}

theorem frame_none (h : s.loader.load = none) : Loader.frame s = s := by
  simp only [Loader.frame, h]

theorem frame_waits (hl : s.loader.load = some l)
    (h : s.loader.unit.length < 524 ∨ s.loader.phase ≠ .frames ∧ s.loader.phase ≠ .resend) : Loader.frame s = s := by
  simp only [Loader.frame, hl]
  exact if_pos (by rcases h with h | ⟨hf, hr⟩ <;> simp [*])

/-- A frame that is not the one awaited again. -/
theorem frame_discards (hl : s.loader.load = some l) (hw : 524 ≤ s.loader.unit.length) (hp : s.loader.phase = .resend)
    (ha : heldAddress s ≠ l.rejected) : Loader.frame s =
      Loader.refill (Ops.add 0x2000 0x0B 32 524 { s with loader := { s.loader with unit := [] } }) := by
  have other : (Ops.le (s.loader.unit.take 8) != l.rejected) = true := by simpa [heldAddress] using ha
  simp [Loader.frame, hl, hp, Nat.not_lt.2 hw, other]

theorem notedLoad_eq (s : State) (l : Load) : notedLoad s l =
    (let x := if HeldGood s l then l else { l with firstCrc := some (l.firstCrc.getD (heldAddress s)) }
     if heldInvalid s l then { x with firstInvalid := some (x.firstInvalid.getD (heldAddress s)) } else x) := by
  by_cases good : HeldGood s l
  · simp only [notedLoad, if_pos good]
    split <;> rfl
  · simp only [notedLoad, if_neg good]
    split <;> rfl

/-- The checks on a frame that the loader takes, in the order of R295. -/
theorem frame_checks (h : Takes s l) : Loader.frame s =
    if Elsewhere l (heldAddress s) then Loader.fail 0x0A (heldAddress s) s
    else if Loader.badAddress l (heldAddress s) = true then Loader.fail 0x09 (heldAddress s) s
    else checkContents s l := by
  obtain ⟨hl, hw, hp⟩ := h
  have taken : ¬ ((s.loader.phase ≠ .frames ∧ !(s.loader.phase == .resend)) ∨ s.loader.unit.length < 524) := by
    rcases hp with hp | ⟨hp, -⟩ <;> simp [hp, Nat.not_lt.2 hw]
  have awaited : ¬ (s.loader.phase == .resend && Ops.le (s.loader.unit.take 8) != l.rejected) = true := by
    rcases hp with hp | ⟨-, ha⟩
    · simp [hp]
    · simp [show Ops.le (s.loader.unit.take 8) = l.rejected from ha]
  simp only [Loader.frame, checkContents, hl]
  rw [if_neg taken, if_neg awaited]
  refine if_congr ?elsewhere rfl (if_congr Iff.rfl rfl (if_congr ?crc (if_congr (by omega) rfl rfl) ?payload))
  case elsewhere => simp [Elsewhere, imp_iff_not_or, and_assoc]
  case crc => simp
  case payload =>
    rw [notedLoad_eq]
    by_cases good : HeldGood s l
    · simp only [beq_iff_eq, if_pos good, Bool.and_eq_true]
    · simp only [beq_iff_eq, if_neg good, Bool.and_eq_true]

theorem frame_legal (h : Takes s l) (he : ¬ Elsewhere l (heldAddress s)) (hb : Loader.badAddress l (heldAddress s) = false) :
    Loader.frame s = checkContents s l := by
  rw [frame_checks h, if_neg he, if_neg (by simp [hb])]

end

/-! ### A frame that is accepted (R283, R295, R304) -/

/-- Taking bytes that wait changes the loader alone. -/
theorem refill_eq (s : State) : Loader.refill s = { s with loader := (Loader.refill s).loader } := by
  cases h : s.loader.src <;> simp only [Loader.refill, h]

theorem claim_steady (n : Nat) (s : State) : Steady s (Ops.claim Ops.raise n s) := .of_spares (Spares.claim spares_raise n s)

theorem hold_steady (n : Nat) (m : MaintReq) (s : State) : Steady s (Ops.hold n m s) := .of_spares (Spares.hold n m s)

theorem arrive_steady (n : Nat) (m : MaintReq) (s : State) : Steady s (Banks.arrive n m s) := by
  unfold Banks.arrive
  refine .either (Banks.refuseOne_steady n m s) ?_
  exact .either ((claim_steady n s).trans (Banks.perform_steady n m _)) ((claim_steady n s).trans (hold_steady n m _))

theorem bringUp_steady (n : Nat) (s : State) : Steady s (Loader.bringUp n s) := by
  unfold Loader.bringUp
  split <;> simp [Steady]

/-- A bank initialisation frame moves neither time nor the modes. -/
theorem writeBank_steady (l : Load) (a : Nat) (v : BitVec 4096) (s : State) : Steady s (Loader.writeBank l a v s) := by
  unfold Loader.writeBank
  exact .either (by simp [Steady]) ((bringUp_steady _ s).trans (arrive_steady _ _ _))

/-- The frame written, to the array or to its bank. -/
def stored (l : Load) (a crc : Nat) (v : BitVec 4096) (s : State) : State :=
  if Loader.typeOf a = 1 then
    if (Loader.facet s (Loader.regionOf a)).state = .retired then s
    else Loader.writeFabric l.header.facetOnly a v (BitVec.ofNat 32 crc) s
  else Loader.writeBank l a v s

theorem stored_steady (l : Load) (a crc : Nat) (v : BitVec 4096) (s : State) : Steady s (stored l a crc v s) :=
  .either (.either ⟨rfl, rfl⟩ ⟨rfl, rfl⟩) (writeBank_steady l a v s)

theorem stored_cur (l : Load) (a crc : Nat) (v : BitVec 4096) (s : State) : (stored l a crc v s).modes.cur = s.modes.cur := by
  have h := congrArg ModeState.cur (stored_steady l a crc v s).2
  exact h

section
variable (l : Load) (a crc : Nat) (f plain cipher : List Byte) (v : BitVec 4096) (s : State)

theorem acceptFrame_eq : Loader.acceptFrame l a crc f plain cipher v s =
    (let y := Ops.setReg 0x2000 3 (l.accepted + 1) (stored l a crc v s)
     let l' := Loader.advance l a f plain cipher (stored l a crc v s)
     let x : State := { y with loader := { y.loader with phase := .endChecks, unit := [], load := some l' } }
     if l.accepted + 1 = l.header.frames then
       if Ops.modeIn x [.m3] then { x with modes := { x.modes with loadDue := some 0x12 } } else x
     else Loader.refill { y with loader := { y.loader with phase := .frames, unit := [], load := some l' } }) := rfl

/-- Beside the loader and the modes, a frame that is accepted is stored and counted. -/
theorem acceptFrame_stores : let x := Loader.acceptFrame l a crc f plain cipher v s
    let y := stored l a crc v s
    x.regs = (Ops.setReg 0x2000 3 (l.accepted + 1) y).regs ∧ x.fab = y.fab := by
  rw [acceptFrame_eq]
  dsimp only
  split
  · split <;> exact ⟨rfl, rfl⟩
  · rw [refill_eq]
    exact ⟨rfl, rfl⟩

/-- The last frame starts the end checks. -/
theorem acceptFrame_last (h : l.accepted + 1 = l.header.frames) : let x := Loader.acceptFrame l a crc f plain cipher v s
    x.loader.phase = .endChecks ∧ (s.modes.cur = .m3 → x.modes.loadDue = some 0x12) := by
  rw [acceptFrame_eq]
  dsimp only
  rw [if_pos h]
  refine ⟨by split <;> rfl, fun hm => ?_⟩
  rw [if_pos (by simp [stored_cur, hm])]

end

section
variable {a : Nat} {v : BitVec 4096} {s : State} {onlyFacet : Bool}

theorem get_writeFabric (ht : Loader.typeOf a = 1) (h : Loader.invalidFrame onlyFacet a v s = false) (crc : BitVec 32) :
    Table.get (fun _ => 0) (Loader.target onlyFacet (Loader.writeFabric onlyFacet a v crc s))
      (Frames.key (Loader.regionOf a) (Loader.columnOf a) (Loader.minorOf a)) = v := by
  have none_bad : Frames.badFields (Table.put (fun _ => 0) (Loader.target onlyFacet s)
      (Frames.key (Loader.regionOf a) (Loader.columnOf a) (Loader.minorOf a)) v)
      (Loader.regionOf a) (Loader.columnOf a) (Loader.minorOf a) = [] := by
    simpa [Loader.invalidFrame, ht] using h
  have same : Loader.target onlyFacet (Loader.writeFabric onlyFacet a v crc s) =
      Table.put (fun _ => 0) (Loader.target onlyFacet s)
        (Frames.key (Loader.regionOf a) (Loader.columnOf a) (Loader.minorOf a)) v := by
    cases onlyFacet <;> simp only [Loader.writeFabric, none_bad] <;> rfl
  rw [same, Table.get_put_same]

end

/-! ### Failures (R277, R299) -/

/-- The failure in the load object. -/
def recorded (c k : Nat) (s : State) : State := Ops.bump 0x2000 0x0A (Ops.setReg 0x2000 6 k (Ops.setReg 0x2000 5 c s))

/-- The entry to M7 that a failure in M3 and M4 makes due. -/
def withFailure (c : Nat) (x : State) : State :=
  { x with modes := { x.modes with failDue :=
    match x.modes.cur with
    | .m3 => some (if c = 0x0E then 0x21 else 0x40)
    | .m4 => some (if c = 0x0E then 0x21 else 0x41)
    | _ => x.modes.failDue } }

/-- What a failure makes due, by the mode. -/
theorem withFailure_eq (c : Nat) (x : State) : withFailure c x =
    (let due : Option Nat := match x.modes.cur with
      | .m3 => some 0x40
      | .m4 => some 0x41
      | _ => none
     match due with
     | some e => { x with modes := { x.modes with failDue := some (if c = 0x0E then 0x21 else e) } }
     | none => x) := by
  unfold withFailure
  cases x with | mk m => cases m with | mk cur => cases cur <;> rfl

section
variable {s : State}

theorem fail_partial {l : Load} (hl : s.loader.load = some l) (hf : l.header.facetOnly = true) (c k : Nat) :
    Loader.fail c k s = Loader.resynchronise (Ops.raise 353 (withFailure c
      (Loader.abortFacet l.header.facet l.banks (recorded c k s)))) := by
  have load : (recorded c k s).loader.load = some l := hl
  simp only [recorded] at load
  simp only [Loader.fail, load, hf, if_true, withFailure_eq] <;> rfl

theorem fail_whole (h : Loader.partialOf s = none) (c k : Nat) :
    Loader.fail c k s = Loader.resynchronise (Ops.raise 353 (withFailure c (recorded c k s))) := by
  rw [withFailure_eq]
  cases hl : s.loader.load with
  | none =>
    have load : (recorded c k s).loader.load = none := hl
    simp only [recorded] at load
    simp only [Loader.fail, load] <;> rfl
  | some l =>
    have load : (recorded c k s).loader.load = some l := hl
    simp only [recorded] at load
    have whole : ¬ l.header.facetOnly = true := by simpa [Loader.partialOf, hl] using h
    simp only [Loader.fail, load, if_neg whole] <;> rfl

/-- With no bytes of the active source waiting, nothing is discarded. -/
theorem resynchronise_dry (ha : s.loader.aperture = []) (hp : s.loader.port = []) : Loader.resynchronise s =
    { s with loader := { s.loader with phase := .resync, unit := [], load := none } } := by
  cases hs : s.loader.src <;> simp [Loader.resynchronise, Loader.discard, ha, hp, hs]

/-- The load object is not the control word of an event source. -/
theorem unheard_recorded {n : Nat} (hn : n < 640) (h : Unheard s n) (c k : Nat) : Unheard (withFailure c (recorded c k s)) n := by
  have other {i j v : Nat} {x : State} (hi : i = 0x2000) (hj : j < 256) :
      Ops.control (Ops.setReg i j v x) n = Ops.control x n := by
    subst hi
    exact reg_setReg_other (by omega) v x
  have same : Ops.control (withFailure c (recorded c k s)) n = Ops.control s n :=
    (other rfl (by decide)).trans ((other rfl (by decide)).trans (other rfl (by decide)))
  rwa [Unheard, same]

theorem silence_fails (h : s.loader.phase = .header ∨ s.loader.phase = .frames ∨ s.loader.phase = .resend) :
    Loader.silence s = Loader.fail 0x0C 0 s := by
  rcases h with h | h | h <;> simp only [Loader.silence, h]

theorem silence_idle (hh : s.loader.phase ≠ .header) (hf : s.loader.phase ≠ .frames) (hr : s.loader.phase ≠ .resend) :
    Loader.silence s = s := by
  cases hp : s.loader.phase <;> simp_all [Loader.silence]

end

/-! ### The writes of the load object (R309) -/

theorem chapterWrite_loader (t : Transport) (k : Nat) (d : List Byte) (s : State) :
    Dict.chapterWrite t 0x2000 k d s = Loader.writeSub 0x2000 k (Ops.le d) s := rfl

section
variable {s : State}

theorem writeSub_sources (h : s.loader.phase ≠ .idle) (v : Nat) : Loader.writeSub 0x2000 1 v s = some (.inl 5) := if_neg h

theorem writeSub_abort_value {v : Nat} (h : v ≠ 1) : Loader.writeSub 0x2000 8 v s = some (.inl 4) := if_pos h

theorem writeSub_abort_idle (hl : s.loader.load = none) (hp : s.loader.phase ≠ .header) :
    Loader.writeSub 0x2000 8 1 s = some (.inl 5) := by
  simp [Loader.writeSub, hl, hp]

theorem writeSub_abort (h : s.loader.phase = .header ∨ s.loader.load.isSome = true) :
    Loader.writeSub 0x2000 8 1 s = some (.inr (Loader.fail 0x0D 0 s)) := by
  rcases h with h | h
  · simp [Loader.writeSub, h]
  · simp [Loader.writeSub, Option.isSome_iff_ne_none.1 h]

end

/-- Settles O39: a header by the first of its checks that fails, a frame by the checks of R295 in their order, and a failure by the
load that it ends. -/
theorem loadFrames : Obligations.LoadFrames := by
  unfold Obligations.LoadFrames
  refine ⟨fun s h => ?headers, fun s l h hl => ?frames, fun s h hl => ?idle, fun s l a crc f plain cipher v => ?accepted,
    fun s h => ?silent, fun s c k => ?failures, fun s t v => ?writes⟩
  case headers =>
    intro f
    exact ⟨fun hp hf => ⟨fun hc => run_awake_of h (streamHeader_accepts (s := Ops.begin s) hp hf hc),
      fun c hc => run_awake_of h (streamHeader_rejects (s := Ops.begin s) hp hf hc)⟩,
      fun hw => run_awake_of h (streamHeader_waits (s := Ops.begin s) hw)⟩
  case frames =>
    intro u f a cipher plain v good bad makes elsewhere
    refine ⟨fun hf hp ha => ?discarded, fun hf hp => ?taken, fun hw => run_awake_of h (frame_waits (s := u) hl hw)⟩
    case discarded => exact run_awake_of h (frame_discards (s := u) hl hf hp ha)
    case taken =>
      have takes : Takes u l := ⟨hl, hf, hp⟩
      have makes_of {x : State} (e : Loader.frame u = x) : makes x := run_awake_of h e
      refine ⟨fun he => makes_of ((frame_checks takes).trans (if_pos he)),
        fun he hb => makes_of ((frame_checks takes).trans ((if_neg he).trans (if_pos hb))), fun he hb => ?legal⟩
      have legal := frame_legal takes he hb
      refine ⟨fun hg hp ht => ?again, fun hg hp ht => ?third, fun hg hp hi => ?invalid, fun hg => ?written⟩
      case again => exact makes_of (legal.trans ((if_pos ⟨hg, hp⟩).trans (if_neg ht)))
      case third => exact makes_of (legal.trans ((if_pos ⟨hg, hp⟩).trans (if_pos ht)))
      case invalid => exact makes_of (legal.trans ((if_neg (fun c => c.1 hg)).trans (if_pos ⟨hi, hp⟩)))
      case written =>
        intro l'
        refine makes_of (legal.trans ((if_neg ?_).trans (if_neg ?_)))
        · rintro ⟨wrong, each⟩
          rcases hg with ⟨right, -⟩ | atEnd
          · exact wrong right
          · exact absurd (each.symm.trans atEnd) (by decide)
        · rintro ⟨invalid, each⟩
          rcases hg with ⟨-, valid⟩ | atEnd
          · exact absurd (invalid.symm.trans valid) (by decide)
          · exact absurd (each.symm.trans atEnd) (by decide)
  case idle => exact run_awake_of h (frame_none (s := Ops.begin s) hl)
  case accepted =>
    intro x r
    obtain ⟨regs, fab⟩ := acceptFrame_stores l a crc f plain cipher v s
    refine ⟨?_, acceptFrame_last l a crc f plain cipher v s, fun ht hr hi => ?_⟩
    · rw [Ops.reg, regs]
      exact reg_setReg_same _ _ _ _
    · have stores : stored l a crc v s = Loader.writeFabric l.header.facetOnly a v (BitVec.ofNat 32 crc) s := by
        rw [stored, if_pos ht, if_neg hr]
      show Table.get _ (Loader.target l.header.facetOnly x) _ = v
      rw [Loader.target, fab, stores]
      exact get_writeFabric ht hi _
  case silent =>
    exact ⟨fun hp => run_awake_of h (silence_fails (s := Ops.begin s) hp),
      fun hh hf hr => run_awake_of h (silence_idle (s := Ops.begin s) hh hf hr)⟩
  case failures =>
    intro b due
    refine ⟨fun l hl hf => fail_partial hl hf c k, fun hu hp ha hq => ?_⟩
    rw [fail_whole hp, raise_quiet (.inl (unheard_recorded (by decide) hu c k))]
    exact resynchronise_dry ha hq
  case writes =>
    have byte : Ops.le (le 1 v.toNat) = v.toNat := le_bytes_word (n := 1) rfl v
    refine ⟨fun h hp => ?aborts, fun h hl hp => ?noLoad, fun h hp => ?busy, fun h hv => ?value⟩
    case aborts => exact operands_taken (by decide) h (by decide) (by decide) (writeSub_abort (s := counted s) hp)
    case noLoad => exact operands_refused (by decide) h (by decide) (by decide) (writeSub_abort_idle (s := counted s) hl hp)
    case busy => exact runTime_refused h (by decide) (by decide) (writeSub_sources (s := counted s) hp _)
    case value =>
      refine runTime_refused h (by decide) (by decide) (writeSub_abort_value (s := counted s) ?_)
      rw [byte]
      exact fun e => hv (BitVec.eq_of_toNat_eq e)

end Sys2Proof.Laws
end

section
/-!
SUPPORT. The end checks of a load, what a load that passes them leaves of the facets, and attestation (R286, R296, R298, R301, R310,
R312).
-/

namespace Sys2Proof.Laws

open Sys2Proof Sys2Proof.Machine Sys2Proof.Safety

/-! ### The end checks (R296) -/

section
variable {s : State} {l : Load}

theorem endChecksComplete_idle (h : s.loader.load = none ∨ s.loader.phase ≠ .endChecks) : Loader.endChecksComplete s = s := by
  cases hl : s.loader.load with
  | none => simp only [Loader.endChecksComplete, hl]
  | some l =>
    simp only [Loader.endChecksComplete, hl]
    exact if_pos (h.resolve_left (by simp [hl]))

section
variable (hl : s.loader.load = some l) (hp : s.loader.phase = .endChecks)
include hl hp

theorem endChecksComplete_fails {e : Nat × Nat} (he : Loader.endChecks l s = some e) :
    Loader.endChecksComplete s = Loader.fail e.1 e.2 s := by
  simp [Loader.endChecksComplete, hl, hp, he]

theorem endChecksComplete_passes (he : Loader.endChecks l s = none) : Loader.endChecksComplete s =
    if l.header.facetOnly then Loader.finish (Loader.finishPartial l (BitVec.ofNat 256 (Ops.le (Loader.streamHash l))) s)
    else Loader.passFull l s := by
  simp [Loader.endChecksComplete, hl, hp, he]

end

/-- A check that comes first passes, and so do the others. -/
theorem first_check_none {α : Type} {c : Prop} [Decidable c] {a : α} {rest : Option α} :
    (if c then some a else rest) = none ↔ ¬ c ∧ rest = none := by
  by_cases h : c <;> simp [h]

theorem endChecks_none : Loader.endChecks l s = none ↔
    (l.header.perFrame = false → l.firstCrc = none ∧ (Crypto.crcFinal l.crc).toNat = l.header.endCrc ∧ l.firstInvalid = none) ∧
    (l.header.enc ≠ 0 → Crypto.gcmTag (Loader.keyOf s l.header.enc) l.header.iv l.ghash 36 (512 * l.header.frames) =
      l.header.tag) ∧
    Crypto.pssVerifyHash ((Loader.stagedKey s l.header.signer).take 384) (Loader.streamHash l) l.header.signature = true := by
  simp only [Loader.endChecks, first_check_none]
  cases l.header.perFrame <;> simp [and_assoc]

end

/-! ### The facets after a load (R298, R301, R310) -/

theorem facet_congr {s t : State} (hf : t.facets = s.facets) (hb : t.facetBase = s.facetBase) (r : Nat) :
    Loader.facet t r = Loader.facet s r := by
  rw [Loader.facet, Loader.facet, hf, hb]

theorem facet_setFacet (r : Nat) (x : Facet) (s : State) : Loader.facet (Loader.setFacet r x s) r = x :=
  Table.get_put_same _ _ _

/-- A collar that opens, or gains another cause, leaves the facets alone. -/
theorem facets_removeCause (r c : Nat) (opens : Bool) (s : State) :
    (Fabric.removeCause r c opens s).facets = s.facets ∧ (Fabric.removeCause r c opens s).facetBase = s.facetBase := by
  unfold Fabric.removeCause Fabric.openCollar Fabric.restartWindow
  dsimp only
  split
  · exact ⟨rfl, rfl⟩
  · split
    · split <;> simp
    · simp

/-- A partial load that passes leaves its facet loaded. -/
theorem facet_finishPartial (l : Load) (hash : BitVec 256) (s : State) :
    Loader.facet (Loader.finishPartial l hash s) l.header.facet =
      { state := .loaded, hash := hash, version := l.header.version } := by
  unfold Loader.finishPartial
  dsimp only
  generalize Loader.regionReset _ _ = x
  refine (facet_congr ?_ ?_ _).trans (facet_setFacet l.header.facet _ x)
  · simp [facets_removeCause]
  · simp [facets_removeCause]

/-- The end of a load changes the loader alone. -/
theorem finish_eq (s : State) : Loader.finish s = { s with loader := (Loader.finish s).loader } := by
  unfold Loader.finish
  dsimp only
  split_ifs
  · rfl
  · exact refill_eq _

/-- Beside what the load counts, one that passes makes the release due and changes the facets. -/
theorem passFull_frame (l : Load) (s : State) : (Loader.passFull l s).modes.loadDue = some 0x13 ∧
    (Loader.passFull l s).facets = s.facets.filter (fun e => e.2.state == .retired) ∧
    (Loader.passFull l s).facetBase = if s.facetBase.state = .retired then s.facetBase else
      { state := .loaded, hash := BitVec.ofNat 256 (Ops.le (Loader.streamHash l)), version := l.header.version } := by
  unfold Loader.passFull
  dsimp only
  rw [finish_eq]
  simp [Loader.startPass, Loader.everyFacet]

/-- A table without an entry at a key reads its default there. -/
theorem get_of_not_mem {α : Type} {d : Nat → α} {t : Table α} {k : Nat} (h : ∀ e ∈ t, e.1 ≠ k) : Table.get d t k = d k := by
  induction t with
  | nil => rfl
  | cons e t ih =>
    obtain ⟨j, v⟩ := e
    rw [Table.get, if_neg (h (j, v) List.mem_cons_self)]
    exact ih fun e he => h e (List.mem_cons_of_mem _ he)

/-- A full load that passes leaves every facet loaded that is not retired. -/
theorem facet_passFull (l : Load) {s : State} {r : Nat} (hr : ∀ e ∈ s.facets, e.1 = r → e.2.state ≠ .retired)
    (hb : s.facetBase.state ≠ .retired) : Loader.facet (Loader.passFull l s) r =
      { state := .loaded, hash := BitVec.ofNat 256 (Ops.le (Loader.streamHash l)), version := l.header.version } := by
  obtain ⟨-, facets, base⟩ := passFull_frame l s
  have gone : ∀ e ∈ s.facets.filter (fun e => e.2.state == .retired), e.1 ≠ r := by
    intro e he hk
    obtain ⟨mem, retired⟩ := List.mem_filter.1 he
    exact hr e mem hk (by simpa using retired)
  rw [Loader.facet, facets, base, if_neg hb]
  exact get_of_not_mem gone

/-! ### Attestation (R312) -/

section
variable {s : State} {d : List Byte}

theorem attest_length (h : d.length ≠ 32) : Security.attest d s = .inl 4 := if_pos h

theorem attest_busy (hd : d.length = 32) (h : s.sec.reportStatus = 1 ∨ s.loader.load.isSome = true) :
    Security.attest d s = .inl 5 :=
  (if_neg (not_not.2 hd)).trans (if_pos (by simpa [Loader.loading] using h))

theorem attest_samples (hd : d.length = 32) (hr : s.sec.reportStatus ≠ 1) (hl : s.loader.load = none) :
    Security.attest d s = .inr { s with sec := { s.sec with reportStatus := 1, report := Security.reportBody d s } } :=
  (if_neg (not_not.2 hd)).trans (if_neg (by simp [Loader.loading, hr, hl]))

theorem attestationReady_idle (h : s.sec.reportStatus ≠ 1) : Security.attestationReady s = s := if_pos h

theorem attestationReady_signs (h : s.sec.reportStatus = 1) : Security.attestationReady s = Ops.raise 363 { s with sec :=
    { s.sec with
      reportStatus := 2
      report := s.sec.report ++ le 384 (Config.attestationSignature s.sec.report).toNat } } := if_neg (not_not.2 h)

end

/-- Settles O40: the end checks by the first that fails, a load that passes by its kind, and a report by its status. -/
theorem loadEnds : Obligations.LoadEnds := by
  unfold Obligations.LoadEnds
  refine ⟨fun s l h => ?ends, fun s t d => ?attestation⟩
  case ends =>
    intro u hash loaded
    refine ⟨fun hl hp => ⟨fun e he => run_awake_of h (endChecksComplete_fails (s := u) hl hp he), fun he hf => ?facet,
      fun he hf => ?whole⟩, fun hi => run_awake_of h (endChecksComplete_idle (s := u) hi), endChecks_none,
      facet_finishPartial l hash u, (passFull_frame l u).1, fun r hr hb => facet_passFull l (s := u) hr hb⟩
    case facet => exact run_awake_of h ((endChecksComplete_passes (s := u) hl hp he).trans (if_pos hf))
    case whole => exact run_awake_of h ((endChecksComplete_passes (s := u) hl hp he).trans (if_neg (by simp [hf])))
  case attestation =>
    intro fails
    refine ⟨fun h => ⟨fun hd => ?length, fun hd hb => ?busy, fun hd hr hl => ?samples⟩,
      fun h => ⟨fun hr => run_awake_of h (attestationReady_signs (s := Ops.begin s) hr),
        fun hr => run_awake_of h (attestationReady_idle (s := Ops.begin s) hr)⟩⟩
    case length => exact run_refused h (by decide) (by decide) (congrArg some (attest_length (s := counted s) hd))
    case busy => exact run_refused h (by decide) (by decide) (congrArg some (attest_busy (s := counted s) hd hb))
    case samples => exact run_write h (by decide) (by decide) (congrArg some (attest_samples (s := counted s) hd hr hl))

end Sys2Proof.Laws
end

section
/-!
SUPPORT. The scrubbers: the parities of a frame find a single flipped bit, and what a frame read back comes to (R305 to R307).
-/

namespace Sys2Proof.Laws

open Sys2Proof Sys2Proof.Machine Sys2Proof.Safety

/-! ### The parities of a payload (R305) -/

/-- Bit `j` of the exclusive or of words. -/
theorem getLsbD_foldl_xor {w : Nat} (f : Nat → BitVec w) (l : List Nat) (a : BitVec w) (j : Nat) :
    (l.foldl (fun a i => a ^^^ f i) a).getLsbD j = l.foldl (fun b i => b ^^ (f i).getLsbD j) (a.getLsbD j) := by
  induction l generalizing a with
  | nil => rfl
  | cons i l ih => rw [List.foldl_cons, List.foldl_cons, ih, BitVec.getLsbD_xor]

/-- Bit `j` of a word in which the bits that `p` selects are set. -/
theorem getLsbD_foldl_set {w : Nat} (p : Nat → Bool) (l : List Nat) (a : BitVec w) (j : Nat) :
    (l.foldl (fun a i => if p i then a ||| BitVec.twoPow w i else a) a).getLsbD j =
      (a.getLsbD j || (decide (j < w) && decide (j ∈ l) && p j)) := by
  induction l generalizing a with
  | nil => simp
  | cons i l ih =>
    rw [List.foldl_cons, ih]
    by_cases hj : j = i
    · subst hj
      by_cases hw : j < w <;> cases p j <;> simp [hw]
    · cases hp : p i <;> simp [hj, Ne.symm hj, BitVec.getLsbD_twoPow]

/-- The parity of row `i` of a payload. -/
def rowParity (v : BitVec 4096) (i : Nat) : Bool := Flags.parity (v.extractLsb' (64 * i) 64)

/-- The parity of column `i`. -/
def columnParity (v : BitVec 4096) (i : Nat) : Bool := (List.range 64).foldl (fun a k => a ^^ v.getLsbD (64 * k + i)) false

section
variable (v w : BitVec 4096) {i : Nat} (h : i < 64)

theorem getLsbD_word (k : Nat) : (v.extractLsb' (64 * k) 64).getLsbD i = (decide (i < 64) && v.getLsbD (64 * k + i)) :=
  BitVec.getLsbD_extractLsb' ..

include h

theorem getLsbD_parityOf_row : (Loader.parityOf v).getLsbD i = rowParity v i := by
  have inside : i < 128 := by omega
  rw [Loader.parityOf, BitVec.getLsbD_or, BitVec.getLsbD_shiftLeft,
    getLsbD_foldl_set fun i => Flags.parity (v.extractLsb' (64 * i) 64)]
  simp [h, inside, rowParity]

theorem getLsbD_parityOf_column : (Loader.parityOf v).getLsbD (64 + i) = columnParity v i := by
  have inside : 64 + i < 128 := by omega
  rw [Loader.parityOf, BitVec.getLsbD_or, BitVec.getLsbD_shiftLeft,
    getLsbD_foldl_set fun i => Flags.parity (v.extractLsb' (64 * i) 64), Nat.add_sub_cancel_left, BitVec.getLsbD_setWidth, getLsbD_foldl_xor]
  simp only [getLsbD_word, h]
  simp [inside, columnParity]
  omega

omit h

theorem rowParity_xor : rowParity (v ^^^ w) i = (rowParity v i ^^ rowParity w i) := by
  have words := BitVec.extractLsb'_xor (x := v) (y := w) (start := 64 * i) (len := 64)
  rw [rowParity, words, parity_xor]
  rfl

theorem columnParity_xor : columnParity (v ^^^ w) i = (columnParity v i ^^ columnParity w i) := by
  simp only [columnParity, BitVec.getLsbD_xor]
  exact foldl_xor_xor _ _ _

end

theorem parityOf_xor (v w : BitVec 4096) : Loader.parityOf (v ^^^ w) = Loader.parityOf v ^^^ Loader.parityOf w := by
  apply BitVec.eq_of_getLsbD_eq
  intro j hj
  rw [BitVec.getLsbD_xor]
  by_cases row : j < 64
  · rw [getLsbD_parityOf_row _ row, getLsbD_parityOf_row _ row, getLsbD_parityOf_row _ row, rowParity_xor]
  · obtain ⟨i, rfl⟩ : ∃ i, j = 64 + i := ⟨j - 64, by omega⟩
    have column : i < 64 := by omega
    rw [getLsbD_parityOf_column _ column, getLsbD_parityOf_column _ column, getLsbD_parityOf_column _ column, columnParity_xor]

/-! #### A single bit -/

theorem foldl_xor_decide (n k : Nat) : (List.range n).foldl (fun a i => a ^^ decide (i = k)) false = decide (k < n) := by
  induction n with
  | zero => rfl
  | succ n ih =>
    rw [List.range_succ, List.foldl_append, ih]
    show (decide (k < n) ^^ decide (n = k)) = decide (k < n + 1)
    by_cases h : n = k
    · simp [h]
    · simp [h, show k < n + 1 ↔ k < n by omega]

/-- At most one of the bits is set, and it is if `c` holds. -/
theorem foldl_xor_single {n k : Nat} {p : Nat → Bool} {c : Bool} (hk : k < n)
    (hp : ∀ i, i < n → p i = (c && decide (i = k))) : (List.range n).foldl (fun a i => a ^^ p i) false = c := by
  have bits : (List.range n).foldl (fun a i => a ^^ p i) false =
      (List.range n).foldl (fun a i => a ^^ (c && decide (i = k))) false :=
    List.foldl_ext _ _ _ fun a i hi => by rw [hp i (List.mem_range.1 hi)]
  rw [bits]
  cases c with
  | false => simp
  | true => simp [foldl_xor_decide, hk]

theorem rowParity_twoPow {b : Nat} (hb : b < 4096) (i : Nat) : rowParity (BitVec.twoPow 4096 b) i = decide (i = b / 64) := by
  refine foldl_xor_single (k := b % 64) (by omega) fun j hj => ?_
  rw [getLsbD_word, BitVec.getLsbD_twoPow, Bool.eq_iff_iff]
  simp [hj, hb]
  omega

theorem columnParity_twoPow {b : Nat} (hb : b < 4096) {i : Nat} (hi : i < 64) :
    columnParity (BitVec.twoPow 4096 b) i = decide (i = b % 64) := by
  refine foldl_xor_single (k := b / 64) (by omega) fun j hj => ?_
  rw [BitVec.getLsbD_twoPow, Bool.eq_iff_iff]
  simp [hb]
  omega

/-- The one number below `n` that a test selects. -/
theorem filter_range_single {n k : Nat} {p : Nat → Bool} (hk : k < n) (hp : ∀ i, i < n → p i = decide (i = k)) :
    (List.range n).filter p = [k] := by
  have same : (List.range n).filter p = (List.range n).filter (· == k) :=
    List.filter_congr fun i hi => by rw [hp i (List.mem_range.1 hi)]; rfl
  rw [same, List.filter_beq, List.count_eq_one_of_mem List.nodup_range (List.mem_range.2 hk)]
  rfl

/-- A single flipped bit lies at the crossing of the row and the column whose parities it changes. -/
theorem crossing_twoPow {b : Nat} (hb : b < 4096) : Loader.crossing (Loader.parityOf (BitVec.twoPow 4096 b)) = some b := by
  have row : b / 64 < 64 := by omega
  have column : b % 64 < 64 := by omega
  have rows := filter_range_single (p := fun i => (Loader.parityOf (BitVec.twoPow 4096 b)).getLsbD i) row fun i hi =>
    (getLsbD_parityOf_row _ hi).trans (rowParity_twoPow hb i)
  have columns := filter_range_single (p := fun i => (Loader.parityOf (BitVec.twoPow 4096 b)).getLsbD (64 + i)) column
    fun i hi => (getLsbD_parityOf_column _ hi).trans (columnParity_twoPow hb hi)
  simp only [Loader.crossing, rows, columns, Nat.div_add_mod]

/-- The parities of a payload with one bit flipped differ from its own as those of that bit do. -/
theorem parityOf_flip (v : BitVec 4096) (b : Nat) :
    Loader.parityOf (v ^^^ BitVec.twoPow 4096 b) ^^^ Loader.parityOf v = Loader.parityOf (BitVec.twoPow 4096 b) := by
  rw [parityOf_xor, BitVec.xor_comm, ← BitVec.xor_assoc, BitVec.xor_self, BitVec.zero_xor]

/-! ### A frame read back (R306, R307) -/

/-- The state with frame `f` as the scrubber reads it. -/
def putFrame (f : Nat) (x : BitVec 4096) (s : State) : State :=
  { s with fab := { s.fab with frames := Table.put (fun _ => 0) s.fab.frames f x } }

def readFrame (f : Nat) (x : BitVec 4096) (s : State) : State := Loader.readBack f (putFrame f x s)

/-- A frame's payload in the configuration memory. -/
def framePayload (s : State) (f : Nat) : BitVec 4096 := Table.get (fun _ => 0) s.fab.frames f

/-- Where the parities of a payload differ from those kept. -/
def parityDiff (s : State) (f : Nat) (x : BitVec 4096) : BitVec 128 :=
  Loader.parityOf x ^^^ Table.get (fun _ => 0) s.scrub.parity f

/-- The CRC of frame `f` with a payload. -/
def crcOf (f : Nat) (x : BitVec 4096) : BitVec 32 := Loader.frameCrc (Loader.addressOf f) x

/-- Frame `f` put right, and what that counts. -/
def repaired (f : Nat) (x : BitVec 4096) (y : State) : State :=
  Ops.raise 357 (Ops.bump 0x2001 2 (Ops.bump (0x2800 + f / 768) 6 (Fabric.rewritten (f / 768) (f / 24 % 32) (putFrame f x y))))

/-- What the scrubber makes of a payload `x` of frame `f` that it has read (R307). -/
def checkRead (f : Nat) (x : BitVec 4096) (sound : Bool) (y : State) : State :=
  match sound, Loader.golden y f with
  | true, some gold =>
    if parityDiff y f x = 0 ∧ crcOf f x = gold then y
    else
      match Loader.crossing (parityDiff y f x) with
      | some b =>
        if crcOf f (x ^^^ BitVec.twoPow 4096 b) = gold then repaired f (x ^^^ BitVec.twoPow 4096 b) y else Loader.upset f y
      | none => Loader.upset f y
  | _, _ => Loader.upset f (Ops.raise 361 (Ops.bump 0x2001 4 y))

section
variable {y : State} {f : Nat} {x : BitVec 4096}

theorem checkRead_passes (hg : Loader.golden y f = some (crcOf f x)) (hd : parityDiff y f x = 0) :
    checkRead f x true y = y := by
  simp [checkRead, hg, hd]

theorem checkRead_repairs {b : Nat} (hg : Loader.golden y f = some (crcOf f (x ^^^ BitVec.twoPow 4096 b)))
    (hd : Loader.crossing (parityDiff y f x) = some b) :
    checkRead f x true y = repaired f (x ^^^ BitVec.twoPow 4096 b) y := by
  have differs : parityDiff y f x ≠ 0 := fun h => by
    have none_wrong : Loader.crossing 0 = none := by decide
    rw [h, none_wrong] at hd
    exact absurd hd nofun
  simp only [checkRead, hg, hd, if_neg (not_and.2 fun p _ => differs p), if_true]

theorem checkRead_upset (hg : (Loader.golden y f).isSome = true)
    (hd : ¬ (parityDiff y f x = 0 ∧ Loader.golden y f = some (crcOf f x)))
    (hb : ∀ b, Loader.crossing (parityDiff y f x) = some b → Loader.golden y f ≠ some (crcOf f (x ^^^ BitVec.twoPow 4096 b))) :
    checkRead f x true y = Loader.upset f y := by
  obtain ⟨gold, golden⟩ := Option.isSome_iff_exists.1 hg
  rw [golden] at hd hb
  have differs : ¬ (parityDiff y f x = 0 ∧ crcOf f x = gold) := fun ⟨p, c⟩ => hd ⟨p, congrArg some c.symm⟩
  simp only [checkRead, golden, if_neg differs]
  cases hc : Loader.crossing (parityDiff y f x) with
  | none => rfl
  | some b => exact if_neg fun c => hb b hc (congrArg some c.symm)

theorem checkRead_blind {sound : Bool} (h : sound = false ∨ Loader.golden y f = none) :
    checkRead f x sound y = Loader.upset f (Ops.raise 361 (Ops.bump 0x2001 4 y)) := by
  rcases h with rfl | h
  · rfl
  · cases sound <;> simp only [checkRead, h]

end

/-- What a read must leave for the checks after it: the facets, the mirror and the parities. -/
abbrev KeepsGolden (s t : State) : Prop :=
  t.facets = s.facets ∧ t.facetBase = s.facetBase ∧ t.scrub.mirror = s.scrub.mirror ∧ t.scrub.parity = s.scrub.parity

theorem keepsGolden_startPass {s t : State} (h : KeepsGolden s t) : KeepsGolden s (Loader.startPass t) := h

theorem keepsGolden_endPass {s t : State} (h : KeepsGolden s t) : KeepsGolden s (Loader.endPass t) := by
  refine keepsGolden_startPass ?_
  split
  · split
    · simpa [KeepsGolden, Ops.broken, Ops.brokenBy] using h
    · simpa [KeepsGolden] using h
  · simpa [KeepsGolden] using h

theorem keepsGolden_readFrame (f : Nat) (x : BitVec 4096) (s : State) : KeepsGolden s (readFrame f x s) := by
  unfold readFrame Loader.readBack
  dsimp only
  split
  · exact keepsGolden_endPass ⟨rfl, rfl, rfl, rfl⟩
  · exact ⟨rfl, rfl, rfl, rfl⟩

theorem golden_congr {s t : State} (h : KeepsGolden s t) (f : Nat) : Loader.golden t f = Loader.golden s f := by
  obtain ⟨facets, base, mirror, -⟩ := h
  simp only [Loader.golden, Loader.facet, facets, base, mirror]

theorem parityDiff_congr {s t : State} (h : KeepsGolden s t) (f : Nat) (x : BitVec 4096) :
    parityDiff t f x = parityDiff s f x := by
  obtain ⟨-, -, -, parity⟩ := h
  rw [parityDiff, parityDiff, parity]

/-- The scrubbers read back the frames of the facet (R306). -/
structure Scrubs (s : State) (f : Nat) : Prop where
  m5 : s.modes.cur = .m5
  stays : Fabric.draining s = false
  facet : (Loader.facet s (f / 768)).state = .loaded ∨ (Loader.facet s (f / 768)).state = .retired

section
variable {s : State} {f : Nat} {flips x : BitVec 4096}

theorem scrubFrame_idle (h : ¬ Scrubs s f) (sound : Bool) : Loader.scrubFrame f flips sound s = s := by
  refine if_pos ?_
  by_contra c
  simp only [Bool.or_eq_true, Bool.not_eq_true', not_or, Bool.not_eq_false, Bool.not_eq_true, modeIn_cons, modeIn_nil,
    Bool.or_false, beq_iff_eq, Loader.scrubs] at c
  obtain ⟨⟨m5, stays⟩, facet⟩ := c
  exact h ⟨m5, stays, facet⟩

theorem scrubFrame_reads (h : Scrubs s f) (hx : framePayload s f ^^^ flips = x) (sound : Bool) :
    Loader.scrubFrame f flips sound s = checkRead f x sound (readFrame f x s) := by
  have reads : ¬ (!Ops.modeIn s [.m5] || Fabric.draining s || !Loader.scrubs s (f / 768)) = true := by
    simp only [modeIn_cons, modeIn_nil, Loader.scrubs, h.m5, h.stays]
    rcases h.facet with hf | hf <;> simp [hf]
  subst hx
  unfold Loader.scrubFrame
  extract_lets v put y
  rw [if_neg reads]
  have read : readFrame f (framePayload s f ^^^ flips) s = y := rfl
  rw [read]
  clear_value y
  rfl

end

/-- Settles O41: a frame that the scrubbers read goes by its mirror entry, then by its parities and its CRC; those of a single
flipped bit cross at it. -/
theorem scrubRepairs : Obligations.ScrubRepairs := by
  unfold Obligations.ScrubRepairs
  intro s f flips sound h u v r put read crc d scrubs
  refine ⟨fun hm hd hf => ?reads, fun hi => ?idle⟩
  case reads =>
    have scrubbed : Scrubs u f := ⟨hm, hd, hf⟩
    have written (y : State) : put v y = putFrame f v y := rfl
    have reads (x : BitVec 4096) : read x = readFrame f x u := rfl
    have golden (x : BitVec 4096) : Loader.golden (readFrame f x u) f = Loader.golden s f :=
      golden_congr (keepsGolden_readFrame f x u) f
    have diff (x : BitVec 4096) : parityDiff (readFrame f x u) f x = d x := parityDiff_congr (keepsGolden_readFrame f x u) f x
    have scrubs_of {w x : BitVec 4096} {b : Bool} {t : State} (hx : v ^^^ w = x) (e : checkRead f x b (readFrame f x u) = t) :
        scrubs w b t := run_awake_of h ((scrubFrame_reads scrubbed hx b).trans e)
    refine ⟨fun hg hp => ⟨?passes, fun b => ?repairs⟩, fun x hx hg hd hb => ?upset, fun hb => ?blind⟩
    case passes =>
      refine scrubs_of (w := 0) (x := v) BitVec.xor_zero (checkRead_passes ((golden v).trans hg) ((diff v).trans ?_))
      show Loader.parityOf v ^^^ _ = 0
      rw [hp]
      exact BitVec.xor_self
    case repairs =>
      have back : v ^^^ BitVec.twoPow 4096 b ^^^ BitVec.twoPow 4096 b = v := by
        rw [BitVec.xor_assoc, BitVec.xor_self, BitVec.xor_zero]
      have crosses : Loader.crossing (d (v ^^^ BitVec.twoPow 4096 b)) = some b.val := by
        show Loader.crossing (_ ^^^ Table.get _ _ _) = _
        rw [hp, parityOf_flip, crossing_twoPow b.isLt]
      have repairs := checkRead_repairs (y := readFrame f (v ^^^ BitVec.twoPow 4096 b) u)
        ((golden _).trans (by rw [back]; exact hg)) ((congrArg _ (diff _)).trans crosses)
      rw [back] at repairs
      rw [reads, written]
      exact scrubs_of rfl repairs
    case upset =>
      refine scrubs_of hx.symm (checkRead_upset ?_ ?_ ?_) <;> rw [golden]
      · exact hg
      · rw [diff]
        exact hd
      · rw [diff]
        exact hb
    case blind => exact scrubs_of rfl (checkRead_blind (hb.imp_right (golden _).trans))
  case idle =>
    refine run_awake_of h (scrubFrame_idle (s := u) (fun c => ?_) sound)
    obtain ⟨m5, stays, facet⟩ := c
    rcases hi with hi | hi | ⟨hl, hr⟩
    · exact hi m5
    · exact absurd (hi.symm.trans stays) (by decide)
    · exact facet.elim hl hr

end Sys2Proof.Laws
end

section
/-!
SUPPORT. The bridges: what a store of one leaves, and what each of their operations does in each of its cases (R317 to R324, R496).
-/

namespace Sys2Proof.Laws

open Sys2Proof Sys2Proof.Machine Sys2Proof.Safety

/-! ### A bridge that is stored -/

section
variable {s : State} {b : BridgeId} {x : Bridge}

/-- A stored bridge is the one found, also where it is as a bridge that nothing has passed. -/
@[simp] theorem find_store : Bridges.find (Bridges.store b x s) b = x := by
  have fresh_kept : Bridges.fresh (Bridges.store b x s) b = Bridges.fresh s b := rfl
  rw [Bridges.find, fresh_kept]
  by_cases hf : x = Bridges.fresh s b
  · have absent : (s.bridges.filter fun e => e.1 != b).find? (fun e => e.1 == b) = none := by simp
    simp only [Bridges.store, if_pos hf, absent]
    exact hf.symm
  · simp [Bridges.store, hf]

theorem reg_store (i k : Nat) : Ops.reg (Bridges.store b x s) i k = Ops.reg s i k := rfl

end

/-! ### The counts of object 0x1201 say nothing of the domains -/

section
variable {k : Nat} (hk : k < 256) (v : Nat) (s : State)
include hk

theorem inEthernet_count (n : Nat) : Bridges.inEthernet (Ops.setReg 0x1201 k v s) n = Bridges.inEthernet s n := by
  have port : Ops.reg (Ops.setReg 0x1201 k v s) (0x7300 + n / 8) 1 = Ops.reg s (0x7300 + n / 8) 1 :=
    reg_setReg_other (by omega) v s
  simp only [Bridges.inEthernet, port]

theorem heldHere_count (d : Nat) : Bridges.heldHere (Ops.setReg 0x1201 k v s) d = Bridges.heldHere s d := by
  have can : Ops.reg (Ops.setReg 0x1201 k v s) (0x1101 + (d - 100)) 1 = Ops.reg s (0x1101 + (d - 100)) 1 ∨
      ¬ (d = 100 ∨ d = 101) := by
    by_cases hd : d = 100 ∨ d = 101
    · exact .inl (reg_setReg_other (by omega) v s)
    · exact .inr hd
  have loader : Ops.reg (Ops.setReg 0x1201 k v s) 0x2000 1 = Ops.reg s 0x2000 1 := reg_setReg_other (by omega) v s
  have domain : Bridges.domain (Ops.setReg 0x1201 k v s) d = Bridges.domain s d := rfl
  have lane (n : Nat) : Bridges.lane (Ops.setReg 0x1201 k v s) n = Bridges.lane s n := rfl
  simp only [Bridges.heldHere, inEthernet_count hk, loader, domain, lane]
  rcases can with same | other
  · rw [same]
    rfl
  · simp only [if_neg other]
    rfl

theorem sideInReset_count (side : Option (Fin 108)) :
    Bridges.sideInReset (Ops.setReg 0x1201 k v s) side = Bridges.sideInReset s side := by
  simp only [Bridges.sideInReset, Bridges.inReset, heldHere_count hk]

theorem find_count (b : BridgeId) : Bridges.find (Ops.setReg 0x1201 k v s) b = Bridges.find s b := by
  have fresh_kept : Bridges.fresh (Ops.setReg 0x1201 k v s) b = Bridges.fresh s b := by
    simp only [Bridges.fresh, sideInReset_count hk]
  rw [Bridges.find, fresh_kept]
  rfl

end

/-! ### The operations of a bridge, by what is found of it -/

section
variable {s : State} {b : BridgeId} {x : Bridge} (hx : Bridges.find s b = x)
include hx

/-! #### A capture (R318, R321, R322, R326) -/

section
variable {v : W64} (kind : b.kind = .status)
include kind

theorem capture_status : Bridges.capture b v.toNat s = Bridges.store b (if !Bridges.ready x || x.h.isSome then
    { x with present := some v, n := some v } else { x with present := some v, h := some v, delivered := false }) s := by
  simp only [Bridges.capture, hx, kind, BitVec.ofNat_toNat, BitVec.setWidth_eq]
  rfl

theorem capture_status_sends (hr : Bridges.ready x = true) (hh : x.h = none) :
    Bridges.capture b v.toNat s = Bridges.store b { x with present := some v, h := some v, delivered := false } s := by
  rw [capture_status hx kind, if_neg (by simp [hr, hh])]

theorem capture_status_waits (hw : Bridges.ready x = false ∨ x.h ≠ none) :
    Bridges.capture b v.toNat s = Bridges.store b { x with present := some v, n := some v } s := by
  rw [capture_status hx kind, if_pos]
  rcases hw with hr | hh
  · simp [hr]
  · simp [Option.isSome_iff_ne_none.2 hh]

end

section
variable {v : Nat} (kind : b.kind = .data)
include kind

theorem capture_data_crosses (hh : x.held = none) (hr : Bridges.ready x = true) (room : x.line.length < 2 * Bridges.slices b) :
    Bridges.capture b v s = Bridges.store b { x with line := x.line ++ [v] } s := by
  simp [Bridges.capture, hx, kind, hh, hr, Bridges.accept, room]

theorem capture_data_holds (hh : x.held = none) (hw : Bridges.ready x = false ∨ 2 * Bridges.slices b ≤ x.line.length) :
    Bridges.capture b v s = Bridges.store b { x with held := some v } s := by
  cases hr : Bridges.ready x with
  | false => simp [Bridges.capture, hx, kind, hh, hr]
  | true =>
    have full : ¬ x.line.length < 2 * Bridges.slices b := Nat.not_lt.2 (hw.resolve_left (by simp [hr]))
    simp [Bridges.capture, hx, kind, hh, hr, Bridges.accept, full]

theorem capture_data_refused (hh : x.held ≠ none) : Bridges.capture b v s = s := by
  simp [Bridges.capture, hx, kind, Option.isSome_iff_ne_none.2 hh]

end

omit hx in
theorem capture_pulse {v : Nat} (kind : b.kind = .pulse) : Bridges.capture b v s = s := by
  simp only [Bridges.capture, kind]

/-! #### A delivery (R318, R322, R324) -/

theorem deliver_unready (hr : Bridges.ready x = false) : Bridges.deliver b s = s := by
  simp [Bridges.deliver, hx, hr]

section
variable (kind : b.kind = .data)
include kind

theorem deliver_data_idle (hi : x.taken = Bridges.slices b ∨ x.line.length ≤ x.taken) : Bridges.deliver b s = s := by
  cases hr : Bridges.ready x with
  | false => exact deliver_unready hx hr
  | true =>
    rcases hi with full | empty
    · simp [Bridges.deliver, hx, kind, hr, full]
    · simp [Bridges.deliver, hx, kind, hr, List.getElem?_eq_none empty]

theorem deliver_data_takes {w : Nat} (hr : Bridges.ready x = true) (ht : x.taken < Bridges.slices b)
    (hw : x.line[x.taken]? = some w) :
    Bridges.deliver b s = Bridges.store b { x with taken := x.taken + 1, dst := some w } s := by
  simp [Bridges.deliver, hx, kind, hr, ht, hw]

end

theorem deliver_word_idle (kind : b.kind ≠ .data) (hi : x.h = none ∨ x.delivered = true) : Bridges.deliver b s = s := by
  cases hr : Bridges.ready x with
  | false => exact deliver_unready hx hr
  | true =>
    cases hk : b.kind with
    | data => exact absurd hk kind
    | status | pulse =>
      cases hh : x.h with
      | none => simp [Bridges.deliver, hx, hk, hr, hh]
      | some v => simp [Bridges.deliver, hx, hk, hr, hh, hi.resolve_left (by simp [hh])]

/-- What a pulse bridge's delivery of H makes: its count, and the event of an overflow (R324). -/
def pulseTaken (b : BridgeId) (x : Bridge) (v : W64) (s : State) : State :=
  let y := Bridges.store b { x with delivered := true, dst := some v.toNat, events := x.events + v.toNat % 16 } s
  if v.getLsbD 4 then Ops.setReg 0x1201 2 (Bridges.sourceNo b) (Ops.bump 0x1201 1 y) else y

section
variable {v : W64} (hr : Bridges.ready x = true) (hh : x.h = some v) (hd : x.delivered = false)
include hr hh hd

theorem deliver_status (kind : b.kind = .status) :
    Bridges.deliver b s = Bridges.store b { x with delivered := true, dst := some v.toNat } s := by
  simp [Bridges.deliver, hx, kind, hr, hh, hd]

theorem deliver_pulse (kind : b.kind = .pulse) : Bridges.deliver b s = pulseTaken b x v s := by
  simp [Bridges.deliver, hx, kind, hr, hh, hd, pulseTaken]

end

omit hx in
theorem find_pulseTaken (v : W64) : Bridges.find (pulseTaken b x v s) b =
    { x with delivered := true, dst := some v.toNat, events := x.events + v.toNat % 16 } := by
  unfold pulseTaken
  extract_lets y
  split
  · rw [find_count (by decide), Ops.bump, Ops.add, find_count (by decide)]
    exact find_store
  · exact find_store

/-! #### The end of a transfer (R318, R321 to R323) -/

section
variable (kind : b.kind = .data)
include kind

theorem free_data_idle (ht : x.taken = 0) : Bridges.free b s = s := by
  simp [Bridges.free, hx, kind, ht]

variable (ht : x.taken ≠ 0)
include ht

theorem free_data (hh : x.held = none) :
    Bridges.free b s = Bridges.store b { x with line := x.line.drop 1, taken := x.taken - 1 } s := by
  simp [Bridges.free, hx, kind, ht, hh]

/-- The slice that is free again takes the value that the source holds. -/
theorem free_data_refills {w : Nat} (hh : x.held = some w) (fits : x.line.length ≤ 2 * Bridges.slices b) (hl : x.line ≠ []) :
    Bridges.free b s = Bridges.store b { x with line := x.line.drop 1 ++ [w], taken := x.taken - 1, held := none } s := by
  have room : (x.line.drop 1).length < 2 * Bridges.slices b := by
    have := List.length_pos_of_ne_nil hl
    rw [List.length_drop]
    omega
  simp only [Bridges.free, hx, kind, if_neg ht, hh, Bridges.accept, if_pos room]

end

theorem free_word_idle (kind : b.kind ≠ .data) (hi : x.h = none ∨ x.delivered = false) : Bridges.free b s = s := by
  have idle : (x.h.isNone || !x.delivered) = true := by
    rcases hi with hh | hd
    · simp [hh]
    · simp [hd]
  cases hk : b.kind with
  | data => exact absurd hk kind
  | status | pulse => simp only [Bridges.free, hx, hk, idle, if_true]

section
variable {v : W64} (hh : x.h = some v) (hd : x.delivered = true)
include hh hd

theorem free_status (kind : b.kind = .status) :
    Bridges.free b s = Bridges.store b { x with h := x.n, delivered := false, n := none } s := by
  simp [Bridges.free, hx, kind, hh, hd]

variable (kind : b.kind = .pulse)
include kind

theorem free_pulse (ha : x.acc = 0) : Bridges.free b s = Bridges.store b { x with h := none, delivered := false } s := by
  simp [Bridges.free, hx, kind, hh, hd, ha]

theorem free_pulse_counted (ha : x.acc ≠ 0) : Bridges.free b s = Bridges.store b
    { x with h := some (Bridges.countWord x.acc x.ovf), delivered := false, acc := 0, ovf := false } s := by
  simp [Bridges.free, hx, kind, hh, hd, ha]

end

/-! #### A pulse at the source (R323, R326) -/

theorem pulse_ignored (hi : b.kind ≠ .pulse ∨ Bridges.ready x = false) : Bridges.pulse b s = s := by
  have ignored : b.kind ≠ .pulse ∨ (!Bridges.ready x) = true := by simpa using hi
  simp only [Bridges.pulse, hx, if_pos ignored]

section
variable (kind : b.kind = .pulse) (hr : Bridges.ready x = true)
include kind hr

theorem pulse_starts (hh : x.h = none) : Bridges.pulse b s = Bridges.store b { x with h := some 1, delivered := false } s := by
  have one : Bridges.countWord 1 false = 1 := rfl
  simp [Bridges.pulse, hx, kind, hr, hh, one]

theorem pulse_counts (hh : x.h ≠ none) (ha : x.acc < 15) :
    Bridges.pulse b s = Bridges.store b { x with acc := x.acc + 1 } s := by
  simp [Bridges.pulse, hx, kind, hr, hh, ha]

theorem pulse_overflows (hh : x.h ≠ none) (ha : 15 ≤ x.acc) :
    Bridges.pulse b s = Bridges.store b { x with ovf := true } s := by
  simp [Bridges.pulse, hx, kind, hr, hh, Nat.not_lt.2 ha]

end

end

/-! #### The crossings of transmit slices and of user events (R343, R496) -/

theorem bridgeCapture_plain {b : BridgeId}
    (h : ¬ (b = Lanes.txCrossing (b.slot.val / 8 / 8) (b.slot.val / 8 % 8) ∧ b.slot.val / 8 % 8 < 4)) (v : W64) (s : State) :
    Lanes.bridgeCapture b v s = Bridges.capture b v.toNat s := if_neg h

/-- A crossing of a transmit slice is a data crossing. -/
theorem bridgeCapture_word {b : BridgeId} (kind : b.kind ≠ .data) (v : W64) (s : State) :
    Lanes.bridgeCapture b v s = Bridges.capture b v.toNat s :=
  bridgeCapture_plain (fun h => kind (congrArg BridgeId.kind h.1)) v s

section
variable {s : State} {b : BridgeId}

/-- A user event's crossing is a pulse bridge. -/
theorem userOf_other (kind : b.kind ≠ .pulse) : EventBlock.userOf b = none :=
  if_neg fun h => kind (congrArg BridgeId.kind h.1)

theorem deliver_user_none (hu : EventBlock.userOf b = none) : EventBlock.deliver b s = Bridges.deliver b s := by
  simp only [EventBlock.deliver, hu]

theorem deliver_user_idle (hi : Bridges.deliver b s = s) : EventBlock.deliver b s = s := by
  cases hu : EventBlock.userOf b with
  | none => exact (deliver_user_none hu).trans hi
  | some e => simp only [EventBlock.deliver, hu, hi, if_true]

/-- A delivery of pulses to a user event's crossing raises its source. -/
theorem deliver_user_raises {x : Bridge} {v : W64} {e : Nat} (hx : Bridges.find s b = x) (hu : EventBlock.userOf b = some e)
    (hh : x.h = some v) (ht : Bridges.deliver b s = pulseTaken b x v s) (hv : v.toNat % 16 ≠ 0) : EventBlock.deliver b s =
      Ops.raise (512 + e) (if v.getLsbD 4 then Ops.bump 0xB000 8 (pulseTaken b x v s) else pulseTaken b x v s) := by
  have counted : ¬ x.events + v.toNat % 16 = x.events := by omega
  simp only [EventBlock.deliver, hu, ht, find_pulseTaken, hx, hh, if_neg counted, Option.getD_some]

end

end Sys2Proof.Laws
end

section
/-!
SUPPORT. The resets of a bridge's sides, and the clocked domains that they follow (R314, R316, R325 to R329, R468, R520).
-/

namespace Sys2Proof.Laws

open Sys2Proof Sys2Proof.Machine Sys2Proof.Safety

/-! ### A side enters and leaves reset (R325 to R328) -/

section
variable {s : State} {b : BridgeId} {x : Bridge}

theorem enterSide_eq (hx : Bridges.find s b = x) (f : Bridge → Bridge) : Bridges.enterSide b f s =
    Bridges.store b (f (Bridges.flush b x)) (Ops.add 0x1201 3 32 (x.line.length - x.taken) s) := by
  rw [Bridges.enterSide, hx]

/-- What the handshake of a side comes to once nothing holds the side. -/
def sideReleased (source : Bool) (x : Bridge) : Bool :=
  if source then Bridges.sideOut x.srcReset x.srcDomain else Bridges.sideOut x.dstReset x.dstDomain

section
variable {source : Bool} {f : Bridge → Bridge} {y : Bridge} (hy : f (Bridges.find s b) = y)
include hy

theorem leaveSide_completes (ho : sideReleased source y = true) : Bridges.leaveSide b source f s =
    Bridges.store b (if Bridges.ready y then Bridges.resume b y else y) (Ops.bump 0x1201 4 s) := by
  subst hy
  exact if_pos ho

theorem leaveSide_held (ho : sideReleased source y = false) : Bridges.leaveSide b source f s = Bridges.store b y s := by
  subst hy
  exact if_neg (Bool.eq_false_iff.1 ho)

end

theorem leaveReset_out {source : Bool} (hx : Bridges.find s b = x)
    (ho : (if source then x.srcReset else x.dstReset) = .out) : Bridges.leaveReset b source s = s := by
  subst hx
  exact if_pos ho

theorem leaveReset_held {source : Bool} (hx : Bridges.find s b = x)
    (hh : (if source then x.srcReset else x.dstReset) = .held) :
    Bridges.leaveReset b source s = Bridges.leaveSide b source (Bridges.withReset source .out) s := by
  subst hx
  exact if_neg (by rw [hh]; exact nofun)

/-- A side that BRIDGE_RESET no longer holds is released unless its domain holds it. -/
theorem sideReleased_withReset (source : Bool) (x : Bridge) :
    sideReleased source (Bridges.withReset source .out x) = !(if source then x.srcDomain else x.dstDomain) := by
  cases source <;> rfl

/-- A side that its domain no longer holds is released unless BRIDGE_RESET holds it. -/
theorem sideReleased_withDomain {source : Bool} {x : Bridge} (ho : (if source then x.srcReset else x.dstReset) = .out) :
    sideReleased source (Bridges.withDomain source false x) = true := by
  have released : sideReleased source (Bridges.withDomain source false x) =
      ((if source then x.srcReset else x.dstReset) == .out) := by
    cases source <;> exact Bool.and_true _
  rw [released, ho]
  rfl

end

/-! ### A side follows its domain (R314, R316, R520) -/

/-- The domain of a side holds it. -/
def domainHolds (source : Bool) (x : Bridge) : Bool := if source then x.srcDomain else x.dstDomain

@[simp] theorem domainHolds_withDomain (source v : Bool) (x : Bridge) :
    domainHolds source (Bridges.withDomain source v x) = v := by
  cases source <;> rfl

/-- What crosses once both sides are out of reset leaves the domains as they are. -/
theorem domainHolds_resume (source : Bool) (b : BridgeId) (x : Bridge) :
    domainHolds source (Bridges.resume b x) = domainHolds source x := by
  unfold Bridges.resume Bridges.accept
  split
  · rfl
  · split
    · rfl
    · split <;> rfl
  · rfl

theorem ready_withDomain (source : Bool) (x : Bridge) : Bridges.ready (Bridges.withDomain source true x) = false := by
  cases source <;> simp [Bridges.ready, Bridges.withDomain, Bridges.sideOut]

section
variable {s : State} {b : BridgeId} {source : Bool} {x : Bridge} (hx : Bridges.find s b = x)
include hx

theorem followSide_same (h : domainHolds source x = Bridges.sideInReset s (if source then b.src else b.dst)) :
    Bridges.followSide b source s = s := by
  subst hx
  have was : (if source then (Bridges.find s b).srcDomain else (Bridges.find s b).dstDomain) =
      Bridges.sideInReset s (if source then b.src else b.dst) := h
  simp [Bridges.followSide, was]

theorem followSide_enters (was : domainHolds source x = false)
    (now : Bridges.sideInReset s (if source then b.src else b.dst) = true) :
    Bridges.followSide b source s = Bridges.enterSide b (Bridges.withDomain source true) s := by
  subst hx
  refine if_pos ?_
  rw [Bool.and_eq_true, Bool.not_eq_true']
  exact ⟨now, was⟩

theorem followSide_leaves (was : domainHolds source x = true)
    (now : Bridges.sideInReset s (if source then b.src else b.dst) = false) :
    Bridges.followSide b source s = Bridges.leaveSide b source (Bridges.withDomain source false) s := by
  subst hx
  refine (if_neg ?_).trans (if_pos ?_)
  · rw [now]
    exact nofun
  · rw [Bool.and_eq_true, Bool.not_eq_true']
    exact ⟨was, now⟩

end

/-! ### Clocks that depart and recover (R316, R329, R468) -/

section
variable {s : State} {d : Fin 108}

theorem depart_reference (hd : d = 99) : Bridges.depart d s =
    Ops.raise 390 (Ops.bump 0x1010 0x0C (Bridges.setDomain d { Bridges.domain s d with departed := true } s)) := by
  subst hd
  rfl

theorem depart_other (hd : d ≠ 99) : Bridges.depart d s =
    Bridges.follow (Bridges.setDomain d { Bridges.domain s d with departed := true, latched := true } s) :=
  if_neg fun h => hd (Fin.ext h)

theorem recover_idle (k : Nat) (hp : (Bridges.domain s d).departed = false)
    (hs : d ≠ 99 ∨ (Bridges.domain s d).stable = true) : Bridges.recover d k s = s := by
  refine if_pos ?_
  rcases hs with hd | hs
  · have other : d.val ≠ 99 := fun h => hd (Fin.ext h)
    simp [hp, other]
  · simp [hp, hs]

theorem recover_measures (k : Nat)
    (h : (Bridges.domain s d).departed = true ∨ d = 99 ∧ (Bridges.domain s d).stable = false) :
    Bridges.recover d k s = Bridges.follow (Bridges.setDomain d
      { Bridges.domain s d with departed := false, freq := some (k, Bridges.nominal s d), stable := decide (d = 99) } s) := by
  have reference : (d.val == 99) = decide (d = 99) := by
    rw [Bool.eq_iff_iff]
    simp [Fin.ext_iff]
  have measures : ¬ (!(Bridges.domain s d).departed && (d.val != 99 || (Bridges.domain s d).stable)) = true := by
    rcases h with hp | ⟨hd, hs⟩
    · simp [hp]
    · have same : (d.val != 99) = false := by simp [hd]
      rw [same, hs, Bool.false_or, Bool.and_false]
      exact nofun
  rw [Bridges.recover]
  simp only [if_neg measures, reference]

/-- The clock monitor holds every domain but 99 (R316). -/
theorem inReset_departed (hd : d ≠ 99) (hp : (Bridges.domain s d).departed = true) : Bridges.inReset s d = true := by
  have other : d.val ≠ 99 := fun h => hd (Fin.ext h)
  simp [Bridges.inReset, Bridges.heldHere, other, hp]

end

theorem inReset_phy (s : State) : Bridges.inReset s 88 = Bridges.heldHere s 88 := by simp [Bridges.inReset]

/-- 89 and 90 follow 88 (R314). -/
theorem inReset_of_phy {s : State} (h : Bridges.inReset s 88 = true) :
    Bridges.inReset s 89 = true ∧ Bridges.inReset s 90 = true := by
  rw [inReset_phy] at h
  simp [Bridges.inReset, h]

/-- 90 follows 89 too. -/
theorem inReset_of_core {s : State} (h : Bridges.inReset s 89 = true) : Bridges.inReset s 90 = true := by
  rcases (by simpa [Bridges.inReset] using h : Bridges.heldHere s 89 = true ∨ Bridges.heldHere s 88 = true) with h | h
  · simp [Bridges.inReset, h]
  · simp [Bridges.inReset, h]

/-! ### The obligation -/

/-- Settles O42: each command of a bridge and of a domain, by the kind of the bridge and by what is under way. -/
theorem bridgeSteps : Obligations.BridgeSteps := by
  unfold Obligations.BridgeSteps
  refine ⟨fun s b v w h => ?transfers, fun s b source h => ?resets, fun s d h => ?clocks, fun s b source => ?follows⟩
  case transfers =>
    intro u x makes nothing full slice
    have hx : Bridges.find u b = x := rfl
    clear_value x
    have captures {y : State} (kind : b.kind ≠ .data) (e : Bridges.capture b v.toNat u = y) :
        exec (.bridgeCapture b v) s = .next (after s y) := run_awake_of h ((bridgeCapture_word kind v u).trans e)
    have crosses {y : State} (plain : ¬ (b = Lanes.txCrossing (slice / 8) (slice % 8) ∧ slice % 8 < 4))
        (e : Bridges.capture b v.toNat u = y) : exec (.bridgeCapture b v) s = .next (after s y) :=
      run_awake_of h ((bridgeCapture_plain plain v u).trans e)
    have delivers {y : State} (kind : b.kind ≠ .pulse) (e : Bridges.deliver b u = y) :
        exec (.bridgeDeliver b) s = .next (after s y) := run_awake_of h ((deliver_user_none (userOf_other kind)).trans e)
    have ignores (e : Bridges.deliver b u = u) : nothing (.bridgeDeliver b) := run_awake_of h (deliver_user_idle e)
    have frees {y : State} (e : Bridges.free b u = y) : exec (.bridgeFree b) s = .next (after s y) := run_awake_of h e
    have pulses {y : State} (e : Bridges.pulse b u = y) : exec (.sourcePulse b) s = .next (after s y) := run_awake_of h e
    refine ⟨fun k => ⟨fun hr hh => captures (by simp [k]) (capture_status_sends hx k hr hh),
        fun hw => captures (by simp [k]) (capture_status_waits hx k hw)⟩,
      fun k plain => ⟨fun hh hr room => crosses plain (capture_data_crosses hx k hh hr room),
        fun hh hw => crosses plain (capture_data_holds hx k hh hw),
        fun hh => crosses plain (capture_data_refused hx k hh)⟩,
      fun k => captures (by simp [k]) (capture_pulse k),
      fun hr => ignores (deliver_unready hx hr),
      fun k hi => ignores (deliver_data_idle hx k hi),
      fun k hr ht hw => delivers (by simp [k]) (deliver_data_takes hx k hr ht hw),
      fun k hi => ignores (deliver_word_idle hx k hi),
      fun hr hh hd => ⟨fun k => delivers (by simp [k]) (deliver_status hx hr hh hd k), fun k => ?pulsesTaken⟩,
      fun k hi => frees (free_word_idle hx k hi),
      fun k hh hd => ⟨fun k => frees (free_status hx hh hd k), fun k ha => frees (free_pulse hx hh hd k ha),
        fun k ha => frees (free_pulse_counted hx hh hd k ha)⟩,
      fun k ht => frees (free_data_idle hx k ht),
      fun k ht => ⟨fun hh => frees (free_data hx k ht hh), fun hh fits hl => frees (free_data_refills hx k ht hh fits hl)⟩,
      fun hi => pulses (pulse_ignored hx hi),
      fun k hr => ⟨fun hh => pulses (pulse_starts hx k hr hh), fun hh ha => pulses (pulse_counts hx k hr hh ha),
        fun hh ha => pulses (pulse_overflows hx k hr hh ha)⟩⟩
    case pulsesTaken =>
      have taken := deliver_pulse hx hr hh hd k
      exact ⟨fun hu => run_awake_of h ((deliver_user_none hu).trans taken),
        fun e hu hv => run_awake_of h (deliver_user_raises hx hu hh taken hv)⟩
  case resets =>
    intro u x set y held resumed makes
    have hx : Bridges.find u b = x := rfl
    have hy : Bridges.withReset source .out x = y := rfl
    have resumes : Bridges.resume b y = resumed := rfl
    have released : sideReleased source y = !held := sideReleased_withReset source x
    refine ⟨run_awake_of h (enterSide_eq hx _), fun ho => run_awake_of h (leaveReset_out hx ho),
      fun hh => ⟨fun hd => ?_, fun hd => ?_⟩⟩
    · exact run_awake_of h ((leaveReset_held hx hh).trans (leaveSide_held hy (by rw [released, hd]; rfl)))
    · rw [← resumes]
      exact run_awake_of h ((leaveReset_held hx hh).trans (leaveSide_completes hy (by rw [released, hd]; rfl)))
  case clocks =>
    exact ⟨fun hd => run_awake_of h (depart_reference hd), fun hd => run_awake_of h (depart_other hd),
      fun k => ⟨fun hp hs => run_awake_of h (recover_idle k.toNat hp hs), fun hm => run_awake_of h (recover_measures k.toNat hm)⟩,
      inReset_departed, inReset_of_phy, inReset_of_core⟩
  case follows =>
    intro x was now
    have hx : Bridges.find s b = x := rfl
    refine ⟨followSide_same hx, fun hw hn => ?enters, fun hw hn => ?leaves⟩
    case enters =>
      intro t
      have ht : t = _ := (followSide_enters hx hw hn).trans (enterSide_eq hx _)
      rw [ht, find_store]
      refine ⟨domainHolds_withDomain source true _, ready_withDomain source _, ?_, ?_, reg_store ..⟩
      all_goals cases source <;> rfl
    case leaves =>
      intro t
      have ht : t = _ := followSide_leaves hx hw hn
      have hy : Bridges.withDomain source false (Bridges.find s b) = Bridges.withDomain source false x := rfl
      refine ⟨?_, fun ho => ?_⟩
      · show domainHolds source (Bridges.find t b) = false
        cases hr : sideReleased source (Bridges.withDomain source false x) with
        | false => rw [ht, leaveSide_held hy hr, find_store, domainHolds_withDomain]
        | true =>
          rw [ht, leaveSide_completes hy hr, find_store]
          split
          · rw [domainHolds_resume, domainHolds_withDomain]
          · rw [domainHolds_withDomain]
      · rw [ht, leaveSide_completes hy (sideReleased_withDomain ho), reg_store]

end Sys2Proof.Laws
end

section
/-!
SUPPORT. The values under way in a data crossing out of reset (R321, R322).
-/

namespace Sys2Proof.Laws

open Sys2Proof Sys2Proof.Machine Sys2Proof.Safety

/-- The values that a data crossing has captured and not yet delivered, oldest first. -/
def underWay (x : Bridge) : List Nat := x.line.drop x.taken ++ x.held.toList

/-- What a data crossing out of reset keeps: the destination is at most one round ahead of the slices that are free again, and the
source holds a value only while every slice is full. -/
structure CrossingFits (b : BridgeId) (x : Bridge) : Prop where
  taken : x.taken ≤ x.line.length
  round : x.taken ≤ Bridges.slices b
  line : x.line.length ≤ 2 * Bridges.slices b
  held : x.held ≠ none → x.line.length = 2 * Bridges.slices b

theorem crossingFits_iff {b : BridgeId} {x : Bridge} : CrossingFits b x ↔ x.taken ≤ x.line.length ∧ x.taken ≤ Bridges.slices b ∧
    x.line.length ≤ 2 * Bridges.slices b ∧ (x.held ≠ none → x.line.length = 2 * Bridges.slices b) :=
  ⟨fun h => ⟨h.taken, h.round, h.line, h.held⟩, fun ⟨taken, round, line, held⟩ => ⟨taken, round, line, held⟩⟩

section
variable {s : State} {b : BridgeId} {x : Bridge} (hx : Bridges.find s b = x) (kind : b.kind = .data) (fits : CrossingFits b x)
include hx kind fits

/-- A capture adds its value at the end. -/
theorem capture_keeps_order (hr : Bridges.ready x = true) (hh : x.held = none) (v : Nat) :
    CrossingFits b (Bridges.find (Bridges.capture b v s) b) ∧
      underWay (Bridges.find (Bridges.capture b v s) b) = underWay x ++ [v] := by
  obtain ⟨taken, round, line, -⟩ := fits
  rcases Nat.lt_or_ge x.line.length (2 * Bridges.slices b) with room | full
  · rw [capture_data_crosses hx kind hh hr room, find_store]
    refine ⟨⟨?_, round, ?_, fun h => absurd hh h⟩, ?_⟩
    · simpa using Nat.le_succ_of_le taken
    · simpa using room
    · simp [underWay, hh, List.drop_append_of_le_length taken]
  · rw [capture_data_holds hx kind hh (.inr full), find_store]
    exact ⟨⟨taken, round, line, fun _ => Nat.le_antisymm line full⟩, by simp [underWay, hh]⟩

/-- A delivery takes the oldest value. -/
theorem deliver_keeps_order {v : Nat} (hr : Bridges.ready x = true) (ht : x.taken < Bridges.slices b)
    (hv : x.line[x.taken]? = some v) :
    CrossingFits b (Bridges.find (Bridges.deliver b s) b) ∧
      underWay x = v :: underWay (Bridges.find (Bridges.deliver b s) b) ∧
      (Bridges.find (Bridges.deliver b s) b).dst = some v := by
  obtain ⟨-, -, line, held⟩ := fits
  obtain ⟨within, rfl⟩ := List.getElem?_eq_some_iff.1 hv
  rw [deliver_data_takes hx kind hr ht hv, find_store]
  refine ⟨⟨within, ht, line, held⟩, ?_, rfl⟩
  rw [underWay, List.drop_eq_getElem_cons within]
  rfl

/-- The end of a transfer drops a value that the destination has taken, and lets in the one that the source holds. -/
theorem free_keeps_order (ht : x.taken ≠ 0) :
    CrossingFits b (Bridges.find (Bridges.free b s) b) ∧ underWay (Bridges.find (Bridges.free b s) b) = underWay x := by
  obtain ⟨taken, round, line, held⟩ := fits
  have slot : 1 + (x.taken - 1) = x.taken := by omega
  cases hh : x.held with
  | none =>
    rw [free_data hx kind ht hh, find_store]
    refine ⟨⟨?_, ?_, ?_, fun h => absurd hh h⟩, ?_⟩
    · simpa using Nat.sub_le_sub_right taken 1
    · exact (Nat.sub_le _ _).trans round
    · simpa using (Nat.sub_le _ _).trans line
    · simp only [underWay, List.drop_drop, slot]
  | some w =>
    have full := held (by simp [hh])
    have some_line : x.line ≠ [] := fun h => ht (Nat.le_zero.1 (by simpa [h] using taken))
    have within : x.taken - 1 ≤ (x.line.drop 1).length := by
      rw [List.length_drop]
      exact Nat.sub_le_sub_right taken 1
    have length_kept : (x.line.drop 1 ++ [w]).length = x.line.length := by
      have := List.length_pos_of_ne_nil some_line
      rw [List.length_append, List.length_drop, List.length_singleton]
      omega
    rw [free_data_refills hx kind ht hh line some_line, find_store]
    refine ⟨⟨?_, (Nat.sub_le _ _).trans round, length_kept.trans_le line, fun h => absurd rfl h⟩, ?_⟩
    · exact ((Nat.sub_le _ _).trans taken).trans_eq length_kept.symm
    · simp only [underWay, hh, List.drop_append_of_le_length within, List.drop_drop, slot, Option.toList_none,
        Option.toList_some, List.append_nil]

end

/-- Settles O43: the values under way are a queue, to which a capture adds, from which a delivery takes, and which the end of a
transfer leaves. -/
theorem dataBridgesKeepOrder : Obligations.DataBridgesKeepOrder := by
  unfold Obligations.DataBridgesKeepOrder
  intro s b v kind hr way fits x captured delivered freed hf
  have hx : Bridges.find s b = x := rfl
  have fits_of {y : Bridge} (h : CrossingFits b y) : fits y := crossingFits_iff.1 h
  have crossing : CrossingFits b x := crossingFits_iff.2 hf
  refine ⟨fun hh => ?captures, fun ht hv => ?delivers, fun ht => ?frees⟩
  case captures => exact (capture_keeps_order hx kind crossing hr hh v).imp_left fits_of
  case delivers => exact (deliver_keeps_order hx kind crossing hr ht hv).imp_left fits_of
  case frees => exact (free_keeps_order hx kind crossing ht).imp_left fits_of

end Sys2Proof.Laws
end

section
/-!
SUPPORT. What a change of a lane's state leaves of the lanes, their counters and their causes.
-/

namespace Sys2Proof.Laws

open Sys2Proof Sys2Proof.Machine Sys2Proof.Safety

/-! ### What lies beside the lanes -/

/-- `t` has the lanes of `s`, and what the objects of the lanes, the bonds and the Ethernet groups store. -/
structure Beside (s t : State) : Prop where
  lanes : t.lanes = s.lanes
  regs : ∀ i k, 0x7100 ≤ i → i < 0x8000 → k < 256 → Ops.reg t i k = Ops.reg s i k

namespace Beside

variable {s t u : State}

theorem refl (s : State) : Beside s s := ⟨rfl, fun _ _ _ _ _ => rfl⟩

theorem trans (h : Beside s t) (g : Beside t u) : Beside s u :=
  ⟨g.lanes.trans h.lanes, fun i k lo hi hk => (g.regs i k lo hi hk).trans (h.regs i k lo hi hk)⟩

theorem either {c : Prop} [Decidable c] (h : Beside s t) (g : Beside s u) : Beside s (if c then t else u) := by
  split
  · exact h
  · exact g

/-- A change that leaves the stored subs alone. -/
theorem same (hl : t.lanes = s.lanes) (hr : t.regs = s.regs) : Beside s t :=
  ⟨hl, fun _ _ _ _ _ => by rw [Ops.reg, hr, Ops.reg]⟩

theorem of_spares (h : Spares s t) : Beside s t := by
  obtain ⟨frame, regs⟩ := h
  refine ⟨?_, fun i k lo hi hk => regs i k ?_ hk⟩
  · rw [frame, spare]
  · refine ⟨?_, ?_, ?_, ?_, ?_, ?_, ?_⟩ <;> omega

theorem setReg {i k : Nat} (hi : i < 0x7100) (hk : k < 256) (v : Nat) (s : State) : Beside s (Ops.setReg i k v s) :=
  ⟨rfl, fun _ _ lo _ hl => reg_setReg_other (by omega) v s⟩

theorem trackHalf (n h : Nat) (s : State) : Beside s (Lanes.trackHalf n h s) :=
  either (of_spares (spares_track _ _ s)) (either (of_spares (spares_track _ _ s)) (refl s))

theorem store (b : BridgeId) (x : Bridge) (s : State) : Beside s (Bridges.store b x s) := same rfl rfl

theorem enterSide (b : BridgeId) (f : Bridge → Bridge) (s : State) : Beside s (Bridges.enterSide b f s) :=
  (setReg (i := 0x1201) (k := 3) (by decide) (by decide) _ s).trans (store b _ _)

theorem leaveSide (b : BridgeId) (source : Bool) (f : Bridge → Bridge) (s : State) :
    Beside s (Bridges.leaveSide b source f s) :=
  either ((setReg (i := 0x1201) (k := 4) (by decide) (by decide) _ s).trans (store b _ _)) (store b _ s)

theorem followSide (b : BridgeId) (source : Bool) (s : State) : Beside s (Bridges.followSide b source s) := by
  unfold Bridges.followSide
  refine either (enterSide b _ s) ?_
  refine either (leaveSide b source _ s) ?_
  exact refl s

theorem foldl {α : Type} {f : State → α → State} (h : ∀ s a, Beside s (f s a)) (l : List α) (s : State) :
    Beside s (l.foldl f s) := by
  induction l generalizing s with
  | nil => exact refl s
  | cons a l ih => exact (h s a).trans (ih _)

theorem follow (s : State) : Beside s (Bridges.follow s) :=
  foldl (fun s b => (followSide b true s).trans (followSide b false _)) _ s

theorem holdover (source src : Nat) (s : State) : Beside s (Time.holdover source src s) := by
  by_cases h : Ops.reg s 0x3000 8 ≠ source ∨ s.servo.state = 3
  · rw [holdover_idle h]
    exact refl s
  · obtain ⟨selected, running⟩ := not_or.1 h
    have rate : Beside s (if s.servo.rates.isEmpty then s
        else Ops.setReg 0x3000 7 (Ops.unsigned 32 (Int.tdiv s.servo.rates.sum s.servo.rates.length)) s) :=
      either (refl s) (setReg (by decide) (by decide) _ s)
    have holds (u : State) : Beside u (servo (fun m => { m with state := 3, good := 0 }) u) := same rfl rfl
    rw [holdover_due (not_not.1 selected) running]
    exact (rate.trans (holds _)).trans (of_spares (spares_raise src _))

theorem lane_eq (h : Beside s t) (n : Nat) : Lanes.lane t n = Lanes.lane s n := by rw [Lanes.lane, h.lanes, Lanes.lane]

theorem bondOf_eq (h : Beside s t) (n : Nat) : Lanes.bondOf t n = Lanes.bondOf s n :=
  List.find?_congr fun b hb => by
    have := List.mem_range.1 hb
    rw [h.regs _ _ (by omega) (by omega) (by decide)]

end Beside

/-! ### Causes (R374) -/

section
variable {n : Nat} (s : State)

theorem lane_cause (n b m : Nat) : Lanes.lane (Lanes.cause n b s) m = Lanes.lane s m :=
  (Beside.trackHalf n (b / 8) _).lane_eq m

theorem reg_cause_same (h : n < 0xF00) (b : Nat) :
    Ops.reg (Lanes.cause n b s) (0x7100 + n) 0x10 = Ops.setBit (Ops.reg s (0x7100 + n) 0x10) b :=
  ((Beside.trackHalf n (b / 8) _).regs _ _ (by omega) (by omega) (by decide)).trans (reg_setReg_same ..)

theorem reg_cause_other {i k : Nat} (lo : 0x7100 ≤ i) (hi : i < 0x8000) (hk : k < 256) (hne : k ≠ 0x10) (n b : Nat) :
    Ops.reg (Lanes.cause n b s) i k = Ops.reg s i k :=
  ((Beside.trackHalf n (b / 8) _).regs i k lo hi hk).trans (reg_setReg_other (by omega) _ s)

/-- A lane gains several causes. -/
def causes (n : Nat) (l : List Nat) (s : State) : State := l.foldl (fun s b => Lanes.cause n b s) s

theorem lane_causes (n : Nat) (l : List Nat) (m : Nat) : Lanes.lane (causes n l s) m = Lanes.lane s m := by
  induction l generalizing s with
  | nil => rfl
  | cons b l ih => exact (ih _).trans (lane_cause s n b m)

theorem reg_causes_same (h : n < 0xF00) (l : List Nat) :
    Ops.reg (causes n l s) (0x7100 + n) 0x10 = l.foldl Ops.setBit (Ops.reg s (0x7100 + n) 0x10) := by
  induction l generalizing s with
  | nil => rfl
  | cons b l ih => exact (ih _).trans (by rw [reg_cause_same s h, List.foldl_cons])

theorem reg_causes_other {i k : Nat} (lo : 0x7100 ≤ i) (hi : i < 0x8000) (hk : k < 256) (hne : k ≠ 0x10) (n : Nat) (l : List Nat) :
    Ops.reg (causes n l s) i k = Ops.reg s i k := by
  induction l generalizing s with
  | nil => rfl
  | cons b l ih => exact (ih _).trans (reg_cause_other s lo hi hk hne n b)

end

/-! ### What a bond makes of a change of a member (R365) -/

/-- A lane without the link blocks that wait on it. -/
def unqueued (x : Lane) : Lane := { x with queue := [] }

/-- `t` has the lanes of `s` but for the link blocks that wait, and what the lanes' objects store but for the causes. -/
structure Requeues (s t : State) : Prop where
  lanes : ∀ m, unqueued (Lanes.lane t m) = unqueued (Lanes.lane s m)
  regs : ∀ i k, 0x7100 ≤ i → i < 0x7200 → k < 256 → k ≠ 0x10 → Ops.reg t i k = Ops.reg s i k

theorem lane_setLane (n m : Nat) (x : Lane) (s : State) :
    Lanes.lane (Lanes.setLane n x s) m = if m = n then x else Lanes.lane s m := Table.get_put _ _ _ _

theorem lane_setLane_other {n m : Nat} (h : m ≠ n) (x : Lane) (s : State) :
    Lanes.lane (Lanes.setLane n x s) m = Lanes.lane s m := Table.get_put_other _ _ h

namespace Requeues

variable {s t u : State}

theorem refl (s : State) : Requeues s s := ⟨fun _ => rfl, fun _ _ _ _ _ _ => rfl⟩

theorem trans (h : Requeues s t) (g : Requeues t u) : Requeues s u :=
  ⟨fun m => (g.lanes m).trans (h.lanes m),
    fun i k lo hi hk hne => (g.regs i k lo hi hk hne).trans (h.regs i k lo hi hk hne)⟩

theorem either {c : Prop} [Decidable c] (h : Requeues s t) (g : Requeues s u) : Requeues s (if c then t else u) := by
  split
  · exact h
  · exact g

theorem of_beside (h : Beside s t) : Requeues s t :=
  ⟨fun m => congrArg unqueued (h.lane_eq m), fun i k lo hi hk _ => h.regs i k lo (by omega) hk⟩

theorem setBond (b : Nat) (x : Bond) (s : State) : Requeues s (Lanes.setBond b x s) := of_beside (.same rfl rfl)

theorem setLane {n : Nat} {x : Lane} (h : unqueued x = unqueued (Lanes.lane s n)) : Requeues s (Lanes.setLane n x s) := by
  refine ⟨fun m => ?_, fun _ _ _ _ _ _ => rfl⟩
  rw [lane_setLane]
  split
  · next hm => rw [h, hm]
  · rfl

theorem queueBond (b : Nat) (blk : LinkBlock) (s : State) : Requeues s (Lanes.queueBond b blk s) := by
  unfold Lanes.queueBond
  generalize Lanes.members s b = l
  induction l generalizing s with
  | nil => exact refl s
  | cons n l ih =>
    refine Requeues.trans ?_ (ih _)
    exact either (setLane (x := { Lanes.lane s n with queue := (Lanes.lane s n).queue ++ [blk] }) rfl) (refl s)

theorem cause (n b : Nat) (s : State) : Requeues s (Lanes.cause n b s) :=
  ⟨fun m => by rw [lane_cause], fun _ _ lo hi hk hne => reg_cause_other s lo (by omega) hk hne n b⟩

theorem bondCause (b : Nat) (s : State) : Requeues s (Lanes.bondCause b s) := by
  unfold Lanes.bondCause
  split
  · exact cause _ _ s
  · exact refl s

/-- A bond counts a change of its live sets. -/
theorem counts (b : Nat) (s : State) : Requeues s (Lanes.bondCause b (Ops.bump (0x7200 + b) 7 s)) :=
  have counted : Requeues s (Ops.bump (0x7200 + b) 7 s) :=
    ⟨fun _ => rfl, fun _ _ _ _ _ _ => reg_setReg_other (by omega) _ s⟩
  counted.trans (bondCause b _)

theorem applyTx (b m : Nat) (s : State) : Requeues s (Lanes.applyTx b m s) :=
  either (setBond b _ s) ((setBond b _ s).trans (counts b _))

theorem updateBond (b : Nat) (s : State) : Requeues s (Lanes.updateBond b s) :=
  either (either (setBond b _ s) ((setBond b _ s).trans (queueBond b _ _)))
    (either (((setBond b _ s).trans (setBond b _ _)).trans (queueBond b _ _))
      (((setBond b _ s).trans (applyTx b _ _)).trans (queueBond b _ _)))

end Requeues

/-! ### The parts of a change of state (R352, R362, R371, R374) -/

/-- The lane is in its new state, with what was measured in a retrain as its reference. -/
def arrived (n : Nat) (st : LaneSt) (s : State) : State :=
  let t := Lanes.setLane n (Lanes.entered n st s) s
  let t := if st = .t6 then Ops.tickFresh t else t
  if st = .t7 ∧ (Lanes.lane s n).refDue = true then Lanes.setReference n t else t

/-- The causes that a change of state sets, in their order. -/
def changeCauses (old st : LaneSt) : List Nat :=
  (if st = .t7 then 0 :: (if old = .lp1 then [4] else []) else []) ++
    (if old = .t7 && st != .lp1 && st != .lp2 then [1] else []) ++
    (if st = .lp1 ∨ st = .lp2 ∨ old = .lp2 ∨ (old = .lp1 ∧ st ≠ .t7) then [4] else [])

section
variable {old st : LaneSt}

theorem changeCauses_up (h7 : old ≠ .t7) (h1 : old ≠ .lp1) (h2 : old ≠ .lp2) : changeCauses old .t7 = [0] := by
  simp [changeCauses, h7, h1, h2]

theorem changeCauses_back (h : old = .lp1 ∨ old = .lp2) : changeCauses old .t7 = [0, 4] := by
  rcases h with rfl | rfl
  · rfl
  · rfl

theorem changeCauses_down (h7 : st ≠ .t7) (h1 : st ≠ .lp1) (h2 : st ≠ .lp2) : changeCauses .t7 st = [1] := by
  simp [changeCauses, h7, h1, h2]

theorem changeCauses_low (h7 : st ≠ .t7) (h : (st = .lp1 ∨ st = .lp2) ∨ old = .lp1 ∨ old = .lp2) :
    changeCauses old st = [4] := by
  rcases h with (rfl | rfl) | rfl | rfl <;> simp [changeCauses, h7]

theorem changeCauses_none (h7 : st ≠ .t7) (o7 : old ≠ .t7) (h : ¬ (st = .lp1 ∨ st = .lp2)) (o : ¬ (old = .lp1 ∨ old = .lp2)) :
    changeCauses old st = [] := by
  obtain ⟨h1, h2⟩ := not_or.1 h
  obtain ⟨o1, o2⟩ := not_or.1 o
  simp [changeCauses, h7, o7, h1, h2, o1, o2]

end

/-- An entry to T7 is counted, and the causes of the change are set. -/
def changeCounted (n : Nat) (old st : LaneSt) (s : State) : State :=
  causes n (changeCauses old st) (if st = .t7 then Ops.bump (0x7100 + n) 0x0F s else s)

/-- What hangs on the lane follows: the servo that it leads, and the crossings of its domain. -/
def followed (n : Nat) (old : LaneSt) (s : State) : State :=
  Bridges.follow (if old = .t7 && Ops.reg s 0x3000 8 = 2 && Ops.reg s 0x3003 1 = n then Time.holdover 2 396 s else s)

/-- The lane's bond follows its change. -/
def bondFollowed (n : Nat) (s : State) : State :=
  match Lanes.bondOf s n with
  | some b => Lanes.updateBond b s
  | none => s

theorem changeCounted_eq (n : Nat) (old st : LaneSt) (due : Bool) (t : State) :
    changeCounted n old st (if st = .t7 ∧ due = true then Lanes.setReference n t else t) =
      let t := if st = .t7 then
          let t := Lanes.cause n 0 (Ops.bump (0x7100 + n) 0x0F (if due then Lanes.setReference n t else t))
          if old = .lp1 then Lanes.cause n 4 t else t
        else t
      let t := if old = .t7 && st != .lp1 && st != .lp2 then Lanes.cause n 1 t else t
      if st = .lp1 ∨ st = .lp2 ∨ old = .lp2 ∨ (old = .lp1 ∧ st ≠ .t7) then Lanes.cause n 4 t else t := by
  simp only [changeCounted, changeCauses, causes, List.foldl_append]
  by_cases h7 : st = .t7
  · subst h7
    simp only [true_and, if_true]
    generalize (if due = true then Lanes.setReference n t else t) = u
    split_ifs <;> rfl
  · simp only [h7, false_and, if_false]
    split_ifs <;> rfl

section
variable {s : State} {n : Nat} {st : LaneSt}

theorem enter_same (h : (Lanes.lane s n).st = st) : Lanes.enter n st s = s := if_pos h

section
variable (h : (Lanes.lane s n).st ≠ st)
include h

theorem enter_eq : Lanes.enter n st s =
    bondFollowed n (followed n (Lanes.lane s n).st (changeCounted n (Lanes.lane s n).st st (arrived n st s))) := by
  rw [arrived, changeCounted_eq]
  exact if_neg h

end

/-! ### The lanes after a change of state -/

/-- A lane without its reference margin and what was measured for it. -/
def unreferenced (x : Lane) : Lane := { x with reference := 0, refDue := false, measured := none }

theorem setReference_measured {m : Nat} (h : (Lanes.lane s n).measured = some m) : Lanes.setReference n s =
    Lanes.setLane n { Lanes.lane s n with reference := m, refDue := false, measured := none } s := by
  simp only [Lanes.setReference, h]

theorem setReference_open (h : (Lanes.lane s n).measured = none) : Lanes.setReference n s =
    Ops.tickFresh (Lanes.setLane n
      { Lanes.lane s n with reference := (Config.freeWord s.fresh).toNat % 65536, refDue := false } s) := by
  simp only [Lanes.setReference, h]

theorem setReference_other {m : Nat} (h : m ≠ n) (s : State) :
    Lanes.lane (Lanes.setReference n s) m = Lanes.lane s m := by
  cases hm : (Lanes.lane s n).measured with
  | some v => rw [setReference_measured hm, lane_setLane_other h]
  | none => rw [setReference_open hm]; exact lane_setLane_other h _ s

theorem setReference_same (n : Nat) (s : State) :
    unreferenced (Lanes.lane (Lanes.setReference n s) n) = unreferenced (Lanes.lane s n) := by
  cases hm : (Lanes.lane s n).measured with
  | some v => rw [setReference_measured hm, lane_setLane_same]; rfl
  | none => 
    rw [setReference_open hm]
    refine (congrArg unreferenced (lane_setLane_same ..)).trans ?_
    rfl

theorem regs_setReference (n : Nat) (s : State) : (Lanes.setReference n s).regs = s.regs := by
  cases hm : (Lanes.lane s n).measured with
  | some v => rw [setReference_measured hm]; rfl
  | none => rw [setReference_open hm]; rfl

theorem regs_arrived (n : Nat) (st : LaneSt) (s : State) : (arrived n st s).regs = s.regs := by
  unfold arrived
  dsimp only
  split_ifs <;> simp [regs_setReference]

theorem arrived_other {m : Nat} (h : m ≠ n) (st : LaneSt) (s : State) :
    Lanes.lane (arrived n st s) m = Lanes.lane s m := by
  have moved : Lanes.lane (Lanes.setLane n (Lanes.entered n st s) s) m = Lanes.lane s m := lane_setLane_other h _ s
  unfold arrived
  dsimp only
  split_ifs
  · exact (setReference_other h _).trans moved
  · exact (setReference_other h _).trans moved
  · exact moved
  · exact moved

theorem arrived_plain (h : st ≠ .t7 ∨ (Lanes.lane s n).refDue = false) :
    Lanes.lane (arrived n st s) n = Lanes.entered n st s := by
  have plain : ¬ (st = .t7 ∧ (Lanes.lane s n).refDue = true) := fun e => h.elim (· e.1) (by simp [e.2])
  refine (congrArg (Lanes.lane · n) (if_neg plain)).trans ?_
  split
  · exact lane_setLane_same ..
  · exact lane_setLane_same ..

theorem arrived_same (n : Nat) (st : LaneSt) (s : State) :
    unreferenced (Lanes.lane (arrived n st s) n) = unreferenced (Lanes.entered n st s) := by
  by_cases h : st = .t7 ∧ (Lanes.lane s n).refDue = true
  · have moved : Lanes.lane (Lanes.setLane n (Lanes.entered n st s) s) n = Lanes.entered n st s := lane_setLane_same ..
    unfold arrived
    dsimp only
    rw [if_pos h, if_neg (by simp [h.1]), setReference_same, moved]
  · rw [arrived_plain ((not_and_or.1 h).imp_right Bool.eq_false_iff.2)]

theorem lane_bump (i k m : Nat) (s : State) : Lanes.lane (Ops.bump i k s) m = Lanes.lane s m := rfl

theorem lane_changeCounted (n : Nat) (old st : LaneSt) (s : State) (m : Nat) :
    Lanes.lane (changeCounted n old st s) m = Lanes.lane s m := by
  rw [changeCounted, lane_causes]
  split
  · rfl
  · rfl

theorem followed_beside (n : Nat) (old : LaneSt) (s : State) : Beside s (followed n old s) :=
  (Beside.either (Beside.holdover 2 396 s) (Beside.refl s)).trans (Beside.follow _)

theorem bondFollowed_requeues (n : Nat) (s : State) : Requeues s (bondFollowed n s) := by
  unfold bondFollowed
  split
  · exact .updateBond _ s
  · exact .refl s

/-- What a bond makes of the change puts link blocks on its members alone. -/
theorem enter_lanes (h : (Lanes.lane s n).st ≠ st) (m : Nat) :
    unqueued (Lanes.lane (Lanes.enter n st s) m) = unqueued (Lanes.lane (arrived n st s) m) := by
  rw [enter_eq h, (bondFollowed_requeues n _).lanes, (followed_beside n _ _).lane_eq, lane_changeCounted]

/-- What stays of the lane through a change of state, but for its reference and the link blocks that wait. -/
def settled (x : Lane) : Lane := unreferenced (unqueued x)

/-- What `g` keeps of two lanes that it makes the same. -/
theorem eq_of_kept {α : Type} {g : Lane → Lane} {x y : Lane} (h : g x = g y) (f : Lane → α) (hf : ∀ x, f (g x) = f x) :
    f x = f y := by rw [← hf x, h, hf]

theorem enter_settled (h : (Lanes.lane s n).st ≠ st) :
    settled (Lanes.lane (Lanes.enter n st s) n) = settled (Lanes.entered n st s) := by
  rw [settled, enter_lanes h]
  exact congrArg unqueued (arrived_same n st s)

theorem enter_plain (h : (Lanes.lane s n).st ≠ st) (hr : st ≠ .t7 ∨ (Lanes.lane s n).refDue = false) :
    unqueued (Lanes.lane (Lanes.enter n st s) n) = unqueued (Lanes.entered n st s) := by
  rw [enter_lanes h, arrived_plain hr]

end

/-! ### The counters and the causes after a change of state (R371, R374) -/

section
variable {s : State} {n : Fin 64} {st : LaneSt}

theorem reg_changeCounted {i k : Nat} (lo : 0x7100 ≤ i) (hi : i < 0x8000) (hk : k < 256) (hne : k ≠ 0x10) (n : Nat)
    (old st : LaneSt) (s : State) : Ops.reg (changeCounted n old st s) i k =
      if st = .t7 ∧ i = 0x7100 + n ∧ k = 0x0F then (Ops.reg s i k + 1) % 2 ^ 32 else Ops.reg s i k := by
  rw [changeCounted, reg_causes_other _ lo hi hk hne]
  by_cases h7 : st = .t7
  · rw [if_pos h7]
    by_cases here : i = 0x7100 + n ∧ k = 0x0F
    · obtain ⟨rfl, rfl⟩ := here
      rw [if_pos ⟨h7, rfl, rfl⟩]
      exact reg_setReg_same ..
    · rw [if_neg fun e => here e.2]
      exact reg_setReg_other (by omega) _ s
  · rw [if_neg h7, if_neg fun e => h7 e.1]

theorem reg_arrived (n : Nat) (st : LaneSt) (s : State) (i k : Nat) : Ops.reg (arrived n st s) i k = Ops.reg s i k := by
  rw [Ops.reg, regs_arrived, Ops.reg]

theorem enter_counts (h : (Lanes.lane s n).st ≠ st) : Ops.reg (Lanes.enter n st s) (0x7100 + n) 0x0F =
    if st = .t7 then (Ops.reg s (0x7100 + n) 0x0F + 1) % 2 ^ 32 else Ops.reg s (0x7100 + n) 0x0F := by
  have number := n.isLt
  rw [enter_eq h, (bondFollowed_requeues n _).regs _ _ (by omega) (by omega) (by decide) (by decide),
    (followed_beside n _ _).regs _ _ (by omega) (by omega) (by decide),
    reg_changeCounted (by omega) (by omega) (by decide) (by decide), reg_arrived]
  exact if_congr (by simp) rfl rfl

section
variable (h : (Lanes.lane s n).st ≠ st) (hb : Lanes.bondOf s n = none)
include h hb

/-- A lane of no bond: nothing follows its change but its servo and its crossings. -/
theorem enter_alone : Lanes.enter n st s =
    followed n (Lanes.lane s n).st (changeCounted n (Lanes.lane s n).st st (arrived n st s)) := by
  have number := n.isLt
  have none_of : Lanes.bondOf (followed n (Lanes.lane s n).st (changeCounted n (Lanes.lane s n).st st (arrived n st s))) n =
      none := by
    rw [(followed_beside n _ _).bondOf_eq, ← hb]
    refine List.find?_congr fun b hm => ?_
    have := List.mem_range.1 hm
    rw [reg_changeCounted (by omega) (by omega) (by decide) (by decide), if_neg (by omega), reg_arrived]
  rw [enter_eq h, bondFollowed, none_of]

theorem enter_alone_other {m : Nat} (hm : m ≠ n.val) : Lanes.lane (Lanes.enter n st s) m = Lanes.lane s m := by
  rw [enter_alone h hb, (followed_beside n _ _).lane_eq, lane_changeCounted, arrived_other hm]

theorem enter_alone_causes : Ops.reg (Lanes.enter n st s) (0x7100 + n) 0x10 =
    (changeCauses (Lanes.lane s n).st st).foldl Ops.setBit (Ops.reg s (0x7100 + n) 0x10) := by
  have number := n.isLt
  rw [enter_alone h hb, (followed_beside n _ _).regs _ _ (by omega) (by omega) (by decide), changeCounted,
    reg_causes_same _ (by omega)]
  congr 1
  split
  · exact (reg_setReg_other (by omega) _ _).trans (reg_arrived ..)
  · exact reg_arrived ..

end
end

/-! ### Failures and passes (R348 to R350, R357) -/

section
variable {s : State} {n : Nat}

theorem failure_first (h : (Lanes.lane s n).rate = 0) :
    Lanes.failure n s = Ops.observe (Ops.channel 4 n 0) (Lanes.enter n .t0 s) := if_pos h

/-- The failures at rate r + 1 that a lane has counted. -/
def failed (x : Lane) (r : Nat) : Nat := x.failures / 2 ^ (8 * r) % 256

/-- The lane after a failure at rate r + 1. -/
def lowered (x : Lane) (r : Nat) : Lane :=
  { x with
    failures := if failed x r < 3 then x.failures + 2 ^ (8 * r) else x.failures
    cap := if decide (3 ≤ failed x r + 1) then min x.cap r else x.cap
    rate := r, fec := Ops.bit x.passedFec r, fecLine := [] }

theorem failure_next {r : Nat} (h : (Lanes.lane s n).rate = r + 1) : Lanes.failure n s =
    if decide (3 ≤ failed (Lanes.lane s n) r + 1) then
      Lanes.cause n 3 (Lanes.enter n .t2 (Lanes.setLane n (lowered (Lanes.lane s n) r) s))
    else Lanes.enter n .t2 (Lanes.setLane n (lowered (Lanes.lane s n) r) s) := by
  have next : (Lanes.lane s n).rate ≠ 0 := by omega
  refine (if_neg next).trans ?_
  simp only [h, Nat.add_sub_cancel]
  rfl

theorem lane_failure {r : Nat} (h : (Lanes.lane s n).rate = r + 1) : Lanes.lane (Lanes.failure n s) n =
    Lanes.lane (Lanes.enter n .t2 (Lanes.setLane n (lowered (Lanes.lane s n) r) s)) n := by
  rw [failure_next h]
  split
  · exact lane_cause ..
  · rfl

/-- The lane starts again at T2. -/
theorem failure_settled {r : Nat} (h : (Lanes.lane s n).rate = r + 1) (h2 : (Lanes.lane s n).st ≠ .t2) :
    settled (Lanes.lane (Lanes.failure n s) n) =
      settled (Lanes.entered n .t2 (Lanes.setLane n (lowered (Lanes.lane s n) r) s)) := by
  rw [lane_failure h]
  refine enter_settled ?_
  rw [lane_setLane_same]
  exact h2

theorem toT4_eq : Lanes.toT4 n s =
    Lanes.enter n (if (Lanes.lane s n).rate = Lanes.common (Lanes.lane s n) then .t7 else .t4) s :=
  (apply_ite (Lanes.enter n · s) _ _ _).symm

/-- Clearing a bit leaves it clear. -/
theorem bit_clearBits (v r : Nat) : Ops.bit (Ops.clearBits v (2 ^ r)) r = false := by
  simp only [Ops.bit, Ops.clearBits, Nat.and_two_pow]
  cases hv : v.testBit r with
  | false => simpa using hv
  | true =>
    have odd : v / 2 ^ r % 2 = 1 := by simpa [Nat.testBit_eq_decide_div_mod_eq] using hv
    have less : (v - 2 ^ r * 1) / 2 ^ r = v / 2 ^ r - 1 := Nat.sub_mul_div ..
    rw [Nat.testBit_eq_decide_div_mod_eq, Bool.toNat_true, Nat.mul_comm, less, decide_eq_false]
    omega

theorem bit_setBit (v r : Nat) : Ops.bit (Ops.setBit v r) r = true := by simp [Ops.bit, Ops.setBit]

/-- The lane with the FEC of its rate and the reference margin kept. -/
def checked (x : Lane) (m : Nat) : Lane :=
  { x with
    passedFec := if x.fec then Ops.setBit x.passedFec x.rate else Ops.clearBits x.passedFec (2 ^ x.rate)
    reference := m, refDue := false, measured := none }

theorem bit_checked (x : Lane) (m : Nat) : Ops.bit (checked x m).passedFec x.rate = x.fec := by
  cases h : x.fec with
  | true => simp only [checked, h, if_true, bit_setBit]
  | false => simp only [checked, h, Bool.false_eq_true, if_false, bit_clearBits]

/-- The lane is still in T6, with what its pass leaves. -/
def passes (n m : Nat) (s : State) : State :=
  Lanes.setLane n (checked (Lanes.lane s n) m)
    (Lanes.setLane n { Lanes.lane s n with passedFec := (checked (Lanes.lane s n) m).passedFec } s)

theorem lane_passes (n m : Nat) (s : State) : Lanes.lane (passes n m s) n = checked (Lanes.lane s n) m :=
  lane_setLane_same ..

theorem passed_eq {m : Nat} (h : (Lanes.lane s n).measured = some m) : Lanes.passed n s =
    Lanes.enter n (if (Lanes.lane s n).rate = Lanes.common (Lanes.lane s n) then .t7 else .t4) (passes n m s) := by
  refine toT4_eq.trans ?_
  rw [setReference_measured (by rw [lane_setLane_same]; exact h), lane_setLane_same, lane_setLane_same]
  rfl

/-- Both ends have passed: the lane goes on from T6. -/
theorem passed_unqueued {m : Nat} (h6 : (Lanes.lane s n).st = .t6) (h : (Lanes.lane s n).measured = some m) :
    unqueued (Lanes.lane (Lanes.passed n s) n) = unqueued (Lanes.entered n
      (if (Lanes.lane s n).rate = Lanes.common (Lanes.lane s n) then .t7 else .t4) (passes n m s)) := by
  have stands : (checked (Lanes.lane s n) m).st = .t6 := h6
  rw [passed_eq h]
  refine enter_plain ?_ (.inr ?_)
  · rw [lane_passes, stands]
    split
    · exact nofun
    · exact nofun
  · rw [lane_passes]
    rfl

end

/-- Settles O45: a change of state is the lane's new fields, a count, the causes by the two states, and what the bond makes of it. -/
theorem laneChanges : Obligations.LaneChanges := by
  unfold Obligations.LaneChanges
  refine ⟨fun s n st h => ?changes, fun s n r => ?fails, fun s n m => ?passes⟩
  case changes =>
    intro t x y low was now
    have settles : settled y = settled (Lanes.entered n st s) := enter_settled h
    have absent : y.absent = if x.st = .t0 then false else x.absent := eq_of_kept settles Lane.absent fun _ => rfl
    refine ⟨eq_of_kept settles Lane.st fun _ => rfl, eq_of_kept settles Lane.changed fun _ => rfl,
      eq_of_kept settles Lane.rate fun _ => rfl, eq_of_kept settles Lane.fec fun _ => rfl,
      eq_of_kept settles Lane.cap fun _ => rfl, fun h0 => absent.trans (if_pos h0), fun h0 => absent.trans (if_neg h0),
      enter_counts h, fun hb => ⟨fun m hm => enter_alone_other h hb hm, ?_⟩⟩
    have sets {l : List Nat} (e : changeCauses x.st st = l) : now = l.foldl Ops.setBit was :=
      e ▸ enter_alone_causes h hb
    have hx : x.st ≠ st := h
    clear_value x
    refine ⟨fun h7 hl => sets (l := [0]) ?up, fun h7 hl => sets (l := [0, 4]) ?back, fun h7 hl => sets (l := [1]) ?leaves, fun h7 hl => sets (l := [4]) ?rests,
      fun h7 o7 hl ol => sets (l := []) ?trains⟩
    case up =>
      obtain ⟨h1, h2⟩ := not_or.1 hl
      exact h7 ▸ changeCauses_up (h7 ▸ hx) h1 h2
    case back => exact h7 ▸ changeCauses_back hl
    case leaves =>
      obtain ⟨h1, h2⟩ := not_or.1 hl
      exact h7 ▸ changeCauses_down (h7 ▸ hx.symm) h1 h2
    case rests => exact changeCauses_low h7 hl
    case trains => exact changeCauses_none h7 o7 hl ol
  case fails =>
    intro x y c
    refine ⟨failure_first, fun hr hst => ?_⟩
    have settles : settled y = settled (Lanes.entered n .t2 (Lanes.setLane n (lowered x r) s)) :=
      failure_settled hr (by rcases hst with e | e <;> exact e.trans_ne (by decide))
    have stored : Lanes.lane (Lanes.setLane n (lowered x r) s) n = lowered x r := lane_setLane_same ..
    have rate : y.rate = r := (eq_of_kept settles Lane.rate fun _ => rfl).trans (congrArg Lane.rate stored)
    have fec : y.fec = Ops.bit x.passedFec r := (eq_of_kept settles Lane.fec fun _ => rfl).trans (congrArg Lane.fec stored)
    have cap : y.cap = if decide (3 ≤ c + 1) = true then min x.cap r else x.cap :=
      (eq_of_kept settles Lane.cap fun _ => rfl).trans (congrArg Lane.cap stored)
    have failures : y.failures = if c < 3 then x.failures + 2 ^ (8 * r.val) else x.failures :=
      (eq_of_kept settles Lane.failures fun _ => rfl).trans (congrArg Lane.failures stored)
    refine ⟨eq_of_kept settles Lane.st fun _ => rfl, rate, fec, cap.trans (if_congr decide_eq_true_iff rfl rfl),
      fun hc => ?_, fun hc => failures.trans (if_neg (Nat.not_lt.2 hc))⟩
    rw [failures, if_pos hc, Nat.add_div_right _ (by positivity), Nat.add_mod]
    show (c + 1) % 256 = c + 1
    omega
  case passes =>
    intro x y h6 hm _
    have stays := passed_unqueued h6 hm
    have stored : Lanes.lane (passes n m s) n = checked x m := lane_passes n m s
    have reference : y.reference = (Lanes.lane (passes n m s) n).reference := eq_of_kept stays Lane.reference fun _ => rfl
    have passedFec : y.passedFec = (Lanes.lane (passes n m s) n).passedFec := eq_of_kept stays Lane.passedFec fun _ => rfl
    have rate : y.rate = (Lanes.lane (passes n m s) n).rate := eq_of_kept stays Lane.rate fun _ => rfl
    rw [reference, passedFec, rate, stored]
    exact ⟨rfl, bit_checked x m, rfl, eq_of_kept stays Lane.st fun _ => rfl⟩

end Sys2Proof.Laws
end

section
/-!
SUPPORT. The steps of a lane's training, and what leads back (R346 to R352, R355, R362, R371).
-/

namespace Sys2Proof.Laws

open Sys2Proof Sys2Proof.Machine Sys2Proof.Safety

section
variable {s : State} {n : Nat}

/-! ### From T0 to T3 (R346, R352, R355, R362) -/

theorem burst_due (hs : Lanes.streller s n = true) (h : (Lanes.lane s n).st = .t0) :
    Lanes.burst n s = Lanes.send n (List.replicate 8 (0b01, 0)) s := if_pos (by simp [h, hs])

theorem burst_idle (h : Lanes.streller s n = false ∨ (Lanes.lane s n).st ≠ .t0) : Lanes.burst n s = s :=
  if_neg (by simpa [imp_iff_not_or, or_comm] using h)

theorem signalDetect_off (h : s.modes.cur ≠ .m5) : Lanes.signalDetect n s = s := if_pos (by simp [h])

section
variable (h5 : s.modes.cur = .m5)
include h5

/-- The partner's notice explains a silence that ends (R362). -/
theorem signalDetect_noticed (h : (Lanes.lane s n).st = .t7 ∨ (Lanes.lane s n).st = .lp1)
    (hp : (Lanes.lane s n).partnerLp ≠ 0) : Lanes.signalDetect n s =
      let t := Lanes.setLane n { Lanes.lane s n with partnerLp := 0 } s
      if (Lanes.lane s n).partnerLp = 2 then
        let t := Lanes.enter n .t2 t
        Lanes.setLane n { Lanes.lane t n with fromLoss := false, refDue := true } t
      else t :=
  (if_neg (by simp [h5])).trans (if_pos ⟨hp, h⟩)

theorem signalDetect_plain (h : (Lanes.lane s n).st ≠ .t7 ∧ (Lanes.lane s n).st ≠ .lp1 ∨ (Lanes.lane s n).partnerLp = 0) :
    Lanes.signalDetect n s =
      if (Lanes.lane s n).st = .t0 && Lanes.streller s n then Lanes.enter n .t1 s else s :=
  (if_neg (by simp [h5])).trans (if_neg (by tauto))

end

theorem signalDetect_starts (h5 : s.modes.cur = .m5) (hs : Lanes.streller s n = true) (h : (Lanes.lane s n).st = .t0) :
    Lanes.signalDetect n s = Lanes.enter n .t1 s :=
  (signalDetect_plain h5 (.inl (by simp [h]))).trans (if_pos (by simp [h, hs]))

theorem signalDetect_idle (h : s.modes.cur ≠ .m5 ∨
    ((Lanes.lane s n).st ≠ .t7 ∧ (Lanes.lane s n).st ≠ .lp1 ∨ (Lanes.lane s n).partnerLp = 0) ∧
      (Lanes.streller s n = false ∨ (Lanes.lane s n).st ≠ .t0)) : Lanes.signalDetect n s = s := by
  by_cases h5 : s.modes.cur = .m5
  · obtain ⟨plain, still⟩ := h.resolve_left (not_not.2 h5)
    exact (signalDetect_plain h5 plain).trans (if_neg (by simpa [imp_iff_not_or, or_comm] using still))
  · exact signalDetect_off h5

theorem cdrLock_due (hs : Lanes.streller s n = true) (h : (Lanes.lane s n).st = .t1) :
    Lanes.cdrLock n s = Lanes.enter n .t2 s := if_pos (by simp [h, hs])

theorem cdrLock_idle (h : Lanes.streller s n = false ∨ (Lanes.lane s n).st ≠ .t1) : Lanes.cdrLock n s = s :=
  if_neg (by simpa [imp_iff_not_or, or_comm] using h)

/-- What a lane with block lock in T2 waits for (R346, R355). -/
theorem tryT2_eq (h : (Lanes.lane s n).st = .t2) (hl : (Lanes.lane s n).locked = true) : Lanes.tryT2 n s =
    if (Lanes.lane s n).fromLoss then Lanes.enter n .t7 s
    else if (Lanes.lane s n).marked then Lanes.enter n .t3 s else s := if_neg (by simp [h, hl])

theorem tryT2_idle (h : (Lanes.lane s n).st ≠ .t2 ∨ (Lanes.lane s n).locked = false) : Lanes.tryT2 n s = s :=
  if_pos (by simpa using h)

/-- The lane has block lock. -/
abbrev withLock (n : Nat) (s : State) : State := Lanes.setLane n { Lanes.lane s n with locked := true } s

theorem blockLock_due (hs : Lanes.streller s n = true) (h : (Lanes.lane s n).st = .t2) : Lanes.blockLock n s =
    if (Lanes.lane s n).fromLoss then Lanes.enter n .t7 (withLock n s)
    else if (Lanes.lane s n).marked then Lanes.enter n .t3 (withLock n s) else withLock n s := by
  have stored : Lanes.lane (withLock n s) n = { Lanes.lane s n with locked := true } := lane_setLane_same ..
  refine (if_pos (by simp [h, hs])).trans ?_
  rw [tryT2_eq (by rw [stored]; exact h) (by rw [stored]), stored]

theorem blockLock_idle (h : Lanes.streller s n = false ∨ (Lanes.lane s n).st ≠ .t2) : Lanes.blockLock n s = s :=
  if_neg (by simpa [imp_iff_not_or, or_comm] using h)

/-! ### T5 and T6 (R346, R349) -/

theorem tryT5_eq (h : (Lanes.lane s n).st = .t5) : Lanes.tryT5 n s =
    if (Lanes.lane s n).converged = true ∧ 8 ≤ (Lanes.lane s n).run then Lanes.enter n .t6 s else s :=
  if_congr (by simp [h]) rfl rfl

theorem converged_due (h : (Lanes.lane s n).st = .t5) : Lanes.converged n s =
    let t := Lanes.setLane n { Lanes.lane s n with converged := true } s
    if 8 ≤ (Lanes.lane s n).run then Lanes.enter n .t6 t else t := by
  refine (if_pos h).trans ?_
  rw [tryT5_eq (by rw [lane_setLane_same]; exact h), lane_setLane_same]
  exact if_congr (by simp) rfl rfl

theorem converged_idle (h : (Lanes.lane s n).st ≠ .t5) : Lanes.converged n s = s := if_neg h

/-- T6 ends when both results are known. -/
theorem tryT6_ends {a b : Bool} (h : (Lanes.lane s n).st = .t6) (ha : (Lanes.lane s n).ownPass = some a)
    (hb : (Lanes.lane s n).partnerPass = some b) :
    Lanes.tryT6 n s = if a && b then Lanes.passed n s else Lanes.failure n s := by
  simp only [Lanes.tryT6, h, ha, hb]

theorem tryT6_waits (h : (Lanes.lane s n).ownPass = none ∨ (Lanes.lane s n).partnerPass = none) : Lanes.tryT6 n s = s := by
  unfold Lanes.tryT6
  rcases h with h | h
  · simp [h]
  · simp [h]

/-- The lane has its own result of T6, from a check with `e` errors. -/
abbrev judgedOwn (n e : Nat) (s : State) : State :=
  Lanes.setLane n
    { Lanes.lane s n with ownPass := some (decide (e ≤ Lanes.allowed (Lanes.lane s n).rate (Lanes.lane s n).fec)) }
    (Ops.setReg (0x7100 + n) 0x0C (min e 0xFFFFFFFF) s)

theorem prbsEnd_t6 (h : (Lanes.lane s n).st = .t6) (e : Nat) : Lanes.prbsEnd n e s = Lanes.tryT6 n (judgedOwn n e s) := by
  unfold Lanes.prbsEnd
  dsimp only
  split
  · rfl
  · next ht => exact absurd (h.symm.trans ht) nofun
  · next h6 _ => exact absurd h h6

theorem prbsEnd_waits (h : (Lanes.lane s n).st = .t6) (hp : (Lanes.lane s n).partnerPass = none) (e : Nat) :
    Lanes.prbsEnd n e s = judgedOwn n e s := by
  rw [prbsEnd_t6 h]
  exact tryT6_waits (.inr (by rw [lane_setLane_same]; exact hp))

theorem prbsEnd_ends {b : Bool} (h : (Lanes.lane s n).st = .t6) (hp : (Lanes.lane s n).partnerPass = some b) (e : Nat) :
    Lanes.prbsEnd n e s = if decide (e ≤ Lanes.allowed (Lanes.lane s n).rate (Lanes.lane s n).fec) && b then
        Lanes.passed n (judgedOwn n e s)
      else Lanes.failure n (judgedOwn n e s) := by
  have stored : Lanes.lane (judgedOwn n e s) n = { Lanes.lane s n with
      ownPass := some (decide (e ≤ Lanes.allowed (Lanes.lane s n).rate (Lanes.lane s n).fec)) } := lane_setLane_same ..
  rw [prbsEnd_t6 h]
  exact tryT6_ends (by rw [stored]; exact h) (by rw [stored]) (by rw [stored]; exact hp)

theorem prbsEnd_test (h : (Lanes.lane s n).st = .test) (e : Nat) :
    Lanes.prbsEnd n e s = if Lanes.pattern s n = 0 then s else Lanes.patternErrors n e s := by
  simp only [Lanes.prbsEnd, h]

theorem prbsEnd_idle (h6 : (Lanes.lane s n).st ≠ .t6) (ht : (Lanes.lane s n).st ≠ .test) (e : Nat) :
    Lanes.prbsEnd n e s = s := by
  unfold Lanes.prbsEnd
  cases hs : (Lanes.lane s n).st <;> simp_all

/-! ### What leads back (R346, R350 to R352, R355, R369) -/

theorem timeout_early (hs : Lanes.streller s n = true)
    (h : (Lanes.lane s n).st = .t1 ∨ (Lanes.lane s n).st = .t2 ∨ (Lanes.lane s n).st = .t3 ∨ (Lanes.lane s n).st = .t4) :
    Lanes.timeout n s = Lanes.enter n .t0 (Lanes.setRate n 0 false s) := by
  refine (if_neg (by simp [hs])).trans ?_
  rcases h with h | h | h | h <;> simp only [h]

theorem timeout_late (hs : Lanes.streller s n = true) (h : (Lanes.lane s n).st = .t5 ∨ (Lanes.lane s n).st = .t6) :
    Lanes.timeout n s = Lanes.failure n s := by
  refine (if_neg (by simp [hs])).trans ?_
  rcases h with h | h <;> simp only [h]

theorem timeout_idle (h : Lanes.streller s n = false ∨ (Lanes.lane s n).st ∉ [LaneSt.t1, .t2, .t3, .t4, .t5, .t6]) :
    Lanes.timeout n s = s := by
  unfold Lanes.timeout
  rcases h with h | h
  · simp [h]
  · cases hs : (Lanes.lane s n).st <;> simp_all

theorem lossOfSignal_due (hs : Lanes.streller s n = true)
    (h : (Lanes.lane s n).st ∈ [LaneSt.t1, .t2, .t3, .t4, .t5, .t6, .t7]) (hp : (Lanes.lane s n).partnerLp = 0) :
    Lanes.lossOfSignal n s = Lanes.enter n .t0 (Lanes.setRate n 0 false s) := by
  unfold Lanes.lossOfSignal
  cases hx : (Lanes.lane s n).st <;> simp_all

theorem lossOfSignal_idle (h : Lanes.streller s n = false ∨ (Lanes.lane s n).partnerLp ≠ 0 ∨
    (Lanes.lane s n).st ∉ [LaneSt.t1, .t2, .t3, .t4, .t5, .t6, .t7]) : Lanes.lossOfSignal n s = s := by
  unfold Lanes.lossOfSignal
  rcases h with h | h | h
  · cases hx : (Lanes.lane s n).st <;> simp [h]
  · cases hx : (Lanes.lane s n).st <;> simp [h]
  · cases hx : (Lanes.lane s n).st <;> simp_all

theorem absentTimeout_due (hs : Lanes.streller s n = true) (h : (Lanes.lane s n).st = .t0)
    (ha : (Lanes.lane s n).absent = false) :
    Lanes.absentTimeout n s = Lanes.cause n 2 (Lanes.setLane n { Lanes.lane s n with absent := true } s) :=
  if_pos (by simp [hs, h, ha])

theorem absentTimeout_idle (h : Lanes.streller s n = false ∨ (Lanes.lane s n).st ≠ .t0 ∨ (Lanes.lane s n).absent = true) :
    Lanes.absentTimeout n s = s := by
  refine if_neg ?_
  rcases h with h | h | h <;> simp [h]

end

/-- The loss of lock has been counted and observed. -/
abbrev lockLost (n : Nat) (s : State) : State :=
  Ops.observe (Ops.channel 4 n 0) (Lanes.cause n 9 (Ops.bump (0x7100 + n) 8 s))

section
variable {s : State} {n : Fin 64}

theorem lockLost_routes (n : Fin 64) (s : State) : Routes s (lockLost n s) :=
  (Routes.setReg (i := 0x7100 + n) (k := 8) (by omega) (by decide) _ s).trans
    ((Routes.cause n 9 _).trans (.of_spares (.observe _ _)))

theorem lossOfLock_idle (h : (Lanes.lane s n).st ≠ .t7 ∨ (Lanes.lane s n).partnerLp ≠ 0) : Lanes.lossOfLock n s = s :=
  if_pos h

section
variable (h : (Lanes.lane s n).st = .t7) (hp : (Lanes.lane s n).partnerLp = 0)
include h hp

theorem lossOfLock_streller (hs : Lanes.streller s n = true) : Lanes.lossOfLock n s = Lanes.enter n .t2 (lockLost n s) := by
  have single : Lanes.portOf (lockLost n s) n = none := ((lockLost_routes n s).portOf_eq n).trans (Option.isNone_iff_eq_none.1 hs)
  refine (if_neg (by simp [h, hp])).trans ?_
  rw [← lockLost]
  simp only [single]

theorem lossOfLock_port {f : Nat} (hf : Lanes.portOf s n = some f) : Lanes.lossOfLock n s =
    (Lanes.portLanes s f).foldl (fun y m => if (Lanes.lane y m).st = .t7 then Lanes.enter m .t2 y else y) (lockLost n s) := by
  have routes := lockLost_routes n s
  have member : Lanes.portOf (lockLost n s) n = some f := (routes.portOf_eq n).trans hf
  have same : Lanes.portLanes (lockLost n s) f = Lanes.portLanes s f := by
    rw [Lanes.portLanes, routes.portCode_eq (portOf_lt hf), Lanes.portLanes]
  refine (if_neg (by simp [h, hp])).trans ?_
  rw [← lockLost]
  simp only [member, same]

end
end

/-- Settles O44: each event by the state of the lane, on a lane of its own and on one of an Ethernet port. -/
theorem laneTraining : Obligations.LaneTraining := by
  unfold Obligations.LaneTraining
  refine ⟨fun s n h hs => ⟨fun h0 => ?burst, fun h5 h0 => ?detects, fun h5 ht hp => ?heard, fun h5 ht hp => ?woken,
      fun h1 => ?cdr, fun h2 => ⟨fun hl => ?relocks, fun hl hm => ?locksMarked, fun hl hm => ?locks⟩,
      fun h5 hr => ?converges, fun h5 hr => ?checks, fun e h6 => ⟨fun hp => ?checked, fun hp ho => ?passes, fun hf => ?fails⟩,
      fun ht => ?startsAgain, fun ht => ?failsAgain, fun ht hp => ?silent, fun h0 ha => ?absent, fun h7 hp => ?unlocked⟩,
    fun s n h => ⟨fun hi => ?noBurst, fun hi => ?noSignal, fun hi => ?noCdr, fun hi => ?noLock, fun hi => ?noConvergence,
      fun e h6 ht => ?noCheck, fun hi => ?noTimeout, fun hi => ?noSilence, fun hi => ?noAbsence, fun hi => ?noUnlock,
      fun e ht => ?tests, fun f hf h7 hp => ?portUnlocked⟩⟩
  case burst => exact run_awake_of h (burst_due (s := Ops.begin s) hs h0)
  case detects => exact run_awake_of h (signalDetect_starts (s := Ops.begin s) h5 hs h0)
  case heard =>
    exact run_awake_of h ((signalDetect_noticed (s := Ops.begin s) h5 ht (hp.trans_ne (by decide))).trans
      (if_neg (hp.trans_ne (by decide))))
  case woken =>
    exact run_awake_of h ((signalDetect_noticed (s := Ops.begin s) h5 ht (hp.trans_ne (by decide))).trans (if_pos hp))
  case cdr => exact run_awake_of h (cdrLock_due (s := Ops.begin s) hs h1)
  case relocks => exact run_awake_of h ((blockLock_due (s := Ops.begin s) hs h2).trans (if_pos hl))
  case locksMarked =>
    exact run_awake_of h ((blockLock_due (s := Ops.begin s) hs h2).trans
      ((if_neg (Bool.eq_false_iff.1 hl)).trans (if_pos hm)))
  case locks =>
    exact run_awake_of h ((blockLock_due (s := Ops.begin s) hs h2).trans
      ((if_neg (Bool.eq_false_iff.1 hl)).trans (if_neg (Bool.eq_false_iff.1 hm))))
  case converges => exact run_awake_of h ((converged_due (s := Ops.begin s) h5).trans (if_neg (Nat.not_le.2 hr)))
  case checks => exact run_awake_of h ((converged_due (s := Ops.begin s) h5).trans (if_pos hr))
  case checked => exact run_awake_of h (prbsEnd_waits (s := Ops.begin s) h6 hp _)
  case passes => exact run_awake_of h ((prbsEnd_ends (s := Ops.begin s) h6 hp _).trans (if_pos (by rw [Bool.and_true]; exact ho)))
  case fails =>
    rcases hf with hp | ⟨hp, ho⟩
    · exact run_awake_of h ((prbsEnd_ends (s := Ops.begin s) h6 hp _).trans (if_neg (by simp)))
    · exact run_awake_of h ((prbsEnd_ends (s := Ops.begin s) h6 hp _).trans
        (if_neg (by rw [Bool.and_true]; exact Bool.eq_false_iff.1 ho)))
  case startsAgain => exact run_awake_of h (timeout_early (s := Ops.begin s) hs ht)
  case failsAgain => exact run_awake_of h (timeout_late (s := Ops.begin s) hs ht)
  case silent => exact run_awake_of h (lossOfSignal_due (s := Ops.begin s) hs ht hp)
  case absent => exact run_awake_of h (absentTimeout_due (s := Ops.begin s) hs h0 ha)
  case unlocked => exact run_awake_of h (lossOfLock_streller (s := Ops.begin s) h7 hp hs)
  case noBurst => exact run_awake_of h (burst_idle (s := Ops.begin s) hi)
  case noSignal => exact run_awake_of h (signalDetect_idle (s := Ops.begin s) hi)
  case noCdr => exact run_awake_of h (cdrLock_idle (s := Ops.begin s) hi)
  case noLock => exact run_awake_of h (blockLock_idle (s := Ops.begin s) hi)
  case noConvergence => exact run_awake_of h (converged_idle (s := Ops.begin s) hi)
  case noCheck => exact run_awake_of h (prbsEnd_idle (s := Ops.begin s) h6 ht _)
  case noTimeout => exact run_awake_of h (timeout_idle (s := Ops.begin s) hi)
  case noSilence => exact run_awake_of h (lossOfSignal_idle (s := Ops.begin s) hi)
  case noAbsence => exact run_awake_of h (absentTimeout_idle (s := Ops.begin s) hi)
  case noUnlock => exact run_awake_of h (lossOfLock_idle (s := Ops.begin s) hi)
  case tests => exact run_awake_of h (prbsEnd_test (s := Ops.begin s) ht _)
  case portUnlocked => exact run_awake_of h (lossOfLock_port (s := Ops.begin s) h7 hp hf)

end Sys2Proof.Laws
end

section
/-!
SUPPORT. The link blocks that a lane receives (R338, R339, R346 to R350, R355, R362, R363).
-/

namespace Sys2Proof.Laws

open Sys2Proof Sys2Proof.Machine Sys2Proof.Safety

/-! ### The deliveries of a bond touch the receive buffers of its lanes alone (R343, R363, R364) -/

/-- A lane without its receive buffers. -/
def unbuffered (x : Lane) : Lane := { x with rx0 := [], rx1 := [], rx2 := [], rx3 := [] }

/-- `t` has the lanes of `s` but for their receive buffers. -/
def Rebuffers (s t : State) : Prop := ∀ m, unbuffered (Lanes.lane t m) = unbuffered (Lanes.lane s m)

namespace Rebuffers

variable {s t u : State}

theorem refl (s : State) : Rebuffers s s := fun _ => rfl

theorem trans (h : Rebuffers s t) (g : Rebuffers t u) : Rebuffers s u := fun m => (g m).trans (h m)

theorem either {c : Prop} [Decidable c] (h : Rebuffers s t) (g : Rebuffers s u) : Rebuffers s (if c then t else u) := by
  split
  · exact h
  · exact g

theorem of_lanes (h : t.lanes = s.lanes) : Rebuffers s t := fun m => by rw [Lanes.lane, h, Lanes.lane]

theorem setLane {n : Nat} {x : Lane} (h : unbuffered x = unbuffered (Lanes.lane s n)) : Rebuffers s (Lanes.setLane n x s) := by
  intro m
  rw [lane_setLane]
  split
  · next hm => rw [h, hm]
  · rfl

theorem cause (n b : Nat) (s : State) : Rebuffers s (Lanes.cause n b s) := fun m => by rw [lane_cause]

theorem bump (i k : Nat) (s : State) : Rebuffers s (Ops.bump i k s) := of_lanes rfl

theorem setBond (b : Nat) (x : Bond) (s : State) : Rebuffers s (Lanes.setBond b x s) := of_lanes rfl

theorem store (b : BridgeId) (x : Bridge) (s : State) : Rebuffers s (Bridges.store b x s) := of_lanes rfl

theorem laneOut (o : Table WordOut) (s : State) : Rebuffers s { s with laneOut := o } := of_lanes rfl

section
variable {b : BridgeId} (kind : b.kind = .data) (s : State)
include kind

theorem capture (v : Nat) : Rebuffers s (Bridges.capture b v s) := by
  unfold Bridges.capture
  simp only [kind]
  exact either (refl s) (store b _ s)

theorem deliverBridge : Rebuffers s (Bridges.deliver b s) := by
  unfold Bridges.deliver
  simp only [kind]
  refine either (refl s) (either ?_ (refl s))
  split
  · exact refl s
  · exact store b _ s

theorem freeBridge : Rebuffers s (Bridges.free b s) := by
  unfold Bridges.free
  simp only [kind]
  exact either (refl s) (store b _ s)

end

theorem unbuffered_setRx (x : Lane) (k : Nat) (l : List RxTransfer) : unbuffered (Lanes.setRx x k l) = unbuffered x := by
  unfold Lanes.setRx
  split <;> rfl

theorem cross (n k : Nat) (s : State) : Rebuffers s (Lanes.cross n k s) := by
  unfold Lanes.cross
  split
  · exact either ((setLane (unbuffered_setRx _ _ _)).trans (capture rfl _ _)) (refl s)
  · exact refl s

theorem pump (i : Nat) (s : State) : Rebuffers s (Fabric.pump (.lane i) s) := by
  unfold Fabric.pump
  split
  · exact refl s
  · exact laneOut _ s

theorem feed (n k : Nat) (s : State) : Rebuffers s (Lanes.feed n k s) := by
  unfold Lanes.feed
  dsimp only
  split
  · have kind : (Lanes.rxCrossing n k).kind = .data := rfl
    have takes := (deliverBridge kind (Lanes.cross n k s)).trans (freeBridge kind _)
    exact ((cross n k s).trans takes).trans (((laneOut _ _).trans (cross n k _)).trans (pump _ _))
  · exact cross n k s

theorem feedAll (n : Nat) (s : State) : Rebuffers s (Lanes.feedAll n s) :=
  (((feed n 0 s).trans (feed n 1 _)).trans (feed n 2 _)).trans (feed n 3 _)

theorem deliver (n : Nat) (t : RxTransfer) (s : State) : Rebuffers s (Lanes.deliver n t s) := by
  refine either ((bump (0x7100 + n) 0x0D s).trans (cause n 11 _)) (.trans ?_ (feedAll n _))
  exact setLane rfl

theorem drainBond (fuel b : Nat) (s : State) : Rebuffers s (Lanes.drainBond fuel b s) := by
  induction fuel generalizing s with
  | zero => exact refl s
  | succ fuel ih =>
    unfold Lanes.drainBond
    refine either (refl s) ?_
    split
    · exact ((setBond b _ s).trans (deliver _ _ _)).trans (ih _)
    · exact either ((((setBond b _ s).trans (bump _ _ _)).trans (deliver _ _ _)).trans (ih _)) (refl s)

theorem drain (b : Nat) (s : State) : Rebuffers s (Lanes.drain b s) := drainBond _ b s

end Rebuffers

/-! ### Marks (R338, R339, R346, R363) -/

section
variable {s : State} {n : Nat}

/-- A lane in T2 with block lock and a Mark goes on; after a loss of lock it is Up. -/
theorem tryT2_marked (hm : (Lanes.lane s n).marked = true) (h : (Lanes.lane s n).st = .t2) (hl : (Lanes.lane s n).locked = true) :
    Lanes.tryT2 n s = Lanes.enter n (if (Lanes.lane s n).fromLoss then .t7 else .t3) s := by
  rw [tryT2_eq h hl, if_pos hm]
  exact (apply_ite (Lanes.enter n · s) _ _ _).symm

section
variable {t : State} {x : Lane} (ht : unbuffered (Lanes.lane t n) = unbuffered x)
include ht

/-- A Mark on a lane whose receive buffers alone have changed since. -/
theorem mark_waits (h : x.st ≠ .t2 ∨ x.locked = false) : Lanes.tryT2 n t = t := by
  have st : (Lanes.lane t n).st = x.st := eq_of_kept ht Lane.st fun _ => rfl
  have locked : (Lanes.lane t n).locked = x.locked := eq_of_kept ht Lane.locked fun _ => rfl
  exact tryT2_idle (by rwa [st, locked])

theorem mark_goes (hm : x.marked = true) (h : x.st = .t2) (hl : x.locked = true) :
    Lanes.tryT2 n t = Lanes.enter n (if x.fromLoss then .t7 else .t3) t := by
  have fromLoss : (Lanes.lane t n).fromLoss = x.fromLoss := eq_of_kept ht Lane.fromLoss fun _ => rfl
  rw [tryT2_marked ((eq_of_kept ht Lane.marked fun _ => rfl).trans hm) ((eq_of_kept ht Lane.st fun _ => rfl).trans h)
    ((eq_of_kept ht Lane.locked fun _ => rfl).trans hl), fromLoss]

end

theorem mark_deaf (h : Lanes.listens s n = false) (q : Nat) (live : Bool) : Lanes.mark n q live s = s :=
  if_pos (by simp [h])

section
variable (h : Lanes.listens s n = true)
include h

/-- The lane has taken the Mark. -/
abbrev marked (x : Lane) (q : Option Nat) : Lane := { x with marked := true, bseq := q }

/-- The Mark has been taken, and the bond has delivered what it can. -/
abbrev markedMember (b n q : Nat) (live : Bool) (s : State) : State :=
  Lanes.drain b (Lanes.setLane n
    (marked (Lanes.lane s n) (if live then some (Lanes.fullSeq (Lanes.bond s b).rxNext q) else none)) s)

section
variable {b : Nat} (hb : Lanes.bondOf s n = some b) (q : Nat) (live : Bool)
include hb

theorem mark_member : Lanes.mark n q live s = Lanes.tryT2 n (markedMember b n q live s) := by
  refine (if_neg (by simp [h])).trans ?_
  simp only [hb]

omit h hb in
theorem lane_markedMember : unbuffered (Lanes.lane (markedMember b n q live s) n) = unbuffered
    (marked (Lanes.lane s n) (if live then some (Lanes.fullSeq (Lanes.bond s b).rxNext q) else none)) := by
  rw [Rebuffers.drain, lane_setLane_same]

theorem mark_member_waits (hw : (Lanes.lane s n).st ≠ .t2 ∨ (Lanes.lane s n).locked = false) :
    Lanes.mark n q live s = markedMember b n q live s := by
  rw [mark_member h hb]
  exact mark_waits (lane_markedMember q live) hw

theorem mark_member_goes (h2 : (Lanes.lane s n).st = .t2) (hl : (Lanes.lane s n).locked = true) : Lanes.mark n q live s =
    Lanes.enter n (if (Lanes.lane s n).fromLoss then .t7 else .t3) (markedMember b n q live s) := by
  rw [mark_member h hb]
  exact mark_goes (x := marked (Lanes.lane s n) _) (lane_markedMember q live) rfl h2 hl

end

section
variable (hb : Lanes.bondOf s n = none) (q : Nat) (live : Bool)
include hb

theorem mark_single : Lanes.mark n q live s =
    Lanes.tryT2 n (Lanes.setLane n { Lanes.lane s n with marked := true } s) := by
  refine (if_neg (by simp [h])).trans ?_
  simp only [hb]

theorem mark_single_waits (hw : (Lanes.lane s n).st ≠ .t2 ∨ (Lanes.lane s n).locked = false) :
    Lanes.mark n q live s = Lanes.setLane n { Lanes.lane s n with marked := true } s := by
  rw [mark_single h hb]
  exact mark_waits (congrArg unbuffered (lane_setLane_same ..)) hw

theorem mark_single_goes (h2 : (Lanes.lane s n).st = .t2) (hl : (Lanes.lane s n).locked = true) : Lanes.mark n q live s =
    Lanes.enter n (if (Lanes.lane s n).fromLoss then .t7 else .t3)
      (Lanes.setLane n { Lanes.lane s n with marked := true } s) := by
  rw [mark_single h hb]
  exact mark_goes (x := { Lanes.lane s n with marked := true }) (congrArg unbuffered (lane_setLane_same ..)) rfl h2 hl

end
end

/-! ### Capability blocks (R347) -/

/-- A Capability block's content is the lane's in T3. -/
def offered (x : Lane) (v : BitVec 56) : Lane :=
  let run := if x.partner = v ∧ 0 < x.run then x.run + 1 else 1
  { x with
    partner := v, run := run, ackSent := x.ackSent || decide (4 ≤ run), ackSeen := x.ackSeen || v.getLsbD 23 }

theorem capability_deaf (h : Lanes.listens s n = false) (v : BitVec 56) : Lanes.capability n v s = s :=
  if_pos (by simp [h])

theorem capability_other (hl : Lanes.listens s n = true) (h : (Lanes.lane s n).st ≠ .t3) (v : BitVec 56) :
    Lanes.capability n v s = Lanes.setLane n { Lanes.lane s n with partner := v } s :=
  (if_neg (by simp [hl])).trans (if_neg h)

theorem capability_t3 (hl : Lanes.listens s n = true) (h : (Lanes.lane s n).st = .t3) (v : BitVec 56) :
    Lanes.capability n v s =
      let x := offered (Lanes.lane s n) v
      if (x.ackSent && x.ackSeen) = true then
        Lanes.enter n (if x.rate = min x.offer (v.toNat % 8) then .t7 else .t4) (Lanes.setLane n x s)
      else Lanes.setLane n x s := by
  refine (if_neg (by simp [hl])).trans ((if_pos h).trans ?_)
  have stored : Lanes.lane (Lanes.setLane n (offered (Lanes.lane s n) v) s) n = offered (Lanes.lane s n) v := lane_setLane_same ..
  have stays : (offered (Lanes.lane s n) v).st = .t3 := h
  show Lanes.tryT3 n (Lanes.setLane n (offered (Lanes.lane s n) v) s) = _
  rw [Lanes.tryT3, stored, toT4_eq, stored]
  refine if_congr (by simp [stays]) rfl rfl

/-! ### Rate blocks (R348) -/

theorem rate_other (h : (Lanes.lane s n).st ≠ .t4) (p : Nat) (f : Bool) : Lanes.rate n p f s = s := if_pos h

/-- What a lane proposes does not depend on how many of the blocks it has received. -/
theorem proposal_run (k : Nat) :
    Lanes.proposal (Lanes.setLane n { Lanes.lane s n with run := k } s) n = Lanes.proposal s n := by
  simp only [Lanes.proposal, lane_setLane_same]
  rfl

theorem rate_t4 (h : (Lanes.lane s n).st = .t4) (p : Nat) (f : Bool) (k : Nat)
    (hk : (if (p, f) = Lanes.proposal s n then (Lanes.lane s n).run + 1 else 0) = k) : Lanes.rate n p f s =
      let t := Lanes.setLane n { Lanes.lane s n with run := k } s
      if 16 ≤ (Lanes.lane s n).sent ∧ 4 ≤ k then
        Lanes.enter n .t5 (Lanes.setRate n (Lanes.proposal s n).1 (Lanes.proposal s n).2 t)
      else t := by
  subst hk
  refine (if_neg (not_not.2 h)).trans ?_
  rw [tryT4_eq (by rw [lane_setLane_same]; exact h), proposal_run, lane_setLane_same]

/-! ### Verify blocks (R346, R349) -/

section
variable (v : Byte)

theorem toNat_beq (k : Byte) : (v.toNat == k.toNat) = (v == k) := by
  rw [Bool.eq_iff_iff, beq_iff_eq, beq_iff_eq, BitVec.toNat_inj]

theorem verify_t5 (h : (Lanes.lane s n).st = .t5) : Lanes.verify n v.toNat s =
    let run := if v = 1 then (Lanes.lane s n).run + 1 else 0
    let t := Lanes.setLane n { Lanes.lane s n with run := run } s
    if (Lanes.lane s n).converged = true ∧ 8 ≤ run then Lanes.enter n .t6 t else t := by
  have ready : (if v.toNat = 1 then (Lanes.lane s n).run + 1 else 0) = if v = 1 then (Lanes.lane s n).run + 1 else 0 :=
    if_congr (BitVec.toNat_inj (y := 1)) rfl rfl
  simp only [Lanes.verify, h, ready]
  rw [tryT5_eq (by rw [lane_setLane_same]), lane_setLane_same]

/-- The lane has the partner's result of T6. -/
abbrev judgedPartner (n : Nat) (v : Byte) (s : State) : State :=
  Lanes.setLane n { Lanes.lane s n with partnerPass := some (v == 2) } s

section
variable (h : (Lanes.lane s n).st = .t6)
include h

theorem verify_t6 (hv : v = 2 ∨ v = 3) : Lanes.verify n v.toNat s = Lanes.tryT6 n (judgedPartner n v s) := by
  have result : v.toNat = 2 ∨ v.toNat = 3 := hv.imp (congrArg BitVec.toNat) (congrArg BitVec.toNat)
  have pass : (v.toNat == 2) = (v == 2) := toNat_beq v 2
  unfold Lanes.verify
  dsimp only
  split
  · next h5 => exact absurd (h.symm.trans h5) nofun
  · rw [if_pos result, pass]
  · next h6 => exact absurd h h6

theorem verify_t6_none (h2 : v ≠ 2) (h3 : v ≠ 3) : Lanes.verify n v.toNat s = s := by
  have other : ¬ (v.toNat = 2 ∨ v.toNat = 3) := fun e =>
    e.elim (fun e => h2 (BitVec.eq_of_toNat_eq e)) fun e => h3 (BitVec.eq_of_toNat_eq e)
  simp only [Lanes.verify, h, if_neg other]

theorem verify_t6_waits (hv : v = 2 ∨ v = 3) (ho : (Lanes.lane s n).ownPass = none) :
    Lanes.verify n v.toNat s = judgedPartner n v s := by
  rw [verify_t6 v h hv]
  exact tryT6_waits (.inl (by rw [lane_setLane_same]; exact ho))

theorem verify_t6_ends {a : Bool} (hv : v = 2 ∨ v = 3) (ho : (Lanes.lane s n).ownPass = some a) : Lanes.verify n v.toNat s =
    if a && v == 2 then Lanes.passed n (judgedPartner n v s) else Lanes.failure n (judgedPartner n v s) := by
  have stored : Lanes.lane (judgedPartner n v s) n = { Lanes.lane s n with partnerPass := some (v == 2) } :=
    lane_setLane_same ..
  rw [verify_t6 v h hv]
  exact tryT6_ends (by rw [stored]; exact h) (by rw [stored]; exact ho) (by rw [stored])

end
end

theorem verify_idle (h5 : (Lanes.lane s n).st ≠ .t5) (h6 : (Lanes.lane s n).st ≠ .t6) (v : Nat) : Lanes.verify n v s = s := by
  unfold Lanes.verify
  cases hs : (Lanes.lane s n).st <;> simp_all

/-! ### Low power blocks, and those of an unknown type (R338, R362) -/

section
variable {v : Byte}

theorem lowPower_due (hl : Lanes.listens s n = true) (h : (Lanes.lane s n).st = .t7 ∨ (Lanes.lane s n).st = .lp1)
    (hv : v = 1 ∨ v = 2) :
    Lanes.lowPower n v.toNat s = Lanes.setLane n { Lanes.lane s n with partnerLp := v.toNat, bseq := none } s :=
  if_pos ⟨hl, h, hv.imp (congrArg BitVec.toNat) (congrArg BitVec.toNat)⟩

theorem lowPower_idle (h : Lanes.listens s n = false ∨
    ((Lanes.lane s n).st ≠ .t7 ∧ (Lanes.lane s n).st ≠ .lp1 ∨ v ≠ 1 ∧ v ≠ 2)) : Lanes.lowPower n v.toNat s = s := by
  refine if_neg fun ⟨listens, up, low⟩ => ?_
  rcases h with h | ⟨h7, h1⟩ | ⟨h1, h2⟩
  · exact Bool.eq_false_iff.1 h listens
  · exact up.elim h7 h1
  · exact low.elim (fun e => h1 (BitVec.eq_of_toNat_eq e)) fun e => h2 (BitVec.eq_of_toNat_eq e)

end

theorem unknownLink_due (hl : Lanes.listens s n = true) {t : Nat} (ht : 0x80 ≤ t) (hk : Lanes.knownLink t = false) :
    Lanes.unknownLink n t s = Lanes.cause n 13 (Ops.bump (0x7100 + n) 0x13 s) :=
  if_neg (by simp [hl, hk, Nat.not_lt.2 ht])

theorem unknownLink_idle {t : Nat} (h : Lanes.listens s n = false ∨ t < 0x80 ∨ Lanes.knownLink t = true) :
    Lanes.unknownLink n t s = s := if_pos (by simpa using h)

theorem bondBlock_deaf (h : Lanes.listens s n = false) (k tx rx : Nat) : Lanes.bondBlock n k tx rx s = s :=
  if_pos (by simp [h])

end

/-- Settles O46: each link block by the stage of the lane; a Mark on a member of a bond finds the lane as the bond's deliveries have
left it, but for its buffers. -/
theorem linkBlocksReceived : Obligations.LinkBlocksReceived := by
  unfold Obligations.LinkBlocksReceived
  refine ⟨fun s n h hl => ⟨fun c q live b hb => ⟨fun hw => ?memberMarked, fun h2 hk => ?memberGoes⟩,
      fun c q live hb => ⟨fun hw => ?marked, fun h2 hk => ?goes⟩,
      fun v => ⟨fun h3 => ?partner, fun h3 ha => ?offers, fun h3 ha => ?offered⟩,
      fun p f => ⟨fun h4 hp => ?differs, fun h4 hp => ⟨fun hf => ?agrees, fun hr hs => ?agreed⟩⟩,
      fun v h5 => ⟨fun hw => ?ready, fun hc hr => ?checks⟩,
      fun v h6 => ⟨fun h2 h3 => ?noResult, fun hv ho => ?result, fun a hv ho => ?results⟩,
      fun v => ⟨fun hs hv => ?notice, fun hi => ?noNotice⟩, fun ty => ⟨fun ht hk => ?unknown, fun hi => ?known⟩⟩,
    fun s n h => ⟨fun hd => ⟨fun c q live => ?deafMark, fun v => ?deafCapability, fun v => ?deafPower, fun ty => ?deafType,
        fun k tx rx => ?deafBond⟩,
      fun h4 p f => ?noRate, fun h5 h6 v => ?noVerify⟩⟩
  case memberMarked => exact run_awake_of h (mark_member_waits (s := Ops.begin s) hl hb q.toNat live hw)
  case memberGoes => exact run_awake_of h (mark_member_goes (s := Ops.begin s) hl hb q.toNat live h2 hk)
  case marked => exact run_awake_of h (mark_single_waits (s := Ops.begin s) hl hb q.toNat live hw)
  case goes => exact run_awake_of h (mark_single_goes (s := Ops.begin s) hl hb q.toNat live h2 hk)
  case partner => exact run_awake_of h (capability_other (s := Ops.begin s) hl h3 v)
  case offers => exact run_awake_of h ((capability_t3 (s := Ops.begin s) hl h3 v).trans (if_neg (Bool.eq_false_iff.1 ha)))
  case offered => exact run_awake_of h ((capability_t3 (s := Ops.begin s) hl h3 v).trans (if_pos ha))
  case differs =>
    exact run_awake_of h ((rate_t4 (s := Ops.begin s) h4 p.toNat f 0 (if_neg hp)).trans (if_neg (by simp)))
  case agrees =>
    refine run_awake_of h ((rate_t4 (s := Ops.begin s) h4 p.toNat f _ (if_pos hp)).trans (if_neg fun e => ?_))
    exact hf.elim (Nat.not_lt.2 (Nat.le_of_succ_le_succ e.2)) (Nat.not_lt.2 e.1)
  case agreed =>
    have proposes : Lanes.proposal (Ops.begin s) n = (p.toNat, f) := hp.symm
    refine run_awake_of h ((rate_t4 (s := Ops.begin s) h4 p.toNat f _ (if_pos hp)).trans ?_)
    rw [proposes]
    exact if_pos ⟨hs, Nat.succ_le_succ hr⟩
  case ready =>
    refine run_awake_of h ((verify_t5 (s := Ops.begin s) v h5).trans (if_neg fun e => ?_))
    exact hw.elim (fun hc => Bool.eq_false_iff.1 hc e.1) (Nat.not_lt.2 e.2)
  case checks => exact run_awake_of h ((verify_t5 (s := Ops.begin s) v h5).trans (if_pos ⟨hc, hr⟩))
  case noResult => exact run_awake_of h (verify_t6_none (s := Ops.begin s) v h6 h2 h3)
  case result => exact run_awake_of h (verify_t6_waits (s := Ops.begin s) v h6 hv ho)
  case results => exact run_awake_of h (verify_t6_ends (s := Ops.begin s) v h6 hv ho)
  case notice => exact run_awake_of h (lowPower_due (s := Ops.begin s) hl hs hv)
  case noNotice => exact run_awake_of h (lowPower_idle (s := Ops.begin s) (.inr hi))
  case unknown => exact run_awake_of h (unknownLink_due (s := Ops.begin s) hl ht hk)
  case known => exact run_awake_of h (unknownLink_idle (s := Ops.begin s) (.inr hi))
  case deafMark => exact run_awake_of h (mark_deaf (s := Ops.begin s) hd _ _)
  case deafCapability => exact run_awake_of h (capability_deaf (s := Ops.begin s) hd v)
  case deafPower => exact run_awake_of h (lowPower_idle (s := Ops.begin s) (.inl hd))
  case deafType => exact run_awake_of h (unknownLink_idle (s := Ops.begin s) (.inl hd))
  case deafBond => exact run_awake_of h (bondBlock_deaf (s := Ops.begin s) hd _ _ _)
  case noRate => exact run_awake_of h (rate_other (s := Ops.begin s) h4 _ f)
  case noVerify => exact run_awake_of h (verify_idle (s := Ops.begin s) h5 h6 _)

end Sys2Proof.Laws
end

section
/-!
SUPPORT. The objects of the lanes, the bonds and the Ethernet groups, and the control word of a lane (R353, R354, R358 to R361,
R366, R370, R373).
-/

namespace Sys2Proof.Laws

open Sys2Proof Sys2Proof.Machine Sys2Proof.Safety

/-! ### The objects of the lanes' chapter (R366, R370, R371) -/

section
variable {i : Nat} (lo : 0x7000 ≤ i) (hi : i < 0x8000)
include lo hi

theorem find_lanes : Objects.find i = Objects.lanes i := by
  have early : ¬ i < 0x2000 := by omega
  have array : ¬ i < 0x3000 := by omega
  have time : ¬ i < 0x4000 := by omega
  have banks : ¬ i < 0x5000 := by omega
  have queues : ¬ i < 0x6000 := by omega
  have engines : ¬ i < 0x7000 := by omega
  simp only [Objects.find, if_neg early, if_neg array, if_neg time, if_neg banks, if_neg queues, if_neg engines, if_pos hi]

theorem chapterWrite_lanes (t : Transport) (k : Nat) (d : List Byte) (s : State) :
    Dict.chapterWrite t i k d s = Lanes.writeSub i k (Ops.le d) s := by
  have modes : ¬ i < 0x1010 := by omega
  have transports : ¬ (0x1100 ≤ i ∧ i < 0x1200) := by omega
  have supplies : ¬ i < 0x2000 := by omega
  have regions : ¬ (0x2400 ≤ i ∧ i < 0x2800) := by omega
  have loader : ¬ i < 0x3000 := by omega
  have select : ¬ (i = 0x3010 ∧ k = 3) := by omega
  have time : ¬ i < 0x4000 := by omega
  have banks : ¬ i < 0x5000 := by omega
  have queues : ¬ i < 0x6000 := by omega
  have engines : ¬ i < 0x7000 := by omega
  simp only [Dict.chapterWrite, if_neg modes, if_neg transports, if_neg supplies, if_neg regions, if_neg loader, if_neg select,
    if_neg time, if_neg banks, if_neg queues, if_neg engines, if_pos hi]

section
variable {s x : State} {t : Transport} {k n v e : Nat} (hn : Operands.size i k = n) (h : Writes s t i k (le n v))
  (hv : v < 256 ^ n)
include hn h hv

/-- A write of a sub of the chapter that it takes. -/
theorem run_lanes (he : Lanes.writeSub i k v (counted s) = some (.inr x)) :
    Run.run (Operands.write t i k v) s = .next (wrote s t i k (le n v) x) :=
  operands_taken hn h (by omega) (by omega) ((chapterWrite_lanes lo hi t k _ _).trans (by rw [le_bytes_lt hv, he]))

theorem run_lanes_refused (he : Lanes.writeSub i k v (counted s) = some (.inl e)) :
    Run.run (Operands.write t i k v) s = .next (after s (answered s t 2 i k (le n v) e [] (counted s))) :=
  operands_refused hn h (by omega) (by omega) ((chapterWrite_lanes lo hi t k _ _).trans (by rw [le_bytes_lt hv, he]))

end
end

/-- The control word of a lane has four bytes. -/
theorem size_control (n : Fin 64) : Operands.size (0x7100 + n) 1 = 4 := by
  have summary : ¬ 0x7100 + n.val = 0x7000 := by omega
  have here : 0x7100 ≤ 0x7100 + n.val ∧ 0x7100 + n.val < 0x7140 := by omega
  simp only [Operands.size, Objects.row, find_lanes (i := 0x7100 + n.val) (by omega) (by omega), Objects.lanes, if_neg summary,
    if_pos here]
  rfl

/-- The members of a bond have eight bytes. -/
theorem size_members (b : Fin 16) : Operands.size (0x7200 + b) 1 = 8 := by
  have summary : ¬ 0x7200 + b.val = 0x7000 := by omega
  have lanes : ¬ (0x7100 ≤ 0x7200 + b.val ∧ 0x7200 + b.val < 0x7140) := by omega
  have here : 0x7200 ≤ 0x7200 + b.val ∧ 0x7200 + b.val < 0x7210 := by omega
  simp only [Operands.size, Objects.row, find_lanes (i := 0x7200 + b.val) (by omega) (by omega), Objects.lanes, if_neg summary,
    if_neg lanes, if_pos here]
  rfl

/-- The map of an Ethernet group has four bytes. -/
theorem size_portMap (e : Fin 8) : Operands.size (0x7300 + e) 1 = 4 := by
  have summary : ¬ 0x7300 + e.val = 0x7000 := by omega
  have lanes : ¬ (0x7100 ≤ 0x7300 + e.val ∧ 0x7300 + e.val < 0x7140) := by omega
  have bonds : ¬ (0x7200 ≤ 0x7300 + e.val ∧ 0x7300 + e.val < 0x7210) := by omega
  have here : 0x7300 ≤ 0x7300 + e.val ∧ 0x7300 + e.val < 0x7308 := by omega
  simp only [Operands.size, Objects.row, find_lanes (i := 0x7300 + e.val) (by omega) (by omega), Objects.lanes, if_neg summary,
    if_neg lanes, if_neg bonds, if_pos here]
  rfl

theorem writeSub_control_lane (n : Fin 64) (v : Nat) (s : State) :
    Lanes.writeSub (0x7100 + n) 1 v s = some (Lanes.writeControl n v s) := by
  have here : 0x7100 ≤ 0x7100 + n.val ∧ 0x7100 + n.val < 0x7140 := by omega
  simp only [Lanes.writeSub, if_pos here, Nat.add_sub_cancel_left]

theorem writeSub_members (b : Fin 16) (v : Nat) (s : State) :
    Lanes.writeSub (0x7200 + b) 1 v s = some (Lanes.writeMembers b v s) := by
  have lanes : ¬ (0x7100 ≤ 0x7200 + b.val ∧ 0x7200 + b.val < 0x7140) := by omega
  have here : 0x7200 ≤ 0x7200 + b.val ∧ 0x7200 + b.val < 0x7210 := by omega
  simp only [Lanes.writeSub, if_neg lanes, if_pos here, Nat.add_sub_cancel_left]

theorem writeSub_portMap (e : Fin 8) (v : Nat) (s : State) :
    Lanes.writeSub (0x7300 + e) 1 v s = some (Lanes.writeMap e v s) := by
  have lanes : ¬ (0x7100 ≤ 0x7300 + e.val ∧ 0x7300 + e.val < 0x7140) := by omega
  have bonds : ¬ (0x7200 ≤ 0x7300 + e.val ∧ 0x7300 + e.val < 0x7210) := by omega
  have here : 0x7300 ≤ 0x7300 + e.val ∧ 0x7300 + e.val < 0x7308 ∧ 1 = 1 := by omega
  rw [Lanes.writeSub, if_neg lanes, if_neg bonds, if_pos here, Nat.add_sub_cancel_left]

/-! ### A write of the control word (R373) -/

/-- A control word that a lane takes: MAXRATE, TXEQ and LP are in their ranges, and the lane is not retired. -/
def GoodLane (s : State) (n v : Nat) : Prop :=
  v / 2 ^ 24 % 8 ≤ 4 ∧ v / 2 ^ 12 % 16 ≤ 7 ∧ v / 2 ^ 27 % 4 ≠ 3 ∧ Lanes.retired s n = false

section
variable {s : State} {n v : Nat}

theorem writeControl_good (h : GoodLane s n v) :
    Lanes.writeControl n v s = .inr (Lanes.apply n (Lanes.control s n) v s) := by
  obtain ⟨rate, eq, lp, kept⟩ := h
  refine if_neg ?_
  rw [not_or, not_or, not_or]
  exact ⟨Nat.not_lt.2 rate, Nat.not_lt.2 eq, lp, Bool.eq_false_iff.1 kept⟩

theorem writeControl_bad (h : ¬ GoodLane s n v) : Lanes.writeControl n v s = .inl 4 := by
  refine if_pos ?_
  by_contra hn
  simp only [not_or, Nat.not_lt, Bool.not_eq_true] at hn
  exact h hn

end

section
variable {s : State} {t : Transport} {n : Fin 64} {lo w v : Nat}

/-- The word that a write of a field makes of the stored one. -/
abbrev fieldWord (s : State) (n lo w v : Nat) : Nat := Operands.replace (Lanes.control s n) lo w v

variable (hv : fieldWord s n lo w v < 2 ^ 32) (h : Writes s t (0x7100 + n) 1 (le 4 (fieldWord s n lo w v)))
include hv h

theorem laneField_taken (hg : GoodLane s n (fieldWord s n lo w v)) : Run.run (Operands.laneField t n lo w v) s =
    .next (wrote s t (0x7100 + n) 1 (le 4 (fieldWord s n lo w v))
      (Lanes.apply n (Lanes.control s n) (fieldWord s n lo w v) (counted s))) := by
  have stored : Lanes.control (counted s) n = Lanes.control s n := reg_counted (by omega) s
  have takes : Lanes.writeControl n (fieldWord s n lo w v) (counted s) = .inr _ := writeControl_good (s := counted s) hg
  rw [stored] at takes
  exact (run_writeField h.toAwake).trans
    (run_lanes (by omega) (by omega) (size_control n) h hv ((writeSub_control_lane n _ _).trans (congrArg some takes)))

theorem laneField_refused (hg : ¬ GoodLane s n (fieldWord s n lo w v)) : Run.run (Operands.laneField t n lo w v) s =
    .next (after s (answered s t 2 (0x7100 + n) 1 (le 4 (fieldWord s n lo w v)) 4 [] (counted s))) :=
  (run_writeField h.toAwake).trans (run_lanes_refused (by omega) (by omega) (size_control n) h hv
    ((writeSub_control_lane n _ _).trans (congrArg some (writeControl_bad (s := counted s) hg))))

end

/-! ### What a lane does on its control word (R350, R353, R354, R358 to R361, R373) -/

/-- The word is stored, and what it clears is cleared. -/
def controlStored (n new : Nat) (s : State) : State :=
  let v := Ops.setReg (0x7100 + n) 1 (Ops.clearBits new 0x60030FFF) s
  Ops.setReg (0x7100 + n) 0x0C 0
    (if Ops.bit new 29 then Lanes.setLane n { Lanes.lane s n with cap := 4, failures := 0 } v else v)

/-- The lane runs above the MAXRATE that has been lowered, and goes down to it (R354). -/
abbrev RunsAbove (n old : Nat) (w : State) : Prop :=
  Lanes.streller w n = true ∧ Lanes.maxRate w n < old / 2 ^ 24 % 8 ∧ Lanes.maxRate w n < (Lanes.lane w n).rate ∧
    (Lanes.lane w n).st ∉ [LaneSt.t0, .lp1, .lp2]

/-- The link blocks that wait on a lane, with the notice of its low-power state as the control word now asks for it. -/
def notices (n : Nat) (w : State) : List LinkBlock :=
  let others := (Lanes.lane w n).queue.filter fun b => match b with | .lowPower _ => false | _ => true
  if Lanes.lp w n = 0 then others else others ++ [.lowPower (Lanes.lp w n)]

/-- What a lane that goes on does about its low-power state (R361, R362). -/
def powered (n old : Nat) (w : State) : State :=
  match (Lanes.lane w n).st with
  | .t7 => if old / 2 ^ 27 % 4 ≠ Lanes.lp w n then Lanes.setLane n { Lanes.lane w n with queue := notices n w } w else w
  | .lp1 => if Lanes.lp w n = 0 then Lanes.enter n .t7 w else w
  | .lp2 => if Lanes.lp w n = 0 then Lanes.enter n .t2 w else w
  | _ => w

section
variable {s w : State} {n old new : Nat}

theorem powered_up (h : (Lanes.lane w n).st = .t7) : powered n old w =
    if old / 2 ^ 27 % 4 ≠ Lanes.lp w n then Lanes.setLane n { Lanes.lane w n with queue := notices n w } w else w := by
  simp only [powered, h]

theorem powered_lp1 (h : (Lanes.lane w n).st = .lp1) :
    powered n old w = if Lanes.lp w n = 0 then Lanes.enter n .t7 w else w := by simp only [powered, h]

theorem powered_lp2 (h : (Lanes.lane w n).st = .lp2) :
    powered n old w = if Lanes.lp w n = 0 then Lanes.enter n .t2 w else w := by simp only [powered, h]

theorem powered_other (h : (Lanes.lane w n).st ∉ [LaneSt.t7, .lp1, .lp2]) : powered n old w = w := by
  unfold powered
  cases hs : (Lanes.lane w n).st <;> simp_all

theorem wantsTest_iff : Lanes.wantsTest w n = true ↔ Lanes.loopOf w n ≠ 0 ∨ Lanes.pattern w n ≠ 0 := by
  simp [Lanes.wantsTest]

theorem mode_controlStored (n new : Nat) (s : State) : (controlStored n new s).modes = s.modes := by
  unfold controlStored
  split
  · rfl
  · rfl

/-- What a lane does on its control word, case by case. -/
theorem apply_eq (hw : controlStored n new s = w) : Lanes.apply n old new s =
    if s.modes.cur ≠ .m5 then (if Ops.bit new 30 then Lanes.setLane n { Lanes.lane w n with restart := true } w else w)
    else if Lanes.enabled w n = false then (if (Lanes.lane w n).st = .off then w else Lanes.off n w)
    else if (Lanes.lane w n).st = .off then Lanes.begin n w
    else if Ops.bit new 30 = true then Lanes.toT0 n (Lanes.portDown n w)
    else if Lanes.loopOf w n ≠ 0 ∨ Lanes.pattern w n ≠ 0 then Lanes.toTest n w
    else if (Lanes.lane w n).st = .test then Lanes.toT0 n w
    else if RunsAbove n old w then Lanes.enter n .t0 (Lanes.setRate n 0 false w)
    else powered n old w := by
  have mode : (!Ops.modeIn w [.m5]) = true ↔ s.modes.cur ≠ .m5 := by simp [← hw, mode_controlStored]
  have disabled : (!Lanes.enabled w n) = true ↔ Lanes.enabled w n = false := by simp
  have above : (Lanes.streller w n ∧ Lanes.maxRate w n < old / 2 ^ 24 % 8 ∧ Lanes.maxRate w n < (Lanes.lane w n).rate ∧
      (Lanes.lane w n).st ≠ .t0 ∧ (Lanes.lane w n).st ≠ .lp1 ∧ (Lanes.lane w n).st ≠ .lp2) ↔ RunsAbove n old w := by
    simp [RunsAbove]
  subst hw
  exact if_congr mode rfl (if_congr disabled rfl (if_congr Iff.rfl rfl (if_congr Iff.rfl rfl (if_congr wantsTest_iff rfl
    (if_congr Iff.rfl rfl (if_congr above rfl rfl))))))

end

/-- Settles O48: each field is a write of the whole word, and the lane acts on it by its mode, its ENABLE and its state. -/
theorem laneControl : Obligations.LaneControl := by
  unfold Obligations.LaneControl
  refine ⟨fun s t n => ?fields, fun s n old new => ?acts⟩
  case fields =>
    intro i word does
    have writes {c : Instr} {lo w v : Nat} (e : exec c s = Run.run (Operands.laneField t n lo w v) s) : does c lo w v :=
      fun hv h => ⟨fun hg => e.trans (laneField_taken hv h hg), fun hg => e.trans (laneField_refused hv h hg)⟩
    exact ⟨fun v => writes rfl, writes rfl, writes rfl, fun v => writes rfl, fun v => writes rfl, fun v => writes rfl,
      fun v => writes rfl, fun v => writes rfl, fun v => writes rfl, fun v => writes rfl⟩
  case acts =>
    intro v w x restart lower others waiting does
    have acts := apply_eq (s := s) (w := w) (n := n) (old := old) (new := new) rfl
    refine ⟨fun h5 => ?waits, fun h5 he => ?disabled, fun h5 he => ⟨fun h0 => ?begins, fun h0 hr => ?restarts, fun h0 hr =>
      ⟨fun ht => ?tests, fun hl hp => ?runs⟩⟩⟩
    case waits => exact acts.trans (if_pos h5)
    case disabled => exact acts.trans ((if_neg (not_not.2 h5)).trans (if_pos he))
    all_goals
      rw [if_neg (not_not.2 h5), if_neg (by rw [he]; decide)] at acts
    case begins => exact acts.trans (if_pos h0)
    case restarts => exact acts.trans ((if_neg h0).trans (if_pos hr))
    case tests => exact acts.trans ((if_neg h0).trans ((if_neg (Bool.eq_false_iff.1 hr)).trans (if_pos ht)))
    case runs =>
      rw [if_neg (show ¬ (Lanes.lane w n).st = .off from h0), if_neg (Bool.eq_false_iff.1 hr), if_neg (by simp [hl, hp])] at acts
      refine ⟨fun ht => acts.trans (if_pos ht), fun ht ha => acts.trans ((if_neg ht).trans (if_pos ha)), fun ha => ?_⟩
      have stays (ht : x.st ≠ .test) : Lanes.apply n old new s = powered n old w :=
        acts.trans ((if_neg ht).trans (if_neg ha))
      refine ⟨fun h7 hd => ?changes, fun h7 hd => ?same, fun h1 => ?lp1, fun h2 => ?lp2, fun ho => ?others⟩
      case changes => exact (stays (by rw [h7]; decide)).trans ((powered_up h7).trans (if_pos hd))
      case same => exact (stays (by rw [h7]; decide)).trans ((powered_up h7).trans (if_neg (not_not.2 hd)))
      case lp1 => exact (stays (by rw [h1]; decide)).trans (powered_lp1 h1)
      case lp2 => exact (stays (by rw [h2]; decide)).trans (powered_lp2 h2)
      case others =>
        exact (stays fun ht => ho (by simp [ht])).trans (powered_other fun hm => ho (List.Sublist.subset (by decide) hm))

end Sys2Proof.Laws
end

section
/-!
SUPPORT. The switch points, Bond blocks, members and transfer slots of a bond (R363 to R366), the port maps and locks of the Ethernet
groups (R369, R370), and the PHY supplies (R379, R513, R520).
-/

namespace Sys2Proof.Laws

open Sys2Proof Sys2Proof.Machine Sys2Proof.Safety

/-! ### Switch points and Bond blocks (R365) -/

@[simp] theorem bond_setBond_same (b : Nat) (x : Bond) (s : State) : Lanes.bond (Lanes.setBond b x s) b = x :=
  Table.get_put_same _ _ _

section
variable {s : State} {b n : Nat}

theorem switchPoint_tx {e : Nat × Nat} (h : (Lanes.bond s b).txSwitch = some e) :
    Lanes.switchPoint b false s = if e.1 ≤ (Lanes.bond s b).txNext then Lanes.applyTx b e.2 s else s := by
  simp only [Lanes.switchPoint, h, Bool.false_eq_true, if_false]

theorem switchPoint_tx_none (h : (Lanes.bond s b).txSwitch = none) : Lanes.switchPoint b false s = s := by
  simp only [Lanes.switchPoint, h, Bool.false_eq_true, if_false]

theorem switchPoint_rx {e : Nat × Nat} (h : (Lanes.bond s b).rxSwitch = some e) : Lanes.switchPoint b true s =
    if e.1 ≤ (Lanes.bond s b).rxNext then Lanes.drain b (Lanes.applyRx b e.2 s) else s := by
  simp only [Lanes.switchPoint, h, if_true]

theorem switchPoint_rx_none (h : (Lanes.bond s b).rxSwitch = none) : Lanes.switchPoint b true s = s := by
  simp only [Lanes.switchPoint, h, if_true]

section
variable (hl : Lanes.listens s n = true)
include hl

theorem bondBlock_single (hb : Lanes.bondOf s n = none) (k tx rx : Nat) : Lanes.bondBlock n k tx rx s = s := by
  simp only [Lanes.bondBlock, hl, hb, Bool.not_true, Bool.false_eq_true, if_false]

/-- The bond with what the partner receives, as a Bond block tells it. -/
abbrev told (b rx : Nat) (s : State) : Bond := { Lanes.bond s b with partnerRx := rx }

/-- The live set that the receiver applies, or goes on to apply. -/
abbrev rxNow (x : Bond) : Nat := (x.rxSwitch.map (·.2)).getD x.rxLive

theorem bondBlock_member (hb : Lanes.bondOf s n = some b) (k tx rx : Nat) : Lanes.bondBlock n k tx rx s =
    Lanes.updateBond b (
      if tx = rxNow (Lanes.bond s b) then Lanes.setBond b (told b rx s) s
      else if (Lanes.bond s b).rxLive = 0 ∨ Lanes.fullSeq (Lanes.bond s b).rxNext k ≤ (Lanes.bond s b).rxNext then
        Lanes.applyRx b tx (Lanes.setBond b (told b rx s) s)
      else Lanes.setBond b { told b rx s with rxSwitch := some (Lanes.fullSeq (Lanes.bond s b).rxNext k, tx) }
        (Lanes.setBond b (told b rx s) s)) := by
  simp only [Lanes.bondBlock, hl, hb, Bool.not_true, Bool.false_eq_true, if_false, bond_setBond_same]

end

/-! ### The members of a bond (R366) -/

/-- The lanes of a mask may be the members of bond `b`: at most 16, none retired, on a port or in another bond. -/
abbrev Joinable (s : State) (b v : Nat) : Prop :=
  ((List.range 64).filter fun m => Ops.bit v m).length ≤ 16 ∧
    ∀ m ∈ (List.range 64).filter fun m => Ops.bit v m,
      Lanes.retired s m = false ∧ Lanes.portOf s m = none ∧ (Lanes.bondOf s m).all (· == b) = true

/-- The lanes that join and leave are disabled. -/
abbrev ChangesOff (s : State) (b v : Nat) : Prop :=
  ∀ m, m < 64 → Ops.bit v m ≠ Ops.bit (Ops.reg s (0x7200 + b) 1) m → Lanes.enabled s m = false

/-- The bond starts afresh with the members that are stored. -/
def withMembers (b v : Nat) (s : State) : State :=
  let y := Ops.setReg (0x7200 + b) 1 v s
  if v = Ops.reg s (0x7200 + b) 1 then y
  else Lanes.updateBond b (Lanes.setBond b {}
    (if (Lanes.bond s b).txLive = 0 ∧ (Lanes.bond s b).rxLive = 0 then y else Lanes.bondCause b (Ops.bump (0x7200 + b) 7 y)))

/-- What R366 refuses, in the words of the model. -/
abbrev unjoinable (s : State) (b v : Nat) : Prop :=
  16 < ((List.range 64).filter fun n => Ops.bit v n).length ∨ ((List.range 64).filter fun n => Ops.bit v n).any
    fun n => Lanes.retired s n || (Lanes.portOf s n).isSome || (Lanes.bondOf s n).any fun c => c != b

theorem unjoinable_iff (v : Nat) : unjoinable s b v ↔ ¬ Joinable s b v := by
  have all_any (o : Option Nat) : (o.any fun c => c != b) = !o.all (· == b) := by cases o <;> simp [bne]
  rw [Joinable, not_and_or, Nat.not_le]
  refine or_congr_right ?_
  simp only [List.any_eq_true, all_any, not_forall, exists_prop]
  refine exists_congr fun m => and_congr_right fun _ => ?_
  cases Lanes.retired s m <;> cases Lanes.portOf s m <;> simp

/-- A lane that joins or leaves is enabled, in the words of the model. -/
abbrev changesOn (s : State) (b v : Nat) : Prop :=
  (List.range 64).any (fun n => (Ops.bit v n != Ops.bit (Ops.reg s (0x7200 + b) 1) n) && Lanes.enabled s n) = true

theorem changesOn_iff (v : Nat) : changesOn s b v ↔ ¬ ChangesOff s b v := by
  simp [changesOn, ChangesOff]

theorem writeMembers_eq (b v : Nat) (s : State) : Lanes.writeMembers b v s =
    if unjoinable s b v then .inl 4 else if changesOn s b v then .inl 5 else .inr (withMembers b v s) := by
  simp only [withMembers, apply_ite Sum.inr]
  rfl

theorem writeMembers_refused {v : Nat} (h : ¬ Joinable s b v) : Lanes.writeMembers b v s = .inl 4 :=
  (writeMembers_eq b v s).trans (if_pos ((unjoinable_iff v).2 h))

section
variable {v : Nat} (hj : Joinable s b v)
include hj

theorem writeMembers_busy (h : ¬ ChangesOff s b v) : Lanes.writeMembers b v s = .inl 5 :=
  (writeMembers_eq b v s).trans ((if_neg fun hu => (unjoinable_iff v).1 hu hj).trans (if_pos ((changesOn_iff v).2 h)))

theorem writeMembers_taken (h : ChangesOff s b v) : Lanes.writeMembers b v s = .inr (withMembers b v s) :=
  (writeMembers_eq b v s).trans ((if_neg fun hu => (unjoinable_iff v).1 hu hj).trans
    (if_neg fun hc => (changesOn_iff v).1 hc h))

end

/-! ### What a counted request leaves of the lanes' maps -/

theorem routes_counted (s : State) : Routes s (counted s) := ⟨rfl, rfl, rfl, fun _ _ _ => reg_counted (by omega) s⟩

theorem enabled_counted {m : Nat} (h : m < 0xF00) (s : State) : Lanes.enabled (counted s) m = Lanes.enabled s m := by
  rw [Lanes.enabled, Lanes.control, reg_counted (by omega), Lanes.enabled, Lanes.control]

theorem bondOf_counted (n : Nat) (s : State) : Lanes.bondOf (counted s) n = Lanes.bondOf s n :=
  List.find?_congr fun b hb => by rw [(routes_counted s).maps _ (by omega) (by have := List.mem_range.1 hb; omega)]

theorem joinable_counted (b v : Nat) (s : State) : Joinable (counted s) b v ↔ Joinable s b v := by
  refine and_congr_right fun _ => forall₂_congr fun m hm => ?_
  have lane := List.mem_range.1 (List.mem_of_mem_filter hm)
  have port := (routes_counted s).portOf_eq ⟨m, lane⟩
  dsimp only at port
  rw [port, bondOf_counted]
  rfl

theorem changesOff_counted (b : Fin 16) (v : Nat) (s : State) : ChangesOff (counted s) b v ↔ ChangesOff s b v := by
  refine forall₂_congr fun m hm => ?_
  rw [reg_counted (by omega), enabled_counted (by omega)]

theorem withMembers_counted (b : Fin 16) (v : Nat) (s : State) : withMembers b v (counted s) =
    if v = Ops.reg s (0x7200 + b) 1 then Ops.setReg (0x7200 + b) 1 v (counted s)
    else Lanes.updateBond b (Lanes.setBond b {} (
      if (Lanes.bond s b).txLive = 0 ∧ (Lanes.bond s b).rxLive = 0 then Ops.setReg (0x7200 + b) 1 v (counted s)
      else Lanes.bondCause b (Ops.bump (0x7200 + b) 7 (Ops.setReg (0x7200 + b) 1 v (counted s))))) := by
  rw [withMembers, reg_counted (by omega)]
  rfl

theorem badMap_counted (e v : Nat) (s : State) : Lanes.badMap e v (counted s) = Lanes.badMap e v s := by
  simp only [Lanes.badMap, bondOf_counted]
  rfl

/-! ### A transfer slot of a member (R363) -/

/-- What a lane puts on its line at a slot, when it is up. -/
def putUp (n : Nat) (l : List (BitVec 2 × W64)) (s : State) : State :=
  if (Lanes.lane s n).st = .t7 then Lanes.send n l s else s

/-- The member whose turn the next transfer is: live position k mod L. -/
abbrev turn (s : State) (b : Nat) : Option Nat :=
  ((Lanes.positions (Lanes.bond s b).txLive)[(Lanes.bond s b).txNext % (Lanes.positions (Lanes.bond s b).txLive).length]?).bind
    fun j => (Lanes.members s b)[j]?

/-- The member whose slices the next transfer comes from: k mod w. -/
abbrev giver (s : State) (b : Nat) : Nat :=
  (Lanes.members s b).getD ((Lanes.bond s b).txNext % (Lanes.members s b).length) 0

/-- The next transfer is before the switch point of the transmit live set. -/
abbrev beforeSwitch (x : Bond) : Bool := x.txSwitch.all fun e => decide (x.txNext < e.1)

theorem bondTransmit_down (h : Lanes.bondUp s b = false) :
    Lanes.bondTransmit b n s = putUp n (List.replicate 8 (0b01#2, (0 : W64))) s := by
  simp only [Lanes.bondTransmit, h, Bool.not_false, if_true]
  rfl

theorem not_any_switch (x : Bond) : (!x.txSwitch.any fun e => decide (e.1 ≤ x.txNext)) = beforeSwitch x := by
  cases h : x.txSwitch with
  | none => simp [beforeSwitch, h]
  | some e => simp [beforeSwitch, h, ← decide_not]

section
variable (h : Lanes.bondUp s b = true)
include h

theorem bondTransmit_idle (hi : turn s b ≠ some n ∨ ¬ beforeSwitch (Lanes.bond s b) = true ∨
      Lanes.readyTransfer (Lanes.captureSlices (giver s b) s) (giver s b) false = none) :
    Lanes.bondTransmit b n s = putUp n (List.replicate 8 (0b01#2, (0 : W64))) (Lanes.captureSlices (giver s b) s) := by
  unfold Lanes.bondTransmit
  dsimp only
  rw [if_neg (by rw [h]; decide), not_any_switch]
  split
  case h_1 hd hr =>
    obtain ⟨hm, hs⟩ := Bool.and_eq_true_iff.1 hd
    rcases hi with hi | hi | hi
    · exact absurd (eq_of_beq hm) hi
    · exact absurd hs hi
    · cases hi.symm.trans hr
  case h_2 => rfl

theorem bondTransmit_goes {l : List (BitVec 2 × W64)} {d : Nat} (hm : turn s b = some n)
    (hs : beforeSwitch (Lanes.bond s b) = true)
    (hr : Lanes.readyTransfer (Lanes.captureSlices (giver s b) s) (giver s b) false = some (l, d)) :
    Lanes.bondTransmit b n s =
      let r := Lanes.replaceLinks (giver s b) l (Lanes.clearTx (giver s b) (Lanes.captureSlices (giver s b) s))
      putUp n r.1 (Lanes.setBond b { Lanes.bond s b with txNext := (Lanes.bond s b).txNext + 1 } r.2) := by
  have due : (turn s b == some n && beforeSwitch (Lanes.bond s b)) = true := by rw [hm, hs]; simp
  unfold Lanes.bondTransmit
  dsimp only
  rw [if_neg (by rw [h]; decide), not_any_switch]
  split
  case h_1 hd hg =>
    cases hr.symm.trans hg
    rfl
  case h_2 hn => exact (hn _ due hr).elim

end

/-! ### The map of an Ethernet group (R370) -/

/-- The positions whose port changes are disabled. -/
abbrev PortsOff (s : State) (e v : Nat) : Prop :=
  ∀ p, p < 8 → Lanes.covers v p ≠ Lanes.covers (Ops.reg s (0x7300 + e) 1) p → Lanes.enabled s (8 * e + p) = false

theorem writeMap_refused {e v : Nat} (h : Lanes.badMap e v s = true) : Lanes.writeMap e v s = .inl 4 := if_pos h

section
variable {e v : Nat} (h : Lanes.badMap e v s = false)
include h

theorem writeMap_busy (ho : ¬ PortsOff s e v) : Lanes.writeMap e v s = .inl 5 :=
  (if_neg (Bool.eq_false_iff.1 h)).trans (if_pos (by simpa [PortsOff] using ho))

theorem writeMap_taken (ho : PortsOff s e v) :
    Lanes.writeMap e v s = .inr (Bridges.follow (Ops.setReg (0x7300 + e) 1 v s)) :=
  (if_neg (Bool.eq_false_iff.1 h)).trans (if_neg (by simpa [PortsOff] using ho))

end

theorem portsOff_counted (e : Fin 8) (v : Nat) (s : State) : PortsOff (counted s) e v ↔ PortsOff s e v := by
  refine forall₂_congr fun p hp => ?_
  rw [reg_counted (by omega), enabled_counted (by omega)]

/-! ### The locks of an Ethernet lane (R369) -/

theorem ethernet_none (h : Lanes.portOf s n = none) (ev : EthEvent) : Lanes.ethernet n ev s = s := by
  simp only [Lanes.ethernet, h]

/-- Every lane of the port has locked, this one among them. -/
abbrev allLocked (s : State) (f n : Nat) : Bool :=
  (Lanes.portLanes s f).all fun m => m == n || (Lanes.lane s m).st == .t2 && (Lanes.lane s m).locked

section
variable {f : Nat} (h : Lanes.portOf s n = some f)
include h

theorem ethernet_cdrLocked :
    Lanes.ethernet n .cdrLocked s = if (Lanes.lane s n).st = .t1 then Lanes.enter n .t2 s else s := by
  simp only [Lanes.ethernet, h]
  cases hs : (Lanes.lane s n).st <;> simp

theorem ethernet_cdrTimeout : Lanes.ethernet n .cdrTimeout s = s := by
  simp only [Lanes.ethernet, h]
  cases hs : (Lanes.lane s n).st <;> simp

theorem ethernet_lockTimeout :
    Lanes.ethernet n .lockTimeout s = if (Lanes.lane s n).st = .t2 then Lanes.enter n .t1 s else s := by
  simp only [Lanes.ethernet, h]
  cases hs : (Lanes.lane s n).st <;> simp

theorem ethernet_fecLocked_idle (h2 : (Lanes.lane s n).st ≠ .t2) : Lanes.ethernet n .fecLocked s = s := by
  simp only [Lanes.ethernet, h]
  cases hs : (Lanes.lane s n).st <;> simp_all

theorem ethernet_fecLocked (h2 : (Lanes.lane s n).st = .t2) : Lanes.ethernet n .fecLocked s =
    if allLocked s f n then
      (Lanes.portLanes s f).foldl (fun x m => Lanes.enter m .t7 x) (withLock n s)
    else withLock n s := by
  have here : Lanes.ethernet n .fecLocked s = if (Lanes.portLanes (withLock n s) f).all fun m =>
      (Lanes.lane (withLock n s) m).st == .t2 && (Lanes.lane (withLock n s) m).locked
      then (Lanes.portLanes (withLock n s) f).foldl (fun x m => Lanes.enter m .t7 x) (withLock n s) else withLock n s := by
    unfold Lanes.ethernet
    rw [h]
    dsimp only
    split
    case h_3 => rfl
    all_goals simp_all only [reduceCtorEq, implies_true, not_true_eq_false, imp_false]
  have locks (m : Nat) : ((Lanes.lane (withLock n s) m).st == .t2 && (Lanes.lane (withLock n s) m).locked) =
      (m == n || (Lanes.lane s m).st == .t2 && (Lanes.lane s m).locked) := by
    rw [lane_setLane]
    split
    case isTrue hm => simp [hm, h2]
    case isFalse hm => simp [hm]
  simp only [locks] at here
  exact here

end
end

/-- Settles O49: by the rules above for a bond, a port map and an Ethernet lane, each clause one case of the definition. -/
theorem bondsAndPorts : Obligations.BondsAndPorts := by
  unfold Obligations.BondsAndPorts
  refine ⟨fun s t b n => ⟨fun h => ?switches, fun k tx rx h hl => ?block, fun v h => ?membersWrite, ?slots⟩,
    fun s t e v h => ?mapWrite, fun s n ev h => ?locks, fun s p k h => ?supplies⟩
  case switches =>
    exact ⟨fun k m e => run_awake_of h (switchPoint_tx (s := Ops.begin s) e),
      fun e => run_awake_of h (switchPoint_tx_none (s := Ops.begin s) e),
      fun k m e => run_awake_of h (switchPoint_rx (s := Ops.begin s) e),
      fun e => run_awake_of h (switchPoint_rx_none (s := Ops.begin s) e)⟩
  case block =>
    intro y now j
    refine ⟨fun hb => run_awake_of h (bondBlock_single (s := Ops.begin s) hl hb _ _ _), fun hb => ?_⟩
    have member := bondBlock_member (s := Ops.begin s) hl hb k.toNat tx.toNat rx.toNat
    refine ⟨fun e => run_awake_of h (member.trans (congrArg _ (if_pos e))), fun ne hx =>
      run_awake_of h (member.trans (congrArg _ ((if_neg ne).trans (if_pos hx)))), fun ne h0 hj =>
      run_awake_of h (member.trans (congrArg _ ((if_neg ne).trans (if_neg ?_))))⟩
    exact fun hx => hx.elim h0 (Nat.not_le.2 hj)
  case membersWrite =>
    intro old l free off fails y
    have small : v.toNat < 256 ^ 8 := v.isLt
    have write := writeSub_members b v.toNat (counted s)
    have ready := joinable_counted b v.toNat s
    have quiet := changesOff_counted b v.toNat s
    refine ⟨fun hf => ?_, fun hf ho => ?_, fun hf ho => ?_⟩
    · exact run_lanes_refused (by omega) (by omega) (size_members b) h small
        (write.trans (congrArg some (writeMembers_refused (mt ready.1 hf))))
    · exact run_lanes_refused (by omega) (by omega) (size_members b) h small
        (write.trans (congrArg some (writeMembers_busy (ready.2 hf) (mt quiet.1 ho))))
    · exact (run_lanes (by omega) (by omega) (size_members b) h small
        (write.trans (congrArg some (writeMembers_taken (ready.2 hf) (quiet.2 ho))))).trans (by rw [withMembers_counted])
  case slots =>
    exact ⟨bondTransmit_down, fun h => ⟨bondTransmit_idle h, fun l d => bondTransmit_goes h⟩⟩
  case mapWrite =>
    have small : v.toNat < 256 ^ 4 := v.isLt
    have write := writeSub_portMap e v.toNat (counted s)
    have fit := badMap_counted e v.toNat s
    have quiet := portsOff_counted e v.toNat s
    refine ⟨fun hb => ?_, fun hb ho => ?_, fun hb ho => ?_⟩
    · exact run_lanes_refused (by omega) (by omega) (size_portMap e) h small
        (write.trans (congrArg some (writeMap_refused (fit.trans hb))))
    · exact run_lanes_refused (by omega) (by omega) (size_portMap e) h small
        (write.trans (congrArg some (writeMap_busy (fit.trans hb) (mt quiet.1 ho))))
    · exact run_lanes (by omega) (by omega) (size_portMap e) h small
        (write.trans (congrArg some (writeMap_taken (fit.trans hb) (quiet.2 ho))))
  case locks =>
    intro u y makes
    have effect {x : State} (e : Lanes.ethernet n ev u = x) : makes x := run_awake_of h e
    refine ⟨fun hp => effect (ethernet_none (s := u) hp ev), fun f hf => ⟨?_, ?_, ?_, ?_, ?_⟩⟩
    · rintro rfl
      exact effect (ethernet_cdrLocked (s := u) hf)
    · rintro rfl
      exact effect (ethernet_cdrTimeout (s := u) hf)
    · rintro rfl
      exact effect (ethernet_lockTimeout (s := u) hf)
    · rintro rfl h2
      exact effect (ethernet_fecLocked_idle (s := u) hf h2)
    · rintro rfl h2
      exact effect (ethernet_fecLocked (s := u) hf h2)
  case supplies =>
    exact ⟨run_awake_of h rfl, run_awake_of h rfl⟩

end Sys2Proof.Laws
end

section
/-!
SUPPORT. What raising a source, and the bridges that follow their domains, leave of the host's side: the functions that are present,
the vectors that are blocked, the link, the mailbox and the channels (R314, R397, R503).
-/

namespace Sys2Proof.Laws

open Sys2Proof Sys2Proof.Machine Sys2Proof.Safety

/-- `t` has the functions and the blocked vectors of `s`, and the link of `s` unless that is in L1, which a message leaves. -/
structure HostKept (s t : State) : Prop where
  vfs : t.events.numVfs = s.events.numVfs
  blocked : t.events.msixBlocked = s.events.msixBlocked
  link : Ops.inL1 s = false → t.host.link = s.host.link

namespace HostKept

/-- A change of other fields. -/
theorem same {s t : State} (hv : t.events.numVfs = s.events.numVfs) (hb : t.events.msixBlocked = s.events.msixBlocked)
    (hl : t.host.link = s.host.link) : HostKept s t := ⟨hv, hb, fun _ => hl⟩

theorem refl (s : State) : HostKept s s := same rfl rfl rfl

theorem trans {s t u : State} (h : HostKept s t) (g : HostKept t u) : HostKept s u :=
  ⟨g.vfs.trans h.vfs, g.blocked.trans h.blocked, fun hl =>
    have kept := h.link hl
    (g.link (by rw [Ops.inL1, kept]; exact hl)).trans kept⟩

/-- A change of other fields, and then `g`. -/
theorem of_same {s t u : State} (g : HostKept t u) (hv : t.events.numVfs = s.events.numVfs)
    (hb : t.events.msixBlocked = s.events.msixBlocked) (hl : t.host.link = s.host.link) : HostKept s u := (same hv hb hl).trans g

/-- A step that is taken or not. -/
theorem cond {c : Prop} [Decidable c] {s t u : State} (h : HostKept s t) (g : HostKept t u) : HostKept s (if c then u else t) := by
  split
  · exact h.trans g
  · exact h

theorem either {c : Prop} [Decidable c] {s t u : State} (h : HostKept s t) (g : HostKept s u) :
    HostKept s (if c then t else u) := by
  split
  · exact h
  · exact g

theorem setCan (p : Nat) (c : CanPort) (s : State) : HostKept s (Ops.setCan p c s) :=
  either (same rfl rfl rfl) (same rfl rfl rfl)

theorem wakeBank (n : Nat) (m : Bool) (s : State) : HostKept s (Ops.wakeBank n m s) := by
  have wakes : HostKept s (Ops.setPower n (.waking false 0) s) := same rfl rfl rfl
  unfold Ops.wakeBank
  split
  · exact either wakes (refl s)
  · exact either wakes (refl s)
  · exact refl s

theorem hold (n : Nat) (m : MaintReq) (s : State) : HostKept s (Ops.hold n m s) :=
  of_same (wakeBank n true _) rfl rfl rfl

section
variable {again : Nat → State → State} (ha : ∀ n s, HostKept s (again n s))
include ha

theorem level (n : Nat) (b : Bool) (s : State) : HostKept s (Ops.level again n b s) :=
  either (either (refl s) (ha n s)) (same rfl rfl rfl)

theorem bankCause (n c : Nat) (s : State) : HostKept s (Ops.bankCause again n c s) :=
  of_same (level ha _ _ _) rfl rfl rfl

theorem claim (n : Nat) (s : State) : HostKept s (Ops.claim again n s) :=
  either (of_same (ha 377 _) rfl rfl rfl) (refl s)

theorem noteAccess (n w : Nat) (v : BitVec 72) (a : Flags.Access) (s : State) :
    HostKept s (Ops.noteAccess again n w v a s) := by
  refine cond (cond (either (same rfl rfl rfl) (either (same rfl rfl rfl) (refl s))) ?_) ?_
  · exact of_same (bankCause ha n 1 _) rfl rfl rfl
  · exact of_same (bankCause ha n 0 _) rfl rfl rfl

theorem bankAccess (n : Nat) (q : BankReq) (f : BitVec 72) (s : State) : HostKept s (Ops.bankAccess again n q f s).1 := by
  simp only [Ops.bankAccess]
  exact of_same (noteAccess ha n _ _ _ _) rfl rfl rfl

theorem toL0 (s : State) : HostKept s (Ops.toL0 again s) := by
  by_cases hl : Ops.inL1 s = false
  · rw [Ops.toL0, if_neg (by simp [hl])]
    exact refl s
  · have back : HostKept s { s with host := { s.host with link := s.host.link &&& 0x11FF } } :=
      ⟨rfl, rfl, fun h => absurd h hl⟩
    exact either ((back.trans (ha 400 _)).trans (ha 407 _)) (refl s)

theorem deliverMsix (v : Nat) (s : State) : HostKept s (Ops.deliverMsix again v s) :=
  either (same rfl rfl rfl) (either (same rfl rfl rfl) ((toL0 ha s).trans (same rfl rfl rfl)))

theorem deliverEngine (e b : Nat) (s : State) : HostKept s (Ops.deliverEngine again e b s) := by
  have lost (u : State) : HostKept u (Ops.bump 0xB000 7 u) := same rfl rfl rfl
  have access (n : Nat) (q : BankReq) : HostKept s (Ops.bankAccess again n q 0 (Ops.claim again n s)).1 :=
    (claim ha n s).trans (bankAccess ha n q 0 _)
  refine either (lost s) (either (either ((access _ _).trans (lost _)) (access _ _)) ?_)
  exact (claim ha _ s).trans (hold _ _ _)

theorem queueNotice (n p : Nat) (s : State) : HostKept s (Ops.queueNotice again n p s) :=
  either (refl s) (either (setCan p _ s) (of_same (ha 419 _) rfl rfl rfl))

theorem deliver (n : Nat) (s : State) : HostKept s (Ops.deliver again n s) :=
  cond (cond (cond (cond (same rfl rfl rfl) (deliverMsix ha _ _)) (deliverEngine ha _ _ _))
    ((queueNotice ha n 0 _).trans (queueNotice ha n 1 _))) (same rfl rfl rfl)

end

theorem raiseTurns (k n : Nat) (s : State) : HostKept s (Ops.raiseTurns k n s) := by
  induction k generalizing n s with
  | zero => exact refl s
  | succ k ih => exact cond (same rfl rfl rfl) (deliver ih n _)

/-- Raising a source. -/
theorem raise (n : Nat) (s : State) : HostKept s (Ops.raise n s) := raiseTurns 640 n s

end HostKept

@[simp] theorem numVfs_raise (n : Nat) (s : State) : (Ops.raise n s).events.numVfs = s.events.numVfs := (HostKept.raise n s).vfs

@[simp] theorem msixBlocked_raise (n : Nat) (s : State) : (Ops.raise n s).events.msixBlocked = s.events.msixBlocked :=
  (HostKept.raise n s).blocked

/-- A link that is down stays so, whatever is raised (R379). -/
theorem link_raise {s : State} (h : s.host.link = 0x0A00) (n : Nat) : (Ops.raise n s).host.link = 0x0A00 :=
  ((HostKept.raise n s).link (by rw [Ops.inL1, h]; rfl)).trans h

/-! ### A return to L0 (R396) -/

theorem spares_toL0 (s : State) : Spares s (Ops.toL0 Ops.raise s) := Spares.toL0 spares_raise s

@[simp] theorem ports_toL0 (s : State) : (Ops.toL0 Ops.raise s).ports = s.ports := by rw [(spares_toL0 s).1, spare]

@[simp] theorem fab_toL0 (s : State) : (Ops.toL0 Ops.raise s).fab = s.fab := by rw [(spares_toL0 s).1, spare]

@[simp] theorem portOwner_toL0 (s : State) : HostLink.portOwner (Ops.toL0 Ops.raise s) = HostLink.portOwner s := by
  funext r
  rw [HostLink.portOwner, (spares_toL0 s).1]
  rfl

@[simp] theorem chan_toL0 (s : State) : HostLink.chan (Ops.toL0 Ops.raise s) = HostLink.chan s := by
  funext c
  rw [HostLink.chan, (spares_toL0 s).1]
  rfl

/-- The control word of a channel. -/
@[simp] theorem control_toL0 (c : Fin 32) (s : State) : HostLink.control (Ops.toL0 Ops.raise s) c = HostLink.control s c :=
  (spares_toL0 s).2 _ _ (by unfold Far; omega) (by decide)

@[simp] theorem owner_toL0 (c : Fin 32) (s : State) : HostLink.owner (Ops.toL0 Ops.raise s) c = HostLink.owner s c := by
  rw [HostLink.owner, control_toL0, HostLink.owner]

@[simp] theorem ringSize_toL0 (c : Fin 32) (s : State) :
    HostLink.ringSize (Ops.toL0 Ops.raise s) c = HostLink.ringSize s c := by
  rw [HostLink.ringSize, control_toL0, HostLink.ringSize]

theorem present_congr {s t : State} (h : t.events.numVfs = s.events.numVfs) : HostLink.present t = HostLink.present s := by
  funext f
  simp only [HostLink.present, h]

@[simp] theorem present_toL0 (s : State) : HostLink.present (Ops.toL0 Ops.raise s) = HostLink.present s :=
  present_congr (HostKept.toL0 HostKept.raise s).vfs

/-! ### The bridges that follow their domains (R314, R325) -/

/-- `t` differs from `s` in the bridges and in the stored subs alone. -/
def BridgesOnly (s t : State) : Prop := t = { s with bridges := t.bridges, regs := t.regs }

namespace BridgesOnly

variable {s t u : State}

theorem refl (s : State) : BridgesOnly s s := rfl

theorem trans (h : BridgesOnly s t) (g : BridgesOnly t u) : BridgesOnly s u :=
  Eq.trans g (congrArg (fun x : State => { x with bridges := u.bridges, regs := u.regs }) h)

theorem either {c : Prop} [Decidable c] (h : BridgesOnly s t) (g : BridgesOnly s u) : BridgesOnly s (if c then t else u) := by
  split
  · exact h
  · exact g

theorem enterSide (b : BridgeId) (f : Bridge → Bridge) (s : State) : BridgesOnly s (Bridges.enterSide b f s) := rfl

theorem leaveSide (b : BridgeId) (source : Bool) (f : Bridge → Bridge) (s : State) :
    BridgesOnly s (Bridges.leaveSide b source f s) := either rfl rfl

theorem followSide (b : BridgeId) (source : Bool) (s : State) : BridgesOnly s (Bridges.followSide b source s) := by
  unfold Bridges.followSide
  exact either (enterSide b _ s) (either (leaveSide b source _ s) (refl s))

theorem foldl {α : Type} {f : State → α → State} (h : ∀ s a, BridgesOnly s (f s a)) (l : List α) (s : State) :
    BridgesOnly s (l.foldl f s) := by
  induction l generalizing s with
  | nil => exact refl s
  | cons a l ih => exact (h s a).trans (ih _)

theorem follow (s : State) : BridgesOnly s (Bridges.follow s) :=
  foldl (fun s b => (followSide b true s).trans (followSide b false _)) _ s

end BridgesOnly

@[simp] theorem follow_frame (s : State) : (Bridges.follow s).host = s.host ∧ (Bridges.follow s).events = s.events ∧
    (Bridges.follow s).mailbox = s.mailbox := by
  have frame : Bridges.follow s = _ := BridgesOnly.follow s
  rw [frame]
  exact ⟨rfl, rfl, rfl⟩

end Sys2Proof.Laws
end

section
/-!
SUPPORT. The control word and the doorbells of a DMA channel (R388, R389, R393, R394, R398).
-/

namespace Sys2Proof.Laws

open Sys2Proof Sys2Proof.Machine Sys2Proof.Safety

/-! ### Channels and their tags -/

@[simp] theorem chan_setChan_same (c : Nat) (x : Dma) (s : State) : HostLink.chan (HostLink.setChan c x s) c = x :=
  Table.get_put_same ..

@[simp] theorem tagsOf_setChan (c n : Nat) (x : Dma) (s : State) :
    HostLink.tagsOf (HostLink.setChan n x s) c = HostLink.tagsOf s c := rfl

@[simp] theorem tagsOf_setReg (c i k v : Nat) (s : State) : HostLink.tagsOf (Ops.setReg i k v s) c = HostLink.tagsOf s c := rfl

@[simp] theorem tagsOf_counted (c : Nat) (s : State) : HostLink.tagsOf (counted s) c = HostLink.tagsOf s c := rfl

/-- A draining channel that holds no tag is as its control word says (R394). -/
theorem drained_ends {s : State} {c : Nat} (hd : (HostLink.chan s c).state = .draining) (ht : HostLink.tagsOf s c = []) :
    HostLink.drained c s =
      HostLink.setChan c { state := if Ops.bit (HostLink.control s c) 31 then .running else .disabled } s :=
  if_pos (by simp [hd, ht])

theorem drained_waits {s : State} {c : Nat} (ht : HostLink.tagsOf s c ≠ []) : HostLink.drained c s = s :=
  if_neg (by simp [ht])

/-! ### Doorbells (R388, R389) -/

section
variable {s : State} {f : Fn} {c : Nat}

theorem pageLive_iff : HostLink.pageLive s f c = true ↔
    HostLink.owner s c = HostLink.ownerCode f ∧ HostLink.present s f = true := by simp [HostLink.pageLive]

theorem pageLive_toL0 (c : Fin 32) : HostLink.pageLive (Ops.toL0 Ops.raise s) f c = HostLink.pageLive s f c := by
  simp only [HostLink.pageLive, owner_toL0, present_toL0]

variable {k : Nat} {put : Dma → Dma}

/-- A doorbell of another function's channel is an access to nothing (R385). -/
theorem doorbell_stranger (h : ¬ HostLink.pageLive s f c = true) : HostLink.doorbell f c k put s = Ops.bump 0x8000 7 s :=
  if_pos (by simpa using h)

variable (h : HostLink.pageLive s f c = true)
include h

theorem doorbell_live : HostLink.doorbell f c k put s =
    if (HostLink.chan s c).state = .disabled then s
    else if HostLink.ringSize s c ≤ k then HostLink.halt c (HostLink.chan s c).sqHead 3 s
    else HostLink.setChan c (put (HostLink.chan s c)) s := if_neg (by simp [h])

theorem doorbell_disabled (hd : (HostLink.chan s c).state = .disabled) : HostLink.doorbell f c k put s = s :=
  (doorbell_live h).trans (if_pos hd)

theorem doorbell_stored (hd : (HostLink.chan s c).state ≠ .disabled) (hk : k < HostLink.ringSize s c) :
    HostLink.doorbell f c k put s = HostLink.setChan c (put (HostLink.chan s c)) s :=
  (doorbell_live h).trans ((if_neg hd).trans (if_neg (Nat.not_le.2 hk)))

theorem doorbell_halts (hd : (HostLink.chan s c).state ≠ .disabled) (hk : HostLink.ringSize s c ≤ k) :
    HostLink.doorbell f c k put s = HostLink.halt c (HostLink.chan s c).sqHead 3 s :=
  (doorbell_live h).trans ((if_neg hd).trans (if_pos hk))

end

/-! ### The object of a channel (R398) -/

section
variable (c : Fin 32)

theorem find_channel : Objects.find (0x8100 + c) = some ⟨7, .host, [Objects.bits 0xFFFFE3FF (Objects.r 1 1 .u32 .rw 0x01810000),
    Objects.r 2 3 .u64 .rw, Objects.r 4 4 .u8 .ro, Objects.r 5 6 .u32 .ro, Objects.r 7 7 .u64 .ro]⟩ := by
  have early : ¬ 0x8100 + c.val < 0x2000 := by omega
  have array : ¬ 0x8100 + c.val < 0x3000 := by omega
  have time : ¬ 0x8100 + c.val < 0x4000 := by omega
  have banks : ¬ 0x8100 + c.val < 0x5000 := by omega
  have queues : ¬ 0x8100 + c.val < 0x6000 := by omega
  have engines : ¬ 0x8100 + c.val < 0x7000 := by omega
  have lanes : ¬ 0x8100 + c.val < 0x8000 := by omega
  have here : 0x8100 + c.val < 0x9000 := by omega
  have link : ¬ 0x8100 + c.val = 0x8000 := by omega
  have channel : 0x8100 ≤ 0x8100 + c.val ∧ 0x8100 + c.val < 0x8120 := by omega
  simp only [Objects.find, if_neg early, if_neg array, if_neg time, if_neg banks, if_neg queues, if_neg engines, if_neg lanes,
    if_pos here, Objects.hostLink, if_neg link, if_pos channel]

/-- The control word of a channel has four bytes. -/
theorem size_channel : Operands.size (0x8100 + c) 1 = 4 := by
  simp only [Operands.size, Objects.row, find_channel]
  rfl

theorem chapterWrite_channel (t : Transport) (d : List Byte) (s : State) : Dict.chapterWrite t (0x8100 + c) 1 d s =
    some (HostLink.writeControl c (Ops.le d) s) := by
  have modes : ¬ 0x8100 + c.val < 0x1010 := by omega
  have transports : ¬ (0x1100 ≤ 0x8100 + c.val ∧ 0x8100 + c.val < 0x1200) := by omega
  have supplies : ¬ 0x8100 + c.val < 0x2000 := by omega
  have regions : ¬ (0x2400 ≤ 0x8100 + c.val ∧ 0x8100 + c.val < 0x2800) := by omega
  have loader : ¬ 0x8100 + c.val < 0x3000 := by omega
  have select : ¬ (0x8100 + c.val = 0x3010 ∧ 1 = 3) := by omega
  have time : ¬ 0x8100 + c.val < 0x4000 := by omega
  have banks : ¬ 0x8100 + c.val < 0x5000 := by omega
  have queues : ¬ 0x8100 + c.val < 0x6000 := by omega
  have engines : ¬ 0x8100 + c.val < 0x7000 := by omega
  have lanes : ¬ 0x8100 + c.val < 0x8000 := by omega
  have here : 0x8100 + c.val < 0x9000 := by omega
  have link : ¬ 0x8100 + c.val = 0x8000 := by omega
  have channel : 0x8100 ≤ 0x8100 + c.val ∧ 0x8100 + c.val < 0x8120 := by omega
  simp only [Dict.chapterWrite, if_neg modes, if_neg transports, if_neg supplies, if_neg regions, if_neg loader, if_neg select,
    if_neg time, if_neg banks, if_neg queues, if_neg engines, if_neg lanes, if_pos here, HostLink.writeSub, if_neg link,
    if_pos channel, Nat.add_sub_cancel_left]

end

/-! ### A write of the control word (R393, R394, R398) -/

/-- The bits of a control word that are stored. -/
abbrev channelBits : Nat := 0xFFFFE3FF

/-- A control word whose OWNER, SIZE, QUOTA and VECTOR are in their ranges. -/
def GoodChannel (w : Nat) : Prop :=
  w / 2 ^ 24 % 128 ≤ 65 ∧ 4 ≤ w / 2 ^ 20 % 16 ∧ w / 2 ^ 20 % 16 ≤ 12 ∧ 1 ≤ w / 2 ^ 13 % 128 ∧ w / 2 ^ 13 % 128 ≤ 64 ∧
    w % 1024 < (HostLink.tableOf (w / 2 ^ 24 % 128)).2

/-- A word with the stored fields of channel c but for ENABLE. -/
def SameFields (s : State) (c w : Nat) : Prop := w % 2 ^ 31 = HostLink.control s c % 2 ^ 31

theorem goodChannel_iff {w : Nat} : ¬ (65 < w / 2 ^ 24 % 128 ∨ w / 2 ^ 20 % 16 < 4 ∨ 12 < w / 2 ^ 20 % 16 ∨ w / 2 ^ 13 % 128 < 1 ∨
    64 < w / 2 ^ 13 % 128 ∨ (HostLink.tableOf (w / 2 ^ 24 % 128)).2 ≤ w % 1024) ↔ GoodChannel w := by
  simp only [not_or, Nat.not_lt, Nat.not_le, GoodChannel]

section
variable {s : State} {c v : Nat}

theorem channelControl_illegal (h : ¬ GoodChannel (v &&& channelBits)) : HostLink.writeControl c v s = .inl 4 :=
  if_pos (not_not.1 (mt goodChannel_iff.1 h))

variable (h : GoodChannel (v &&& channelBits))
include h

theorem channelControl_busy (hs : ¬ SameFields s c (v &&& channelBits)) (hd : (HostLink.chan s c).state ≠ .disabled) :
    HostLink.writeControl c v s = .inl 5 := (if_neg (goodChannel_iff.2 h)).trans (if_pos ⟨hs, hd⟩)

/-- A disabled channel takes any fields, and runs once ENABLE is 1 (R393). -/
theorem channelControl_disabled (hd : (HostLink.chan s c).state = .disabled) : HostLink.writeControl c v s =
    .inr (if Ops.bit (v &&& channelBits) 31 then
        HostLink.setChan c { HostLink.chan s c with state := .running } (Ops.setReg (0x8100 + c) 1 (v &&& channelBits) s)
      else Ops.setReg (0x8100 + c) 1 (v &&& channelBits) s) :=
  (if_neg (goodChannel_iff.2 h)).trans ((if_neg fun busy => busy.2 hd).trans (by simp only [hd]))

variable (hs : SameFields s c (v &&& channelBits))
include hs

theorem channelControl_draining (hd : (HostLink.chan s c).state = .draining) : HostLink.writeControl c v s =
    .inr (Ops.setReg (0x8100 + c) 1 (v &&& channelBits) s) :=
  (if_neg (goodChannel_iff.2 h)).trans ((if_neg fun busy => busy.1 hs).trans (by simp only [hd]))

/-- A channel that is running or halted drains once ENABLE is 0 (R394). -/
theorem channelControl_active (hd : (HostLink.chan s c).state = .running ∨ (HostLink.chan s c).state = .halted) :
    HostLink.writeControl c v s = .inr (if Ops.bit (v &&& channelBits) 31 then Ops.setReg (0x8100 + c) 1 (v &&& channelBits) s
      else HostLink.drained c (HostLink.setChan c { HostLink.chan s c with state := .draining }
        (Ops.setReg (0x8100 + c) 1 (v &&& channelBits) s))) := by
  refine (if_neg (goodChannel_iff.2 h)).trans ((if_neg fun busy => busy.1 hs).trans ?_)
  rcases hd with hd | hd <;> simp only [hd]

end

/-! ### DMA_ENABLE and DMA_DISABLE (R393, R394) -/

/-- The word that a write of ENABLE makes of the stored one. -/
abbrev enableWord (s : State) (c b : Nat) : Nat := Operands.replace (HostLink.control s c) 31 1 b

/-- The word that is stored has ENABLE as written. -/
theorem bit_enableWord (s : State) (c b : Nat) : Ops.bit (enableWord s c b &&& channelBits) 31 = decide (b % 2 = 1) := by
  have enable : enableWord s c b / 2 ^ 31 % 2 = b % 2 := by
    simp only [Operands.replace]
    omega
  rw [Ops.bit, Nat.testBit_and, Nat.testBit_eq_decide_div_mod_eq, enable]
  simp only [show Nat.testBit channelBits 31 = true from by decide, Bool.and_true]

section
variable {s x : State} {t : Transport} {c : Fin 32} {b e : Nat} (h : Writes s t (0x8100 + c) 1 (le 4 (enableWord s c b)))
  (hw : enableWord s c b < 2 ^ 32)
include h hw

theorem dmaEnable_taken (he : HostLink.writeControl c (enableWord s c b) (counted s) = .inr x) :
    Run.run (Operands.dmaEnable t c b) s = .next (wrote s t (0x8100 + c) 1 (le 4 (enableWord s c b)) x) :=
  (run_writeField h.toAwake).trans (operands_taken (size_channel c) h (by omega) (by omega)
    ((chapterWrite_channel c t _ _).trans (congrArg some ((congrArg (HostLink.writeControl c · _) (le_bytes_lt hw)).trans he))))

theorem dmaEnable_refused (he : HostLink.writeControl c (enableWord s c b) (counted s) = .inl e) :
    Run.run (Operands.dmaEnable t c b) s =
      .next (after s (answered s t 2 (0x8100 + c) 1 (le 4 (enableWord s c b)) e [] (counted s))) :=
  (run_writeField h.toAwake).trans (operands_refused (size_channel c) h (by omega) (by omega)
    ((chapterWrite_channel c t _ _).trans (congrArg some ((congrArg (HostLink.writeControl c · _) (le_bytes_lt hw)).trans he))))

end

/-- The two commands, each with the ENABLE that it writes. -/
theorem exec_dmaEnable {t : Transport} {c : Fin 32} {cmd : Instr} {b : Nat}
    (h : (cmd, b) ∈ [(.dmaEnable t c, 1), (.dmaDisable t c, 0)]) (s : State) :
    (b = 1 ∨ b = 0) ∧ exec cmd s = Run.run (Operands.dmaEnable t c b) s := by
  simp only [List.mem_cons, Prod.mk.injEq, List.not_mem_nil, or_false] at h
  rcases h with ⟨rfl, rfl⟩ | ⟨rfl, rfl⟩
  · exact ⟨.inl rfl, rfl⟩
  · exact ⟨.inr rfl, rfl⟩

theorem control_counted (c : Fin 32) (s : State) : HostLink.control (counted s) c = HostLink.control s c :=
  reg_counted (by omega) s

/-- The end of a drain that finds no tag: the control word reads ENABLE 0, and the channel is at its defaults (R394). -/
theorem drained_disabled {s : State} {c w : Nat} (hw : Ops.bit w 31 = false) (ht : HostLink.tagsOf s c = []) (x : Dma)
    (hx : x.state = .draining) :
    HostLink.drained c (HostLink.setChan c x (Ops.setReg (0x8100 + c) 1 w s)) =
      HostLink.setChan c {} (HostLink.setChan c x (Ops.setReg (0x8100 + c) 1 w s)) := by
  have word : HostLink.control (HostLink.setChan c x (Ops.setReg (0x8100 + c) 1 w s)) c = w := reg_setReg_same (0x8100 + c) 1 w s
  have state : (HostLink.chan (HostLink.setChan c x (Ops.setReg (0x8100 + c) 1 w s)) c).state = .draining := by
    rw [chan_setChan_same, hx]
  refine (drained_ends state (by simpa using ht)).trans ?_
  rw [word, hw]
  rfl

/-- A drain that finds tags goes on (R394). -/
theorem drained_goes_on {s : State} {c w : Nat} (ht : HostLink.tagsOf s c ≠ []) (x : Dma) :
    HostLink.drained c (HostLink.setChan c x (Ops.setReg (0x8100 + c) 1 w s)) =
      HostLink.setChan c x (Ops.setReg (0x8100 + c) 1 w s) := drained_waits (by simpa using ht)

/-- Settles O51: a doorbell goes by its page, its channel's state and the ring's size, and a write of ENABLE by the fields of the
stored word and the channel's state. -/
theorem dmaControl : Obligations.DmaControl := by
  unfold Obligations.DmaControl
  intro s t c u v x i word kept legal same put
  refine ⟨fun f k h => ?doorbells, fun cmd b hcmd h hw => ?writes⟩
  case doorbells =>
    intro both page halted
    refine ⟨fun hd => ⟨run_viaLink_down h hd _, run_viaLink_down h hd _⟩, fun hup => ?_⟩
    have rung {y z : State} (hy : HostLink.sqTail f c k.toNat v = y) (hz : HostLink.cqHead f c k.toNat v = z) : both y z :=
      ⟨run_viaLink h hup hy, run_viaLink h hup hz⟩
    have live : HostLink.pageLive v f c = true ↔ page := by
      rw [pageLive_toL0]
      exact pageLive_iff (s := s)
    have chan : HostLink.chan v c = x := congrFun (chan_toL0 u) c
    have ring : HostLink.ringSize v c = HostLink.ringSize s c := ringSize_toL0 c u
    refine ⟨fun hp => ?stranger, fun hp hd => ?disabled, fun hp hd hk => ?stored, fun hp hd hk => ?halts⟩
    case stranger => exact rung (doorbell_stranger (mt live.1 hp)) (doorbell_stranger (mt live.1 hp))
    case disabled =>
      have off := chan ▸ hd
      exact rung (doorbell_disabled (live.2 hp) off) (doorbell_disabled (live.2 hp) off)
    case stored =>
      rw [← ring] at hk
      rw [← chan] at hd ⊢
      exact rung (doorbell_stored (live.2 hp) hd hk) (doorbell_stored (live.2 hp) hd hk)
    case halts =>
      rw [← ring] at hk
      simp only [halted]
      rw [← chan] at hd ⊢
      exact rung (doorbell_halts (live.2 hp) hd hk) (doorbell_halts (live.2 hp) hd hk)
  case writes =>
    intro fails makes drains
    obtain ⟨value, runs⟩ := exec_dmaEnable hcmd s
    have refused {e : Nat} (he : HostLink.writeControl c (word b) (counted s) = .inl e) : fails e :=
      runs.trans (dmaEnable_refused h hw he)
    have taken {y : State} (he : HostLink.writeControl c (word b) (counted s) = .inr y) : makes y :=
      runs.trans (dmaEnable_taken h hw he)
    have fields : SameFields (counted s) c (kept b) ↔ same b := by rw [SameFields, control_counted]
    have enable : Ops.bit (kept b) 31 = decide (b % 2 = 1) := bit_enableWord s c b
    refine ⟨fun hl => refused (channelControl_illegal hl),
      fun hl hs hd => refused (channelControl_busy hl (mt fields.1 hs) hd), fun hl hd => ?disabled,
      fun hl hs hd => taken (channelControl_draining hl (fields.2 hs) hd), fun hl hs hd => ⟨fun hb => ?on, fun hb ht => ?off,
        fun hb ht => ?ends⟩⟩
    case disabled =>
      refine taken ((channelControl_disabled (s := counted s) hl hd).trans ?_)
      rcases value with rfl | rfl
      · exact congrArg Sum.inr ((if_pos enable).trans (if_pos rfl).symm)
      · exact congrArg Sum.inr ((if_neg (by rw [enable]; decide)).trans (if_neg (by decide)).symm)
    case on =>
      subst hb
      exact taken ((channelControl_active (s := counted s) hl (fields.2 hs) hd).trans (congrArg Sum.inr (if_pos enable)))
    case off =>
      subst hb
      refine taken ((channelControl_active (s := counted s) hl (fields.2 hs) hd).trans
        (congrArg Sum.inr ((if_neg (by rw [enable]; decide)).trans ?_)))
      exact drained_goes_on ((tagsOf_counted c s).symm ▸ ht) { x with state := .draining }
    case ends =>
      subst hb
      refine taken ((channelControl_active (s := counted s) hl (fields.2 hs) hd).trans
        (congrArg Sum.inr ((if_neg (by rw [enable]; decide)).trans ?_)))
      exact drained_disabled enable ((tagsOf_counted c s).trans ht) { x with state := .draining } rfl

end Sys2Proof.Laws
end

section
/-!
SUPPORT. A DMA descriptor from its start to its completion record (R389 to R393, R396).
-/

namespace Sys2Proof.Laws

open Sys2Proof Sys2Proof.Machine Sys2Proof.Safety

/-! ### The start (R389, R391, R393) -/

/-- Channel c may start a descriptor, and it is its turn. -/
abbrev StartsNow (s : State) (c : Nat) : Prop :=
  HostLink.up s = true ∧ s.modes.cur ≠ .m6 ∧ (HostLink.chan s c).state = .running ∧
    (HostLink.chan s c).sqHead ≠ (HostLink.chan s c).sqTail ∧ (HostLink.tagsOf s c).length < HostLink.quota s c ∧
      (s.host.short = false ∨ HostLink.turn s = some c)

/-- The STATUS with which a descriptor ends at once, if it does (R389, R390, R393). -/
def startStatus (s : State) (c : Nat) (raw : Option (List Byte)) : Option Nat :=
  if raw.isNone then some 2 else if HostLink.invalid (HostLink.parse (raw.getD [])) (raw.getD []) then some 3
  else if HostLink.notAllowed (HostLink.parse (raw.getD [])) (HostLink.owner s c) then some 5 else none

section
variable {s : State} {c : Nat} {raw : Option (List Byte)} (hr : raw ≠ none)
include hr

theorem startStatus_invalid (hb : HostLink.invalid (HostLink.parse (raw.getD [])) (raw.getD []) = true) :
    startStatus s c raw = some 3 := (if_neg (by simpa using hr)).trans (if_pos hb)

variable (hb : ¬ HostLink.invalid (HostLink.parse (raw.getD [])) (raw.getD []) = true)
include hb

theorem startStatus_notAllowed (ha : HostLink.notAllowed (HostLink.parse (raw.getD [])) (HostLink.owner s c) = true) :
    startStatus s c raw = some 5 := (if_neg (by simpa using hr)).trans ((if_neg hb).trans (if_pos ha))

theorem startStatus_none (ha : ¬ HostLink.notAllowed (HostLink.parse (raw.getD [])) (HostLink.owner s c) = true) :
    startStatus s c raw = none := (if_neg (by simpa using hr)).trans ((if_neg hb).trans (if_neg ha))

end

/-- Channel c has started descriptor `d` under tag g, with the status `st`. -/
def started (c g : Nat) (d : Descriptor) (st : Option Nat) (s : State) : State :=
  let x := HostLink.chan s c
  let v := HostLink.setChan c { x with sqHead := (x.sqHead + 1) % HostLink.ringSize s c } s
  let w := { v with host := { v.host with
    tags := s.host.tags ++ [({ tag := g, chan := c, slot := x.sqHead, desc := d, status := st } : DmaTag)]
    ended := if st.isSome then s.host.ended ++ [g] else s.host.ended
    lastStart := c } }
  { w with host := { w.host with short := s.host.short && (HostLink.turn w).isSome } }

section
variable {s : State} {c g e : Nat} {raw : Option (List Byte)}

theorem startsNow_iff : (!HostLink.up s || Ops.modeIn s [.m6] || !HostLink.mayStart s c ||
    (s.host.short && HostLink.turn s != some c)) = false ↔ StartsNow s c := by
  simp [StartsNow, HostLink.mayStart, Ops.modeIn, and_assoc, or_iff_not_imp_left]

theorem start_idle (h : ¬ StartsNow s c ∨ HostLink.freeTag s = none) : HostLink.start c raw s = s := by
  by_cases now : StartsNow s c
  · refine (if_neg (Bool.eq_false_iff.1 (startsNow_iff.2 now))).trans ?_
    simp only [h.resolve_left (not_not.2 now)]
  · exact if_pos (by simpa only [Bool.not_eq_false] using mt startsNow_iff.1 now)

variable (h : StartsNow s c) (hg : HostLink.freeTag s = some g)
include h hg

/-- A descriptor that ends at once halts its channel; a failed read is counted as well (R393). -/
theorem start_ends (he : startStatus s c raw = some e) : HostLink.start c raw s =
    HostLink.halt c (HostLink.chan s c).sqHead e (if e = 2 then Ops.bump 0x8000 8
      (started c g (HostLink.parse (raw.getD [])) (some e) s) else started c g (HostLink.parse (raw.getD [])) (some e) s) := by
  unfold startStatus at he
  refine (if_neg (Bool.eq_false_iff.1 (startsNow_iff.2 h))).trans ?_
  simp only [hg, he, Option.some.injEq]
  rfl

theorem start_goes (he : startStatus s c raw = none) : HostLink.start c raw s =
    started c g (HostLink.parse (raw.getD [])) none s := by
  unfold startStatus at he
  refine (if_neg (Bool.eq_false_iff.1 (startsNow_iff.2 h))).trans ?_
  simp only [hg, he]
  rfl

end

/-! ### The completion record (R389, R391, R392) -/

/-- The record of tag `t` has been written with status e, and its tag has come free. -/
def recordWritten (tag : Nat) (t : DmaTag) (e : Nat) (s : State) : State :=
  let c := t.chan
  let x := HostLink.chan s c
  let n := HostLink.ringSize s c
  let v := Ops.emit (.hostWrite (Ops.reg s (0x8100 + c) 3 + 16 * x.cqTail) (HostLink.recordBytes t e x.phase)) s
  let w := HostLink.setChan c { x with
    cqTail := (x.cqTail + 1) % n
    phase := if x.cqTail + 1 = n then !x.phase else x.phase } v
  let y := Ops.add (0x8100 + c) 7 64 t.done (Ops.bump (0x8100 + c) 6 w)
  { y with host := { y.host with
    tags := s.host.tags.filter fun z => z.tag != tag
    ended := s.host.ended.erase tag
    short := s.host.short || (HostLink.freeTag s).isNone } }

/-- A record changes the counters of its channel alone among the stored subs. -/
theorem control_recordWritten (tag : Nat) (t : DmaTag) (e : Nat) (s : State) :
    HostLink.control (recordWritten tag t e s) t.chan = HostLink.control s t.chan :=
  (reg_setReg_other (i := 0x8100 + t.chan) (k := 7) (by omega) _ _).trans
    (reg_setReg_other (i := 0x8100 + t.chan) (k := 6) (by omega) _ _)

/-- The record of tag t can be written: its turn has come, and the completion ring has space. -/
abbrev RecordFits (s : State) (t : DmaTag) : Prop :=
  HostLink.up s = true ∧ s.modes.cur ≠ .m6 ∧ HostLink.behind s t = false ∧
    ((HostLink.chan s t.chan).cqTail + 1) % HostLink.ringSize s t.chan ≠ (HostLink.chan s t.chan).cqHead

section
variable {s : State} {tag : Nat} {t : DmaTag}

theorem record_unknown (h : s.host.tags.find? (fun y => y.tag == tag) = none) : HostLink.complete tag s = s := by
  simp only [HostLink.complete, h]

variable (h : s.host.tags.find? (fun y => y.tag == tag) = some t)
include h

theorem record_waits (hw : t.status = none ∨ ¬ RecordFits s t) : HostLink.complete tag s = s := by
  cases hs : t.status with
  | none => simp only [HostLink.complete, h, hs]
  | some e =>
    have fits := hw.resolve_left (by simp [hs])
    simp only [HostLink.complete, h, hs]
    refine if_pos ?_
    simpa [RecordFits, Ops.modeIn, imp_iff_not_or, or_assoc] using fits

theorem record_writes {e : Nat} (hs : t.status = some e) (hf : RecordFits s t) : HostLink.complete tag s =
    HostLink.drained t.chan (if Ops.bit t.desc.flags 2 then
      Ops.deliverMsix Ops.raise ((HostLink.tableOf (HostLink.owner s t.chan)).1 + HostLink.vector s t.chan)
        (recordWritten tag t e s) else recordWritten tag t e s) := by
  obtain ⟨link, mode, turn, space⟩ := hf
  have owner : HostLink.owner (recordWritten tag t e s) t.chan = HostLink.owner s t.chan :=
    congrArg (· / 2 ^ 24 % 128) (control_recordWritten tag t e s)
  have vector : HostLink.vector (recordWritten tag t e s) t.chan = HostLink.vector s t.chan :=
    congrArg (· % 1024) (control_recordWritten tag t e s)
  rw [← owner, ← vector]
  simp only [HostLink.complete, h, hs]
  exact if_neg (by simp [link, mode, turn, space, Ops.modeIn])

end

/-! ### The commands that move data (R390, R393) -/

/-- A descriptor of operation `op` may move data in this mode. -/
def movesIn (s : State) (op : Nat) : Bool := op == 5 || Ops.modeIn s [.m5] || decide (2 < op) && Ops.modeIn s [.m7]

theorem movesIn_iff {s : State} {op : Nat} :
    movesIn s op = true ↔ op = 5 ∨ s.modes.cur = .m5 ∨ (2 < op ∧ s.modes.cur = .m7) := by
  simp [movesIn, Ops.modeIn, or_assoc]

/-- What a command moves for the descriptor under a tag, in a mode that its operation needs. -/
def transferred (tag op : Nat) (f : DmaTag → State → State) (s : State) : State :=
  match HostLink.active s tag op with
  | none => s
  | some t => if Ops.modeIn s [.m6] then s else if !movesIn s op then HostLink.finish t 4 s else f t s

/-- Bytes of host memory, or a failed read of it. -/
def fetched (f : DmaTag → List Byte → State → State) (d : Option (List Byte)) (t : DmaTag) (s : State) : State :=
  match d with
  | none => HostLink.readError t s
  | some l => f t l s

/-- Bytes of host memory go to the stream aperture. -/
def streamed (t : DmaTag) (l : List Byte) (s : State) : State :=
  let l := l.take (t.desc.len - t.done)
  let y := l.foldl (fun y b => Loader.arrive .aperture b y) s
  let t' := { t with done := t.done + l.length }
  if t'.done = t.desc.len then HostLink.finish t' 0 y else HostLink.setTag t' y

/-- What each operation moves. -/
def moves (op : Nat) (f : PoolFault) (d : Option (List Byte)) (t : DmaTag) (s : State) : State :=
  match op with
  | 1 => fetched (fun t l => HostLink.pushWords (t.desc.len / 8 + 1) t l) d t s
  | 2 => HostLink.popWords (t.desc.len / 8 + 1) t f s
  | 3 => fetched (fun t l => HostLink.bankWords (t.desc.len / 8 + 1) t l) d t s
  | 4 => HostLink.readWords (t.desc.len / 8 + 1) t s
  | _ => fetched streamed d t s

section
variable (tag : Nat) (f : PoolFault) (d : Option (List Byte)) (s : State)

theorem toQueue_transfers : HostLink.toQueue tag d s = transferred tag 1 (moves 1 f d) s := by
  simp only [HostLink.toQueue, transferred, movesIn]
  cases HostLink.active s tag 1 with
  | none => rfl
  | some t => cases d <;> simp [moves, fetched]

theorem fromQueue_transfers : HostLink.fromQueue tag f s = transferred tag 2 (moves 2 f d) s := by
  simp only [HostLink.fromQueue, transferred, movesIn]
  cases HostLink.active s tag 2 with
  | none => rfl
  | some t => simp [moves]

theorem toBank_transfers : HostLink.toBank tag d s = transferred tag 3 (moves 3 f d) s := by
  simp only [HostLink.toBank, transferred, movesIn]
  cases HostLink.active s tag 3 with
  | none => rfl
  | some t => cases d <;> simp [moves, fetched]

theorem fromBank_transfers : HostLink.fromBank tag s = transferred tag 4 (moves 4 f d) s := by
  simp only [HostLink.fromBank, transferred, movesIn]
  cases HostLink.active s tag 4 with
  | none => rfl
  | some t => simp [moves]

theorem toStream_transfers : HostLink.toStream tag d s = transferred tag 5 (moves 5 f d) s := rfl

end

section
variable {s : State} {tag op : Nat} {t : DmaTag} {f : DmaTag → State → State}

theorem transferred_idle (h : HostLink.active s tag op = none ∨ s.modes.cur = .m6) : transferred tag op f s = s := by
  unfold transferred
  split
  · rfl
  · next ht => exact if_pos (by simpa [ht, Ops.modeIn] using h)

variable (h : HostLink.active s tag op = some t) (hm : s.modes.cur ≠ .m6)
include h hm

theorem transferred_barred (hr : ¬ movesIn s op = true) : transferred tag op f s = HostLink.finish t 4 s := by
  simp [transferred, h, hm, Ops.modeIn, hr]

theorem transferred_runs (hr : movesIn s op = true) : transferred tag op f s = f t s := by
  simp [transferred, h, hm, Ops.modeIn, hr]

end

end Sys2Proof.Laws
end

section
/-!
SUPPORT. One word of a DMA descriptor, and the statement on descriptors (R184 to R187, R215, R390, R393).
-/

namespace Sys2Proof.Laws

open Sys2Proof Sys2Proof.Machine Sys2Proof.Safety

/-! ### Words of queues (R390) -/

section
variable {s z : State} {t : DmaTag} {k : Nat} {d : List Byte} {x : QResp}

/-- The push of a descriptor's next word. -/
abbrev pushReq (t : DmaTag) (d : List Byte) : QReq :=
  { op := if Ops.bit t.desc.flags 0 && t.done + 8 == t.desc.len then .pushClose else .push
    queue := BitVec.ofNat 12 (t.desc.target % 4096), data := BitVec.ofNat 64 (Ops.le (d.take 8)) }

/-- The pop of a descriptor's next word. -/
abbrev popReq (t : DmaTag) : QReq := { op := .pop, queue := BitVec.ofNat 12 (t.desc.target % 4096), data := 0 }

theorem pushWords_step (hd : t.done ≠ t.desc.len) (hl : 8 ≤ d.length)
    (h : Queues.operate (0xC00 + t.chan) (pushReq t d) Queues.sound s = (some x, z)) :
    HostLink.pushWords (k + 1) t d s =
      if x.refused then Queues.wakeConsumer (t.desc.target % 4096) (HostLink.finish { t with reason := x.data.toNat } 1 z)
      else HostLink.pushWords k { t with done := t.done + 8 } (d.drop 8) (Queues.wakeConsumer (t.desc.target % 4096) z) := by
  rw [HostLink.pushWords, if_neg hd, if_neg (Nat.not_lt.2 hl)]
  simp only [h]

section
variable {f : PoolFault}

theorem popWords_held (h : Queues.operate (0xC00 + t.chan) (popReq t) f s = (none, z)) :
    HostLink.popWords (k + 1) t f s = HostLink.setTag { t with holding := true } z := by
  simp only [HostLink.popWords, h]

variable (h : Queues.operate (0xC00 + t.chan) (popReq t) f s = (some x, z))
include h

theorem popWords_refused (hr : x.refused = true) :
    HostLink.popWords (k + 1) t f s = HostLink.finish { t with reason := x.data.toNat } 1 z := by
  simp only [HostLink.popWords, h, hr, if_true]

theorem popWords_empty (hr : x.refused = false) (hv : x.valid = false) : HostLink.popWords (k + 1) t f s =
    if Ops.bit t.desc.flags 1 then HostLink.setTag { t with holding := true } z else HostLink.finish t 0 z := by
  simp only [HostLink.popWords, h, hr, hv, Bool.false_eq_true, if_false, Bool.not_false, if_true]

theorem popWords_word (hr : x.refused = false) (hv : x.valid = true) : HostLink.popWords (k + 1) t f s =
    let t' := { t with done := t.done + 8, flags := HostLink.wordFlags t x, holding := false }
    let z' := Ops.emit (.hostWrite (t.desc.host + t.done) (le 8 x.data.toNat)) z
    if x.eop || t.done + 8 == t.desc.len then HostLink.finish t' 0 z' else HostLink.popWords k t' Queues.sound z' := by
  simp only [HostLink.popWords, h, hr, hv, Bool.false_eq_true, if_false, Bool.not_true]

end
end

/-! ### Words of banks (R184 to R187, R390) -/

/-- The bank of a descriptor's next word, and the word's place in it. -/
abbrev bankAt (t : DmaTag) : Nat := (t.desc.target + t.done) / 65536
abbrev wordAt (t : DmaTag) : Nat := (t.desc.target + t.done) / 8 % 8192

section
variable {s : State} {n w : Nat}

theorem bankAccess_put (a : Nat) (v : W64) : (Ops.bankAccess Ops.raise n { op := 1, addr := BitVec.ofNat 13 a, data := v } 0 s).1 =
    Ops.setWord n (a % 8192) (Flags.encode v) s := by
  rw [← BitVec.toNat_ofNat a 13]
  rfl

/-- A read of a word without an error counts nothing, and leaves the word. -/
theorem bankAccess_get (a : Nat) {x : W64} (hx : Ops.word s n (a % 8192) = Flags.encode x) :
    Ops.bankAccess Ops.raise n { op := 0, addr := BitVec.ofNat 13 a, data := 0 } 0 s =
      (Ops.setWord n (a % 8192) (Flags.encode x) s, ⟨Flags.encode x, x, false, false⟩) := by
  have here : Ops.word s n (BitVec.ofNat 13 a).toNat = Flags.encode x := by rw [BitVec.toNat_ofNat]; exact hx
  have good : Flags.access 0 0 (Flags.encode x) = ⟨Flags.encode x, x, false, false⟩ := by
    rw [access_good (by decide) 0 (decode_encode x), encode_data]
    rfl
  rw [bankAccess_unflipped, here]
  simp only [accessed, good, Ops.noteAccess, BitVec.toNat_ofNat]
  rfl

end

section
variable {s : State} {t : DmaTag} {k : Nat} {d : List Byte} (hd : t.done ≠ t.desc.len)
include hd

theorem bankWords_refused (hr : Ops.refuses s (bankAt t) = true) (hl : 8 ≤ d.length) :
    HostLink.bankWords (k + 1) t d s = HostLink.finish t 6 (Ops.refuse Ops.raise (bankAt t) s) := by
  rw [HostLink.bankWords, if_neg hd, if_neg (Nat.not_lt.2 hl)]
  exact if_pos hr

theorem readWords_refused (hr : Ops.refuses s (bankAt t) = true) :
    HostLink.readWords (k + 1) t s = HostLink.finish t 6 (Ops.refuse Ops.raise (bankAt t) s) := by
  rw [HostLink.readWords, if_neg hd]
  exact if_pos hr

variable (hr : Ops.refuses s (bankAt t) = false)
include hr

theorem bankWords_waits (he : Banks.entered (Banks.turn (bankAt t) s) (bankAt t) = false) (hl : 8 ≤ d.length) :
    HostLink.bankWords (k + 1) t d s = HostLink.setTag t (Ops.wakeBank (bankAt t) true (Banks.turn (bankAt t) s)) := by
  rw [HostLink.bankWords, if_neg hd, if_neg (Nat.not_lt.2 hl)]
  exact (if_neg (Bool.eq_false_iff.1 hr)).trans (if_pos (by rw [he]; rfl))

theorem readWords_waits (he : Banks.entered (Banks.turn (bankAt t) s) (bankAt t) = false) :
    HostLink.readWords (k + 1) t s = HostLink.setTag t (Ops.wakeBank (bankAt t) true (Banks.turn (bankAt t) s)) := by
  rw [HostLink.readWords, if_neg hd]
  exact (if_neg (Bool.eq_false_iff.1 hr)).trans (if_pos (by rw [he]; rfl))

variable (he : Banks.entered (Banks.turn (bankAt t) s) (bankAt t) = true)
include he

theorem bankWords_word (hl : 8 ≤ d.length) : HostLink.bankWords (k + 1) t d s =
    HostLink.bankWords k { t with done := t.done + 8 } (d.drop 8) (Ops.setWord (bankAt t) (wordAt t)
      (Flags.encode (BitVec.ofNat 64 (Ops.le (d.take 8)))) (Banks.turn (bankAt t) s)) := by
  rw [HostLink.bankWords, if_neg hd, if_neg (Nat.not_lt.2 hl), ← bankAccess_put]
  exact (if_neg (Bool.eq_false_iff.1 hr)).trans (if_neg (by rw [he]; decide))

theorem readWords_word {x : W64} (hx : Ops.word (Banks.turn (bankAt t) s) (bankAt t) (wordAt t) = Flags.encode x) :
    HostLink.readWords (k + 1) t s = HostLink.readWords k { t with done := t.done + 8, flags := t.flags }
      (Ops.emit (.hostWrite (t.desc.host + t.done) (le 8 x.toNat))
        (Ops.setWord (bankAt t) (wordAt t) (Flags.encode x) (Banks.turn (bankAt t) s))) := by
  rw [HostLink.readWords, if_neg hd]
  refine (if_neg (Bool.eq_false_iff.1 hr)).trans ((if_neg (by rw [he]; decide)).trans ?_)
  simp only [bankAccess_get _ hx, Bool.false_eq_true, if_false, Nat.add_zero, Nat.or_zero]

end

/-! ### The commands, and a run of words that is done -/

/-- The commands that move data for the descriptor under a tag, each with its operation (R390). -/
abbrev moveCommands (tag : Byte) (f : PoolFault) (d : Option (List Byte)) : List (Nat × Instr) :=
  [(1, .hostToQueue tag d), (2, .queueToHost tag f), (3, .hostToBank tag d), (4, .bankToHost tag), (5, .hostToStream tag d)]

theorem exec_moves {tag : Byte} {f : PoolFault} {d : Option (List Byte)} {x : Nat × Instr} (hx : x ∈ moveCommands tag f d)
    (s : State) : exec x.2 s = Run.run (transferred tag.toNat x.1 (moves x.1 f d)) s := by
  simp only [moveCommands, List.mem_cons, List.not_mem_nil, or_false] at hx
  rcases hx with rfl | rfl | rfl | rfl | rfl
  · exact congrArg (Run.run · s) (funext (toQueue_transfers tag.toNat f d))
  · exact congrArg (Run.run · s) (funext (fromQueue_transfers tag.toNat f d))
  · exact congrArg (Run.run · s) (funext (toBank_transfers tag.toNat f d))
  · exact congrArg (Run.run · s) (funext (fromBank_transfers tag.toNat f d))
  · exact congrArg (Run.run · s) (funext (toStream_transfers tag.toNat f d))

/-- A failed read of host memory ends the descriptor and halts its channel (R393). -/
theorem moves_unread {op : Nat} (h : op = 1 ∨ op = 3 ∨ op = 5) (f : PoolFault) (t : DmaTag) (s : State) :
    moves op f none t s = HostLink.halt t.chan t.slot 2 (Ops.bump 0x8000 8 (HostLink.finish t 2 s)) := by
  rcases h with rfl | rfl | rfl
  · rfl
  · rfl
  · rfl

section
variable {t : DmaTag} (h : t.done = t.desc.len) (k : Nat) (d : List Byte) (s : State)
include h

theorem pushWords_done : HostLink.pushWords (k + 1) t d s = HostLink.finish t 0 s := by rw [HostLink.pushWords, if_pos h]

theorem bankWords_done : HostLink.bankWords (k + 1) t d s = HostLink.finish t 0 s := by rw [HostLink.bankWords, if_pos h]

theorem readWords_done : HostLink.readWords (k + 1) t s = HostLink.finish t 0 s := by rw [HostLink.readWords, if_pos h]

end

/-- Settles O52: a start goes by the channel's turn and the status that the descriptor has at once, a record by its turn and the room
in its ring, a command by the mode, and a word by the answer of its queue or by whether its bank's array could be entered. -/
theorem descriptors : Obligations.Descriptors := by
  unfold Obligations.Descriptors
  refine ⟨fun s c raw h => ?start, fun s tag h => ?record, fun s tag f d h => ?commands, fun s t k d hd => ?words,
    fun s t k d hd => ⟨pushWords_done hd k d s, bankWords_done hd k d s, readWords_done hd k s⟩⟩
  case start =>
    intro u x d may bad barred makes
    have effect {y : State} (e : HostLink.start c raw u = y) : makes y := run_awake_of h e
    refine ⟨fun hi => effect (start_idle (s := u) hi), fun g now hg => ⟨fun hr => ?unread,
      fun hr hb => effect (start_ends (s := u) now hg (startStatus_invalid hr hb)),
      fun hr hb ha => effect (start_ends (s := u) now hg (startStatus_notAllowed hr hb ha)),
      fun hr hb ha => effect (start_goes (s := u) now hg (startStatus_none hr hb ha))⟩⟩
    case unread =>
      subst hr
      exact effect (start_ends (s := u) now hg rfl)
  case record =>
    intro u makes
    have effect {y : State} (e : HostLink.complete tag.toNat u = y) : makes y := run_awake_of h e
    exact ⟨fun hn => effect (record_unknown (s := u) hn), fun t ht => ⟨fun hw => effect (record_waits (s := u) ht hw),
      fun e he hf => effect (record_writes (s := u) ht he hf)⟩⟩
  case commands =>
    intro u m commands
    refine ⟨fun x hx hi => ?idle, fun t x hx ha hm => ?active⟩
    case idle => exact (exec_moves hx s).trans (run_awake_of h (transferred_idle (s := u) hi))
    case active =>
      intro makes runs k
      have reach : movesIn u x.1 = true ↔ runs := movesIn_iff
      have effect {y : State} (hr : runs) (e : moves x.1 f d t u = y) : makes y :=
        (exec_moves hx s).trans (run_awake_of h ((transferred_runs (s := u) ha hm (reach.2 hr)).trans e))
      refine ⟨fun hr => ?barred, fun hr ho hn => ?unread, fun l hr hl => ⟨fun ho => ?pushes, fun ho => ?writes, fun ho => ?streams⟩,
        fun hr ho => ?pops, fun hr ho => ?reads⟩
      case barred => exact (exec_moves hx s).trans (run_awake_of h (transferred_barred (s := u) ha hm (mt reach.1 hr)))
      case unread =>
        subst hn
        exact effect hr (moves_unread ho f t u)
      all_goals refine effect hr ?_
      all_goals rw [ho]
      case pushes => rw [hl]; rfl
      case writes => rw [hl]; rfl
      case streams => rw [hl]; rfl
      case pops => rfl
      case reads => rfl
  case words =>
    intro q off n w v moved op y
    refine ⟨fun x z hl ho => ?pushed, fun f x z ho => ⟨popWords_refused ho, popWords_empty ho, popWords_word ho⟩,
      fun f z ho => popWords_held ho, fun hr hl => ⟨bankWords_refused hd hr hl, readWords_refused hd hr⟩,
      fun hr he hl => ⟨bankWords_waits hd hr he hl, readWords_waits hd hr he⟩,
      fun hr he => ⟨bankWords_word hd hr he, fun x hx => readWords_word hd hr he hx⟩⟩
    have step := pushWords_step (k := k) hd hl ho
    exact ⟨fun hr => step.trans (if_neg (by simp [hr])), fun hr => step.trans (if_pos hr)⟩

end Sys2Proof.Laws
end

section
/-!
SUPPORT. The resets of the link and of its functions (R379, R395, R397, R400, R416, R503).
-/

namespace Sys2Proof.Laws

open Sys2Proof Sys2Proof.Machine Sys2Proof.Safety

/-! ### Channels that are abandoned (R395) -/

theorem get_clear {α : Type} (d : Nat → α) (p : Nat → Bool) (t : Table α) (k : Nat) :
    Table.get d (Table.clear p t) k = if p k then d k else Table.get d t k := by
  induction t with
  | nil => simp [Table.clear, Table.get]
  | cons e t ih =>
    rw [Table.clear] at ih
    by_cases hk : e.1 = k
    · subst hk
      cases hp : p e.1 <;> simp_all [Table.clear, Table.get]
    · cases hp : p e.1 <;> simp_all [Table.clear, Table.get]

section
variable {p : Nat → Bool} {c : Nat} (s : State)

theorem chan_abandon : HostLink.chan (HostLink.abandon p s) c = if p c then {} else HostLink.chan s c :=
  get_clear _ p s.host.chans c

theorem tagsOf_abandon (h : p c = true) : HostLink.tagsOf (HostLink.abandon p s) c = [] := by
  simp only [HostLink.tagsOf, HostLink.abandon, List.filter_filter, List.filter_eq_nil_iff, Bool.and_eq_true, beq_iff_eq, not_and]
  rintro t - rfl
  simp [h]

theorem tagsOf_abandon_other (h : p c = false) : HostLink.tagsOf (HostLink.abandon p s) c = HostLink.tagsOf s c := by
  simp only [HostLink.tagsOf, HostLink.abandon, List.filter_filter]
  refine List.filter_congr fun t _ => ?_
  by_cases hc : t.chan = c
  · simp [hc, h]
  · simp [hc]

end

/-! ### A change of the link's word (R397, R400) -/

/-- The word of a link in L1 or one of its substates. -/
abbrev LowPower (v : BitVec 13) : Prop := 2 ≤ v.toNat / 512 % 8 ∧ v.toNat / 512 % 8 ≤ 4

/-- The link's word has changed to `v`: a link that goes down begins a reset, unless one is in progress. -/
def linkMoved (v : BitVec 13) (s : State) : State :=
  Bridges.follow { s with host := { s.host with
    link := v, reset := if v.toNat / 512 % 8 = 5 then some (s.host.reset.getD .linkDown) else none } }

section
variable {v : BitVec 13} {s : State}

theorem linkChange_same (h : v = s.host.link) : HostLink.linkChange v s = s := if_pos h

theorem linkChange_new (h : v ≠ s.host.link) : HostLink.linkChange v s =
    if LowPower v ↔ LowPower s.host.link then Ops.raise 400 (linkMoved v s) else Ops.raise 407 (Ops.raise 400 (linkMoved v s)) := by
  have reset : (if Bridges.linkDown { s with host := { s.host with link := v } } then s.host.reset.orElse fun _ => some .linkDown
      else none) = if v.toNat / 512 % 8 = 5 then some (s.host.reset.getD .linkDown) else none := by
    simp only [Bridges.linkDown, beq_iff_eq]
    cases s.host.reset <;> rfl
  have power (w : BitVec 13) : (decide (2 ≤ w.toNat / 512 % 8) && decide (w.toNat / 512 % 8 ≤ 4)) = decide (LowPower w) := by
    simp [LowPower]
  have changed : (decide (LowPower v) != decide (LowPower s.host.link)) = true ↔ ¬ (LowPower v ↔ LowPower s.host.link) := by
    rw [bne_iff_ne, ne_eq, decide_eq_decide]
  rw [← power, ← power] at changed
  refine (if_neg h).trans ?_
  dsimp only
  rw [reset]
  by_cases hp : LowPower v ↔ LowPower s.host.link
  · exact (if_neg fun hc => changed.1 hc hp).trans (if_pos hp).symm
  · exact (if_pos (changed.2 hp)).trans (if_neg hp).symm

end

/-! ### What a reset of the link leaves (R379, R395, R416, R503) -/

/-- A reset of the kind `kind` is in progress: nothing is in flight, every vector is blocked, no VF is present, the mailbox is empty,
and nothing stands of what the host had configured. -/
structure Cleared (kind : LinkReset) (s : State) : Prop where
  reset : s.host.reset = some kind
  tags : s.host.tags = []
  chans : s.host.chans = []
  fns : s.host.fns = []
  msix : s.host.msix = []
  vfs : s.events.numVfs = 0
  blocked : s.events.msixBlocked = BitVec.allOnes 2048
  busy : s.mailbox.busy = false
  reply : s.mailbox.replyArea = []

section
variable {kind : LinkReset} {s : State}

theorem Cleared.raise (h : Cleared kind s) (n : Nat) : Cleared kind (Ops.raise n s) := by
  obtain ⟨reset, tags, chans, fns, msix, vfs, blocked, busy, reply⟩ := h
  exact ⟨by simpa, by simpa, by simpa, by simpa, by simpa, by simpa, (msixBlocked_raise n s).trans blocked, by simpa, by simpa⟩

theorem Cleared.follow (h : Cleared kind s) : Cleared kind (Bridges.follow s) := by
  obtain ⟨host, events, mailbox⟩ := follow_frame s
  obtain ⟨reset, tags, chans, fns, msix, vfs, blocked, busy, reply⟩ := h
  rw [← host] at reset tags chans fns msix
  rw [← events] at vfs blocked
  rw [← mailbox] at busy reply
  exact ⟨reset, tags, chans, fns, msix, vfs, blocked, busy, reply⟩

/-- The link goes down in a reset that is in progress. -/
theorem Cleared.linkMoved (h : Cleared kind s) : Cleared kind (linkMoved 0x0A00 s) := by
  obtain ⟨reset, tags, chans, fns, msix, vfs, blocked, busy, reply⟩ := h
  have kept : some (s.host.reset.getD .linkDown) = some kind := by rw [reset]; rfl
  exact Cleared.follow ⟨kept, tags, chans, fns, msix, vfs, blocked, busy, reply⟩

theorem Cleared.linkDown (h : Cleared kind s) : Cleared kind (HostLink.linkChange 0x0A00 s) := by
  by_cases hl : 0x0A00 = s.host.link
  · rwa [linkChange_same hl]
  · rw [linkChange_new hl]
    split
    · exact h.linkMoved.raise 400
    · exact (h.linkMoved.raise 400).raise 407

/-- The link is down after a change to the word of a link that is down. -/
theorem link_linkChange_down (s : State) : (HostLink.linkChange 0x0A00 s).host.link = 0x0A00 := by
  by_cases hl : 0x0A00 = s.host.link
  · rw [linkChange_same hl, ← hl]
  · have moved : (linkMoved 0x0A00 s).host.link = 0x0A00 := by simp [linkMoved]
    rw [linkChange_new hl]
    split
    · exact link_raise moved 400
    · exact link_raise (link_raise moved 400) 407

theorem ofNat_pow_sub_one (n : Nat) : BitVec.ofNat n ((2 ^ n - 1) * 2 ^ 0) = BitVec.allOnes n := by
  apply BitVec.eq_of_toNat_eq
  rw [BitVec.toNat_ofNat, BitVec.toNat_allOnes, pow_zero, mul_one, Nat.mod_eq_of_lt (Nat.sub_lt n.two_pow_pos Nat.one_pos)]

/-- A reset of all 2,048 vectors. -/
theorem vectorMask_all : HostLink.vectorMask 0 2048 = BitVec.allOnes 2048 := ofNat_pow_sub_one 2048

theorem cleared_linkReset (kind : LinkReset) (s : State) : Cleared kind (HostLink.linkReset kind s) := by
  have everything {α : Type} (t : Table α) : Table.clear (fun _ => true) t = [] := by simp [Table.clear]
  refine Cleared.linkDown (Cleared.raise (Cleared.follow ⟨rfl, ?_, everything _, everything _, everything _, rfl, ?_, rfl, rfl⟩) 403)
  · simp [HostLink.resetFns, HostLink.resetVectors, HostLink.resetMailbox, HostLink.abandon]
  · exact (congrArg (s.events.msixBlocked ||| ·) vectorMask_all).trans BitVec.or_allOnes

end

end Sys2Proof.Laws
end

section
/-!
SUPPORT. The accesses of the host: region ports, doorbell pages, and the places of a function's BARs and configuration (R376, R380 to
R388, R396).
-/

namespace Sys2Proof.Laws

open Sys2Proof Sys2Proof.Machine Sys2Proof.Safety

/-! ### Region ports (R382, R383, R385 to R387) -/

section
variable {s : State} {f : Fn} {r : Nat}

theorem portLive_iff : HostLink.portLive s f r = true ↔
    HostLink.portOwner s r = HostLink.ownerCode f ∧ HostLink.present s f = true := by simp [HostLink.portLive]

theorem portLive_toL0 : HostLink.portLive (Ops.toL0 Ops.raise s) f r = HostLink.portLive s f r := by
  simp only [HostLink.portLive, portOwner_toL0, present_toL0]

theorem portOff_toL0 : HostLink.portOff (Ops.toL0 Ops.raise s) r = HostLink.portOff s r := by
  rw [HostLink.portOff, fab_toL0, HostLink.portOff]

theorem port_toL0 (i : Nat) : Engines.port (Ops.toL0 Ops.raise s) i = Engines.port s i := by
  rw [Engines.port, ports_toL0, Engines.port]

/-- A port of another function is nothing to an access (R385). -/
theorem portSend_stranger (h : ¬ HostLink.portLive s f r = true) (d : W64) : HostLink.portSend f r d s = Ops.bump 0x8000 7 s :=
  if_pos (by simpa using h)

theorem portRecv_stranger (h : ¬ HostLink.portLive s f r = true) : HostLink.portRecv f r s =
    Ops.emit (.readback (BitVec.allOnes 64)) (Ops.bump 0x8000 7 s) := if_pos (by simpa using h)

variable (h : HostLink.portLive s f r = true)
include h

theorem portSend_fills (hm : s.modes.cur = .m5) (hp : (Engines.port s (512 + r)).send = none) (d : W64) :
    HostLink.portSend f r d s = Fabric.pump (.port (512 + r))
      (Engines.setPort (512 + r) { Engines.port s (512 + r) with send := some d, last := d, offer := {} } s) :=
  (if_neg (by simp [h])).trans (if_neg (by simp [Ops.modeIn, hm, hp]))

theorem portSend_discards (hd : s.modes.cur ≠ .m5 ∨ (Engines.port s (512 + r)).send.isSome = true) (d : W64) :
    HostLink.portSend f r d s = Ops.raise 406 (Ops.bump 0x8000 6 s) :=
  (if_neg (by simp [h])).trans (if_pos (by simpa [Ops.modeIn] using hd))

theorem portRecv_away (hm : s.modes.cur ≠ .m5) : HostLink.portRecv f r s = Ops.emit (.readback (BitVec.allOnes 64)) s :=
  (if_neg (by simp [h])).trans (if_pos (by simp [Ops.modeIn, hm]))

variable (hm : s.modes.cur = .m5)
include hm

theorem portRecv_word {w : W64} (hp : (Engines.port s (512 + r)).recv = some w) (ho : HostLink.portOff s r = false) :
    HostLink.portRecv f r s =
      Ops.emit (.readback w) (Engines.setPort (512 + r) { Engines.port s (512 + r) with recv := none } s) := by
  refine (if_neg (by simp [h])).trans ((if_neg (by simp [Ops.modeIn, hm])).trans ?_)
  simp only [hp, ho]

theorem portRecv_empty (he : (Engines.port s (512 + r)).recv = none ∨ HostLink.portOff s r = true) :
    HostLink.portRecv f r s = Ops.emit (.readback 0) s := by
  refine (if_neg (by simp [h])).trans ((if_neg (by simp [Ops.modeIn, hm])).trans ?_)
  cases hp : (Engines.port s (512 + r)).recv with
  | none => simp only [hp]
  | some w => simp only [hp, he.resolve_left (by simp [hp])]

end

/-! ### Places of memory space (R380 to R383) -/

section
variable {s : State} {f : Fn}

/-- A function that is not present has no place (R385). -/
theorem access_absent (h : HostLink.present s f = false) (p : HostPlace) (d : Option W64) : HostMap.access f p d s = s :=
  if_pos (by simp [h])

/-- A read of eight bytes answers with all of a value. -/
theorem answer_eight (v : Nat) : HostMap.answer 8 v s = Ops.emit (.readback (BitVec.ofNat 64 v)) s := by
  have whole : BitVec.ofNat 64 (v % 2 ^ (8 * 8)) = BitVec.ofNat 64 v := by
    apply BitVec.eq_of_toNat_eq
    simp
  rw [HostMap.answer, whole]

/-- The vendor ID and the device ID (R380). -/
theorem access_ids (h : HostLink.present s f = true) : HostMap.access f (.config .ids) none s =
    Ops.emit (.readback (BitVec.ofNat 64 (Config.vendorId.toNat + HostMap.deviceId f * 2 ^ 16))) s :=
  (if_neg (by simp [h])).trans (answer_eight _)

theorem access_memory (h : HostLink.present s f = true) {bar : Fin 3} {off : BitVec 32} {k : Fin 8}
    (hk : off.toNat + k.val + 1 ≤ HostMap.barSize f bar) (d : Option W64) : HostMap.access f (.memory bar off k) d s =
      HostMap.memory f bar off.toNat (k.val + 1) (d.map (·.toNat)) s := (if_neg (by simp [h])).trans (if_pos hk)

/-- The part of BAR0 of PF0 between the mailbox and the event tables (R381). -/
theorem managementBar_gap {off : Nat} (lo : 0x01010000 ≤ off) (hi : off < 0x02000000) (size : Nat) (d : Option Nat) :
    HostMap.managementBar off size d s = HostMap.nothing d s := by
  have aperture : ¬ off < 0x01000000 := by omega
  have mailbox : ¬ off < 0x01010000 := by omega
  have events : ¬ (0x02000000 ≤ off ∧ off < 0x02008000) := by omega
  have table : ¬ (0x02010000 ≤ off ∧ off < 0x02010400) := by omega
  have pending : ¬ (0x02011000 ≤ off ∧ off < 0x02011008) := by omega
  have staging : ¬ (0x03000000 ≤ off ∧ off < 0x03018400) := by omega
  have doorbells : ¬ (0x03800000 ≤ off ∧ off < 0x03820000) := by omega
  simp only [HostMap.managementBar, if_neg aperture, if_neg mailbox, if_neg events, if_neg table, if_neg pending,
    if_neg staging, if_neg doorbells]

theorem managementBar_page {c off : Nat} (hc : c < 32) (ho : off < 4096) (size : Nat) (d : Option Nat) :
    HostMap.managementBar (0x03800000 + 4096 * c + off) size d s = HostMap.doorbellPage .pf0 c off size d s := by
  have aperture : ¬ 0x03800000 + 4096 * c + off < 0x01000000 := by omega
  have mailbox : ¬ 0x03800000 + 4096 * c + off < 0x01010000 := by omega
  have events : ¬ (0x02000000 ≤ 0x03800000 + 4096 * c + off ∧ 0x03800000 + 4096 * c + off < 0x02008000) := by omega
  have table : ¬ (0x02010000 ≤ 0x03800000 + 4096 * c + off ∧ 0x03800000 + 4096 * c + off < 0x02010400) := by omega
  have pending : ¬ (0x02011000 ≤ 0x03800000 + 4096 * c + off ∧ 0x03800000 + 4096 * c + off < 0x02011008) := by omega
  have staging : ¬ (0x03000000 ≤ 0x03800000 + 4096 * c + off ∧ 0x03800000 + 4096 * c + off < 0x03018400) := by omega
  have doorbells : 0x03800000 ≤ 0x03800000 + 4096 * c + off ∧ 0x03800000 + 4096 * c + off < 0x03820000 := by omega
  have page : (0x03800000 + 4096 * c + off - 0x03800000) / 4096 = c := by omega
  have place : (0x03800000 + 4096 * c + off) % 4096 = off := by omega
  simp only [HostMap.managementBar, if_neg aperture, if_neg mailbox, if_neg events, if_neg table, if_neg pending,
    if_neg staging, if_pos doorbells, page, place]

theorem memory_page (hf : f ≠ .pf0) {c off : Nat} (ho : off < 4096) (size : Nat) (d : Option Nat) :
    HostMap.memory f 0 (4096 * c + off) size d s = HostMap.doorbellPage f c off size d s := by
  have page : (4096 * c + off) / 4096 = c := by omega
  have place : (4096 * c + off) % 4096 = off := by omega
  cases f with
  | pf0 => exact absurd rfl hf
  | pf1 => simp only [HostMap.memory, page, place]
  | vf v => simp only [HostMap.memory, page, place]

/-- Where the doorbell page of channel c stands in a function's BAR0 (R381 to R383). -/
abbrev pageAt (f : Fn) (c off : Nat) : Nat := (if f = .pf0 then 0x03800000 else 0) + 4096 * c + off

theorem access_page (h : HostLink.present s f = true) (c : Fin 32) {off : Nat} (ho : off + 4 ≤ 4096) :
    HostMap.access f (.memory 0 (BitVec.ofNat 32 (pageAt f c off)) 3) none s = HostMap.doorbellPage f c off 4 none s := by
  have channel := c.isLt
  have fits : pageAt f c off + 4 ≤ HostMap.barSize f 0 ∧ pageAt f c off < 2 ^ 32 := by
    cases f with
    | pf0 => simp [pageAt, HostMap.barSize]; omega
    | pf1 => simp [pageAt, HostMap.barSize]; omega
    | vf v => simp [pageAt, HostMap.barSize]; omega
  have whole : (BitVec.ofNat 32 (pageAt f c off)).toNat = pageAt f c off := by
    rw [BitVec.toNat_ofNat, Nat.mod_eq_of_lt fits.2]
  rw [access_memory h (by rw [whole]; exact fits.1), whole]
  by_cases hf : f = .pf0
  · subst hf
    exact managementBar_page channel (by omega) 4 none
  · have base : pageAt f c off = 4096 * c + off := by rw [pageAt, if_neg hf, Nat.zero_add]
    rw [base]
    exact memory_page hf (by omega) 4 none

/-! ### The registers of a doorbell page and of a region port (R386, R388) -/

section
variable {c : Nat} (h : HostLink.pageLive s f c = true)
include h

theorem doorbellPage_sqHead : HostMap.doorbellPage f c 0x008 4 none s =
    Ops.emit (.readback (BitVec.ofNat 64 ((HostLink.chan s c).sqHead % 2 ^ 32))) s := if_neg (by simp [h])

theorem doorbellPage_cqTail : HostMap.doorbellPage f c 0x00C 4 none s =
    Ops.emit (.readback (BitVec.ofNat 64 ((HostLink.chan s c).cqTail % 2 ^ 32))) s := if_neg (by simp [h])

theorem doorbellPage_state : HostMap.doorbellPage f c 0x010 4 none s =
    Ops.emit (.readback (BitVec.ofNat 64 (HostLink.stateCode (HostLink.chan s c).state))) s := by
  have small : HostLink.stateCode (HostLink.chan s c).state % 2 ^ (8 * 4) = HostLink.stateCode (HostLink.chan s c).state := by
    cases (HostLink.chan s c).state <;> rfl
  refine (if_neg (by simp [h])).trans ?_
  show HostMap.answer 4 _ s = _
  rw [HostMap.answer, small]

end

theorem memory_window (hf : f ≠ .pf0) {r off : Nat} (hr : r < 512) (ho : off < 4096) (size : Nat) (d : Option Nat) :
    HostMap.memory f 1 ((if f = .pf1 then 0x18000000 else 0) + 4096 * r + off) size d s =
      HostMap.portWindow f r off size d s := by
  cases f with
  | pf0 => exact absurd rfl hf
  | pf1 =>
    have bank : ¬ 0x18000000 + 4096 * r + off < 0x18000000 := by omega
    have port : 0x18000000 + 4096 * r + off < 0x18200000 := by omega
    have window : (0x18000000 + 4096 * r + off - 0x18000000) / 4096 = r := by omega
    have place : (0x18000000 + 4096 * r + off) % 4096 = off := by omega
    simp only [HostMap.memory, if_true, if_neg bank, if_pos port, window, place]
  | vf v =>
    have base : (if Fn.vf v = .pf1 then 0x18000000 else 0) = 0 := if_neg nofun
    have window : (0 + 4096 * r + off) / 4096 = r := by omega
    have place : (0 + 4096 * r + off) % 4096 = off := by omega
    simp only [HostMap.memory, base, window, place]

/-- Where the window of region port r stands in a function's BAR2 (R382, R383). -/
abbrev windowAt (f : Fn) (r off : Nat) : Nat := (if f = .pf1 then 0x18000000 else 0) + 4096 * r + off

theorem access_window (hf : f ≠ .pf0) (h : HostLink.present s f = true) (r : Fin 512) {off : Nat} (ho : off + 8 ≤ 4096) :
    HostMap.access f (.memory 1 (BitVec.ofNat 32 (windowAt f r off)) 7) none s = HostMap.portWindow f r off 8 none s := by
  have number := r.isLt
  have fits : windowAt f r off + 8 ≤ HostMap.barSize f 1 ∧ windowAt f r off < 2 ^ 32 := by
    cases f with
    | pf0 => exact absurd rfl hf
    | pf1 => simp [windowAt, HostMap.barSize]; omega
    | vf v => simp [windowAt, HostMap.barSize]; omega
  have whole : (BitVec.ofNat 32 (windowAt f r off)).toNat = windowAt f r off := by
    rw [BitVec.toNat_ofNat, Nat.mod_eq_of_lt fits.2]
  rw [access_memory h (by rw [whole]; exact fits.1), whole]
  exact memory_window hf number (by omega) 8 none

theorem portWindow_status {r : Nat} (h : HostLink.portLive s f r = true) (hm : s.modes.cur = .m5) :
    HostMap.portWindow f r 0x010 8 none s = Ops.emit (.readback (BitVec.ofNat 64 (HostMap.portStatus s r))) s := by
  refine (if_neg (by simp [h])).trans ((if_neg (by simp [Ops.modeIn, hm])).trans ?_)
  exact (if_neg (by decide)).trans ((if_neg (by decide)).trans (answer_eight _))

end

/-! ### The statement -/

/-- Settles O50: a reset of the link clears the host's side and takes the link down, a reset of a function abandons the channels that
it owns, and an access goes by the owner of the port or page that it meets. -/
theorem linkAndPorts : Obligations.LinkAndPorts := by
  unfold Obligations.LinkAndPorts
  refine ⟨fun s h => ?resets, fun s f r d x c h => ?accesses⟩
  case resets =>
    intro u own code low
    have effect {c : Instr} {g : State → State} {y : State} (hc : exec c s = Run.run g s) (e : g u = y) :
        exec c s = .next (after s y) := hc.trans (run_awake_of h e)
    refine ⟨effect rfl rfl, fun kind => ?cleared, effect rfl rfl, effect rfl rfl,
      fun v => ⟨fun hv => effect rfl (if_neg (by simpa [HostLink.present, u] using hv)),
        fun hv => effect rfl (if_pos (by simpa [HostLink.present, u] using hv))⟩,
      fun p c => ⟨fun hp => ⟨(chan_abandon s).trans (if_pos hp), tagsOf_abandon s hp⟩,
        fun hp => ⟨(chan_abandon s).trans (if_neg (by simp [hp])), tagsOf_abandon_other s hp⟩⟩,
      fun v => ⟨fun hv => effect rfl (linkChange_same (s := u) hv), fun hv => ?changed⟩, fun c => effect rfl rfl⟩
    case cleared =>
      obtain ⟨reset, tags, chans, fns, msix, vfs, blocked, busy, reply⟩ := cleared_linkReset kind s
      exact ⟨link_linkChange_down _, reset, tags, chans, fns, msix, vfs, blocked, busy, reply⟩
    case changed =>
      intro reset y
      have change := linkChange_new (s := u) hv
      exact ⟨fun hl => effect rfl (change.trans (if_pos hl)), fun hl => effect rfl (change.trans (if_neg hl))⟩
  case accesses =>
    intro u v p own page makes back lost at' door window
    refine ⟨fun hd => ⟨run_viaLink_down h hd _, run_viaLink_down h hd _, run_viaLink_down h hd _⟩, fun hup => ?_⟩
    have sends {y : State} (e : HostLink.portSend f r d v = y) : makes (.regionPortSend f r d) y := run_viaLink h hup e
    have recvs {y : State} (e : HostLink.portRecv f r v = y) : makes (.regionPortRecv f r) y := run_viaLink h hup e
    have meets {x : HostAccess} {y : State} (e : HostMap.access x.fn x.place x.data v = y) : makes (.unmappedAccess x) y :=
      run_viaLink h hup e
    have mode : v.modes.cur = s.modes.cur := cur_toL0 u
    have port : Engines.port v (512 + r) = p := port_toL0 (s := u) (512 + r)
    have off : HostLink.portOff v r = HostLink.portOff s r := portOff_toL0 (s := u)
    have there (g : Fn) : HostLink.present v g = HostLink.present s g := congrFun (present_toL0 u) g
    have live : HostLink.portLive v f r = true ↔ own := portLive_toL0 (s := u) ▸ portLive_iff (s := s)
    have paged : HostLink.pageLive v f c = true ↔ page := by
      rw [pageLive_toL0]
      exact pageLive_iff (s := s)
    have chan : HostLink.chan v c = HostLink.chan s c := congrFun (chan_toL0 u) c
    refine ⟨fun ho hm hp => ?fills, fun ho hd => ?discards, fun w ho hm hw hf => ?word, fun ho hm he => ?empty, fun ho hm => ?away,
      fun ho => ?stranger, meets rfl, fun hn => meets (access_absent ((there _).trans hn) _ _), fun hp => ?page, fun hf ho hm => ?window,
      fun off k lo hi => ?gap, fun n hn hp => ?ids⟩
    case fills =>
      rw [← port] at hp ⊢
      exact sends (portSend_fills (live.2 ho) (mode.trans hm) hp d)
    case discards =>
      rw [← port, ← mode] at hd
      exact sends (portSend_discards (live.2 ho) hd d)
    case word =>
      rw [← port] at hw ⊢
      exact recvs (portRecv_word (live.2 ho) (mode.trans hm) hw (off.trans hf))
    case empty =>
      rw [← port, ← off] at he
      exact recvs (portRecv_empty (live.2 ho) (mode.trans hm) he)
    case away => exact recvs (portRecv_away (live.2 ho) (mode.trans_ne hm))
    case stranger => exact ⟨sends (portSend_stranger (mt live.1 ho) d), recvs (portRecv_stranger (mt live.1 ho))⟩
    case page =>
      have here := (there f).trans hp.2
      rw [← chan]
      exact ⟨meets ((access_page here c (by decide)).trans (doorbellPage_sqHead (paged.2 hp))),
        meets ((access_page here c (by decide)).trans (doorbellPage_cqTail (paged.2 hp))),
        meets ((access_page here c (by decide)).trans (doorbellPage_state (paged.2 hp)))⟩
    case window =>
      refine meets ((access_window hf ((there f).trans ho.2) r (by decide)).trans
        ((portWindow_status (live.2 ho) (mode.trans hm)).trans ?_))
      rw [HostMap.portStatus, port, off]
      rfl
    case gap =>
      have fits : off.toNat + k.val + 1 ≤ HostMap.barSize .pf0 0 := hi.trans (by decide)
      have nothing (e : Option W64) : HostMap.access .pf0 (.memory 0 off k) e v = HostMap.nothing (e.map (·.toNat)) v :=
        (access_memory rfl fits e).trans (managementBar_gap lo (by omega) _ _)
      exact ⟨meets (nothing none), meets (nothing (some d))⟩
    case ids =>
      have device : n = HostMap.deviceId f := by
        rw [hn]
        cases f <;> rfl
      rw [device]
      exact meets (access_ids ((there f).trans hp))

end Sys2Proof.Laws
end

section
/-!
SUPPORT. The block as a whole: a command ends in one of three frames.
-/

namespace Sys2Proof.Laws

open Sys2Proof Sys2Proof.Machine Sys2Proof.Safety

/-! ### The frames of the commands and the queue (R405, R411) -/

/-- A frame ends in a next state with the queue that it found. -/
theorem Framed.answers {s : State} {o : Out} (h : Framed s o) : ∃ t, o = .next t ∧ t.pending = s.pending := by
  cases h with
  | run f =>
    unfold Run.run
    split
    · exact ⟨_, rfl, rfl⟩
    · exact ⟨_, rfl, rfl⟩
  | time f =>
    unfold Run.runTime
    split
    · exact ⟨_, rfl, rfl⟩
    · exact ⟨_, rfl, rfl⟩
  | supply f =>
    unfold Run.runSupply
    split
    · exact ⟨_, rfl, rfl⟩
    · exact ⟨_, rfl, rfl⟩

theorem step_cons {s : State} {c : Instr} {rest : List Instr} (h : s.pending = c :: rest) :
    step s = exec c { s with pending := rest } := by simp only [step, h]

theorem step_nil {s : State} (h : s.pending = []) : step s = Run.idle s := by simp only [step, h]

/-- Settles O1: the step takes the front of the queue, and each frame of a command answers a next state that keeps the queue. -/
theorem stepRunsFront : Obligations.StepRunsFront := by
  unfold Obligations.StepRunsFront
  exact ⟨fun _ _ _ h => step_cons h, fun c s => (exec_framed c s).answers⟩

theorem run_m0 {s : State} (h : s.modes.cur = .m0) (f : State → State) : Run.run f s = .next s := if_pos h

theorem runTime_m0 {s : State} (h : s.modes.cur = .m0) (f : State → State) : Run.runTime f s = .next s := if_pos h

theorem idle_m0 {s : State} (h : s.modes.cur = .m0) : Run.idle s = .next s := if_pos h

theorem idle_awake {s : State} (h : Awake s) : Run.idle s = .next (afterTime s (Time.period (Ops.begin s))) := by
  simp [Run.idle, h.powered, Run.effect, begin_awake h, afterTime]

/-- Settles O2: an empty queue gives one period of the timebase, and in M0 only the frame of the supplies acts. -/
theorem emptyQueueAndM0 : Obligations.EmptyQueueAndM0 := by
  unfold Obligations.EmptyQueueAndM0
  refine ⟨fun s hq => ⟨fun hm => ?_, fun ha => ?_⟩, fun c s hm hpower hlow hhigh hbattery => ?_⟩
  · rw [step_nil hq, idle_m0 hm]
  · rw [step_nil hq, idle_awake ha]
  · cases c with
    | powerUp id st g => exact absurd rfl (hpower id st g)
    | resetNLow => exact absurd rfl hlow
    | resetNHigh id st => exact absurd rfl (hhigh id st)
    | vbatLoss mv => exact absurd rfl (hbattery mv)
    | setTime | ppsInEdge | timeMessage | write | supplyRemoval => exact runTime_m0 hm _
    | _ => exact run_m0 hm _

end Sys2Proof.Laws
end

section
/-!
SUPPORT. Adaptive voltage: what one window does to a set value, case by case (R469 to R474).
-/

namespace Sys2Proof.Laws

open Sys2Proof Sys2Proof.Machine Sys2Proof.Safety

/-! ### A region's set value (R471, R474) -/

/-- Region r's regulator does not step: frozen, or behind an isolating collar, or of a retired facet. -/
def Still (s : State) (r : Nat) : Prop :=
  s.sup.frozen = true ∨ (Fabric.collar s r).isolate = true ∨ (Loader.facet s r).state = .retired

theorem still_iff {s : State} {r : Nat} :
    (s.sup.frozen || (Fabric.collar s r).isolate || (Loader.facet s r).state == .retired) = true ↔ Still s r := by
  simp [Still, or_assoc]

/-- The threshold, the guard, the hold and the drift of R470. -/
abbrev stallLimit (s : State) : Nat := Ops.reg s 0x1300 2
abbrev guardOf (s : State) : Nat := Ops.reg s 0x1300 3
abbrev holdOf (s : State) : Nat := Ops.reg s 0x1300 4
abbrev driftOf (s : State) : Nat := Ops.reg s 0x1300 5

/-- The classes busy and idle of a window: the outputs do not limit the region, and its inputs wait, or do not (R471). -/
def busy (s : State) (x : Supply) : Bool := decide (stallLimit s ≤ x.wait) && !decide (stallLimit s ≤ x.stall)
def idle (s : State) (x : Supply) : Bool := !decide (stallLimit s ≤ x.stall) && !decide (stallLimit s ≤ x.wait)

theorem busy_iff {s : State} {x : Supply} : busy s x = true ↔ ¬ stallLimit s ≤ x.stall ∧ stallLimit s ≤ x.wait := by
  simp [busy, and_comm]

theorem idle_iff {s : State} {x : Supply} : idle s x = true ↔ ¬ stallLimit s ≤ x.stall ∧ x.wait < stallLimit s := by
  simp [idle]

/-- What the class of the window makes of a set value within its limits (R471). -/
def classed (s : State) (x : Supply) : Supply :=
  if busy s x ∧ x.rate < x.target then
    if x.v < x.ceiling then { x with v := x.v + 5, good := 0 } else { x with good := 0, short := true }
  else if busy s x ∧ x.target * (1000 + guardOf s) ≤ 1000 * x.rate then
    if holdOf s ≤ x.good + 1 ∧ x.floor < x.v then { x with v := x.v - 5, good := 0 } else { x with good := x.good + 1 }
  else if busy s x then { x with good := 0, prefOk := x.pref }
  else if idle s x ∧ x.prefOk * (1000 + driftOf s) < 1000 * x.pref ∧ x.v < x.ceiling then
    { x with v := x.v + 5, prefOk := x.pref }
  else x

/-- The end of state short: below the ceiling, and where a busy region reaches its target (R472). -/
def shortEnds (s : State) (x y : Supply) : Supply :=
  if y.v < y.ceiling ∨ (busy s x ∧ y.target ≤ y.rate) then { y with short := false } else y

section

variable {s : State} {r : Nat} {x : Supply}

theorem step_still (h : Still s r) : Super.step s r x = x := if_pos (still_iff.2 h)

variable (h : ¬ Still s r)
include h

theorem step_above (hc : x.ceiling < x.v) : Super.step s r x = { x with v := x.v - 5, good := 0 } :=
  (if_neg (still_iff.not.2 h)).trans (if_pos hc)

theorem step_below (hc : x.v ≤ x.ceiling) (hf : x.v < x.floor) : Super.step s r x = { x with v := x.v + 5, good := 0 } :=
  (if_neg (still_iff.not.2 h)).trans ((if_neg (by omega)).trans (if_pos hf))

/-- At a target of 0 the set value goes to the fixed voltage, kept within the limits. -/
theorem step_fixed (hf : x.floor ≤ x.v) (hc : x.v ≤ x.ceiling) (ht : x.target = 0) :
    Super.step s r x =
      let want := max x.floor (min x.ceiling x.fixed)
      { x with short := false, good := 0, v := if x.v < want then x.v + 5 else if want < x.v then x.v - 5 else x.v } :=
  (if_neg (still_iff.not.2 h)).trans ((if_neg (by omega)).trans ((if_neg (by omega)).trans (if_pos ht)))

theorem step_tracks (hf : x.floor ≤ x.v) (hc : x.v ≤ x.ceiling) (ht : x.target ≠ 0) :
    Super.step s r x = shortEnds s x (classed s x) :=
  (if_neg (still_iff.not.2 h)).trans ((if_neg (by omega)).trans ((if_neg (by omega)).trans (if_neg ht)))

end

section

variable {s : State} {x y : Supply}

@[simp] theorem v_shortEnds : (shortEnds s x y).v = y.v := by unfold shortEnds; split <;> rfl
@[simp] theorem good_shortEnds : (shortEnds s x y).good = y.good := by unfold shortEnds; split <;> rfl
@[simp] theorem prefOk_shortEnds : (shortEnds s x y).prefOk = y.prefOk := by unfold shortEnds; split <;> rfl

theorem short_shortEnds : (shortEnds s x y).short =
    (y.short && decide (y.ceiling ≤ y.v) && !decide (busy s x = true ∧ y.target ≤ y.rate)) := by
  unfold shortEnds
  split
  · next h => rcases h with h | h <;> simp [h]
  · next h =>
    obtain ⟨hv, hb⟩ := not_or.1 h
    simp [hb, Nat.not_lt.1 hv]

/-! The six ends of R471. -/

theorem classed_up (hb : busy s x = true) (hr : x.rate < x.target) (hv : x.v < x.ceiling) :
    classed s x = { x with v := x.v + 5, good := 0 } := (if_pos ⟨hb, hr⟩).trans (if_pos hv)

theorem classed_short (hb : busy s x = true) (hr : x.rate < x.target) (hv : ¬ x.v < x.ceiling) :
    classed s x = { x with good := 0, short := true } := (if_pos ⟨hb, hr⟩).trans (if_neg hv)

theorem classed_margin (hb : busy s x = true) (hr : x.target ≤ x.rate) (hm : x.target * (1000 + guardOf s) ≤ 1000 * x.rate) :
    classed s x =
      if holdOf s ≤ x.good + 1 ∧ x.floor < x.v then { x with v := x.v - 5, good := 0 } else { x with good := x.good + 1 } :=
  (if_neg (by omega)).trans (if_pos ⟨hb, hm⟩)

theorem classed_met (hb : busy s x = true) (hr : x.target ≤ x.rate)
    (hm : ¬ x.target * (1000 + guardOf s) ≤ 1000 * x.rate) : classed s x = { x with good := 0, prefOk := x.pref } :=
  (if_neg (by omega)).trans ((if_neg (hm ·.2)).trans (if_pos hb))

variable (hb : ¬ busy s x = true)
include hb

theorem classed_drift (hi : idle s x = true)
    (hd : x.prefOk * (1000 + driftOf s) < 1000 * x.pref ∧ x.v < x.ceiling) :
    classed s x = { x with v := x.v + 5, prefOk := x.pref } :=
  (if_neg (hb ·.1)).trans ((if_neg (hb ·.1)).trans ((if_neg hb).trans (if_pos ⟨hi, hd⟩)))

theorem classed_rest (hd : ¬ (idle s x = true ∧ x.prefOk * (1000 + driftOf s) < 1000 * x.pref ∧ x.v < x.ceiling)) :
    classed s x = x :=
  (if_neg (hb ·.1)).trans ((if_neg (hb ·.1)).trans ((if_neg hb).trans (if_neg hd)))

theorem short_classed : (classed s x).short = x.short := by
  by_cases hd : idle s x = true ∧ x.prefOk * (1000 + driftOf s) < 1000 * x.pref ∧ x.v < x.ceiling
  · rw [classed_drift hb hd.1 hd.2]
  · rw [classed_rest hb hd]

end

/-- The classes move a set value by no more than one step, up below the ceiling and down above the floor, and leave the limits. -/
theorem classed_moves (s : State) (x : Supply) :
    (classed s x).floor = x.floor ∧ (classed s x).ceiling = x.ceiling ∧
      ((classed s x).v = x.v ∨ (classed s x).v = x.v + 5 ∧ x.v < x.ceiling ∨ (classed s x).v = x.v - 5 ∧ x.floor < x.v) := by
  unfold classed
  split
  · split
    · next hv => exact ⟨rfl, rfl, .inr (.inl ⟨rfl, hv⟩)⟩
    · exact ⟨rfl, rfl, .inl rfl⟩
  · split
    · split
      · next hv => exact ⟨rfl, rfl, .inr (.inr ⟨rfl, hv.2⟩)⟩
      · exact ⟨rfl, rfl, .inl rfl⟩
    · split
      · exact ⟨rfl, rfl, .inl rfl⟩
      · split
        · next hv => exact ⟨rfl, rfl, .inr (.inl ⟨rfl, hv.2.2⟩)⟩
        · exact ⟨rfl, rfl, .inl rfl⟩

/-- The class changes neither what the window measured nor its target. -/
theorem reached_classed (s : State) (x : Supply) : (classed s x).target = x.target ∧ (classed s x).rate = x.rate := by
  unfold classed
  grind

theorem limits_shortEnds (s : State) (x y : Supply) :
    (shortEnds s x y).floor = y.floor ∧ (shortEnds s x y).ceiling = y.ceiling := by
  unfold shortEnds
  split
  · exact ⟨rfl, rfl⟩
  · exact ⟨rfl, rfl⟩

/-- Settles O56: within the limits a window goes to the fixed voltage or takes the step of its class, and both are multiples
of the step that stay on their side of the limit. -/
theorem voltageStaysInRange : Obligations.VoltageStaysInRange := by
  unfold Obligations.VoltageStaysInRange
  intro s r x hf hc mv mf mc mx
  by_cases h : Still s r
  · simpa [step_still h] using ⟨hf, hc, mv⟩
  by_cases ht : x.target = 0
  · simp only [step_fixed h hf hc ht]
    grind
  · simp only [step_tracks h hf hc ht, v_shortEnds, limits_shortEnds]
    obtain ⟨floor, ceiling, moves⟩ := classed_moves s x
    refine ⟨?_, ?_, ?_, ?_, floor, ceiling⟩ <;> omega

/-! ### Windows (R470, R472) -/

/-- A window ends: in M5, once its length has passed. -/
def WindowEnds (s : State) : Prop :=
  s.modes.cur = .m5 ∧ s.sup.windowStart + Ops.reg s 0x1300 1 * 16000000 ≤ (Ops.launch s).toNat

theorem windowEnds_iff {s : State} : WindowEnds s ↔
    ¬ (!Ops.modeIn s [.m5] || decide ((Ops.launch s).toNat < s.sup.windowStart + Ops.reg s 0x1300 1 * Super.ms)) = true := by
  rw [Bool.or_eq_true, decide_eq_true_iff, not_or, Nat.not_lt]
  simp [WindowEnds, Super.ms]

theorem supplyWindow_due {s : State} (h : WindowEnds s) (p : List (Fin 512 × W16)) (g : List W16) :
    Super.windowEnd p g s = Super.startWindow
      ((List.range 4).foldl (fun x k => Super.groupWindow k (g[k]?.map fun v => v.toNat) x)
        ((List.range 512).foldl (fun x r =>
          Super.regionWindow r ((p.find? fun e => e.1.val == r).map fun e => e.2.toNat) x) s)) :=
  if_neg (windowEnds_iff.1 h)

theorem supplyWindow_early {s : State} (h : ¬ WindowEnds s) (p : List (Fin 512 × W16)) (g : List W16) :
    Super.windowEnd p g s = s := if_pos (not_not.1 (windowEnds_iff.not.1 h))

/-! ### An engine group's set value (R473) -/

section

variable {s : State} {x : GroupSupply}

theorem groupStep_frozen (h : s.sup.frozen = true) : Super.groupStep s x = x := if_pos h

variable (h : s.sup.frozen = false)
include h

theorem groupStep_fixed (ht : x.target = 0) : Super.groupStep s x =
    { x with short := false, good := 0, v := if x.v < x.fixed then x.v + 5 else if x.fixed < x.v then x.v - 5 else x.v } :=
  (if_neg (by simp [h])).trans (if_pos ht)

variable (ht : x.target ≠ 0)
include ht

theorem groupStep_above (hp : x.target < x.pref) : Super.groupStep s x =
    if x.v < 850 then { x with v := x.v + 5, good := 0, short := false } else { x with good := 0, short := true } :=
  (if_neg (by simp [h])).trans ((if_neg ht).trans (if_pos hp))

variable (hp : ¬ x.target < x.pref)
include hp

theorem groupStep_below (hb : 1000 * x.pref < x.target * (1000 - guardOf s)) : Super.groupStep s x =
    if holdOf s ≤ x.good + 1 ∧ 550 < x.v then { x with v := x.v - 5, good := 0, short := false }
    else { x with good := x.good + 1, short := false } :=
  (if_neg (by simp [h])).trans ((if_neg ht).trans ((if_neg hp).trans (if_pos hb)))

theorem groupStep_met (hb : ¬ 1000 * x.pref < x.target * (1000 - guardOf s)) :
    Super.groupStep s x = { x with good := 0, short := false } :=
  (if_neg (by simp [h])).trans ((if_neg ht).trans ((if_neg hp).trans (if_neg hb)))

end

/-- A group's set value moves by no more than one step, towards the fixed voltage or between 550 and 850 mV. -/
theorem groupStep_moves (s : State) (x : GroupSupply) :
    (Super.groupStep s x).v = x.v ∨ (Super.groupStep s x).v = x.v + 5 ∧ (x.v < x.fixed ∨ x.v < 850) ∨
      (Super.groupStep s x).v = x.v - 5 ∧ (x.fixed < x.v ∨ 550 < x.v) := by
  by_cases h : s.sup.frozen = true
  · exact .inl (by rw [groupStep_frozen h])
  replace h := Bool.eq_false_iff.2 h
  by_cases ht : x.target = 0
  · rw [groupStep_fixed h ht]
    grind
  by_cases hp : x.target < x.pref
  · rw [groupStep_above h ht hp]
    split
    · next hv => exact .inr (.inl ⟨rfl, .inr hv⟩)
    · exact .inl rfl
  by_cases hb : 1000 * x.pref < x.target * (1000 - guardOf s)
  · rw [groupStep_below h ht hp hb]
    split
    · next hv => exact .inr (.inr ⟨rfl, .inr hv.2⟩)
    · exact .inl rfl
  · exact .inl (by rw [groupStep_met h ht hp hb])

/-- Settles O55: a window by its classes, through the equation of each. -/
theorem voltageWindows : Obligations.VoltageWindows := by
  unfold Obligations.VoltageWindows
  intro s
  refine ⟨fun p g ha => ⟨fun hn => ?early, fun he => ?due⟩, fun r x => ⟨fun h => ?still, fun h hc => ?above,
    fun h hc hf => ?below, fun h hf hc ht => ?fixed, fun h ht => ?tracks⟩, fun r pref => ⟨fun hs hx => ?short, fun hn => ?long⟩,
    fun x => ⟨fun h => ?frozen, fun h ht => ?groupFixed, fun h ha hv => ?groupUp, fun h ha hv => ?groupShort,
      fun h ha hb hg hv => ?groupDown, fun h ha hb hg => ?groupGood, fun h ha hb => ?groupMet, fun lo hi mv fl fh mf => ?range⟩⟩
  case early => exact run_awake_of ha (supplyWindow_early (s := Ops.begin s) hn p g)
  case due => exact run_awake_of ha (supplyWindow_due (s := Ops.begin s) he p g)
  case still => exact step_still h
  case above => exact step_above h hc
  case below => exact step_below h hc hf
  case fixed =>
    simp only [step_fixed h hf hc ht]
    grind
  case tracks =>
    obtain ⟨hf, hc, hx⟩ := ht
    simp only [step_tracks h hf hc hx, v_shortEnds, good_shortEnds, prefOk_shortEnds, short_shortEnds]
    refine ⟨fun hb hr => ⟨fun hv => ?up, fun hv => ?top⟩, fun hb hr => ?reached, fun hb hr hm hg hv => ?down,
      fun hb hr hm hg => ?good, fun hb hr hm => ?met, fun hi hd => ?drift, fun hl => ?rest, fun hb => ?other⟩
    case up =>
      rw [classed_up (busy_iff.2 hb) hr hv]
      exact ⟨rfl, rfl, by simp [hr.not_ge]⟩
    case top =>
      rw [classed_short (busy_iff.2 hb) hr hv.not_lt]
      exact ⟨rfl, rfl, by simp [hr.not_ge, hv]⟩
    case reached =>
      obtain ⟨target, rate⟩ := reached_classed s x
      simp [busy_iff.2 hb, target, rate, hr]
    case down =>
      rw [classed_margin (busy_iff.2 hb) hr hm, if_pos ⟨hg, hv⟩]
      exact ⟨rfl, rfl⟩
    case good =>
      rw [classed_margin (busy_iff.2 hb) hr hm, if_neg (by unfold holdOf; omega)]
      exact ⟨rfl, rfl⟩
    case met =>
      rw [classed_met (busy_iff.2 hb) hr hm]
      exact ⟨rfl, rfl, rfl⟩
    case drift =>
      rw [classed_drift (fun hb => absurd (busy_iff.1 hb).2 hi.2.not_ge) (idle_iff.2 hi) hd]
      exact ⟨rfl, rfl, rfl⟩
    case rest =>
      rw [classed_rest]
      · exact ⟨rfl, rfl, rfl⟩
      · exact mt busy_iff.1 fun hb => hl.elim hb.1 fun hl => hl.1.2.not_ge hb.2
      · rintro ⟨hi, hd⟩
        exact hl.elim (idle_iff.1 hi).1 (fun hl => hl.2 hd)
    case other =>
      have quiet := mt busy_iff.1 hb
      rw [short_classed quiet, (classed_moves s x).2.1]
      simp [quiet]
  case short => exact if_pos (by simp only [hs, Bool.true_and, Bool.not_eq_true']; exact hx)
  case long =>
    refine if_neg fun hb => ?_
    obtain ⟨now, before⟩ := Bool.and_eq_true_iff.1 hb
    exact hn.elim (fun hn => absurd now (by simp only [hn]; decide)) fun hn => absurd before (by simp only [hn]; decide)
  case frozen => exact groupStep_frozen h
  case groupFixed =>
    simp only [groupStep_fixed h ht]
    grind
  case groupUp => exact (groupStep_above h.1 h.2 ha).trans (if_pos hv)
  case groupShort => exact (groupStep_above h.1 h.2 ha).trans (if_neg (by omega))
  case groupDown => exact (groupStep_below h.1 h.2 ha hb).trans (if_pos ⟨hg, hv⟩)
  case groupGood => exact (groupStep_below h.1 h.2 ha hb).trans (if_neg (by unfold holdOf; omega))
  case groupMet => exact groupStep_met h.1 h.2 ha hb
  case range =>
    have moves := groupStep_moves s x
    omega

end Sys2Proof.Laws
end

section
/-!
SUPPORT. The event block: what raising a source keeps, and where its one delivery goes (R496 to R508).
-/

namespace Sys2Proof.Laws

open Sys2Proof Sys2Proof.Machine Sys2Proof.Safety

/-! ### What every raise keeps (R424, R498) -/

/-- The keys of the subs that say whether a CAN port sends notices. -/
def NoticeKey (key : Nat) : Prop := ∃ p < 2, key = 256 * (0x1101 + p) + 1 ∨ key = 256 * (0x1101 + p) + 9

/-- `t` shows every STATUS bit of `s`, and its CAN ports send notices where those of `s` do. -/
structure Shows (s t : State) : Prop where
  status : ∀ n, s.events.status.getLsbD n = true → t.events.status.getLsbD n = true
  notices : ∀ key, NoticeKey key → Table.get Objects.dflt t.regs key = Table.get Objects.dflt s.regs key

namespace Shows

theorem same {s t : State} (he : t.events.status = s.events.status) (hr : t.regs = s.regs) : Shows s t :=
  ⟨fun _ h => he ▸ h, fun _ _ => by rw [hr]⟩

theorem refl (s : State) : Shows s s := same rfl rfl

theorem trans {s t u : State} (h : Shows s t) (g : Shows t u) : Shows s u :=
  ⟨fun n hn => g.status n (h.status n hn), fun key hk => (g.notices key hk).trans (h.notices key hk)⟩

theorem cond {c : Prop} [Decidable c] {s t u : State} (h : Shows s t) (g : Shows t u) : Shows s (if c then u else t) := by
  split
  · exact h.trans g
  · exact h

theorem either {c : Prop} [Decidable c] {s t u : State} (h : Shows s t) (g : Shows s u) : Shows s (if c then t else u) := by
  split
  · exact h
  · exact g

theorem setReg {i k : Nat} (hk : ¬ NoticeKey (256 * i + k)) (v : Nat) (s : State) : Shows s (Ops.setReg i k v s) :=
  ⟨fun _ h => h, fun _ h => Table.get_put_other _ _ fun e => hk (e ▸ h)⟩

/-- A store above the objects of the CAN ports. -/
theorem setHigh {i : Nat} (hi : 0x1103 ≤ i) (k v : Nat) (s : State) : Shows s (Ops.setReg i k v s) :=
  setReg (by rintro ⟨p, hp, h⟩; omega) v s

/-- STATUS bits are added. -/
theorem addStatus (m : BitVec 640) (s : State) : Shows s { s with events := { s.events with status := s.events.status ||| m } } :=
  ⟨fun n h => by simp [h], fun _ _ => rfl⟩

theorem setCan (p : Nat) (c : CanPort) (s : State) : Shows s (Ops.setCan p c s) := either (same rfl rfl) (same rfl rfl)

theorem wakeBank (n : Nat) (m : Bool) (s : State) : Shows s (Ops.wakeBank n m s) := by
  have wakes : Shows s (Ops.setPower n (.waking false 0) s) := same rfl rfl
  unfold Ops.wakeBank
  split
  · exact either wakes (refl s)
  · exact either wakes (refl s)
  · exact refl s

theorem hold (n : Nat) (m : MaintReq) (s : State) : Shows s (Ops.hold n m s) :=
  (same rfl rfl : Shows s (Ops.setBank n _ s)).trans (wakeBank n true _)

section
variable {again : Nat → State → State} (ha : ∀ n s, Shows s (again n s))
include ha

theorem level (n : Nat) (b : Bool) (s : State) : Shows s (Ops.level again n b s) :=
  either (either (refl s) (ha n s)) (same rfl rfl)

theorem bankCause (n c : Nat) (s : State) : Shows s (Ops.bankCause again n c s) :=
  (setHigh (by omega) _ _ s).trans (level ha _ _ _)

theorem claim (n : Nat) (s : State) : Shows s (Ops.claim again n s) := by
  have frees (u : State) (l : List TestRun) : Shows u { u with sup := { u.sup with tests := l } } := same rfl rfl
  have given : Shows s (Ops.setBank n { Ops.bank s n with borrowed := false } s) := same rfl rfl
  have counted (u : State) : Shows u (Ops.brokenBy again 4 3 4 n (Ops.bump 0xA000 9 u)) :=
    (((setHigh (i := 0xA000) (by decide) _ _ u).trans (setHigh (i := 0xA040) (by decide) _ _ _)).trans
      (setHigh (i := 0xA040) (by decide) _ _ _)).trans (ha 377 _)
  exact either ((given.trans (frees _ _)).trans (counted _)) (refl s)

theorem noteAccess (n w : Nat) (v : BitVec 72) (a : Flags.Access) (s : State) : Shows s (Ops.noteAccess again n w v a s) := by
  have counts (v k c w : Nat) (u : State) : Shows u (Ops.bankCause again n c (Ops.setReg (0x4800 + n) 6 w
      (Ops.bump 0x4000 v (Ops.bump (0x4800 + n) k u)))) :=
    (((setHigh (by omega) _ _ u).trans (setHigh (by omega) _ _ _)).trans (setHigh (by omega) _ _ _)).trans (bankCause ha n c _)
  exact cond (cond (either (same rfl rfl) (either (same rfl rfl) (refl s))) (counts _ _ _ _ _)) (counts _ _ _ _ _)

theorem bankAccess (n : Nat) (q : BankReq) (f : BitVec 72) (s : State) : Shows s (Ops.bankAccess again n q f s).1 := by
  simp only [Ops.bankAccess]
  exact (same rfl rfl : Shows s (Ops.setWord n q.addr.toNat _ s)).trans (noteAccess ha n _ _ _ _)

theorem toL0 (s : State) : Shows s (Ops.toL0 again s) :=
  either (((same rfl rfl : Shows s { s with host := { s.host with link := s.host.link &&& 0x11FF } }).trans (ha 400 _)).trans
    (ha 407 _)) (refl s)

theorem deliverMsix (v : Nat) (s : State) : Shows s (Ops.deliverMsix again v s) :=
  either (setHigh (by decide) _ _ s) (either (same rfl rfl) ((toL0 ha s).trans (same rfl rfl)))

theorem deliverEngine (e b : Nat) (s : State) : Shows s (Ops.deliverEngine again e b s) := by
  have lost (u : State) : Shows u (Ops.bump 0xB000 7 u) := setHigh (by decide) _ _ u
  have access (n : Nat) (q : BankReq) : Shows s (Ops.bankAccess again n q 0 (Ops.claim again n s)).1 :=
    (claim ha n s).trans (bankAccess ha n q 0 _)
  refine either (lost s) (either (either ((access _ _).trans (lost _)) (access _ _)) ?_)
  exact (claim ha _ s).trans (hold _ _ _)

theorem queueNotice (n p : Nat) (s : State) : Shows s (Ops.queueNotice again n p s) :=
  either (refl s) (either (setCan p _ s) ((setReg (by rintro ⟨q, hq, h⟩; omega) _ s).trans (ha 419 _)))

/-- What follows the count of a delivery. -/
theorem delivered (n : Nat) (s : State) : Shows (Ops.bump 0xB000 5 { s with events := { s.events with
    status := s.events.status ||| BitVec.twoPow 640 n } }) (Ops.deliver again n s) :=
  cond (cond (cond (cond (refl _) (deliverMsix ha _ _)) (deliverEngine ha _ _ _))
    ((queueNotice ha n 0 _).trans (queueNotice ha n 1 _))) (same rfl rfl)

theorem deliver (n : Nat) (s : State) : Shows s (Ops.deliver again n s) :=
  ((addStatus _ s).trans (setHigh (by decide) _ _ _)).trans (delivered ha n s)

end

theorem raiseTurns (k n : Nat) (s : State) : Shows s (Ops.raiseTurns k n s) := by
  induction k generalizing n s with
  | zero => exact refl s
  | succ k ih => exact cond (same rfl rfl) (deliver ih n _)

end Shows

/-! ### The one delivery of a raise (R499) -/

/-- Source n with RAW and STATUS 1, its delivery counted (R497 to R499). -/
def shown (n : Nat) (s : State) : State :=
  let x := rawSet n s
  Ops.bump 0xB000 5 { x with events := { x.events with status := x.events.status ||| BitVec.twoPow 640 n } }

/-- Source n is enabled and its STATUS is 0: a raise is delivered. -/
def Delivers (s : State) (n : Nat) : Prop := Ops.bit (Ops.control s n) 31 = true ∧ s.events.status.getLsbD n = false

theorem shows_shown (n : Nat) (s : State) : Shows s (shown n s) :=
  ((Shows.same rfl rfl : Shows s (rawSet n s)).trans (Shows.addStatus _ _)).trans (Shows.setHigh (by decide) _ _ _)

theorem reg_shown {i k : Nat} (h : 256 * i + k ≠ 256 * 0xB000 + 5) (n : Nat) (s : State) :
    Ops.reg (shown n s) i k = Ops.reg s i k := reg_setReg_other h _ _

section

variable {s : State} {n : Nat}

/-- Raising a source that delivers: whatever its control word enables, one after another. -/
theorem raise_delivers (h : Delivers s n) : Ops.raise n s = Ops.deliver (Ops.raiseTurns 639) n (rawSet n s) := by
  obtain ⟨on, clear⟩ := h
  exact if_pos (by rw [Bool.and_eq_true, Bool.not_eq_true']; exact ⟨on, clear⟩)

variable (h : Delivers s n)
include h

theorem raise_nowhere (hm : Ops.bit (Ops.control s n) 11 = false) (he : Ops.bit (Ops.control s n) 25 = false)
    (hc : Ops.bit (Ops.control s n) 29 = false) (hw : Ops.bit (Ops.control s n) 30 = false) : Ops.raise n s = shown n s := by
  have control : Ops.control (rawSet n s) n = Ops.control s n := rfl
  simp only [raise_delivers h, Ops.deliver, control, hm, he, hc, hw]
  rfl

theorem raise_msix (hm : Ops.bit (Ops.control s n) 11 = true) (he : Ops.bit (Ops.control s n) 25 = false)
    (hc : Ops.bit (Ops.control s n) 29 = false) (hw : Ops.bit (Ops.control s n) 30 = false) :
    Ops.raise n s = Ops.deliverMsix (Ops.raiseTurns 639) (Ops.control s n % 2048) (shown n s) := by
  have control : Ops.control (rawSet n s) n = Ops.control s n := rfl
  simp only [raise_delivers h, Ops.deliver, control, hm, he, hc, hw]
  rfl

theorem raise_engine (hm : Ops.bit (Ops.control s n) 11 = false) (he : Ops.bit (Ops.control s n) 25 = true)
    (hc : Ops.bit (Ops.control s n) 29 = false) (hw : Ops.bit (Ops.control s n) 30 = false) :
    Ops.raise n s = Ops.deliverEngine (Ops.raiseTurns 639) (Ops.control s n / 2 ^ 18 % 128) (Ops.control s n / 4096 % 64)
      (shown n s) := by
  have control : Ops.control (rawSet n s) n = Ops.control s n := rfl
  simp only [raise_delivers h, Ops.deliver, control, hm, he, hc, hw]
  rfl

theorem raise_notices (hm : Ops.bit (Ops.control s n) 11 = false) (he : Ops.bit (Ops.control s n) 25 = false)
    (hc : Ops.bit (Ops.control s n) 29 = true) (hw : Ops.bit (Ops.control s n) 30 = false) : Ops.raise n s =
      Ops.queueNotice (Ops.raiseTurns 639) n 1 (Ops.queueNotice (Ops.raiseTurns 639) n 0 (shown n s)) := by
  have control : Ops.control (rawSet n s) n = Ops.control s n := rfl
  simp only [raise_delivers h, Ops.deliver, control, hm, he, hc, hw]
  rfl

theorem raise_wake (hm : Ops.bit (Ops.control s n) 11 = false) (he : Ops.bit (Ops.control s n) 25 = false)
    (hc : Ops.bit (Ops.control s n) 29 = false) (hw : Ops.bit (Ops.control s n) 30 = true) : Ops.raise n s =
      if s.modes.cur = .m6 ∨ s.modes.trans.isSome = true then
        { shown n s with modes := { s.modes with wakeDue := true } } else shown n s := by
  have control : Ops.control (rawSet n s) n = Ops.control s n := rfl
  simp only [raise_delivers h, Ops.deliver, control, hm, he, hc, hw]
  by_cases hd : s.modes.cur = .m6 ∨ s.modes.trans.isSome = true
  · exact (if_pos (by simpa [Ops.modeIn, rawSet] using hd)).trans (if_pos hd).symm
  · exact (if_neg (by simpa [Ops.modeIn, rawSet] using hd)).trans (if_neg hd).symm

end

/-! #### To an MSI-X vector (R503) -/

section

variable {again : Nat → State → State} {s : State} {v : Nat}

theorem deliverMsix_lost (h : ¬ (v < 1024 ∨ (v - 1024) / 16 < s.events.numVfs)) :
    Ops.deliverMsix again v s = Ops.bump 0xB000 6 s := if_pos (by omega)

variable (h : v < 1024 ∨ (v - 1024) / 16 < s.events.numVfs)
include h

theorem deliverMsix_pends (hb : Ops.msixBlocked s v = true) : Ops.deliverMsix again v s =
    { s with events := { s.events with msixPending := s.events.msixPending ||| BitVec.twoPow 2048 v } } :=
  (if_neg (by omega)).trans (if_pos hb)

theorem deliverMsix_sends (hb : Ops.msixBlocked s v = false) (hl : s.modes.cur ≠ .m6 ∨ Ops.inL1 s = false) :
    Ops.deliverMsix again v s = Ops.emit (Ops.message s v) s := by
  have awake : Ops.toL0 again s = s := if_neg (by rcases hl with hl | hl <;> simp [hl])
  refine (if_neg (by omega)).trans ((if_neg (by simp [hb])).trans ?_)
  rw [awake]

end

/-! #### To an engine's event word (R505) -/

section

variable {again : Nat → State → State} {s : State} {e k a b x : Nat}

/-- The event word that an engine's register names as `x` can be written. -/
def EventLive (s : State) (x : Nat) : Prop :=
  (s.modes.cur = .m5 ∨ s.modes.cur = .m7) ∧ Ops.bit x 31 = true ∧ Ops.refuses s (x / 8192 % 2048) = false

theorem eventLive_iff : EventLive s x ↔
    ¬ (!Ops.modeIn s [.m5, .m7] || !Ops.bit x 31 || Ops.refuses s (x / 8192 % 2048)) = true := by
  simp [EventLive, or_iff_not_imp_left]

theorem claim_own (h : (Ops.bank s k).borrowed = false) : Ops.claim again k s = s := if_neg (by simp [h])

/-- A set of bits in a word without an error counts nothing. -/
theorem bankAccess_set {w m : W64} (hx : Ops.word s k (a % 8192) = Flags.encode w) :
    Ops.bankAccess again k { op := 2, addr := BitVec.ofNat 13 a, data := m } 0 s =
      (Ops.setWord k (a % 8192) (Flags.encode (w ||| m)) s, ⟨Flags.encode (w ||| m), w, false, false⟩) := by
  have good : Flags.access 2 m (Flags.encode w) = ⟨Flags.encode (w ||| m), w, false, false⟩ := by
    rw [access_good (by decide) m (decode_encode w), encode_data]
    rfl
  have here : Ops.word s k (a % 2 ^ 13) = Flags.encode w := hx
  have upset : Ops.word s k (a % 2 ^ 13) ^^^ 0 = Flags.encode w := by
    rw [here, show (0 : BitVec 72) = 0#72 from rfl, BitVec.xor_zero]
  simp only [Ops.bankAccess, BitVec.toNat_ofNat, upset, good]
  rfl

variable (hx : Ops.reg s 0xB001 (1 + e) = x)
include hx

theorem deliverEngine_lost (h : ¬ EventLive s x) : Ops.deliverEngine again e b s = Ops.bump 0xB000 7 s := by
  subst hx
  exact if_pos (not_not.1 (eventLive_iff.not.1 h))

variable (h : EventLive s x)
include h

theorem deliverEngine_sets (hr : Ops.ready s (x / 8192 % 2048) = true)
    (hf : Ops.arrayFree (Ops.bank s (x / 8192 % 2048)) = true) {w : W64}
    (hw : Ops.word s (x / 8192 % 2048) (x % 8192) = Flags.encode w) : Ops.deliverEngine again e b s =
      Ops.setWord (x / 8192 % 2048) (x % 8192) (Flags.encode (w ||| BitVec.twoPow 64 b)) s := by
  have own : (Ops.bank s (x / 8192 % 2048)).borrowed = false := by
    have := (Bool.and_eq_true_iff.1 hr).2
    simpa using this
  have word := (congrArg (Ops.word s _) (Nat.mod_mod _ _)).trans hw
  subst hx
  refine (if_neg (eventLive_iff.1 h)).trans ?_
  simp only [claim_own own, hr, hf, bankAccess_set word, Nat.mod_mod]
  rfl

theorem deliverEngine_held
    (hn : ¬ (Ops.ready s (x / 8192 % 2048) = true ∧ Ops.arrayFree (Ops.bank s (x / 8192 % 2048)) = true))
    (own : (Ops.bank s (x / 8192 % 2048)).borrowed = false) : Ops.deliverEngine again e b s = Ops.hold (x / 8192 % 2048)
      { kind := .event, req := { op := 2, addr := BitVec.ofNat 13 (x % 8192), data := BitVec.twoPow 64 b } } s := by
  subst hx
  refine (if_neg (eventLive_iff.1 h)).trans ?_
  simp only [claim_own own, if_neg (mt Bool.and_eq_true_iff.1 hn)]

end

/-! #### To the CAN ports (R424) -/

section

variable {again : Nat → State → State} {s : State} {n p : Nat}

/-- CAN port p is enabled and sends notices. -/
def Notes (s : State) (p : Nat) : Prop := Ops.reg s (0x1101 + p) 1 ≠ 0 ∧ Ops.reg s (0x1101 + p) 9 ≠ 0

theorem Notes.iff_of_shows {t : State} (h : Shows s t) (hp : p < 2) : Notes t p ↔ Notes s p := by
  have first : Ops.reg t (0x1101 + p) 1 = Ops.reg s (0x1101 + p) 1 := h.notices _ ⟨p, hp, .inl rfl⟩
  have ninth : Ops.reg t (0x1101 + p) 9 = Ops.reg s (0x1101 + p) 9 := h.notices _ ⟨p, hp, .inr rfl⟩
  rw [Notes, first, ninth, Notes]

theorem queueNotice_silent (h : ¬ Notes s p) : Ops.queueNotice again n p s = s :=
  if_pos (by simpa [Notes, or_iff_not_and_not] using h)

theorem queueNotice_queued (h : Notes s p) (hr : (Ops.can s p).notices.length < 32) : Ops.queueNotice again n p s =
    Ops.setCan p { Ops.can s p with
      notices := (Ops.can s p).notices ++ [{ source := n, sec := s.time.sec, ns := s.time.ns }] } s :=
  (if_neg (not_or.2 h)).trans (if_pos hr)

theorem queueNotice_full (h : Notes s p) (hr : ¬ (Ops.can s p).notices.length < 32) :
    Ops.queueNotice again n p s = again 419 (Ops.bump (0x1101 + p) 8 s) :=
  (if_neg (not_or.2 h)).trans (if_neg hr)

end

/-! ### The event block's commands (R496 to R503) -/

section

variable {s : State} (t : Transport)

theorem chapterWrite_status (d : List Byte) : Dict.chapterWrite t 0xB000 2 d s =
    some (if d.length ≠ 80 then .inl 4 else .inr (EventBlock.clear (BitVec.ofNat 640 (Ops.le d)) s)) := rfl

theorem chapterWrite_eventControl (g : Fin 5) (k : Nat) (d : List Byte) :
    Dict.chapterWrite t (0xB100 + g) k d s = some (.inr (EventBlock.writeControl (0xB100 + g) k (Ops.le d) s)) := by
  fin_cases g <;> rfl

theorem size_eventControl (g : Fin 5) {k : Nat} (h1 : 1 ≤ k) (h2 : k ≤ 128) : Operands.size (0xB100 + g) k = 4 := by
  have found : Objects.find (0xB100 + g) = some ⟨0x80, .host, [Objects.r 1 0x80 .u32 .rw]⟩ := by fin_cases g <;> rfl
  have row : Objects.row (0xB100 + g) k = some (Objects.r 1 0x80 .u32 .rw) := by
    have zero : k ≠ 0 := by omega
    simp [Objects.row, found, Objects.r, zero, h1, h2, Nat.not_lt.2 h2]
  simp only [Operands.size, row]
  rfl

end

/-- A write of source n's control word (R498, R501, R502). -/
theorem writeControl_eq (n : Fin 640) (v : Nat) (s : State) :
    EventBlock.writeControl (0xB100 + n.val / 128) (1 + n.val % 128) v s =
      let y := Ops.setReg (0xB100 + n.val / 128) (1 + n.val % 128) v s
      if !Ops.bit (Ops.control s n) 31 && Ops.bit v 31 && s.events.raw.getLsbD n then Ops.raise n y else y := by
  have same : 128 * (0xB100 + n.val / 128 - 0xB100) + (1 + n.val % 128) - 1 = n.val := by omega
  simp only [EventBlock.writeControl, same]
  rfl

theorem eventControl_counted (s : State) (n : Fin 640) : Ops.control (counted s) n = Ops.control s n :=
  reg_counted (by omega) s

theorem bit_toNat {w : Nat} (v : BitVec w) (i : Nat) : Ops.bit v.toNat i = v.getLsbD i := BitVec.testBit_toNat v

theorem raw_counted (s : State) : (counted s).events.raw = s.events.raw := rfl

theorem run_eventControl {s x : State} {t : Transport} {n : Fin 640} {v : W32}
    (h : Writes s t (0xB100 + n.val / 128) (1 + n.val % 128) (le 4 v.toNat))
    (he : EventBlock.writeControl (0xB100 + n.val / 128) (1 + n.val % 128) v.toNat (counted s) = x) :
    exec (.eventControlWrite t n v) s = .next (wrote s t (0xB100 + n.val / 128) (1 + n.val % 128) (le 4 v.toNat) x) := by
  have g : n.val / 128 < 5 := by omega
  refine operands_taken (size_eventControl ⟨_, g⟩ (by omega) (by omega)) h (by omega) (by omega) ?_
  rw [chapterWrite_eventControl t ⟨_, g⟩, le_bytes_lt v.isLt, he]

/-! ### The vectors' and functions' blocks (R503) -/

section

variable {s : State} {v : BitVec 11}

/-- Vector v has a table entry. -/
def HasEntry (s : State) (v : BitVec 11) : Prop := v.toNat < 1024 ∨ (v.toNat - 1024) / 16 < s.events.numVfs

theorem hasEntry_iff : HasEntry s v ↔ HostLink.hasEntry s v.toNat = true := by simp [HasEntry, HostLink.hasEntry]

theorem mask_entry (h : HasEntry s v) : HostLink.mask (.entry v) s =
    { s with events := { s.events with msixBlocked := s.events.msixBlocked ||| BitVec.twoPow 2048 v.toNat } } :=
  if_neg (by simp [hasEntry_iff.1 h])

theorem mask_absent (h : ¬ HasEntry s v) : HostLink.mask (.entry v) s = s := if_pos (by simp [mt hasEntry_iff.2 h])

theorem unblock_absent (h : ¬ HasEntry s v) : HostLink.unblock (.entry v) s = s := if_pos (by simp [mt hasEntry_iff.2 h])

/-- The state in which vector v is no longer blocked by itself. -/
def unmasked (v : BitVec 11) (s : State) : State :=
  { s with events := { s.events with msixBlocked := s.events.msixBlocked &&& ~~~BitVec.twoPow 2048 v.toNat } }

theorem unblock_entry (h : HasEntry s v) :
    HostLink.unblock (.entry v) s = HostLink.release (unmasked v s) v.toNat := if_neg (by simp [hasEntry_iff.1 h])

/-- A vector that is not masked is blocked by its function alone. -/
theorem msixBlocked_unmasked : Ops.msixBlocked (unmasked v s) v.toNat = !Ops.able s (Ops.ownerOf v.toNat) := by
  have clear : (s.events.msixBlocked &&& ~~~BitVec.twoPow 2048 v.toNat).getLsbD v.toNat = false := by
    simp [v.isLt]
  rw [Ops.msixBlocked]
  exact (congrArg (· || _) clear).trans (Bool.false_or _)

/-- Vector v has a message that nothing but its mask keeps from being sent. -/
def Sends (s : State) (v : BitVec 11) : Prop :=
  s.events.msixPending.getLsbD v.toNat = true ∧ Ops.able s (Ops.ownerOf v.toNat) = true

theorem sends_iff : Sends s v ↔ ((unmasked v s).events.msixPending.getLsbD v.toNat &&
    !Ops.msixBlocked (unmasked v s) v.toNat) = true := by
  rw [msixBlocked_unmasked, Bool.not_not, Bool.and_eq_true]
  rfl

theorem release_sends (h : Sends s v) : HostLink.release (unmasked v s) v.toNat =
    Ops.emit (Ops.message s v.toNat) { unmasked v s with events := { (unmasked v s).events with
      msixPending := s.events.msixPending &&& ~~~BitVec.twoPow 2048 v.toNat } } := if_pos (sends_iff.1 h)

theorem release_waits (h : ¬ Sends s v) : HostLink.release (unmasked v s) v.toNat = unmasked v s :=
  if_neg (mt sends_iff.2 h)

end

section

variable {s : State} {f : Fn} {why : FnBlock}

theorem mask_function (h : HostLink.present s f = true) :
    HostLink.mask (.function f why) s = HostLink.setFn f (HostLink.withBlock why true) s := if_pos h

theorem mask_noFunction (h : HostLink.present s f = false) : HostLink.mask (.function f why) s = s := if_neg (by simp [h])

theorem unblock_function (h : HostLink.present s f = true) :
    HostLink.unblock (.function f why) s = HostLink.configure f (HostLink.withBlock why false) s := if_pos h

theorem unblock_noFunction (h : HostLink.present s f = false) : HostLink.unblock (.function f why) s = s :=
  if_neg (by simp [h])

/-- A function that one of its conditions blocks cannot send. -/
theorem able_blocked (f : Fn) (why : FnBlock) (s : State) :
    Ops.able (HostLink.setFn f (HostLink.withBlock why true) s) (HostLink.ownerCode f) = false := by
  have config : Ops.fnConfig (HostLink.setFn f (HostLink.withBlock why true) s) (HostLink.ownerCode f) =
      HostLink.withBlock why true (Ops.fnConfig s (HostLink.ownerCode f)) := Table.get_put_same _ _ _
  rw [Ops.able, config]
  cases why <;> simp [HostLink.withBlock]

end

/-! ### A fabric user event (R496) -/

section

variable {s : State} {k : Fin 128}

/-- The taker of region 4k's block input 0x3C0. -/
abbrev userTaker (k : Fin 128) : Taker := .userEvent (Fin.ofNat 512 (4 * k))

theorem userOf_crossing (k : Fin 128) : EventBlock.userOf (EventBlock.crossing k) = some k.val := by
  have slot : (EventBlock.crossing k.val).slot.val = k.val := Nat.mod_eq_of_lt (by omega)
  simp only [EventBlock.userOf, slot, k.isLt, and_self, if_true]

/-- A user event's acknowledge is a bit of the array, which no bridge sees. -/
theorem find_ackUser (b : BridgeId) (r : Fin 512) (s : State) :
    Bridges.find (Fabric.setAck (.userEvent r) true s) b = Bridges.find s b := by
  simp only [Fabric.setAck]
  rfl

theorem token_none (h : Fabric.captured s (userTaker k) = none) : EventBlock.token k s = s := by
  simp only [EventBlock.token, h]

variable {w : Nat} (h : Fabric.captured s (userTaker k) = some w)
include h

theorem token_spent (hw : w ≠ 1) : EventBlock.token k s = Fabric.setAck (userTaker k) true s := by
  simp only [EventBlock.token, h, if_pos hw]

variable (hw : w = 1)
include hw

theorem token_counted (hh : (Bridges.find s (EventBlock.crossing k)).h ≠ none) : EventBlock.token k s =
    Bridges.pulse (EventBlock.crossing k) (Fabric.setAck (userTaker k) true s) := by
  simp only [EventBlock.token, h, hw, find_ackUser, Option.isSome_iff_ne_none.2 hh]
  rfl

variable (hh : (Bridges.find s (EventBlock.crossing k)).h = none)
include hh

/-- An idle crossing passes the pulse on, and is free again. -/
theorem token_passed : EventBlock.token k s = Bridges.free (EventBlock.crossing k) (EventBlock.deliver (EventBlock.crossing k)
    (Bridges.pulse (EventBlock.crossing k) (Fabric.setAck (userTaker k) true s))) := by
  simp only [EventBlock.token, h, hw, find_ackUser, hh]
  rfl

theorem token_unready (hr : Bridges.ready (Bridges.find s (EventBlock.crossing k)) = false) :
    EventBlock.token k s = Fabric.setAck (userTaker k) true s := by
  have pulseKind : (EventBlock.crossing k).kind ≠ .data := BridgeKind.noConfusion
  rw [token_passed h hw hh, pulse_ignored (find_ackUser _ _ s) (.inr hr),
    deliver_user_idle (deliver_unready (find_ackUser _ _ s) hr), free_word_idle (find_ackUser _ _ s) pulseKind (.inl hh)]

theorem token_raises (hr : Bridges.ready (Bridges.find s (EventBlock.crossing k)) = true) :
    EventBlock.token k s = Bridges.free (EventBlock.crossing k) (Ops.raise (512 + k) (Bridges.deliver (EventBlock.crossing k)
      (Bridges.pulse (EventBlock.crossing k) (Fabric.setAck (userTaker k) true s)))) := by
  have started := pulse_starts (s := Fabric.setAck (userTaker k) true s) (find_ackUser _ _ s) rfl hr hh
  have found : Bridges.find (Bridges.pulse (EventBlock.crossing k) (Fabric.setAck (userTaker k) true s))
      (EventBlock.crossing k) = { Bridges.find s (EventBlock.crossing k) with h := some 1, delivered := false } := by
    rw [started]
    exact find_store
  have taken := deliver_pulse found hr rfl rfl rfl
  have raised := deliver_user_raises found (userOf_crossing k) rfl taken (by decide)
  rw [token_passed h hw hh, raised, taken]
  rfl

end

/-! ### The statement -/

section

variable {s : State} {n : Nat}

/-- STATUS of an enabled source is 1 once it has been raised (R499). -/
theorem status_raise (hn : n < 640) (on : Ops.bit (Ops.control s n) 31 = true) :
    (Ops.raise n s).events.status.getLsbD n = true := by
  cases hs : s.events.status.getLsbD n with
  | true => rw [raise_quiet (.inr hs)]; exact hs
  | false =>
    have set : (shown n s).events.status.getLsbD n = true := by
      show (s.events.status ||| BitVec.twoPow 640 n).getLsbD n = true
      simp [hn]
    have later : Shows (shown n s) (Ops.deliver (Ops.raiseTurns 639) n (rawSet n s)) :=
      Shows.delivered (Shows.raiseTurns 639) n _
    rw [raise_delivers ⟨on, hs⟩]
    exact later.status n set

end

/-- Settles O53: a raise that delivers is one delivery to the destination of its control word; each command of the block is
its own effect. -/
theorem events : Obligations.Events := by
  unfold Obligations.Events
  refine ⟨fun s n => ?raise, fun s t n => ⟨fun ha => ⟨fun hp => ?pulse, fun hp => ?level⟩, fun m h => ⟨fun hl => ?clear,
      fun hl => ?long⟩,
    fun v h => ⟨fun hq => ?silent, fun hoff hon hraw => ?enabled⟩, fun v ha => ⟨fun hv hs => ?send, fun hv hs => ?unmask,
      fun hv => ?mask, fun hv => ?absent⟩, fun f why ha => ⟨fun hp => ?function, fun hp => ?noFunction, ?able⟩,
    fun k ha => ⟨fun hk => ?vfs, fun hk => ?tooMany⟩, fun k ha => ?user⟩⟩
  case raise =>
    refine ⟨fun hq => raise_quiet hq, fun h hq hm hw => raise_nowhere h hm hq.1 hq.2 hw, fun h hq hm hw => ?msix,
      fun h hq hm hw => ?wake, fun h he hm hc hw => ?engine, fun h hc hm he hw => ?can, fun on hn => status_raise hn on⟩
    case msix =>
      rw [raise_msix h hm hq.1 hq.2 hw]
      exact ⟨fun here free link => deliverMsix_sends (s := shown n s) here free link,
        fun here blocked => deliverMsix_pends (s := shown n s) here blocked, fun lost => deliverMsix_lost (s := shown n s) lost⟩
    case wake =>
      rw [raise_wake h hm hq.1 hq.2 hw]
      exact ⟨fun wakes => if_pos wakes, fun awake still => if_neg (by simp [awake, still])⟩
    case engine =>
      have entry : Ops.reg (shown n s) 0xB001 (1 + Ops.control s n / 2 ^ 18 % 128) =
          Ops.reg s 0xB001 (1 + Ops.control s n / 2 ^ 18 % 128) := reg_shown (by omega) n s
      rw [raise_engine h hm he hc hw]
      exact ⟨fun lost => deliverEngine_lost entry lost, fun w hl hf hw => deliverEngine_sets entry hl hf.1 hf.2 hw,
        fun hl hf own => deliverEngine_held entry hl hf own⟩
    case can =>
      have same (p : Nat) (hp : p < 2) : Notes (shown n s) p ↔ Notes s p :=
        Notes.iff_of_shows (shows_shown n s) hp
      rw [raise_notices h hm he hc hw]
      have after0 {y : State} (h : Shows (shown n s) y) (h1 : ¬ Notes s 1) : Ops.queueNotice (Ops.raiseTurns 639) n 1 y = y :=
        queueNotice_silent (mt ((Notes.iff_of_shows h (by decide)).trans (same 1 (by decide))).1 h1)
      have silent0 (h0 : ¬ Notes s 0) : Ops.queueNotice (Ops.raiseTurns 639) n 0 (shown n s) = shown n s :=
        queueNotice_silent (mt (same 0 (by decide)).1 h0)
      have queued0 (h0 : Notes s 0) (r0 : (Ops.can s 0).notices.length < 32) :=
        queueNotice_queued (again := Ops.raiseTurns 639) (n := n) ((same 0 (by decide)).2 h0) r0
      have full0 (h0 : Notes s 0) (r0 : ¬ (Ops.can s 0).notices.length < 32) :=
        queueNotice_full (again := Ops.raiseTurns 639) (n := n) ((same 0 (by decide)).2 h0) r0
      refine ⟨fun h0 h1 => ?none, Fin.forall_fin_two.2 ⟨fun h0 h1 r0 => ?first, fun h1 h0 r1 => ?second⟩,
        fun h0 h1 r0 r1 => ?both,
        Fin.forall_fin_two.2 ⟨fun h0 h1 r0 => ?firstFull, fun h1 h0 r1 => ?secondFull⟩⟩
      case none =>
        rw [silent0 h0]
        exact after0 (Shows.refl _) h1
      case first =>
        rw [queued0 h0 r0]
        exact after0 (Shows.setCan _ _ _) h1
      case second =>
        rw [silent0 h0]
        exact queueNotice_queued ((same 1 (by decide)).2 h1) r1
      case both =>
        rw [queued0 h0 r0]
        exact queueNotice_queued ((Notes.iff_of_shows (Shows.setCan _ _ _) (by decide)).2 ((same 1 (by decide)).2 h1)) r1
      case firstFull =>
        rw [full0 h0 r0]
        exact after0 ((Shows.setReg (by rintro ⟨p, hp, h⟩; omega) _ _).trans (Shows.raiseTurns 639 419 _)) h1
      case secondFull =>
        rw [silent0 h0]
        exact queueNotice_full ((same 1 (by decide)).2 h1) r1
  case pulse => exact run_awake_of ha (if_pos hp)
  case level => exact run_awake_of ha (if_neg (by simp [hp]))
  case clear =>
    exact run_write h (by decide) (by decide) ((chapterWrite_status t m).trans (congrArg some (if_neg (not_not.2 hl))))
  case long =>
    exact run_refused h (by decide) (by decide) ((chapterWrite_status t m).trans (congrArg some (if_pos hl)))
  case silent =>
    refine run_eventControl h ((writeControl_eq n _ _).trans (if_neg ?_))
    rw [eventControl_counted, raw_counted, bit_toNat]
    rcases hq with on | off | low
    · rw [on, Bool.not_true, Bool.false_and, Bool.false_and]
      decide
    · rw [off, Bool.and_false, Bool.false_and]
      decide
    · rw [low, Bool.and_false]
      decide
  case enabled =>
    refine run_eventControl h ((writeControl_eq n _ _).trans (if_pos ?_))
    rw [eventControl_counted, raw_counted, bit_toNat, hoff, hon, hraw]
    rfl
  case send =>
    exact run_awake_of ha ((unblock_entry (s := Ops.begin s) hv).trans (release_sends (s := Ops.begin s) hs))
  case unmask =>
    exact run_awake_of ha ((unblock_entry (s := Ops.begin s) hv).trans (release_waits (s := Ops.begin s) hs))
  case mask => exact run_awake_of ha (mask_entry (s := Ops.begin s) hv)
  case absent =>
    exact ⟨run_awake_of ha (unblock_absent (s := Ops.begin s) hv), run_awake_of ha (mask_absent (s := Ops.begin s) hv)⟩
  case function =>
    exact ⟨run_awake_of ha (mask_function (s := Ops.begin s) hp), run_awake_of ha (unblock_function (s := Ops.begin s) hp)⟩
  case noFunction =>
    exact ⟨run_awake_of ha (mask_noFunction (s := Ops.begin s) hp), run_awake_of ha (unblock_noFunction (s := Ops.begin s) hp)⟩
  case able => exact able_blocked f why s
  case vfs => exact run_awake_of ha (if_neg (by omega))
  case tooMany => exact run_awake_of ha (if_pos hk)
  case user =>
    have seen : Fabric.captured (Ops.begin s) (userTaker k) = Fabric.captured s (userTaker k) := by rw [captured_begin]
    refine ⟨fun hn => run_awake_of ha (token_none (seen.trans hn)), fun w hw => ?_⟩
    replace hw := seen.trans hw
    exact ⟨fun h1 => run_awake_of ha (token_spent hw h1), fun h1 hh => run_awake_of ha (token_counted hw h1 hh),
      fun h1 hh hr => run_awake_of ha (token_raises hw h1 hh hr), fun h1 hh hr => run_awake_of ha (token_unready hw h1 hh hr)⟩

end Sys2Proof.Laws
end

section
/-!
SUPPORT. The two supervised rails: their warnings, recoveries and resets (R463 to R466).
-/

namespace Sys2Proof.Laws

open Sys2Proof Sys2Proof.Machine Sys2Proof.Safety

section

variable {s : State} {r : Rail} {mv : Nat}

/-! ### The comparators of a rail -/

@[simp] theorem railWarned_measure : Super.railWarned (Super.measure r mv s) = Super.railWarned s := by
  funext q
  cases r <;> cases q <;> rfl

@[simp] theorem railReset_measure : Super.railReset (Super.measure r mv s) = Super.railReset s := by
  funext q
  cases r <;> cases q <;> rfl

@[simp] theorem warned_measure : Super.warned (Super.measure r mv s) = Super.warned s := by
  cases r <;> rfl

@[simp] theorem railWarned_setReset (b : Bool) : Super.railWarned (Super.setReset r b s) = Super.railWarned s := by
  funext q
  cases r <;> cases q <;> rfl

theorem reset_clears_first (h : Super.warnClears r ≤ mv) : Super.resetClears r ≤ mv := by
  cases r with
  | vcore => exact Nat.le_trans (by decide) h
  | vaux => exact Nat.le_trans (by decide) h

/-! ### A measurement (R463, R464, R466) -/

/-- What a new warning of rail r does: it freezes adaptive voltage, raises its source, abandons the running slices of
self-test and drives the alarm pins. -/
def warningRaised (r : Rail) (u : State) : State :=
  let x := Ops.track (Super.warnSource r) true (Super.setWarn r true { u with sup := { u.sup with frozen := true } })
  Pins.alarmPins (x.sup.tests.foldl (fun y t => if t.running then Super.abandonSlice t y else y) x)

theorem warning_new (h : mv < Super.warnBelow r) (hw : Super.railWarned s r = false) :
    Super.warning r mv s = warningRaised r (Super.measure r mv s) :=
  (if_neg h.not_ge).trans (if_neg (by simp [hw]))

theorem warning_noted (h : Super.warnBelow r ≤ mv ∨ Super.railWarned s r = true) :
    Super.warning r mv s = Super.measure r mv s := by
  by_cases hb : Super.warnBelow r ≤ mv
  · exact if_pos hb
  · exact (if_neg hb).trans (if_pos (by simp [h.resolve_left hb]))

/-- The end of a warning of rail r on `u`, whose dip had reached the reset level or not (R464 steps 3 to 5, R466). -/
def warningEnded (r : Rail) (dipped : Bool) (u : State) : State :=
  let x := Ops.track (Super.warnSource r) false (Super.setWarn r false (Super.setReset r false u))
  let n := Ops.reg x 0x1010 7
  let y := if dipped then x else Ops.setReg 0x1010 7 (match r with
    | .vcore => n / 65536 * 65536 + (n % 65536 + 1) % 65536
    | .vaux => (n / 65536 + 1) % 65536 * 65536 + n % 65536) x
  if y.sup.coreWarn || y.sup.auxWarn then y
  else
    let z := if dipped then y else Ops.raise 385 y
    { z with sup := { z.sup with frozen := false } }

theorem recovered_ends (h : Super.warnClears r ≤ mv) (hw : Super.railWarned s r = true) :
    Super.recovered r mv s = warningEnded r (Super.railReset s r) (Super.measure r mv s) := by
  have waits : ¬ (mv < Super.warnClears r ∨
      (!Super.railWarned (Super.setReset r false (Super.measure r mv s)) r) = true) := by
    simp [hw, h]
  simp only [Super.recovered, if_pos (reset_clears_first h), if_neg waits, railReset_measure]
  cases r <;> rfl

theorem recovered_waits (h : mv < Super.warnClears r ∨ Super.railWarned s r = false) : Super.recovered r mv s =
    if Super.resetClears r ≤ mv then Super.setReset r false (Super.measure r mv s) else Super.measure r mv s := by
  have same : Super.railWarned (if Super.resetClears r ≤ mv then Super.setReset r false (Super.measure r mv s)
      else Super.measure r mv s) r = Super.railWarned s r := by split <;> simp
  exact if_pos (by rw [same]; simpa using h)

/-- The cause of a rail's reset (R37). -/
def resetCause : Rail → Nat
  | .vcore => 4
  | .vaux => 5

theorem belowReset_due (h : mv < Super.resetBelow r) : Super.belowReset r mv s =
    Modes.setModes (fun m => { m with resetDue := some (resetCause r) }) (Super.setReset r true (Super.warning r mv s)) :=
  (if_neg h.not_ge).trans (by cases r <;> rfl)

theorem belowReset_noted (h : Super.resetBelow r ≤ mv) : Super.belowReset r mv s = Super.measure r mv s := if_pos h

/-- A measurement that raises no warning cuts no blow. -/
theorem afterWarning_noted {f : State → State} (h : f s = Super.measure r mv s) : afterWarning f s = Super.measure r mv s := by
  simp [afterWarning, h]

theorem afterWarning_eq {f : State → State} {x : State} (h : f s = x) :
    afterWarning f s = if Super.warned x && !Super.warned s then Transports.fuseCut x else x := by
  rw [afterWarning, h]

end

/-- Settles O9: a measurement below a level is the rail's warning or reset, with a blow cut where it is the first warning; one
above the clear level ends the warning. -/
theorem railWarnings : Obligations.RailWarnings := by
  unfold Obligations.RailWarnings
  intro s r mv ha
  refine ⟨fun hm hw => ?new, fun hn => ?noted, fun hm hw => ?ended, fun hn => ?waits, fun hm => ?reset, fun hm => ?above⟩
  case new => exact run_awake_of ha (afterWarning_eq (s := Ops.begin s) (warning_new hm hw))
  case noted => exact run_awake_of ha (afterWarning_noted (warning_noted (s := Ops.begin s) hn))
  case ended => exact run_awake_of ha (recovered_ends (s := Ops.begin s) hm hw)
  case waits => exact run_awake_of ha (recovered_waits (s := Ops.begin s) hn)
  case reset => exact run_awake_of ha (afterWarning_eq ((belowReset_due (s := Ops.begin s) hm).trans (by cases r <;> rfl)))
  case above => exact run_awake_of ha (afterWarning_noted (belowReset_noted (s := Ops.begin s) hm))

end Sys2Proof.Laws
end

section
/-!
SUPPORT. Survey's steps, the slices of background self-test, and the lendable banks (R476 to R482).
-/

namespace Sys2Proof.Laws

open Sys2Proof Sys2Proof.Machine Sys2Proof.Safety

/-! ### Survey (R476, R477) -/

section

variable {f : SurveyResult} {s : State}

theorem surveyStep_waits (h : s.modes.tripped = true ∨ Super.warned s = true ∨ 4 ≤ s.modes.surveyStep) :
    Super.surveyStep f s = s := by
  refine if_pos ?_
  simp only [Bool.or_eq_true, decide_eq_true_eq]
  tauto

/-- A step of Survey that counts, as `Super.surveyStep` divides its ends. -/
theorem surveyStep_counts (hm : s.modes.cur = .m2) (ht : s.modes.tripped = false) (hw : Super.warned s = false)
    (hk : s.modes.surveyStep < 4) : Super.surveyStep f s =
      if s.modes.surveyStep = 0 ∧ (!f.fuseGood) = true then Modes.setModes (fun m => { m with fuseDue := true }) s
      else if s.modes.surveyStep < 3 then Modes.setModes (fun m => { m with surveyStep := s.modes.surveyStep + 1 }) s
      else if (!f.mirrorGood) = true then Modes.setModes (fun m => { m with fuseDue := true }) s
      else
        let x := Banks.onSurvey (Super.surveyResults f s)
        Ops.raise 368 { x with modes := { x.modes with surveyStep := 4 } } :=
  if_neg (by simp [Ops.modeIn, hm, ht, hw, hk])

end

/-! ### Slices (R478 to R482) -/

section

variable {sl : Slice} {s : State}

theorem runs_none
    (h : ∀ t ∈ s.sup.tests, Super.sameTest sl.kind sl.target.toNat t = false ∨ t.running = false) :
    (s.sup.tests.any fun t => Super.sameTest sl.kind sl.target.toNat t && t.running) = false := by
  simpa [List.any_eq_false, imp_iff_not_or] using h

theorem slice_starts (hs : sl.starts = true) (hm : Super.mayStart s sl.kind sl.target.toNat = true)
    (hn : (s.sup.tests.any fun t => Super.sameTest sl.kind sl.target.toNat t && t.running) = false) :
    Super.slice sl s =
      let x := match sl.kind with
        | .bank => Ops.setBank sl.target.toNat { Ops.bank s sl.target.toNat with borrowed := true } s
        | .engine => Engines.setPhys sl.target.toNat 2 s
        | _ => s
      Super.setTests (if s.sup.tests.any (Super.sameTest sl.kind sl.target.toNat)
        then s.sup.tests.map fun t => if Super.sameTest sl.kind sl.target.toNat t then { t with running := true } else t
        else s.sup.tests ++ [{ kind := sl.kind, target := sl.target, slices := 0, running := true }]) x := by
  refine (if_pos hs).trans ((if_neg (by simp [hm, hn])).trans ?_)
  cases sl.kind <;> exact (apply_ite (Super.setTests · _) ..).symm

theorem slice_spurned (hs : sl.starts = true) (h : Super.mayStart s sl.kind sl.target.toNat = false ∨
    ∃ t ∈ s.sup.tests, Super.sameTest sl.kind sl.target.toNat t = true ∧ t.running = true) : Super.slice sl s = s :=
  (if_pos hs).trans (if_pos (by simpa using h))

theorem slice_idle (hs : sl.starts = false)
    (h : ∀ t ∈ s.sup.tests, Super.sameTest sl.kind sl.target.toNat t = false ∨ t.running = false) :
    Super.slice sl s = s := by
  have none : (s.sup.tests.find? fun t => Super.sameTest sl.kind sl.target.toNat t && t.running) = none := by
    simpa [imp_iff_not_or] using h
  refine (if_neg (by simp [hs])).trans ?_
  simp [Super.sliceEnd, none]

/-- The outcome of a test of `sl` whose last slice is number `k`: pass, fail, or incomplete (R479). -/
def testOutcome (sl : Slice) (k : Nat) : Nat :=
  if !(k == sl.wantSlices.toNat && sl.coverage == sl.wantCoverage) then 2 else if sl.misr = sl.wantMisr then 0 else 1

/-- What a test of `sl` leaves at the end of its slice number `k` when its result is `outcome` (R479, R482). -/
def testOver (sl : Slice) (k outcome : Nat) (s : State) : State :=
  let back := Super.giveBack sl.kind sl.target.toNat s
  let x := Super.setTests (back.sup.tests.filter fun x => !Super.sameTest sl.kind sl.target.toNat x) back
  Super.result sl.kind sl.target.toNat outcome k sl.coverage.toNat sl.misr.toNat sl.wantMisr.toNat
    (if sl.kind = .engine then Engines.setPhys sl.target.toNat 1 x else x)

section

variable {t : TestRun} (hs : sl.starts = false)
  (ht : (s.sup.tests.find? fun x => Super.sameTest sl.kind sl.target.toNat x && x.running) = some t)
include hs ht

theorem slice_goes_on (hl : sl.last = false) : Super.slice sl s =
    let back := Super.giveBack sl.kind sl.target.toNat s
    Super.setTests (back.sup.tests.map fun x => if Super.sameTest sl.kind sl.target.toNat x then
      { x with running := false, slices := t.slices + 1 } else x) back := by
  simp [Super.slice, hs, Super.sliceEnd, ht, hl]

/-- The last slice of a test, by the outcome. -/
theorem slice_last (hl : sl.last = true) : Super.slice sl s =
    match testOutcome sl (t.slices + 1), Super.testChannel sl.kind sl.target.toNat sl.position with
      | 1, some c => Ops.observe c (testOver sl (t.slices + 1) (testOutcome sl (t.slices + 1)) s)
      | _, _ => testOver sl (t.slices + 1) (testOutcome sl (t.slices + 1)) s := by
  refine (if_neg (by simp [hs])).trans ?_
  simp only [Super.sliceEnd, ht]
  exact if_neg (by simp [hl])

theorem slice_passes (hl : sl.last = true) (hw : t.slices + 1 = sl.wantSlices.toNat ∧ sl.coverage = sl.wantCoverage)
    (hm : sl.misr = sl.wantMisr) : Super.slice sl s = testOver sl (t.slices + 1) 0 s := by
  have pass : testOutcome sl (t.slices + 1) = 0 := by simp [testOutcome, hw, hm]
  rw [slice_last hs ht hl, pass]
  rfl

theorem slice_fails (hl : sl.last = true) (hw : t.slices + 1 = sl.wantSlices.toNat ∧ sl.coverage = sl.wantCoverage)
    (hm : sl.misr ≠ sl.wantMisr) : Super.slice sl s =
      match Super.testChannel sl.kind sl.target.toNat sl.position with
      | some c => Ops.observe c (testOver sl (t.slices + 1) 1 s)
      | none => testOver sl (t.slices + 1) 1 s := by
  have fail : testOutcome sl (t.slices + 1) = 1 := by simp [testOutcome, hw, hm]
  rw [slice_last hs ht hl, fail]
  cases Super.testChannel sl.kind sl.target.toNat sl.position <;> rfl

theorem slice_incomplete (hl : sl.last = true) (hw : ¬ (t.slices + 1 = sl.wantSlices.toNat ∧ sl.coverage = sl.wantCoverage)) :
    Super.slice sl s = testOver sl (t.slices + 1) 2 s := by
  have short : testOutcome sl (t.slices + 1) = 2 := if_pos (by simpa [imp_iff_not_or] using hw)
  rw [slice_last hs ht hl, short]
  rfl

end

end

/-! ### The lendable banks (R481, R482) -/

theorem chapterWrite_lendable {t : Transport} {m : List Byte} (u : State) : Dict.chapterWrite t 0xA000 4 m u =
    some (Super.writeLendable m u) := rfl

/-- Settles O10: the ends of a step of Survey, of a slice, and of a write of the lendable banks. -/
theorem surveyAndSelfTest : Obligations.SurveyAndSelfTest := by
  unfold Obligations.SurveyAndSelfTest
  refine ⟨?survey, ?slices, ?lendable⟩
  case survey =>
    intro s f ha hm
    have counts := fun ht hw hk => surveyStep_counts (f := f) (s := Ops.begin s) hm ht hw hk
    refine ⟨fun h => run_awake_of ha (surveyStep_waits (s := Ops.begin s) h), fun ht hw => ⟨fun hk hf => ?_, fun hk hf => ?_,
      fun hk hf => ?_, fun hk hf => ?_⟩⟩
    · exact run_awake_of ha ((counts ht hw (Nat.lt_succ_of_lt hk)).trans
        ((if_neg fun h => by simp [hf h.1] at h).trans (if_pos hk)))
    · exact run_awake_of ha ((counts ht hw (hk.trans_lt (by decide))).trans (if_pos ⟨hk, by simp [hf]⟩))
    · refine run_awake_of ha ((counts ht hw (hk.trans_lt (by decide))).trans ((if_neg fun h => ?_).trans
        ((if_neg (Nat.not_lt.mpr hk.ge)).trans (if_pos (by simp [hf])))))
      exact absurd (hk.symm.trans h.1) (by decide)
    · refine run_awake_of ha ((counts ht hw (hk.trans_lt (by decide))).trans ((if_neg fun h => ?_).trans
        ((if_neg (Nat.not_lt.mpr hk.ge)).trans (if_neg (by simp [hf])))))
      exact absurd (hk.symm.trans h.1) (by decide)
  case slices =>
    intro s sl ha
    refine ⟨fun hs hm hn => ?_, fun hs h => ?_, fun hs h => ?_, fun t hs ht => ⟨fun hl => ?_, fun hl hw hm => ?_,
      fun hl hw hm => ?_, fun hl hw => ?_⟩⟩
    · exact run_awake_of ha (slice_starts (s := Ops.begin s) hs hm (runs_none hn))
    · exact run_awake_of ha (slice_spurned (s := Ops.begin s) hs h)
    · exact run_awake_of ha (slice_idle (s := Ops.begin s) hs h)
    · exact run_awake_of ha (slice_goes_on (s := Ops.begin s) hs ht hl)
    · exact run_awake_of ha (slice_passes (s := Ops.begin s) hs ht hl hw hm)
    · exact run_awake_of ha (slice_fails (s := Ops.begin s) hs ht hl hw hm)
    · exact run_awake_of ha (slice_incomplete (s := Ops.begin s) hs ht hl hw)
  case lendable =>
    intro s t m hw
    refine ⟨fun hl => run_write hw (by decide) (by decide) ?_, fun hl => run_refused hw (by decide) (by decide) ?_⟩
    · exact (chapterWrite_lendable _).trans (congrArg some ((if_neg (not_not.mpr hl)).trans (by simp)))
    · exact (chapterWrite_lendable _).trans (congrArg some (if_pos hl))

end Sys2Proof.Laws
end

section
/-!
SUPPORT. The sealed command, whatever its inner write (R425, R426).
-/

namespace Sys2Proof.Laws

open Sys2Proof Sys2Proof.Machine Sys2Proof.Safety

section

variable {s : State} {t : Transport} {slot : Fin 4} {sig : List Byte} {i k : Nat} {v d : List Byte}

/-! ### What a write of 0xC040.02 comes to -/

theorem execute_sealed (h : Accepts (counted s) 0xC040 2 d = true) :
    Dict.execute t 2 0xC040 2 d (counted s) = Dict.sealedWrite t d (counted s) := by
  simp [Dict.execute, write_sealed h]

/-- The length that the fields of a sealed command give it (R425). -/
def SealedLength (d : List Byte) : Prop := d.length = 424 + Dict.field d 36 4 ∧ Dict.field d 36 4 ≤ 1024

theorem sealedWrite_length (h : ¬ SealedLength d) :
    Dict.sealedWrite t d (counted s) = (some (4, []), opened s) :=
  if_pos (by rw [SealedLength] at h; omega)

theorem sealedWrite_long (h : SealedLength d) : Dict.sealedWrite t d (counted s) =
    if (opened s).sup.blowing.isSome then (some (5, []), opened s)
    else match Dict.sealChecks d (counted s) with
      | some c => Dict.sealFailed c 8 (opened s)
      | none =>
        match Dict.innerWrite t (Dict.field d 32 2) (Dict.field d 34 1) ((d.drop 40).take (Dict.field d 36 4)) (opened s) with
        | .inl e => Dict.sealFailed 8 e (opened s)
        | .inr x => if x.sup.blowing.isSome then (none, x) else (some (0, []), Ops.setReg 0xC040 3 1 x) :=
  if_neg (by rw [SealedLength] at h; omega)

theorem sealedWrite_busy (h : SealedLength d) (hb : s.sup.blowing ≠ none) :
    Dict.sealedWrite t d (counted s) = (some (5, []), opened s) :=
  (sealedWrite_long h).trans (if_pos (Option.isSome_iff_ne_none.mpr hb))

theorem sealedWrite_fails (h : SealedLength d) (hb : s.sup.blowing = none) {c : Nat}
    (hc : Dict.sealChecks d (counted s) = some c) :
    Dict.sealedWrite t d (counted s) = Dict.sealFailed c 8 (opened s) := by
  have idle : (opened s).sup.blowing.isSome = false := congrArg Option.isSome hb
  rw [sealedWrite_long h, idle, hc]
  rfl

/-! ### The replies -/

/-- A write of 0xC040.02 that is answered with an error. -/
theorem run_sealed_fails {x : State} {e : Nat} (h : Writes s t 0xC040 2 d)
    (he : Dict.sealedWrite t d (counted s) = (some (e, []), x)) :
    Run.run (Dict.serve t 2 0xC040 2 d) s = .next (after s (answered s t 2 0xC040 2 d e [] x)) :=
  run_awake_of h.toAwake (serve_answers h.served ((execute_sealed h.accepted).trans he))

/-- A sealed command whose inner write starts a blow is not answered yet (R491). -/
theorem run_sealed_held (h : Seals s t slot sig i k v) {x : State} (he : Dict.innerWrite t i k v (opened s) = .inr x)
    (hb : x.sup.blowing ≠ none) :
    Run.run (Dict.serve t 2 0xC040 2 (Dict.sealedBlob s slot i k v sig)) s = .next (after s x) := by
  have waits : Dict.execute t 2 0xC040 2 (Dict.sealedBlob s slot i k v sig) (counted s) = (none, x) := by
    simp [Dict.execute, sealed_write h he, Option.isSome_iff_ne_none, hb]
  exact run_awake_of h.toAwake (serve_waits h.served waits)

/-- One whose inner write fails answers with the error of that write (R426, check 8). -/
theorem run_sealed_inner_fails (h : Seals s t slot sig i k v) {e : Nat}
    (he : Dict.innerWrite t i k v (opened s) = .inl e) :
    Run.run (Dict.serve t 2 0xC040 2 (Dict.sealedBlob s slot i k v sig)) s = .next (spurned s t slot sig i k v e) :=
  run_awake_of h.toAwake (serve_answers h.served ((execute_sealed h.accepted).trans (sealedWrite_refused h he)))

end

/-- Settles O59: a sealed command by its inner write, and by the check that it fails. -/
theorem sealedCommands : Obligations.SealedCommands := by
  unfold Obligations.SealedCommands
  intro s t slot sig i k v d
  refine ⟨fun x h he => ⟨run_sealed h he, run_sealed_held h he⟩, fun e h he => run_sealed_inner_fails h he,
    fun h => ⟨fun hl => ?short, fun hl hb => ?busy, fun c hl hb hc => ?checks⟩, rfl, rfl⟩
  case short => exact run_sealed_fails h (sealedWrite_length hl)
  case busy => exact run_sealed_fails h (sealedWrite_busy hl hb)
  case checks => exact run_sealed_fails h (sealedWrite_fails hl hb hc)

end Sys2Proof.Laws
end

section
/-!
SUPPORT. Fault windows, retries, retirement requests, and the fusing of repairs (R483 to R491).
-/

namespace Sys2Proof.Laws

open Sys2Proof Sys2Proof.Machine Sys2Proof.Safety

/-! ### Fault windows (R483, R484, R488) -/

section

variable {s : State} {ch : FaultChannel}

/-- The retries of a fault window come 1, 4 and 16 ms after its opening. -/
theorem retry_times {k : Nat} : [1, 4, 16].getD k 0 = if k < 3 then 4 ^ k else 0 := by
  match k with
  | 0 | 1 | 2 => rfl
  | k + 3 => simp

theorem retry_unwatched (h : s.sup.watches.find? (fun x => x.entry == Super.entryOf ch) = none) (again : Bool) :
    Super.retry ch again s = s := by
  simp [Super.retry, h]

theorem windowClose_unwatched (h : s.sup.watches.find? (fun x => x.entry == Super.entryOf ch) = none) :
    Super.windowClose ch s = s := by
  simp [Super.windowClose, h]

section

variable {w : Watch} (hw : s.sup.watches.find? (fun x => x.entry == Super.entryOf ch) = some w)
include hw

theorem retry_early (h : ¬ (w.retries < 3 ∧ w.opened + 4 ^ w.retries * 16000000 ≤ (Ops.launch s).toNat)) (again : Bool) :
    Super.retry ch again s = s := by
  simp only [Super.retry, hw, retry_times, Super.ms]
  refine if_pos ?_
  split <;> simp_all

theorem retry_due (h : w.retries < 3 ∧ w.opened + 4 ^ w.retries * 16000000 ≤ (Ops.launch s).toNat) (again : Bool) :
    Super.retry ch again s =
      if again then Super.permanent (Super.entryOf ch) (w.retries + 1) s
      else { s with sup := { s.sup with watches := s.sup.watches.map fun (x : Watch) =>
          if x.entry = (Super.entryOf ch) then { x with retries := x.retries + 1 } else x } } := by
  simp only [Super.retry, hw, retry_times, if_pos h.1, Super.ms]
  exact if_neg (by simp [h.2])

theorem windowClose_early (h : ¬ w.opened + Ops.reg s 0xA010 1 * 16000000 ≤ (Ops.launch s).toNat) :
    Super.windowClose ch s = s := by
  simp only [Super.windowClose, hw, Super.ms]
  exact if_pos (Nat.lt_of_not_le h)

theorem windowClose_due (h : w.opened + Ops.reg s 0xA010 1 * 16000000 ≤ (Ops.launch s).toNat) :
    Super.windowClose ch s = Ops.raise 371 (Super.recordFault (Super.entryOf ch) 0 w.retries (Ops.bump 0xA010 2
      { s with sup := { s.sup with watches := s.sup.watches.filter fun x => x.entry != Super.entryOf ch } })) := by
  simp only [Super.windowClose, hw, Super.ms]
  exact if_neg h.not_gt

end

/-- An observation counts for the bank where no spare is left for its column (R484). -/
theorem observed_eq (e : Nat) (s : State) :
    let c := if Super.kind e = 1 ∧ Super.freeSpare s (Super.unit e) = none then Ops.channel 2 (Super.unit e) 0 else e
    Super.observed e s = if Super.gone s c then s else
      match s.sup.watches.find? fun w => w.entry == c with
      | some w => Super.permanent c w.retries s
      | none => { s with sup := { s.sup with
          watches := s.sup.watches ++ [{ entry := c, opened := (Ops.launch s).toNat, retries := 0 }] } } := by
  simp only [Super.observed, Option.isNone_iff_eq_none] <;> rfl

end

/-! ### Retirement requests (R488) -/

theorem gone_counted (s : State) (e : Nat) : Super.gone (counted s) e = Super.gone s e := by
  have steering : ∀ n, Super.steerings (counted s) n = Super.steerings s n := fun n => by
    have kept : Ops.reg (counted s) (0x4800 + n) 9 = Ops.reg s (0x4800 + n) 9 := reg_counted (by omega) s
    simp only [Super.steerings, kept]
    rfl
  simp only [Super.gone, steering]
  rfl

/-- A request that names no channel which could be retired, as `Super.retireRequest` tests it. -/
theorem retireRequest_eq (e : Nat) (s : State) :
    let c := Ops.channel (Super.kind e) (Super.unit e) (if Super.kind e = 1 then Super.position e else 0)
    Super.retireRequest e (counted s) =
      if Super.outOfRange e = true ∨ Super.gone s c = true ∨
        Super.kind e = 3 ∧ Super.lastEngine s (Super.unit e) = true then .inl 4
      else .inr (Super.permanent c 0 (counted s)) := by
  simp only [Super.retireRequest, gone_counted, Bool.or_eq_true, Bool.and_eq_true, beq_iff_eq, or_assoc]
  rfl

theorem chapterWrite_retire (t : Transport) (v : W64) (s : State) : Dict.chapterWrite t 0xA010 5 (le 8 v.toNat) s =
    some (Super.retireRequest v.toNat s) := by
  have value : Ops.le (le 8 v.toNat) = v.toNat := le_bytes_lt v.isLt
  show some (Super.retireRequest (Ops.le (le 8 v.toNat)) s) = _
  rw [value]

/-! ### Permanent faults (R483, R485, R487, R489) -/

section

variable {e o : Nat} {s : State}

theorem retire_column (h : Super.kind e = 1) (hr : (Ops.bank s (Super.unit e)).rebuild = none) :
    Super.retire e o s = Super.retireColumn (Super.unit e) (Super.position e) o s := by
  simp [Super.retire, h, hr]

theorem retire_waits (h : Super.kind e = 1) (hr : (Ops.bank s (Super.unit e)).rebuild ≠ none) :
    Super.retire e o s = { s with sup := { s.sup with waiting := s.sup.waiting ++ [Super.withOrigin e o] } } := by
  simp [Super.retire, h, Option.isSome_iff_ne_none, hr]

end

/-! ### Fusing a repair (R489 to R491) -/

/-- What keeps a repair in force from being fused for now. -/
def FuseBusy (s : State) (e : Nat) : Prop :=
  Super.warned s = true ∨ s.sec.revoking ≠ [] ∨ Super.kind e = 1 ∧ (Ops.bank s (Super.unit e)).rebuild ≠ none

theorem fuse_absent {s : State} {e : Nat} (h : Super.matching s e = none) (t : Transport) : Super.fuse t e s = .inl 4 := by
  simp [Super.fuse, h]

section

variable {s : State} {t : Transport} {e x : Nat} (hm : Super.matching s e = some x)
include hm

theorem fuse_refused (h : Super.origin x = 2 ∨ Super.kind e = 6 ∨ Super.freeRows s = 0) : Super.fuse t e s = .inl 4 := by
  simp only [Super.fuse, hm]
  exact if_pos h

theorem fuse_eq (h : ¬ (Super.origin x = 2 ∨ Super.kind e = 6 ∨ Super.freeRows s = 0)) (hb : s.sup.blowing = none) :
    (FuseBusy s e → Super.fuse t e s = .inl 5) ∧
    (¬ FuseBusy s e → Super.fuse t e s = .inr { s with sup := { s.sup with blowing := some (x, t) } }) := by
  have busy : (Super.warned s || s.sup.blowing.isSome || !s.sec.revoking.isEmpty ||
      (Super.kind e == 1 && (Ops.bank s (Super.unit e)).rebuild.isSome)) = true ↔ FuseBusy s e := by
    simp [FuseBusy, hb, Option.isSome_iff_ne_none, or_assoc]
  simp only [Super.fuse, hm, if_neg h]
  exact ⟨fun hf => if_pos (busy.mpr hf), fun hf => if_neg (mt busy.mp hf)⟩

end

theorem chapterWrite_fuse (t : Transport) (v : W64) (s : State) : Dict.chapterWrite t 0xA030 5 (le 8 v.toNat) s =
    some (Super.fuse t v.toNat s) := by
  have value : Ops.le (le 8 v.toNat) = v.toNat := le_bytes_lt v.isLt
  show some (Super.fuse t (Ops.le (le 8 v.toNat)) s) = _
  rw [value]

section

variable {s : State} {t : Transport}

theorem fuseDone_idle (h : s.sup.blowing = none) : Transports.fuseDone s = s := by
  simp [Transports.fuseDone, h]

theorem fuseDone_blown {x : Nat} (h : s.sup.blowing = some (x, t)) :
    Transports.fuseDone s = Transports.fuseReply t 0 (Ops.setReg 0xC040 3 1 (Super.blown x s)) := by
  simp [Transports.fuseDone, h]

theorem fuseCut_spoils {x : Nat} (h : s.sup.blowing = some (x, t)) :
    Transports.fuseCut s = Transports.fuseReply t 5 (Ops.raise 421 (Ops.setReg 0xC040 3 8 (Super.spoil s))) := by
  simp [Transports.fuseCut, h]

end

/-- Settles O57: a watch by its retries and its close, a permanent fault by the kind of its channel, and a fuse repair by its
checks and by the end of its blow. -/
theorem faultsAndRepairs : Obligations.FaultsAndRepairs := by
  unfold Obligations.FaultsAndRepairs
  refine ⟨?windows, ?permanent, ?fuses⟩
  case windows =>
    intro s ch
    refine ⟨fun ha hn => ⟨fun b => ?_, ?_⟩, fun w ha hw => ⟨fun hd => ⟨?_, ?_⟩, fun hd b => ?_, fun hc => ?_, fun hc => ?_⟩,
      ⟨fun hg => ?_, fun hg hn => ?_, fun w hg hh => ?_⟩, fun t v hw => ⟨fun hb => ?_, fun hb => ?_⟩⟩
    · exact run_awake_of ha (retry_unwatched (s := Ops.begin s) hn b)
    · exact run_awake_of ha (windowClose_unwatched (s := Ops.begin s) hn)
    · exact run_awake_of ha (retry_due (s := Ops.begin s) hw hd true)
    · exact run_awake_of ha (retry_due (s := Ops.begin s) hw hd false)
    · exact run_awake_of ha (retry_early (s := Ops.begin s) hw hd b)
    · exact run_awake_of ha (windowClose_due (s := Ops.begin s) hw hc)
    · exact run_awake_of ha (windowClose_early (s := Ops.begin s) hw hc)
    · exact (observed_eq _ s).trans (if_pos hg)
    · exact (observed_eq _ s).trans ((if_neg (by simp [hg])).trans (by rw [hn]))
    · exact (observed_eq _ s).trans ((if_neg (by simp [hg])).trans (by rw [hh]))
    · exact operands_taken rfl hw (by decide) (by decide)
        ((chapterWrite_retire t v _).trans (congrArg some ((retireRequest_eq _ s).trans (if_neg hb))))
    · exact operands_refused rfl hw (by decide) (by decide)
        ((chapterWrite_retire t v _).trans (congrArg some ((retireRequest_eq _ s).trans (if_pos hb))))
  case permanent =>
    intro s e k
    refine ⟨rfl, fun h => ?_, fun h => ?_, fun h => ?_, fun h => ?_, fun h => ?_, retire_waits, fun h hr =>
      ⟨fun hf => ?_, fun j hf => ?_⟩⟩
    iterate 5 simp only [Super.retire, h, Nat.one_mul]
    · rw [retire_column h hr, Super.retireColumn, hf, Nat.one_mul]
    · rw [retire_column h hr, Super.retireColumn, hf, Nat.one_mul]
  case fuses =>
    intro s t slot sig v
    refine ⟨fun hs => ⟨fun hm => ?_, fun x hm => ⟨fun hr => ?_, fun hr hb => ?_, fun hr hb => ?_⟩⟩, fun ha hb => ?_,
      fun x hb => ⟨fun ha => ?_, fuseCut_spoils hb⟩, fun x => ⟨fun hk => ?_, fun hk => ?_⟩⟩
    · exact sealed_spurned hs ((chapterWrite_fuse t v _).trans (congrArg some (fuse_absent (s := opened s) hm t)))
    · exact sealed_spurned hs ((chapterWrite_fuse t v _).trans (congrArg some (fuse_refused (s := opened s) hm hr)))
    · exact sealed_spurned hs ((chapterWrite_fuse t v _).trans
        (congrArg some ((fuse_eq (s := opened s) hm hr hs.idle).1 hb)))
    · have starts : Dict.innerWrite t 0xA030 5 (le 8 v.toNat) (opened s) = _ := inner_accepted hs
        ((chapterWrite_fuse t v _).trans (congrArg some ((fuse_eq (s := opened s) hm hr hs.idle).2 hb)))
      exact (run_sealedPut hs).trans (run_sealed_held hs starts (by simp))
    · exact run_awake_of ha (fuseDone_idle (s := Ops.begin s) hb)
    · exact run_awake_of ha (fuseDone_blown (s := Ops.begin s) hb)
    · exact congrArg (Ops.raise 374) (if_neg hk)
    · exact congrArg (Ops.raise 374) (if_pos hk)

end Sys2Proof.Laws
end

section
/-!
SUPPORT. A request to the dictionary by the check that it fails, and what one answers that fails none (R403 to R411).
-/

namespace Sys2Proof.Laws

open Sys2Proof Sys2Proof.Machine Sys2Proof.Safety

/-! ### READ and DESCRIBE (R403, R405, R408, R410) -/

section

variable {s : State} {t : Transport} {i k : Nat} {x : Row}

theorem read_absent (hr : Dict.row s i k = none) : Dict.read t i k s = (.inl 1, s) := by
  simp [Dict.read, hr]

theorem read_writeOnly (hr : Dict.row s i k = some x) (ha : x.acc = .wo) : Dict.read t i k s = (.inl 2, s) := by
  simp [Dict.read, hr, ha]

theorem read_unreachable (hr : Dict.row s i k = some x) (ha : x.acc ≠ .wo) (hm : Dict.reachable s x = false) :
    Dict.read t i k s = (.inl 3, s) := by
  simp [Dict.read, hr, ha, hm]

section

variable (h : Reads s t i k x) (hi : i < 0xF000)
include h hi

/-- A sub that is not a BLOB, or whose bytes are its number's, is read as a value. -/
theorem read_value (hb : k = 0 ∨ Objects.sizeOf x.ty ≠ none ∨
    Dict.blob (counted s) (Transports.context (counted s) t) i k = none) : Dict.read t i k (counted s) =
      (.inr (Dict.valueBytes x (Dict.value (counted s) (Transports.context (counted s) t) i k)),
        Dict.afterRead t i k (counted s)) := by
  have reached : Dict.reachable (counted s) x = true := h.reachable
  have value : (if k = 0 then none else if Objects.sizeOf x.ty = none then
      Dict.blob (counted s) (Transports.context (counted s) t) i k else none) = none := by
    rcases hb with hb | hb | hb <;> simp [hb]
  simp only [Dict.read, h.row, if_neg h.readable, reached, if_neg (Nat.not_le.mpr hi), value]
  rfl

section

variable (hz : Objects.sizeOf x.ty = none) (hk : k ≠ 0)
include hz hk

theorem read_blob {b : List Byte} (hb : Dict.blob (counted s) (Transports.context (counted s) t) i k = some (.inr b)) :
    Dict.read t i k (counted s) = (.inr b, Dict.afterRead t i k (counted s)) := by
  have reached : Dict.reachable (counted s) x = true := h.reachable
  simp only [Dict.read, h.row, if_neg h.readable, reached, if_neg (Nat.not_le.mpr hi), if_neg hk, if_pos hz, hb]
  rfl

theorem read_blob_fails {e : Nat} (hb : Dict.blob (counted s) (Transports.context (counted s) t) i k = some (.inl e)) :
    Dict.read t i k (counted s) = (.inl e, counted s) := by
  have reached : Dict.reachable (counted s) x = true := h.reachable
  simp only [Dict.read, h.row, if_neg h.readable, reached, if_neg (Nat.not_le.mpr hi), if_neg hk, if_pos hz, hb]
  rfl

end

end

theorem run_read_fails (h : Awake s) (hs : Served s t 1 i k []) {e : Nat} {y : State}
    (he : Dict.read t i k (counted s) = (.inl e, y)) :
    Run.run (Dict.serve t 1 i k []) s = .next (after s (answered s t 1 i k [] e [] y)) :=
  run_awake_of h (serve_answers hs (by simp [Dict.execute, he]))

theorem run_describe_absent (h : Awake s) (hs : Served s t 3 i k []) (hr : Dict.row (counted s) i k = none) :
    Run.run (Dict.serve t 3 i k []) s = .next (after s (answered s t 3 i k [] 1 [] (counted s))) :=
  run_awake_of h (serve_answers hs (by simp [Dict.execute, Dict.describe, hr]))

theorem run_describe (h : Awake s) (hs : Served s t 3 i k []) (hr : Dict.row (counted s) i k = some x) :
    Run.run (Dict.serve t 3 i k []) s =
      .next (after s (answered s t 3 i k [] 0 (Dict.description (counted s) x i k) (counted s))) :=
  run_awake_of h (serve_answers hs (by simp [Dict.execute, Dict.describe, hr]))

end

/-! ### WRITE (R403 to R405, R410) -/

section

variable {s : State} {t : Transport} {i k : Nat} {d : List Byte} {x : Row}

theorem write_absent (hr : Dict.row s i k = none) : Dict.write t i k d s = (some (1, []), s) := by
  simp [Dict.write, hr]

/-- A WRITE of a sub that exists goes through the checks of R410 in their order. -/
theorem write_row (hr : Dict.row s i k = some x) : Dict.write t i k d s =
    if Dict.badLength x d then (some (6, []), s)
    else if x.acc = .ro then (some (2, []), s)
    else if Dict.needsSeal s x i k (Ops.le d) || (x.own == .field && Dict.fieldLocked s) then (some (7, []), Dict.refuseOwner s)
    else if Dict.wrongMode s x then (some (3, []), s)
    else if 0xF000 ≤ i then (some ((Dict.writePublished i k d s).1, []), (Dict.writePublished i k d s).2)
    else if i = 0xC040 then Dict.sealedWrite t d s
    else match Dict.effect t x i k d s with
      | .inl e => (some (e, []), s)
      | .inr s => (some (0, []), s) := by
  rw [Dict.write, hr] <;> rfl

/-- Only a sealed command, or one with the field lock open, may write the sub (R404). -/
def OwnerRefuses (s : State) (x : Row) (i k : Nat) (d : List Byte) : Prop :=
  Dict.needsSeal s x i k (Ops.le d) = true ∨ x.own = .field ∧ Dict.fieldLocked s = true

theorem ownerRefuses_iff : (Dict.needsSeal s x i k (Ops.le d) || (x.own == .field && Dict.fieldLocked s)) = true ↔
    OwnerRefuses s x i k d := by
  simp [OwnerRefuses]

section

variable (hr : Dict.row s i k = some x)
include hr

theorem write_badLength (hl : Dict.badLength x d = true) : Dict.write t i k d s = (some (6, []), s) :=
  (write_row hr).trans (if_pos hl)

variable (hl : Dict.badLength x d = false)
include hl

theorem write_readOnly (ha : x.acc = .ro) : Dict.write t i k d s = (some (2, []), s) := by
  simp [write_row hr, hl, ha]

variable (ha : x.acc ≠ .ro)
include ha

theorem write_wrongOwner (ho : OwnerRefuses s x i k d) :
    Dict.write t i k d s = (some (7, []), Ops.raise 420 (Ops.bump 0x1100 5 s)) := by
  rw [write_row hr, hl, if_neg ha, if_pos (ownerRefuses_iff.mpr ho)]
  rfl

variable (ho : ¬ OwnerRefuses s x i k d)
include ho

theorem write_wrongMode (hm : Dict.wrongMode s x = true) : Dict.write t i k d s = (some (3, []), s) := by
  rw [write_row hr, hl, if_neg ha, if_neg (mt ownerRefuses_iff.mp ho), if_pos hm]
  rfl

/-- Step 7 of R410: a BOOL above 1, and a BLOB that does not fit. -/
theorem write_badValue (hm : Dict.wrongMode s x = false) (hi : i < 0xF000) (hc : i ≠ 0xC040)
    (hv : x.ty = .bool ∧ 1 < Ops.le d ∨ x.ty = .blob ∧ x.len < d.length ∧ ¬ (i = 0x6000 ∧ k = 3)) :
    Dict.write t i k d s = (some (4, []), s) := by
  have refused : Dict.effect t x i k d s = .inl 4 := by
    unfold Dict.effect
    rcases hv with hv | hv
    · rw [if_pos hv]
    · rw [if_pos hv, ite_self]
  rw [write_row hr, hl, if_neg ha, if_neg (mt ownerRefuses_iff.mp ho), hm, if_neg (Nat.not_le.mpr hi), if_neg hc, refused]
  rfl

end

theorem runTime_write_fails (h : Awake s) (hs : Served s t 2 i k d) {e : Nat} {y : State}
    (he : Dict.write t i k d (counted s) = (some (e, []), y)) :
    Run.runTime (Dict.serve t 2 i k d) s = .next (afterTime s (answered s t 2 i k d e [] y)) :=
  runTime_awake_of h (serve_answers hs (by simp [Dict.execute, he]))

theorem wrongMode_iff {u : State} : Dict.wrongMode u x = true ↔
    Dict.reachable u x = false ∨ x.acc = .rwh ∧ u.modes.cur ≠ .m1 ∧ u.modes.cur ≠ .m3 := by
  simp [Dict.wrongMode]

/-! ### A request that no one has made (R411, R415, R419, R427) -/

theorem serve_unmade {op : Nat} (hl : Transports.live s t = false)
    (hq : Transports.captured s t (Transports.names op i k d) = none) :
    Dict.serve t op i k d (Ops.begin s) = Ops.begin s := by
  have captured : Transports.captured (Ops.begin s) t (Transports.names op i k d) = none := by
    rw [← hq]
    cases t <;> rfl
  have live : Transports.live (Ops.begin s) t = false := by
    rw [← hl]
    cases t <;> rfl
  exact if_pos (by simp [captured, live])

end

/-- Settles O58: a request by the first check that it fails, or by what its chapter makes of it. -/
theorem requests : Obligations.Requests := by
  unfold Obligations.Requests
  intro s t i k d
  have sub : k ≠ 0 → k.toNat ≠ 0 := fun hk h => hk (BitVec.eq_of_toNat_eq h)
  refine ⟨fun x h hi hz => ?value, fun x h hi hz hk => ⟨fun b hb => ?blob, fun e hb => ?blobFails, fun hb => ?number⟩,
    fun ha hs => ⟨fun hr => ?unread, fun x hr hw => ?writeOnly, fun x hr hw hm => ?unreachable⟩,
    fun ha hs => ⟨run_describe_absent ha hs, fun x => run_describe ha hs⟩,
    fun x h hr hi hc he => ?stored, fun ha hs hr => ?absent, fun ha hs x hr => ⟨fun hl => ?length, fun hl hw => ?readOnly,
      fun hl hw ho => ?owner, fun hl hw ho hm => ?mode, fun hl hw ho hm hi hc hv => ?badValue⟩, fun e h hi hc he => ?refused,
    fun y h hi hc he => ?effect, fun x => wrongMode_iff, fun ha hl => ⟨fun hq => ?unmadeRead, fun hq => ?unmadeWrite,
      fun hq => ?unmadeDescribe⟩⟩
  case value => exact run_read h (read_value h hi (hz.symm.imp (congrArg BitVec.toNat) .inl))
  case blob => exact run_read h (read_blob h hi hz (sub hk) hb)
  case blobFails => exact run_read_fails h.toAwake h.served (read_blob_fails h hi hz (sub hk) hb)
  case number => exact run_read h (read_value h hi (.inr (.inr hb)))
  case unread => exact run_read_fails ha hs (read_absent hr)
  case writeOnly => exact run_read_fails ha hs (read_writeOnly hr hw)
  case unreachable => exact run_read_fails ha hs (read_unreachable hr hw hm)
  case stored => exact runTime_store h hi hc hr he
  case absent => exact runTime_write_fails ha hs (write_absent hr)
  case length => exact runTime_write_fails ha hs (write_badLength hr hl)
  case readOnly => exact runTime_write_fails ha hs (write_readOnly hr hl hw)
  case owner => exact runTime_write_fails ha hs (write_wrongOwner hr hl hw ho)
  case mode => exact runTime_write_fails ha hs (write_wrongMode hr hl hw ho hm)
  case badValue =>
    have same : i.toNat = 0x6000 ∧ k.toNat = 3 → i = 0x6000 ∧ k = 3 := fun ⟨h, g⟩ =>
      ⟨BitVec.eq_of_toNat_eq h, BitVec.eq_of_toNat_eq g⟩
    exact runTime_write_fails ha hs (write_badValue hr hl hw ho hm hi hc
      (hv.imp_right fun ⟨hb, hx, hn⟩ => ⟨hb, hx, mt same hn⟩))
  case refused => exact runTime_refused h hi hc he
  case effect => exact runTime_write h hi hc he
  case unmadeRead => exact run_awake_of ha (serve_unmade hl hq)
  case unmadeWrite => exact runTime_awake_of ha (serve_unmade hl hq)
  case unmadeDescribe => exact run_awake_of ha (serve_unmade hl hq)

end Sys2Proof.Laws
end

section
/-!
SUPPORT. The pins: their words and pads, their inputs, and the supply classes of their banks (R435 to R451, R462).
-/

namespace Sys2Proof.Laws

open Sys2Proof Sys2Proof.Machine Sys2Proof.Safety

/-! ### The state of a pin -/

@[simp] theorem pin_setPin (p : Nat) (x : Pin) (s : State) : Pins.pin (Pins.setPin p x s) p = x := Table.get_put_same _ _ _

/-- Whether a bank is present depends on the supply classes alone. -/
theorem present_of_vio {s t : State} (h : t.vio = s.vio) (p : Nat) : Pins.present t p = Pins.present s p := by
  simp only [Pins.present, Pins.vioClass, h]

/-- What a pin drops of its input is of no other part of the state (log entry 94). -/
theorem dropInput_frame (p : Nat) (s : State) :
    Pins.dropInput p s = { s with bridges := (Pins.dropInput p s).bridges, pinIn := (Pins.dropInput p s).pinIn } := by
  unfold Pins.dropInput
  dsimp only
  split <;> split <;> rfl

/-! ### The supervisor's record, which no pin's delivery touches -/

theorem sup_setOffer (src : Fabric.Source) (o : Offer) (s : State) : (Fabric.setOffer src o s).sup = s.sup := by
  unfold Fabric.setOffer
  cases src <;> rfl

theorem sup_pump (src : Fabric.Source) (s : State) : (Fabric.pump src s).sup = s.sup := by
  unfold Fabric.pump
  split
  · rfl
  · exact sup_setOffer _ _ s

theorem sup_offerIn (p : Nat) (b : Bool) (s : State) : (Pins.offerIn p b s).sup = s.sup := by
  unfold Pins.offerIn
  dsimp only
  split
  · rfl
  · split
    · exact sup_pump _ _
    · rfl

theorem sup_deliver (p : Nat) (s : State) : (Pins.deliver p s).sup = s.sup := by
  unfold Pins.deliver
  split
  · rfl
  · exact sup_offerIn _ _ s

theorem sup_apply (p v : Nat) (s : State) : (Pins.apply p v s).sup = s.sup := by
  unfold Pins.apply
  split
  · rfl
  · show (Pins.dropInput p _).sup = _
    rw [dropInput_frame]
    rfl

theorem sup_settle (p : Nat) (s : State) : (Pins.settle p s).sup = s.sup := by
  unfold Pins.settle
  split
  · rw [sup_deliver, sup_apply]
  · rfl

/-! ### The configuration word (R440 to R443, R448) -/

section

variable (p : Fin 384) (s : State)

theorem find_pin : Objects.find (0x9100 + p) = Objects.pins (0x9100 + p) := by
  have early : ¬ 0x9100 + p.val < 0x2000 := by omega
  have array : ¬ 0x9100 + p.val < 0x3000 := by omega
  have time : ¬ 0x9100 + p.val < 0x4000 := by omega
  have banks : ¬ 0x9100 + p.val < 0x5000 := by omega
  have queues : ¬ 0x9100 + p.val < 0x6000 := by omega
  have engines : ¬ 0x9100 + p.val < 0x7000 := by omega
  have lanes : ¬ 0x9100 + p.val < 0x8000 := by omega
  have host : ¬ 0x9100 + p.val < 0x9000 := by omega
  have here : 0x9100 + p.val < 0xA000 := by omega
  simp only [Objects.find, if_neg early, if_neg array, if_neg time, if_neg banks, if_neg queues, if_neg engines, if_neg lanes,
    if_neg host, if_pos here]

theorem size_pinConfig : Operands.size (0x9100 + p) 2 = 8 := by
  have common : ¬ 0x9100 + p.val = 0x9000 := by omega
  have here : 0x9100 ≤ 0x9100 + p.val ∧ 0x9100 + p.val < 0x9280 := by omega
  simp only [Operands.size, Objects.row, find_pin, Objects.pins, if_neg common, if_pos here]
  rfl

theorem chapterWrite_pin (t : Transport) (k : Nat) (d : List Byte) :
    Dict.chapterWrite t (0x9100 + p) k d s = Pins.writeSub (0x9100 + p) k (Ops.le d) s := by
  have modes : ¬ 0x9100 + p.val < 0x1010 := by omega
  have transports : ¬ (0x1100 ≤ 0x9100 + p.val ∧ 0x9100 + p.val < 0x1200) := by omega
  have supplies : ¬ 0x9100 + p.val < 0x2000 := by omega
  have regions : ¬ (0x2400 ≤ 0x9100 + p.val ∧ 0x9100 + p.val < 0x2800) := by omega
  have loader : ¬ 0x9100 + p.val < 0x3000 := by omega
  have select : ¬ (0x9100 + p.val = 0x3010 ∧ k = 3) := by omega
  have time : ¬ 0x9100 + p.val < 0x4000 := by omega
  have banks : ¬ 0x9100 + p.val < 0x5000 := by omega
  have queues : ¬ 0x9100 + p.val < 0x6000 := by omega
  have engines : ¬ 0x9100 + p.val < 0x7000 := by omega
  have lanes : ¬ 0x9100 + p.val < 0x8000 := by omega
  have host : ¬ 0x9100 + p.val < 0x9000 := by omega
  have here : 0x9100 + p.val < 0xA000 := by omega
  simp only [Dict.chapterWrite, if_neg modes, if_neg transports, if_neg supplies, if_neg regions, if_neg loader, if_neg select,
    if_neg time, if_neg banks, if_neg queues, if_neg engines, if_neg lanes, if_neg host, if_pos here]

theorem chapterWrite_pinConfig (t : Transport) (v : W64) :
    Dict.chapterWrite t (0x9100 + p) 2 (le 8 v.toNat) s = some (Pins.writeWord p v.toNat s) := by
  have here : ¬ 0x9100 + p.val < 0x9100 := by omega
  simp only [chapterWrite_pin, Pins.writeSub, if_neg here, Nat.add_sub_cancel_left, le_bytes_lt (n := 8) v.isLt]

end

section

variable {p v : Nat} {s : State}

theorem stored_counted (p : Nat) (s : State) : Pins.stored (counted s) p = Pins.stored s p := reg_counted (by omega) s

theorem writeWord_refused (h : Pins.owner (Pins.stored s p) = 2 ∨ Pins.badWord v = true) : Pins.writeWord p v s = .inl 4 := by
  unfold Pins.writeWord
  split
  · rfl
  · next ho => rw [if_pos (h.resolve_left ho)]

theorem writeWord_taken (h : ¬ (Pins.owner (Pins.stored s p) = 2 ∨ Pins.badWord v = true)) :
    Pins.writeWord p v s = .inr (Pins.settle p (Ops.setReg (0x9100 + p) 2 v s)) := by
  obtain ⟨ho, hb⟩ := not_or.mp h
  rw [Pins.writeWord, if_neg ho, if_neg hb]

/-- A word just stored takes effect at once, in M5 with the bank present, unless it is the one in effect (R442, R443). -/
theorem settle_setReg : Pins.settle p (Ops.setReg (0x9100 + p) 2 v s) =
    if s.modes.cur = .m5 ∧ Pins.present s p = true ∧ v ≠ Pins.active s p then
      Pins.deliver p (Pins.apply p v (Ops.setReg (0x9100 + p) 2 v s))
    else Ops.setReg (0x9100 + p) 2 v s := by
  have word : Pins.stored (Ops.setReg (0x9100 + p) 2 v s) p = v := reg_setReg_same _ _ _ _
  have now : (Ops.modeIn (Ops.setReg (0x9100 + p) 2 v s) [.m5] && Pins.present (Ops.setReg (0x9100 + p) 2 v s) p &&
      v != Pins.active (Ops.setReg (0x9100 + p) 2 v s) p) = true ↔
        s.modes.cur = .m5 ∧ Pins.present s p = true ∧ v ≠ Pins.active s p := by
    simp only [modeIn_cons, modeIn_nil, Bool.or_false, Bool.and_eq_true, beq_iff_eq, bne_iff_ne, and_assoc]
    rfl
  simp only [Pins.settle, word, now]

/-- A switch that changes the function latches the pad and forgets the sources (R448, R449). -/
theorem pin_switched (h : Pins.function v ≠ Pins.function (Pins.active s p)) : Pins.pin (Pins.apply p v s) p =
    { Pins.pin s p with
      latch := some ((Pins.pin s p).latch.getD (Pins.pad s p)), active := some v, srcA := {}, srcB := {}
      delivered := none } := by
  simp only [Pins.apply, if_neg h]
  show Pins.pin (Pins.dropInput p _) p = _
  rw [dropInput_frame]
  exact pin_setPin p _ s

theorem switchTime (h : Pins.function v ≠ Pins.function (Pins.active s p)) :
    Ops.reg (Pins.apply p v s) (0x9100 + p) 6 = Ops.time80Nat s.time.sec s.time.ns := by
  simp only [Pins.apply, if_neg h, reg_setReg_same]
  rw [dropInput_frame]
  rfl

theorem vio_apply (p v : Nat) (s : State) : (Pins.apply p v s).vio = s.vio := by
  unfold Pins.apply
  split
  · rfl
  · show (Pins.dropInput p _).vio = _
    rw [dropInput_frame]
    rfl

theorem pad_switched (h : Pins.function v ≠ Pins.function (Pins.active s p)) : Pins.pad (Pins.apply p v s) p =
    if Pins.present s p then (Pins.pin s p).latch.getD (Pins.pad s p) else none := by
  rw [Pins.pad, pin_switched h]
  show (if Pins.present (Pins.apply p v s) p then _ else none) = _
  rw [present_of_vio (vio_apply p v s)]

end

/-! ### The latch, and the tokens of the pin's sources (R445, R448) -/

section

variable {p : Nat} {s : State}

theorem latchRelease_due (hm : s.modes.cur = .m5) (hl : (Pins.pin s p).latch.isSome = true)
    (ht : Pins.hasToken (Pins.pin s p) = true) :
    Pins.latchRelease p s = Pins.sample p (Pins.setPin p { Pins.pin s p with latch := none } s) :=
  if_pos (by simp [hm, hl, ht])

theorem latchRelease_idle (h : ¬ (s.modes.cur = .m5 ∧ (Pins.pin s p).latch.isSome = true ∧
    Pins.hasToken (Pins.pin s p) = true)) : Pins.latchRelease p s = s :=
  if_neg (by simpa [and_assoc] using h)

theorem latchTimeout_token (hm : s.modes.cur = .m5) (hl : (Pins.pin s p).latch.isSome = true)
    (ht : Pins.hasToken (Pins.pin s p) = true) : Pins.latchTimeout p s = Pins.latchRelease p s :=
  (if_neg (by simp [hm, Option.isSome_iff_ne_none.mp hl])).trans (if_pos ht)

theorem latchTimeout_due (hm : s.modes.cur = .m5) (hl : (Pins.pin s p).latch.isSome = true)
    (ht : Pins.hasToken (Pins.pin s p) = false) : Pins.latchTimeout p s =
      Pins.sample p (Pins.cause p 2 (Ops.bump 0x9000 4 (Pins.setPin p { Pins.pin s p with latch := none } s))) :=
  (if_neg (by simp [hm, Option.isSome_iff_ne_none.mp hl])).trans (if_neg (by simp [ht]))

theorem latchTimeout_idle (h : ¬ (s.modes.cur = .m5 ∧ (Pins.pin s p).latch.isSome = true)) : Pins.latchTimeout p s = s :=
  if_pos (by simpa [imp_iff_not_or] using h)

end

section

variable {p : Fin 384} {s : State} {oe : Bool}

theorem outputToken_taken {w : Nat} (h : Fabric.captured s (if oe then .pinOe p else .pinOut p) = some w) :
    Pins.outputToken p oe s =
      Pins.sourceToken 0 0 p (fun y => if oe then { y with oe := some (w == 1) } else { y with val := some (w == 1) })
        (Fabric.setAck (if oe then .pinOe p else .pinOut p) true s) := by
  simp only [Pins.outputToken, Fin.ofNat_val_eq_self, h]

theorem outputToken_none (h : Fabric.captured s (if oe then .pinOe p else .pinOut p) = none) :
    Pins.outputToken p oe s = s := by
  simp only [Pins.outputToken, Fin.ofNat_val_eq_self, h]

end

/-! ### The input (R446, R451) -/

section

variable {p : Nat} {s : State}

theorem sample_off (h : Pins.sampling s p = false) : Pins.sample p s = s := if_pos (by simp [h])

theorem sampling_setPin {x : Pin} (h : x.active = (Pins.pin s p).active) :
    Pins.sampling (Pins.setPin p x s) p = Pins.sampling s p := by
  have word : Pins.active (Pins.setPin p x s) p = Pins.active s p := by simp [Pins.active, h]
  simp only [Pins.sampling, word]
  rfl

/-- A sample instant counts in M5, where the pin is sampled on instants (R446). -/
def Ticks (s : State) (p : Nat) : Prop :=
  s.modes.cur = .m5 ∧ Pins.sampling s p = true ∧ Pins.inMode (Pins.active s p) = true

theorem sampleTick_idle (h : ¬ Ticks s p) : Pins.sampleTick p s = s :=
  if_pos (by simpa [Ticks, imp_iff_not_or, or_assoc] using h)

theorem sampleTick_eq (h : Ticks s p) :
    let y := Pins.feed p (Pins.sample p s)
    Pins.sampleTick p s =
      if 2 ≤ Pins.owner (Pins.active y p) then y
      else if Bridges.room y (Pins.crossing p) then
        Pins.feed p (Bridges.capture (Pins.crossing p) (if Pins.ball y p then 1 else 0) y)
      else Pins.cause p 3 (Ops.bump 0x9000 5 y) :=
  if_neg (by obtain ⟨hm, hs, hi⟩ := h; simp [hm, hs, hi])

end

/-! ### The supply class of a bank (R435) -/

theorem vio_track (n : Nat) (b : Bool) (s : State) : (Ops.track n b s).vio = s.vio := by
  rw [(spares_track n b s).1]
  rfl

theorem vio_cause (p b : Nat) (s : State) : (Pins.cause p b s).vio = s.vio := by
  unfold Pins.cause Pins.trackGroup
  split
  · exact vio_track _ _ _
  · split
    · rfl
    · exact vio_track _ _ _

theorem vio_silence (k : Nat) (s : State) : (Pins.silence k s).vio = s.vio := by
  unfold Pins.silence
  split <;> rfl

/-- What a change of the class of bank k leaves before its pins follow. -/
def classMoved (k : Nat) (c : VioClass) (s : State) : State :=
  Pins.cause (48 * k) 4 (Pins.silence k (Bridges.follow { s with vio := Table.put (fun _ => .absent) s.vio k c }))

theorem vio_classMoved (k : Nat) (c : VioClass) (s : State) :
    (classMoved k c s).vio = Table.put (fun _ => .absent) s.vio k c := by
  rw [classMoved, vio_cause, vio_silence, show Bridges.follow _ = _ from BridgesOnly.follow _]

/-- The class gives no usable supply. -/
def ClassOff (c : VioClass) : Prop := c = .absent ∨ c = .outOfRange

theorem classOff_iff (c : VioClass) : (c == .absent || c == .outOfRange) = true ↔ ClassOff c := by
  simp [ClassOff]

theorem present_classMoved (k : Nat) (c : VioClass) (s : State) :
    Pins.present (classMoved k c s) (48 * k) = true ↔ ¬ ClassOff c := by
  simp [Pins.present, Pins.vioClass, vio_classMoved, ClassOff]

section

variable {k : Nat} {c : VioClass} {s : State}

theorem classChange_same (h : Pins.vioClass s k = c) : Pins.classChange k c s = s := if_pos h

theorem classChange_moves (h : Pins.vioClass s k ≠ c) : Pins.classChange k c s =
    if (Pins.vioClass s k == .absent || Pins.vioClass s k == .outOfRange) && Pins.present (classMoved k c s) (48 * k) then
      (Pins.inUse (classMoved k c s)).foldl (fun z p =>
        if p / 48 = k then
          let z := Pins.settle p z
          Pins.sample p (Pins.setPin p { Pins.pin z p with delivered := none } z)
        else z) (classMoved k c s)
    else classMoved k c s := if_neg h

theorem classChange_plain (h : Pins.vioClass s k ≠ c) (ho : ¬ ClassOff (Pins.vioClass s k) ∨ ClassOff c) :
    Pins.classChange k c s = classMoved k c s := by
  refine (classChange_moves h).trans (if_neg ?_)
  rw [Bool.and_eq_true, classOff_iff, present_classMoved]
  tauto

theorem classChange_returns (h : Pins.vioClass s k ≠ c) (ho : ClassOff (Pins.vioClass s k)) (hc : ¬ ClassOff c) :
    Pins.classChange k c s = (Pins.inUse (classMoved k c s)).foldl (fun z p =>
      if p / 48 = k then
        let z := Pins.settle p z
        Pins.sample p (Pins.setPin p { Pins.pin z p with delivered := none } z)
      else z) (classMoved k c s) := by
  refine (classChange_moves h).trans (if_pos ?_)
  rw [Bool.and_eq_true, classOff_iff, present_classMoved]
  exact ⟨ho, hc⟩

end

/-! ### The supervisor's release of a pin (R462) -/

theorem chapterWrite_pinRelease (t : Transport) (p : W16) (s : State) :
    Dict.chapterWrite t 0x1020 5 (le 2 p.toNat) s = some (Pins.releaseSupervisor p.toNat s) := by
  have value : Ops.le (le 2 p.toNat) = p.toNat := le_bytes_lt (n := 2) p.isLt
  show some (Pins.releaseSupervisor (Ops.le (le 2 p.toNat)) s) = _
  rw [value]

theorem stored_opened (p : Nat) (s : State) : Pins.stored (opened s) p = Pins.stored s p := stored_counted p s

/-- The word of a pin that has gone from the supervisor to the security processor: its owner, with no function. -/
def releasedWord (v : Nat) : Nat := Ops.clearBits v (0xF018000000000000 + 0x3FFFFC00) + 3 * 2 ^ 60 + 0x3FFFFC00

theorem releaseSupervisor_taken {p : Nat} {s : State} (hp : p < 384) (ho : Pins.owner (Pins.stored s p) = 2) :
    Pins.releaseSupervisor p s =
      .inr (Ops.raise 378 (Pins.settle p (Ops.setReg (0x9100 + p) 2 (releasedWord (Pins.stored s p)) s))) :=
  if_neg (by omega)

theorem blowing_released (p v : Nat) (s : State) :
    (Ops.raise 378 (Pins.settle p (Ops.setReg (0x9100 + p) 2 v s))).sup.blowing = s.sup.blowing := by
  rw [blowing_raise, sup_settle]
  rfl

/-- Settles O54: a pin by its word, its latch, its tokens and its input, a bank by its class, and the release of a pin. -/
theorem pins : Obligations.Pins := by
  unfold Obligations.Pins
  refine ⟨fun s t p => ⟨fun v hw => ?word, fun v => ?switch, fun ha => ?latch, fun oe ha => ?token, fun b ha => ?input,
    fun ha => ?instant⟩, fun s t => ⟨fun k c ha => ?vioClass, fun slot sig p hs => ?release⟩⟩
  case word =>
    refine ⟨fun hb => ?_, fun hb hn => ?_, fun hb hn => ?_⟩
    all_goals rw [← stored_counted] at hb
    · exact operands_refused (size_pinConfig p) hw (by omega) (by omega)
        ((chapterWrite_pinConfig p _ t v).trans (congrArg some (writeWord_refused hb)))
    · exact operands_taken (size_pinConfig p) hw (by omega) (by omega)
        ((chapterWrite_pinConfig p _ t v).trans
          (congrArg some ((writeWord_taken hb).trans (congrArg _ (settle_setReg.trans (if_neg hn))))))
    · exact operands_taken (size_pinConfig p) hw (by omega) (by omega)
        ((chapterWrite_pinConfig p _ t v).trans
          (congrArg some ((writeWord_taken hb).trans (congrArg _ (settle_setReg.trans (if_pos hn))))))
  case switch =>
    refine ⟨fun h => if_pos h, fun h => ?_⟩
    have pin := pin_switched h
    refine ⟨?_, ?_, ?_, ?_, switchTime h, pad_switched h⟩
    all_goals rw [pin]
  case latch =>
    refine ⟨fun ⟨hm, hl⟩ ht => ⟨?_, ?_⟩, fun ⟨hm, hl⟩ ht => ⟨?_, ?_⟩, fun h => ⟨?_, ?_⟩⟩
    · exact run_awake_of ha (latchRelease_due (s := Ops.begin s) hm hl ht)
    · exact run_awake_of ha ((latchTimeout_token (s := Ops.begin s) hm hl ht).trans
        (latchRelease_due (s := Ops.begin s) hm hl ht))
    · exact run_awake_of ha (latchRelease_idle (s := Ops.begin s) fun h => absurd (ht.symm.trans h.2.2) (by decide))
    · exact run_awake_of ha (latchTimeout_due (s := Ops.begin s) hm hl ht)
    · exact run_awake_of ha (latchRelease_idle (s := Ops.begin s) fun g => h ⟨g.1, g.2.1⟩)
    · exact run_awake_of ha (latchTimeout_idle (s := Ops.begin s) h)
  case token =>
    exact ⟨fun w hw => run_awake_of ha (outputToken_taken ((congrFun (captured_begin s) _).trans hw)),
      fun hn => run_awake_of ha (outputToken_none ((congrFun (captured_begin s) _).trans hn))⟩
  case input =>
    refine ⟨fun hs => run_awake_of ha (sample_off ?_), fun _ => run_awake_of ha rfl⟩
    exact (sampling_setPin (s := Ops.begin s) (x := { Pins.pin s p with level := b }) rfl).trans hs
  case instant =>
    refine ⟨fun h => ?_, fun h ho => ?_, fun h ho hr => ?_, fun h ho hr => ?_⟩
    · exact run_awake_of ha (sampleTick_idle (s := Ops.begin s) h)
    · exact run_awake_of ha ((sampleTick_eq (s := Ops.begin s) h).trans (if_pos ho))
    · exact run_awake_of ha ((sampleTick_eq (s := Ops.begin s) h).trans ((if_neg ho).trans (if_pos hr)))
    · exact run_awake_of ha ((sampleTick_eq (s := Ops.begin s) h).trans ((if_neg ho).trans (if_neg (by simp [hr]))))
  case vioClass =>
    refine ⟨fun h => ?_, fun h ho => ?_, fun h ho hc => ?_⟩
    · exact run_awake_of ha (classChange_same (s := Ops.begin s) h)
    · exact run_awake_of ha (classChange_plain (s := Ops.begin s) h ho)
    · exact run_awake_of ha (classChange_returns (s := Ops.begin s) h ho hc)
  case release =>
    refine ⟨fun hp ho => ?_, fun h => ?_⟩
    · rw [← stored_opened] at ho ⊢
      exact sealed_taken hs ((chapterWrite_pinRelease t p _).trans (congrArg some (releaseSupervisor_taken hp ho)))
        (blowing_released _ _ _)
    · rw [← stored_opened] at h
      exact sealed_spurned hs ((chapterWrite_pinRelease t p _).trans (congrArg some (if_pos h)))

end Sys2Proof.Laws
end

section
/-!
SUPPORT. A bank that is not On stays so, whatever is raised (R188, R189).
-/

namespace Sys2Proof.Laws

open Sys2Proof Sys2Proof.Machine Sys2Proof.Safety

/-- Every bank that is On in `t` is On in `s`. -/
def NoneWakes (s t : State) : Prop := ∀ n, Ops.power t n = .on → Ops.power s n = .on

namespace NoneWakes

variable {s t u : State} {n : Nat}

theorem refl (s : State) : NoneWakes s s := fun _ h => h

theorem trans (h : NoneWakes s t) (g : NoneWakes t u) : NoneWakes s u := fun n hn => h n (g n hn)

/-- A change of other fields. -/
theorem same (hb : t.banks = s.banks) (hp : t.bankBase = s.bankBase) : NoneWakes s t := fun n h => by
  rwa [Ops.power, Ops.bank, hb, hp] at h

theorem of_same (g : NoneWakes t u) (hb : t.banks = s.banks) (hp : t.bankBase = s.bankBase) : NoneWakes s u :=
  (same hb hp).trans g

theorem cond {c : Prop} [Decidable c] (h : NoneWakes s t) (g : NoneWakes t u) : NoneWakes s (if c then u else t) := by
  split
  · exact h.trans g
  · exact h

theorem either {c : Prop} [Decidable c] (h : NoneWakes s t) (g : NoneWakes s u) : NoneWakes s (if c then t else u) := by
  split
  · exact h
  · exact g

/-- A bank's record is replaced, and its power state is as before, or is not On. -/
theorem setBank {b : Bank} (h : b.power = (Ops.bank s n).power ∨ ∃ p, b.power = some p ∧ p ≠ .on) :
    NoneWakes s (Ops.setBank n b s) := fun m hm => by
  by_cases hn : m = n
  · subst hn
    rw [Ops.power, Ops.bank, Ops.setBank, Table.get_put_same] at hm
    rcases h with h | ⟨p, h, hp⟩
    · rw [h] at hm
      exact hm
    · rw [h] at hm
      exact absurd hm hp
  · rwa [Ops.power, Ops.bank, Ops.setBank, Table.get_put_other _ _ hn] at hm

theorem setCan (p : Nat) (c : CanPort) (s : State) : NoneWakes s (Ops.setCan p c s) := either (same rfl rfl) (same rfl rfl)

theorem wakeBank (n : Nat) (m : Bool) (s : State) : NoneWakes s (Ops.wakeBank n m s) := by
  have wakes : NoneWakes s (Ops.setPower n (.waking false 0) s) := setBank (.inr ⟨_, rfl, by decide⟩)
  unfold Ops.wakeBank
  split
  · exact either wakes (refl s)
  · exact either wakes (refl s)
  · exact refl s

theorem hold (n : Nat) (m : MaintReq) (s : State) : NoneWakes s (Ops.hold n m s) := by
  have joins : NoneWakes s (Ops.setBank n { Ops.bank s n with
      held := (Ops.bank s n).held ++ [{ m with after := (Ops.bank s n).leaving.isSome }] } s) := setBank (.inl rfl)
  exact joins.trans (wakeBank n true _)

section

variable {again : Nat → State → State} (ha : ∀ n s, NoneWakes s (again n s))
include ha

theorem level (n : Nat) (b : Bool) (s : State) : NoneWakes s (Ops.level again n b s) :=
  either (either (refl s) (ha n s)) (same rfl rfl)

theorem bankCause (n c : Nat) (s : State) : NoneWakes s (Ops.bankCause again n c s) := of_same (level ha _ _ _) rfl rfl

theorem claim (n : Nat) (s : State) : NoneWakes s (Ops.claim again n s) := by
  have returned : NoneWakes s (Ops.setBank n { Ops.bank s n with borrowed := false } s) := setBank (.inl rfl)
  exact either (returned.trans (of_same (ha 377 _) rfl rfl)) (refl s)

theorem noteAccess (n w : Nat) (v : BitVec 72) (a : Flags.Access) (s : State) :
    NoneWakes s (Ops.noteAccess again n w v a s) := by
  refine cond (cond (either (same rfl rfl) (either (same rfl rfl) (refl s))) ?_) ?_
  · exact of_same (bankCause ha n 1 _) rfl rfl
  · exact of_same (bankCause ha n 0 _) rfl rfl

theorem bankAccess (n : Nat) (q : BankReq) (f : BitVec 72) (s : State) : NoneWakes s (Ops.bankAccess again n q f s).1 := by
  simp only [Ops.bankAccess]
  exact of_same (noteAccess ha n _ _ _ _) rfl rfl

theorem toL0 (s : State) : NoneWakes s (Ops.toL0 again s) := by
  have back : NoneWakes s { s with host := { s.host with link := s.host.link &&& 0x11FF } } := same rfl rfl
  exact either ((back.trans (ha 400 _)).trans (ha 407 _)) (refl s)

theorem deliverMsix (v : Nat) (s : State) : NoneWakes s (Ops.deliverMsix again v s) :=
  either (same rfl rfl) (either (same rfl rfl) ((toL0 ha s).trans (same rfl rfl)))

theorem deliverEngine (e b : Nat) (s : State) : NoneWakes s (Ops.deliverEngine again e b s) := by
  have lost (u : State) : NoneWakes u (Ops.bump 0xB000 7 u) := same rfl rfl
  have access (n : Nat) (q : BankReq) : NoneWakes s (Ops.bankAccess again n q 0 (Ops.claim again n s)).1 :=
    (claim ha n s).trans (bankAccess ha n q 0 _)
  refine either (lost s) (either (either ((access _ _).trans (lost _)) (access _ _)) ?_)
  exact (claim ha _ s).trans (hold _ _ _)

theorem queueNotice (n p : Nat) (s : State) : NoneWakes s (Ops.queueNotice again n p s) :=
  either (refl s) (either (setCan p _ s) (of_same (ha 419 _) rfl rfl))

theorem deliver (n : Nat) (s : State) : NoneWakes s (Ops.deliver again n s) :=
  cond (cond (cond (cond (same rfl rfl) (deliverMsix ha _ _)) (deliverEngine ha _ _ _))
    ((queueNotice ha n 0 _).trans (queueNotice ha n 1 _))) (same rfl rfl)

end

theorem raiseTurns (k n : Nat) (s : State) : NoneWakes s (Ops.raiseTurns k n s) := by
  induction k generalizing n s with
  | zero => exact refl s
  | succ k ih => exact cond (same rfl rfl) (deliver ih n _)

theorem raise (n : Nat) (s : State) : NoneWakes s (Ops.raise n s) := raiseTurns 640 n s

end NoneWakes

/-! ### The array's turn (R178, R184) -/

section

variable {s : State} {n : Nat}

theorem runArray_asleep (h : Ops.power s n ≠ .on) (k : Nat) : Banks.runArray k n s = s := by
  cases k with
  | zero => rfl
  | succ k => exact if_pos (by simp [Ops.ready, h])

/-- The array has no turn in a bank that is not On. -/
theorem on_of_turn (h : Ops.power (Banks.turn n s) n = .on) : Ops.power s n = .on := by
  refine NoneWakes.claim NoneWakes.raise n s n ?_
  by_contra asleep
  rw [Banks.turn, runArray_asleep asleep] at h
  exact asleep h

theorem on_of_entered (h : Banks.entered s n = true) : Ops.power s n = .on := by
  simp only [Banks.entered, Ops.ready, Bool.and_eq_true, beq_iff_eq] at h
  obtain ⟨⟨⟨⟨on, -⟩, -⟩, -⟩, -⟩ := h
  exact on

theorem wakeBank_on (h : Ops.power s n = .on) (m : Bool) : Ops.wakeBank n m s = s := by
  simp [Ops.wakeBank, h]

theorem wakeComplete_on (h : Ops.power s n = .on) : Banks.wakeComplete n s = s := by
  simp [Banks.wakeComplete, h]

theorem refuses_on (h : Ops.power s n = .on) : Ops.refuses s n = false := by
  simp [Ops.refuses, h]

/-! ### One word access of the server (R184, R431) -/

section

variable {w : Nat} {op : BitVec 2} {d : W64}

theorem wordAccess_refused (hr : Ops.refuses s n = true) :
    Dict.wordAccess n w op d s = (.inl .data, Ops.refuse Ops.raise n s) := if_pos hr

theorem wordAccess_waits (hr : Ops.refuses s n = false)
    (he : Banks.entered (Banks.turn n (Banks.wakeComplete n (Ops.wakeBank n true (Banks.turn n s)))) n = false) :
    Dict.wordAccess n w op d s =
      (.inl .wait, Banks.turn n (Banks.wakeComplete n (Ops.wakeBank n true (Banks.turn n s)))) :=
  (if_neg (by simp [hr])).trans (if_pos (by simp [he]))

/-- A bank that the array's turn finds entered was On all along: the server neither wakes it nor waits for it. -/
theorem wordAccess_made {y : State} (hy : Banks.turn n (Banks.turn n s) = y) (he : Banks.entered y n = true)
    {p : State × Flags.Access}
    (hp : Ops.bankAccess Ops.raise n { op := op, addr := BitVec.ofNat 13 w, data := d } 0 y = p) :
    Dict.wordAccess n w op d s = (if p.2.bad then .inl .data else .inr p.2.data, p.1) := by
  subst hy hp
  have once : Ops.power (Banks.turn n s) n = .on := on_of_turn (on_of_entered he)
  simp only [Dict.wordAccess, refuses_on (on_of_turn once), wakeBank_on once, wakeComplete_on once, he]
  rfl

end

end

end Sys2Proof.Laws
end

section
/-!
SUPPORT. The publication table, and requests of the published objects (R401, R428 to R431).
-/

namespace Sys2Proof.Laws

open Sys2Proof Sys2Proof.Machine Sys2Proof.Safety

/-! ### The publication table (R428, R429) -/

theorem size_publication : ∀ e : Fin 128, Operands.size 0x1103 (1 + e) = 8 := by decide

theorem chapterWrite_publication (t : Transport) (e : Fin 128) (v : W64) (s : State) :
    Dict.chapterWrite t 0x1103 (1 + e) (le 8 v.toNat) s =
      some (if v.getLsbD 63 = true ∧ Dict.badEntry s e v.toNat = true then .inl 4
        else .inr (Ops.setReg 0x1103 (1 + e) v.toNat s)) := by
  have value : Ops.le (le 8 v.toNat) = v.toNat := le_bytes_lt v.isLt
  have inside : 1 + e.val ≤ 0x80 := by omega
  have shown : Dict.chapterWrite t 0x1103 (1 + e) (le 8 v.toNat) s =
      some (Dict.writePublication (1 + e) (Ops.le (le 8 v.toNat)) s) := rfl
  rw [shown, value, Dict.writePublication, if_pos inside, Nat.add_sub_cancel_left, Dict.valid, bit_toNat]
  simp only [Bool.and_eq_true]

/-! ### Requests of published subs (R401, R410, R430) -/

section

variable {s : State} {t : Transport} {j k : Nat} {d : List Byte} {x : Row}

theorem read_published (h : Reads s t j k x) (hj : 0xF000 ≤ j) :
    Dict.read t j k (counted s) = Dict.readPublished j k (counted s) := by
  have reached : Dict.reachable (counted s) x = true := h.reachable
  simp only [Dict.read, h.row, if_neg h.readable, reached, if_pos hj]
  rfl

theorem write_published (h : Accepts s j k d = true) (hj : 0xF000 ≤ j) :
    Dict.write t j k d s = (some ((Dict.writePublished j k d s).1, []), (Dict.writePublished j k d s).2) := by
  unfold Accepts at h
  cases hr : Dict.row s j k with
  | none => simp [hr] at h
  | some r =>
    simp only [hr, Bool.and_eq_true, Bool.not_eq_true', bne_iff_ne] at h
    obtain ⟨⟨⟨⟨⟨⟨length, access⟩, owner⟩, field⟩, mode⟩, -⟩, -⟩ := h
    simp only [write_row hr, length, owner, field, mode, if_neg access, if_pos hj]
    rfl

theorem run_read_published (h : Reads s t j k x) (hj : 0xF000 ≤ j) {b : List Byte} {y : State}
    (he : Dict.readPublished j k (counted s) = (.inr b, y)) :
    Run.run (Dict.serve t 1 j k []) s = .next (readOut s t j k b y) := run_read h ((read_published h hj).trans he)

theorem run_read_published_fails (h : Reads s t j k x) (hj : 0xF000 ≤ j) {e : Nat} {y : State}
    (he : Dict.readPublished j k (counted s) = (.inl e, y)) :
    Run.run (Dict.serve t 1 j k []) s = .next (after s (answered s t 1 j k [] e [] y)) :=
  run_read_fails h.toAwake h.served ((read_published h hj).trans he)

theorem run_write_published (h : Writes s t j k d) (hj : 0xF000 ≤ j) {e : Nat} {y : State}
    (he : Dict.writePublished j k d (counted s) = (e, y)) :
    Run.run (Dict.serve t 2 j k d) s = .next (after s (answered s t 2 j k d e [] y)) :=
  run_awake_of h.toAwake (serve_answers h.served (by simp [Dict.execute, write_published h.accepted hj, he]))

end

/-! ### The server's access to one word, by what the word holds (R184, R430, R431) -/

section

variable {s y : State} {n w : Nat} (hy : Banks.turn n (Banks.turn n s) = y) (he : Banks.entered y n = true)
include hy he

theorem wordAccess_bad (hb : (Ops.bankAccess Ops.raise n { op := 0, addr := BitVec.ofNat 13 w, data := 0 } 0 y).2.bad = true) :
    Dict.wordAccess n w 0 0 s =
      (.inl .data, (Ops.bankAccess Ops.raise n { op := 0, addr := BitVec.ofNat 13 w, data := 0 } 0 y).1) := by
  rw [wordAccess_made hy he rfl, if_pos hb]

variable (hw : w < 8192)
include hw

theorem wordAccess_get {x : W64} (hx : Ops.word y n w = Flags.encode x) :
    Dict.wordAccess n w 0 0 s = (.inr x, Ops.setWord n w (Flags.encode x) y) := by
  have here := bankAccess_get (n := n) (s := y) w (x := x) (by rwa [Nat.mod_eq_of_lt hw])
  rw [Nat.mod_eq_of_lt hw] at here
  exact wordAccess_made hy he here

/-- A write meets no error, whatever the word held. -/
theorem wordAccess_put (d : W64) : Dict.wordAccess n w 1 d s = (.inr 0, Ops.setWord n w (Flags.encode d) y) := by
  have here : Ops.bankAccess Ops.raise n { op := 1, addr := BitVec.ofNat 13 w, data := d } 0 y =
      (Ops.setWord n (BitVec.ofNat 13 w).toNat (Flags.encode d) y, ⟨Flags.encode d, 0, false, false⟩) := rfl
  rw [BitVec.toNat_ofNat, Nat.mod_eq_of_lt hw] at here
  exact wordAccess_made hy he here

theorem wordAccess_set {x : W64} (hx : Ops.word y n w = Flags.encode x) (d : W64) :
    Dict.wordAccess n w 2 d s = (.inr x, Ops.setWord n w (Flags.encode (x ||| d)) y) := by
  have here := bankAccess_set (again := Ops.raise) (k := n) (s := y) (a := w) (m := d) (w := x)
    (by rwa [Nat.mod_eq_of_lt hw])
  rw [Nat.mod_eq_of_lt hw] at here
  exact wordAccess_made hy he here

end

/-! ### Subs of one word (R430, R431) -/

theorem size_positive {y : Ty} {m : Nat} (h : Objects.sizeOf y = some m) : 0 < m := by
  cases y <;> simp only [Objects.sizeOf, reduceCtorEq, Option.some.injEq] at h <;> omega

/-- The types of at most 8 bytes are those up to I32 (R402). -/
theorem code_of_word {c m : Nat} (h : Objects.sizeOf (Dict.typeOf c) = some m) (h8 : m ≤ 8) : c < 7 := by
  unfold Dict.typeOf at h
  split at h
  all_goals simp only [Objects.sizeOf, reduceCtorEq, Option.some.injEq] at h
  all_goals omega

theorem length_of_sized {r : Row} {n : Nat} {d : List Byte} (hr : Objects.sizeOf r.ty = some n)
    (h : Dict.badLength r d = false) : d.length = n := by
  simp only [Dict.badLength, hr, Bool.or_eq_false_iff] at h
  simpa using h.2

/-- What a read of a sub of m bytes makes of the server's access to its word. -/
def wordRead (m : Nat) : (Dict.Trouble ⊕ W64) × State → (Nat ⊕ List Byte) × State
  | (.inl t, s) => (.inl (Dict.failed t s).1, Ops.bump 0x1103 0x82 (Dict.failed t s).2)
  | (.inr v, s) => (.inr ((le 8 v.toNat).take m), Ops.bump 0x1103 0x82 s)

/-- The access that sets the notice bit of entry e, after a write (R430). -/
def noticeAccess (e : Nat) (s : State) : (Dict.Trouble ⊕ W64) × State :=
  Dict.wordAccess (Ops.reg s 0x1103 0x81 / 8192 % 2048) (Ops.reg s 0x1103 0x81 % 8192 + e / 64) 2
    (BitVec.twoPow 64 (e % 64)) s

/-- How a write ends whose last access was `p`. -/
def wordWritten : (Dict.Trouble ⊕ W64) × State → Nat × State
  | (.inl t, s) => ((Dict.failed t s).1, Ops.bump 0x1103 0x82 (Dict.failed t s).2)
  | (.inr _, s) => (0, Ops.bump 0x1103 0x82 s)

/-- The same for a write whose access to its own word was the argument, and which then gives notice of entry e, or does not. -/
def wordWrite (e : Nat) (notice : Bool) : (Dict.Trouble ⊕ W64) × State → Nat × State
  | (.inl t, s) => wordWritten (.inl t, s)
  | (.inr v, s) => if notice then wordWritten (noticeAccess e s) else wordWritten (.inr v, s)

section

variable {s : State} {j k e m : Nat} {d : List Byte} (hk : k ≠ 0) (he : Dict.entryFor s j k = some e)
  (hm : Objects.sizeOf (Dict.typeOf (Dict.typeCode (Dict.entry s e))) = some m) (h8 : m ≤ 8)
include hk he hm

/-- What the checks of R410 let through to a sub of a fixed size: its length, and a BOOL that is 0 or 1. -/
theorem accepted_word (h : Accepts s j k d = true) (hj : 0xF000 ≤ j) :
    d.length = m ∧ ¬ (Dict.typeCode (Dict.entry s e) = 1 ∧ 1 < Ops.le d) := by
  unfold Accepts at h
  simp only [Dict.row, if_pos hj, Dict.publishedRow, if_neg hk, he, Option.map_some, Bool.and_eq_true, Bool.not_eq_true'] at h
  obtain ⟨⟨⟨⟨⟨⟨length, -⟩, -⟩, -⟩, -⟩, bool⟩, -⟩ := h
  refine ⟨?_, fun ⟨hc, hv⟩ => ?_⟩
  · exact length_of_sized hm length
  · change (Dict.typeOf _ == Ty.bool && decide (1 < Ops.le d)) = false at bool
    rw [hc] at bool
    simp [Dict.typeOf, hv] at bool

include h8

theorem readPublished_word : Dict.readPublished j k s =
    wordRead m (Dict.wordAccess (Dict.bankOf (Dict.entry s e)) (Dict.wordOf (Dict.entry s e)) 0 0 s) := by
  have one : (m + 7) / 8 = 1 := by have := size_positive hm; omega
  simp only [Dict.readPublished, if_neg hk, he, hm, one, Dict.readWords]
  rcases Dict.wordAccess (Dict.bankOf (Dict.entry s e)) (Dict.wordOf (Dict.entry s e)) 0 0 s with ⟨t | v, y⟩
  · rfl
  · rfl

section

variable (hl : d.length = m) (hb : ¬ (Dict.typeCode (Dict.entry s e) = 1 ∧ 1 < Ops.le d))
include hl hb

omit hk in
theorem writePublished_word : Dict.writePublished j k d s = wordWrite e (Dict.notify (Dict.entry s e))
    (Dict.wordAccess (Dict.bankOf (Dict.entry s e)) (Dict.wordOf (Dict.entry s e)) 1 (BitVec.ofNat 64 (Ops.le d)) s) := by
  have code := code_of_word hm h8
  have value : ¬ (Dict.typeCode (Dict.entry s e) = 1 ∧ 1 < Ops.le d ∨
      Dict.typeCode (Dict.entry s e) = 7 ∧ 999999999 < Ops.le (d.take 4)) := by omega
  have fixed : decide (Dict.typeCode (Dict.entry s e) < 8) = true := decide_eq_true (by omega)
  have one : (d.length + 7) / 8 = 1 := by have := size_positive hm; omega
  have whole : d.take 8 = d := List.take_of_length_le (by omega)
  simp only [Dict.writePublished, he, if_neg value, fixed, Bool.not_true, Bool.false_and, Bool.false_eq_true, if_false, if_true,
    one, Dict.writeWords, whole]
  rcases Dict.wordAccess (Dict.bankOf (Dict.entry s e)) (Dict.wordOf (Dict.entry s e)) 1 (BitVec.ofNat 64 (Ops.le d)) s
    with ⟨t | v, y⟩
  · rfl
  · by_cases hn : Dict.notify (Dict.entry s e) = true
    · simp only [wordWrite, hn, if_true, noticeAccess]
      generalize Dict.wordAccess _ _ 2 _ y = r
      rcases r with ⟨t | v, z⟩
      · rfl
      · rfl
    · simp only [wordWrite, hn]
      rfl

end

end

/-! ### Requests of subs of one word, by the server's access -/

section

variable {s : State} {t : Transport} {j k e m : Nat} {d : List Byte} {x : Row} (hj : 0xF000 ≤ j) (hk : k ≠ 0)
  (he : Dict.entryFor (counted s) j k = some e)
  (hm : Objects.sizeOf (Dict.typeOf (Dict.typeCode (Dict.entry (counted s) e))) = some m) (h8 : m ≤ 8)
include hj hk he hm h8

theorem run_read_word (h : Reads s t j k x) {v : W64} {z : State}
    (ha : Dict.wordAccess (Dict.bankOf (Dict.entry (counted s) e)) (Dict.wordOf (Dict.entry (counted s) e)) 0 0 (counted s) =
      (.inr v, z)) :
    Run.run (Dict.serve t 1 j k []) s = .next (readOut s t j k ((le 8 v.toNat).take m) (Ops.bump 0x1103 0x82 z)) :=
  run_read_published h hj (by rw [readPublished_word hk he hm h8, ha, wordRead])

/-- A word in error, and an Off or a retired bank, fail with the data error (R431). -/
theorem run_read_word_bad (h : Reads s t j k x) {z : State}
    (ha : Dict.wordAccess (Dict.bankOf (Dict.entry (counted s) e)) (Dict.wordOf (Dict.entry (counted s) e)) 0 0 (counted s) =
      (.inl .data, z)) :
    Run.run (Dict.serve t 1 j k []) s = .next (after s (answered s t 1 j k [] 0x0B []
      (Ops.bump 0x1103 0x82 (Ops.raise 422 (Ops.bump 0x1100 6 z))))) :=
  run_read_published_fails h hj (by rw [readPublished_word hk he hm h8, ha, wordRead, Dict.failed])

theorem run_read_word_busy (h : Reads s t j k x) {z : State}
    (ha : Dict.wordAccess (Dict.bankOf (Dict.entry (counted s) e)) (Dict.wordOf (Dict.entry (counted s) e)) 0 0 (counted s) =
      (.inl .wait, z)) :
    Run.run (Dict.serve t 1 j k []) s = .next (after s (answered s t 1 j k [] 5 [] (Ops.bump 0x1103 0x82 z))) :=
  run_read_published_fails h hj (by rw [readPublished_word hk he hm h8, ha, wordRead, Dict.failed])

theorem run_write_word (h : Writes s t j k d) {p : (Dict.Trouble ⊕ W64) × State}
    (ha : Dict.wordAccess (Dict.bankOf (Dict.entry (counted s) e)) (Dict.wordOf (Dict.entry (counted s) e)) 1
      (BitVec.ofNat 64 (Ops.le d)) (counted s) = p) {r : Nat} {y : State}
    (hr : wordWrite e (Dict.notify (Dict.entry (counted s) e)) p = (r, y)) :
    Run.run (Dict.serve t 2 j k d) s = .next (after s (answered s t 2 j k d r [] y)) := by
  obtain ⟨length, bool⟩ := accepted_word hk he hm h.accepted hj
  exact run_write_published h hj (by rw [writePublished_word he hm h8 length bool, ha, hr])

end

theorem wordWrite_bad (e : Nat) (notice : Bool) (z : State) : wordWrite e notice (.inl .data, z) =
    (0x0B, Ops.bump 0x1103 0x82 (Ops.raise 422 (Ops.bump 0x1100 6 z))) := rfl

theorem wordWrite_busy (e : Nat) (notice : Bool) (z : State) :
    wordWrite e notice (.inl .wait, z) = (5, Ops.bump 0x1103 0x82 z) := rfl

theorem wordWrite_plain {e : Nat} {v : W64} {z : State} {notice : Bool} (h : notice = false) :
    wordWrite e notice (.inr v, z) = (0, Ops.bump 0x1103 0x82 z) := by
  subst h
  rfl

theorem wordWrite_notice {e : Nat} {v x : W64} {z y : State} {notice : Bool} (h : notice = true)
    (ha : noticeAccess e z = (.inr x, y)) : wordWrite e notice (.inr v, z) = (0, Ops.bump 0x1103 0x82 y) := by
  subst h
  simp only [wordWrite, if_true, ha, wordWritten]

theorem noticeAccess_made {e o l : Nat} {z y : State} {x : W64} (ho : Ops.reg z 0x1103 0x81 / 8192 % 2048 = o)
    (hl : Ops.reg z 0x1103 0x81 % 8192 + e / 64 = l) (hy : Banks.turn o (Banks.turn o z) = y)
    (he : Banks.entered y o = true) (hw : l < 8192) (hx : Ops.word y o l = Flags.encode x) :
    noticeAccess e z = (.inr x, Ops.setWord o l (Flags.encode (x ||| BitVec.twoPow 64 (e % 64))) y) := by
  subst ho hl
  exact wordAccess_set hy he hw hx _

end Sys2Proof.Laws
end

section
/-!
SUPPORT. The requests that the mailbox and the CAN ports capture, and the CAN ports' own commands (R411, R415 to R427).
-/

namespace Sys2Proof.Laws

open Sys2Proof Sys2Proof.Machine Sys2Proof.Safety

/-! ### Requests that fail by themselves (R410, R415) -/

section

variable {s : State} {op i k len : Nat} {reserved : Bool}

theorem early_malformed (h : op < 1 ∨ 3 < op ∨ reserved = true) : Dict.early s op i k len reserved = some 0x0A := if_pos h

theorem early_formed (h : ¬ (op < 1 ∨ 3 < op ∨ reserved = true)) : Dict.early s op i k len reserved =
    if 28656 < len ∨ (op ≠ 2 ∧ len ≠ 0) then if (Dict.row s i k).isNone then some 1 else some 6 else none := if_neg h

end

/-! ### The doorbell (R415, R416) -/

/-- The request that a doorbell finds in the request area. -/
def doorbellRequest (v : Nat) (a : List Byte) : Request :=
  { client := 0, tag := v % 65536, op := Dict.field a 2 1, index := Dict.field a 4 2, sub := Dict.field a 6 1
    data := (a.drop 16).take (Dict.field a 8 4) }

/-- The mailbox has captured it. -/
def doorbellTook (v : Nat) (a : List Byte) (m : Mailbox) (s : State) : State :=
  { s with mailbox := { m with busy := true, request := some (doorbellRequest v a) } }

/-- The doorbell names no sequence number that the area has, or the area is malformed. -/
def DoorbellBad (v : Nat) (a : List Byte) : Prop :=
  65536 ≤ v ∨ Dict.field a 0 2 ≠ v ∨ Dict.field a 2 1 < 1 ∨ 3 < Dict.field a 2 1 ∨ Dict.field a 3 1 ≠ 0 ∨ Dict.field a 7 1 ≠ 0 ∨
    Dict.field a 12 4 ≠ 0

/-- The error that a captured request is answered with at once. -/
def doorbellWrong (v : Nat) (a : List Byte) (s : State) : Option Nat :=
  if v / 65536 ≠ 0 ∨ Dict.field a 0 2 ≠ v % 65536 then some 0x0A
  else Dict.early s (Dict.field a 2 1) (Dict.field a 4 2) (Dict.field a 6 1) (Dict.field a 8 4)
    (Dict.field a 3 1 != 0 || Dict.field a 7 1 != 0 || Dict.field a 12 4 != 0)

section

variable {s : State} {m : Mailbox} {v : Nat} {a : List Byte}

theorem doorbellWrong_bad (h : DoorbellBad v a) : doorbellWrong v a s = some 0x0A := by
  unfold doorbellWrong
  split
  · rfl
  · next hv =>
    refine early_malformed ?_
    simp only [Bool.or_eq_true, bne_iff_ne]
    unfold DoorbellBad at h
    omega

theorem doorbellWrong_good (h : ¬ DoorbellBad v a) : doorbellWrong v a s =
    if 28656 < Dict.field a 8 4 ∨ (Dict.field a 2 1 ≠ 2 ∧ Dict.field a 8 4 ≠ 0) then
      if (Dict.row s (Dict.field a 4 2) (Dict.field a 6 1)).isNone then some 1 else some 6
    else none := by
  unfold DoorbellBad at h
  refine (if_neg (by omega)).trans (early_formed ?_)
  simp only [Bool.or_eq_true, bne_iff_ne]
  omega

variable (hm : s.mailbox = m)
include hm

theorem doorbell_discarded (h : m.busy = true) :
    Dict.doorbell v a s = Ops.bump 0x1100 4 { s with mailbox := { m with overrun := true } } := by
  subst hm
  exact if_pos h

variable (h : m.busy = false)
include h

theorem doorbell_ends {e : Nat} (he : doorbellWrong v a (doorbellTook v a m s) = some e) : Dict.doorbell v a s =
    Transports.answer .mailbox (some (doorbellRequest v a))
      { op := Dict.field a 2 1, index := Dict.field a 4 2, sub := Dict.field a 6 1, err := e, data := [] }
      (Ops.bump 0x1100 3 (doorbellTook v a m s)) := by
  subst hm
  refine (if_neg (by simp [h])).trans ?_
  show (match doorbellWrong v a (doorbellTook v a s.mailbox s) with | some e => _ | none => _) = _
  rw [he]
  rfl

theorem doorbell_waits (he : doorbellWrong v a (doorbellTook v a m s) = none) :
    Dict.doorbell v a s = doorbellTook v a m s := by
  subst hm
  refine (if_neg (by simp [h])).trans ?_
  show (match doorbellWrong v a (doorbellTook v a s.mailbox s) with | some e => _ | none => _) = _
  rw [he]
  rfl

end

theorem mailbox_toL0 (s : State) : (Ops.toL0 Ops.raise s).mailbox = s.mailbox := by
  rw [(spares_toL0 s).1]
  rfl

/-! ### The frames of a request (R420 to R423) -/

section

variable {s : State} {p : Nat} {r : Reassembly}

/-- The request of a complete transfer. -/
def wholeRequest (r : Reassembly) : Request :=
  { client := r.client, tag := r.tid, op := r.op, index := r.index, sub := r.sub, data := r.data.take r.len }

theorem complete_joins (h : Dict.early s r.op r.index r.sub r.len r.bad = none) :
    Dict.complete p r s = Ops.setCan p { Ops.can s p with waiting := (Ops.can s p).waiting ++ [wholeRequest r] } s := by
  simp only [Dict.complete, h]
  rfl

theorem complete_ends {e : Nat} (h : Dict.early s r.op r.index r.sub r.len r.bad = some e) :
    Dict.complete p r s = Transports.answer (Transports.ofPort p) (some (wholeRequest r))
      { op := r.op, index := r.index, sub := r.sub, err := e, data := [] } (Ops.bump 0x1100 3 s) := by
  simp only [Dict.complete, h]
  rfl

section

variable {f : CanFrame}

/-- A frame of a request to this device, of the client that its identifier names (R420). -/
def FrameMine (s : State) (p : Nat) (f : CanFrame) : Prop :=
  Transports.canLive s p = true ∧
    f.ident.toNat = 2 ^ 24 + s.modes.ndId.toNat * 2 ^ 17 + f.ident.toNat / 1024 % 128 * 2 ^ 10

theorem frameMine_iff : (!Transports.canLive s p || f.ident.toNat / 2 ^ 24 != 1 ||
    f.ident.toNat / 2 ^ 17 % 128 != s.modes.ndId.toNat || f.ident.toNat % 1024 != 0) = true ↔ ¬ FrameMine s p f := by
  have node := s.modes.ndId.isLt
  simp only [FrameMine, Bool.or_eq_true, Bool.not_eq_true', bne_iff_ne, not_and_or, Bool.not_eq_true, or_assoc]
  refine or_congr_right ?_
  omega

theorem canFrame_other (h : ¬ FrameMine s p f) : Dict.canFrame p f s = s := if_pos (frameMine_iff.mpr h)

variable (h : FrameMine s p f)
include h

theorem canFrame_single (hk : Dict.field f.data 0 1 / 64 = 0) : Dict.canFrame p f s =
    let r := Dict.header (f.ident.toNat / 1024 % 128) f.data
    if r.data.length < r.len then Dict.frameError p r 6 (Ops.bump (0x1101 + p) 4 s)
    else Dict.complete p r (Ops.bump (0x1101 + p) 4 s) := by
  refine (if_neg (fun g => frameMine_iff.mp g h)).trans ?_
  rw [hk]
  rfl

theorem canFrame_first (hk : Dict.field f.data 0 1 / 64 = 1) : Dict.canFrame p f s =
    Dict.firstFrame p (Dict.header (f.ident.toNat / 1024 % 128) f.data) (Ops.bump (0x1101 + p) 4 s) := by
  refine (if_neg (fun g => frameMine_iff.mp g h)).trans ?_
  rw [hk]
  rfl

theorem canFrame_next {k : Nat} (hk : Dict.field f.data 0 1 / 64 = k) (h2 : 2 ≤ k) : Dict.canFrame p f s =
    Dict.nextFrame p (f.ident.toNat / 1024 % 128) (k == 3) f.data (Ops.bump (0x1101 + p) 4 s) := by
  refine (if_neg (fun g => frameMine_iff.mp g h)).trans ?_
  match k, h2 with
  | k + 2, _ =>
    rw [hk]
    rfl

end

/-! #### First frames (R421 to R423) -/

theorem firstFrame_busy (h : (Ops.can s p).reassembly ≠ none) :
    Dict.firstFrame p r s = Ops.bump (0x1101 + p) 7 (Dict.frameError p r 5 s) :=
  if_pos (Option.isSome_iff_ne_none.mpr h)

section

variable (h : (Ops.can s p).reassembly = none)
include h

theorem firstFrame_long (hl : 28656 < r.len) : Dict.firstFrame p r s = Dict.frameError p r 6
    (Ops.setCan p { Ops.can s p with ignored := r.client :: (Ops.can s p).ignored.filter fun x => x != r.client } s) :=
  (if_neg (by simp [h])).trans (if_pos hl)

theorem firstFrame_fits (hl : r.len ≤ 28656) : Dict.firstFrame p r s =
    let z := Ops.setCan p { Ops.can s p with ignored := (Ops.can s p).ignored.filter fun x => x != r.client } s
    if r.len ≤ 52 ∨ r.data.length < 52 then Dict.abandon p r z
    else Ops.setCan p { Ops.can z p with reassembly := some r } z :=
  (if_neg (by simp [h])).trans (if_neg hl.not_gt)

end

/-! #### Later segments (R421, R422) -/

/-- A segment that goes on with the transfer `r` as it should (R421, R422). -/
def SegmentGood (r : Reassembly) (last : Bool) (d : List Byte) : Prop :=
  Dict.field d 1 1 = r.tid ∧ Dict.field d 0 1 % 64 = r.nextSegment % 64 ∧ (r.len ≤ r.data.length + 62 ↔ last = true) ∧
    min 62 (r.len - r.data.length) ≤ ((d.drop 2).take (min 62 (r.len - r.data.length))).length

/-- The same, where the segment is the last one if its kind is 3. -/
theorem segmentGood_iff {r : Reassembly} {k : Nat} {d : List Byte} : SegmentGood r (k == 3) d ↔
    Dict.field d 1 1 = r.tid ∧ Dict.field d 0 1 % 64 = r.nextSegment % 64 ∧ (r.len ≤ r.data.length + 62 ↔ k = 3) ∧
      min 62 (r.len - r.data.length) ≤ ((d.drop 2).take (min 62 (r.len - r.data.length))).length := by
  rw [SegmentGood, beq_iff_eq]

/-- The transfer with the segment's bytes. -/
def grown (r : Reassembly) (d : List Byte) : Reassembly :=
  { r with data := r.data ++ (d.drop 2).take (min 62 (r.len - r.data.length)), nextSegment := r.nextSegment + 1 }

section

variable {client : Nat} {last : Bool} {d : List Byte}

theorem nextFrame_ignored (h : client ∈ (Ops.can s p).ignored) : Dict.nextFrame p client last d s = s :=
  if_pos (by simpa using h)

variable (h : client ∉ (Ops.can s p).ignored)
include h

theorem nextFrame_unknown (hr : ∀ r, (Ops.can s p).reassembly = some r → r.client ≠ client) :
    Dict.nextFrame p client last d s = Dict.abandon p
      { client := client, tid := Dict.field d 1 1, op := 0, index := 0, sub := 0, len := 0, nextSegment := 0
        bad := false, data := [] } s := by
  have none : ((Ops.can s p).reassembly.filter fun r => r.client == client) = none := by
    simpa [Option.filter_eq_none_iff] using hr
  refine (if_neg (by simpa using h)).trans ?_
  rw [none]

theorem nextFrame_own (hr : (Ops.can s p).reassembly = some r) (hc : r.client = client) :
    (¬ SegmentGood r last d → Dict.nextFrame p client last d s =
      Dict.abandon p r (Ops.setCan p { Ops.can s p with reassembly := none } s)) ∧
    (SegmentGood r last d → Dict.nextFrame p client last d s =
      if last then Dict.complete p (grown r d) (Ops.setCan p { Ops.can s p with reassembly := none } s)
      else Ops.setCan p { Ops.can s p with reassembly := some (grown r d) } s) := by
  have own : ((Ops.can s p).reassembly.filter fun r => r.client == client) = some r := by simp [hr, hc]
  have bad : (Dict.field d 1 1 ≠ r.tid ∨ Dict.field d 0 1 % 64 ≠ r.nextSegment % 64 ∨
      decide (r.len ≤ r.data.length + 62) ≠ last ∨
      ((d.drop 2).take (min 62 (r.len - r.data.length))).length < min 62 (r.len - r.data.length)) ↔
      ¬ SegmentGood r last d := by
    rw [SegmentGood, not_and_or, not_and_or, not_and_or, not_le, ne_eq (decide _), Bool.eq_iff_iff, decide_eq_true_iff]
  have here : Dict.nextFrame p client last d s = _ := if_neg (by simpa using h)
  rw [own] at here
  exact ⟨fun hg => here.trans (if_pos (bad.mpr hg)), fun hg => here.trans (if_neg (fun hb => bad.mp hb hg))⟩

end

end

/-! ### The other commands of a port (R418, R419, R422, R424, R427) -/

section

variable {s : State} {p : Nat}

theorem segmentTimeout_idle (h : (Ops.can s p).reassembly = none) : Dict.segmentTimeout p s = s := by
  simp [Dict.segmentTimeout, h]

theorem segmentTimeout_abandons {r : Reassembly} (h : (Ops.can s p).reassembly = some r) :
    Dict.segmentTimeout p s = Dict.abandon p r (Ops.setCan p { Ops.can s p with reassembly := none } s) := by
  simp [Dict.segmentTimeout, h]

theorem sendNotice_idle (h : ¬ Transports.canLive s p = true ∨ (Ops.can s p).notices = []) :
    Transports.sendNotice p s = s := by
  unfold Transports.sendNotice
  rcases h with h | h
  · simp only [h]
    split <;> rfl
  · simp only [h]

theorem sendNotice_oldest {n : Notice} {l : List Notice} (hl : Transports.canLive s p = true)
    (h : (Ops.can s p).notices = n :: l) : Transports.sendNotice p s =
      Transports.sendFrame p (3 * 2 ^ 24 + s.modes.ndId.toNat * 2 ^ 10)
        (le 2 0 ++ le 1 0x10 ++ le 1 0 ++ le 2 n.source ++ le 2 0 ++ Ops.time80 n.sec n.ns ++ le 2 0)
        (Ops.setCan p { Ops.can s p with notices := l } s) := by
  simp only [Transports.sendNotice, h, hl]
  rfl

/-! #### Changes of a port's state (R427, R432) -/

theorem change_same {f : State → State} {t : State} (hf : f s = t) (h : Transports.canState t p = Transports.canState s p) :
    Transports.change p f s = t := by
  subst hf
  exact if_pos h

theorem change_moves {f : State → State} {t : State} (hf : f s = t) (h : Transports.canState t p ≠ Transports.canState s p) :
    Transports.change p f s = Ops.raise (417 + p) t := by
  subst hf
  exact if_neg h

/-- A count of the port, other than its enable, is no part of its state. -/
theorem canState_setReg {i k : Nat} (h : 256 * (0x1101 + p) + 1 ≠ 256 * i + k) (v : Nat) :
    Transports.canState (Ops.setReg i k v s) p = Transports.canState s p := by
  have enable : Transports.enabled (Ops.setReg i k v s) p = Transports.enabled s p := by
    rw [Transports.enabled, reg_setReg_other h, Transports.enabled]
  simp only [Transports.canState, enable]
  rfl

section

variable {tec rxe : Nat}

theorem busError_idle (h : Transports.enabled s p = false ∨ (Ops.can s p).busOff = true) : Dict.busError p tec rxe s = s :=
  if_pos (by simpa using h)

variable (h : ¬ (Transports.enabled s p = false ∨ (Ops.can s p).busOff = true))
include h

theorem busError_counts (ht : tec ≤ 255) : Dict.busError p tec rxe s =
    Transports.change p (fun s => Ops.setCan p { Ops.can s p with txErr := tec, rxErr := rxe, busOff := false } s) s := by
  have on : decide (255 < tec) = false := decide_eq_false ht.not_gt
  refine (if_neg (by simpa using h)).trans ?_
  simp only [on]
  rfl

theorem busError_off (ht : 255 < tec) : Dict.busError p tec rxe s =
    Transports.change p (fun s => Ops.setCan p { Ops.can s p with txErr := 256, rxErr := rxe, busOff := true } s)
      (Ops.bump (0x1101 + p) 0x0A s) := by
  have off : decide (255 < tec) = true := decide_eq_true ht
  refine (if_neg (by simpa using h)).trans ?_
  simp only [off]
  rfl

end

theorem busOffRecovery_idle (h : (Ops.can s p).busOff = false) : Dict.busOffRecovery p s = s := if_pos (by simp [h])

theorem busOffRecovery_due (h : (Ops.can s p).busOff = true) : Dict.busOffRecovery p s =
    Transports.change p (fun s => Ops.setCan p { Ops.can s p with txErr := 0, rxErr := 0, busOff := false } s) s :=
  if_neg (by simp [h])

/-! #### A port is disabled (R427) -/

/-- Port p with its enable at 0, its reassembly and its notices discarded. -/
def portOff (p : Nat) (s : State) : State :=
  Ops.setReg (0x1101 + p) 1 0 (Ops.setCan p { Ops.can s p with reassembly := none, notices := [] } s)

theorem canState_portOff : Transports.canState (portOff p s) p = 0 := by
  simp [Transports.canState, Transports.enabled, portOff]

theorem disablePort_off (h : Transports.canState s p = 0) : Dict.disablePort p s = portOff p s :=
  change_same rfl (canState_portOff.trans h.symm)

theorem disablePort_moves (h : Transports.canState s p ≠ 0) : Dict.disablePort p s = Ops.raise (417 + p) (portOff p s) :=
  change_moves rfl fun g => h (g.symm.trans canState_portOff)

end

theorem size_portEnable : ∀ p : Fin 2, Operands.size (0x1101 + p) 1 = 1 := by decide

theorem chapterWrite_portDisable (t : Transport) (p : Fin 2) (s : State) : Dict.chapterWrite t (0x1101 + p) 1 (le 1 0) s =
    some (if Transports.portOf t = some p.val then .inl 4 else .inr (Bridges.follow (Dict.disablePort p s))) := by
  have modes : ¬ 0x1101 + p.val < 0x1010 := by omega
  have here : 0x1100 ≤ 0x1101 + p.val ∧ 0x1101 + p.val < 0x1200 := by omega
  have publication : ¬ 0x1101 + p.val = 0x1103 := by omega
  have enable : 0x1101 + p.val = 0x1101 ∨ 0x1101 + p.val = 0x1102 := by omega
  have zero : Ops.le (le 1 0) ≠ 1 := by decide
  simp only [Dict.chapterWrite, if_neg modes, if_pos here, Dict.writeTransport, if_neg publication, and_true, if_pos enable,
    if_neg zero, Nat.add_sub_cancel_left]

/-- Settles O60: a doorbell by the request area, a frame by its kind and the transfer it belongs to, a port by the change of
its state, and a published sub by the server's accesses to its words. -/
theorem transports : Obligations.Transports := by
  unfold Obligations.Transports
  refine ⟨fun s v a ha => ?mailbox, fun s p f ha => ?frames, fun s p => ?ports, fun s t e v hw => ?publication,
    fun s t i k d x => ?published, fun s t i k e m x b hk => ?words⟩
  case mailbox =>
    refine ⟨fun hd => run_viaLink_down ha hd _, fun hu hb => ?discarded, fun hu hb => ⟨fun h => ?bad, fun h hl hr => ?absent,
      fun h hl hr => ?long, fun h hl => ?waits⟩⟩
    case discarded => exact run_viaLink ha hu (doorbell_discarded (mailbox_toL0 (Ops.begin s)) hb)
    case waits =>
      exact run_viaLink ha hu (doorbell_waits (mailbox_toL0 (Ops.begin s)) hb ((doorbellWrong_good h).trans (if_neg hl)))
    all_goals refine run_viaLink ha hu (doorbell_ends (mailbox_toL0 (Ops.begin s)) hb ?_)
    case bad => exact doorbellWrong_bad h
    case absent => exact (doorbellWrong_good h).trans ((if_pos hl).trans (if_pos (Option.isNone_iff_eq_none.mpr hr)))
    case long => exact (doorbellWrong_good h).trans ((if_pos hl).trans (if_neg (mt Option.isNone_iff_eq_none.mp hr)))
  case frames =>
    intro i y c client mine makes kind h
    have effect {z : State} (e : Dict.canFrame p f (Ops.begin s) = z) : makes z := run_awake_of ha e
    refine ⟨fun hm => effect (canFrame_other hm), fun hm hk => ?single, fun hm hk => ?first, fun hm hk => ?later⟩
    case single =>
      have here : Dict.canFrame p f (Ops.begin s) = _ := canFrame_single hm hk
      exact ⟨fun hl => effect (here.trans (if_pos hl)), fun hl =>
        ⟨fun he => effect (here.trans ((if_neg hl.not_gt).trans (complete_joins he))),
          fun e he => effect (here.trans ((if_neg hl.not_gt).trans (complete_ends he)))⟩⟩
    case first =>
      have here : Dict.canFrame p f (Ops.begin s) = Dict.firstFrame p h y := canFrame_first hm hk
      refine ⟨fun hc => effect (here.trans (firstFrame_busy (s := y) hc)), fun hc hl => ?_, fun hc hl => ⟨fun hs => ?_,
        fun hl hd => ?_⟩⟩
      · exact effect (here.trans (firstFrame_long (s := y) hc hl))
      · exact effect (here.trans ((firstFrame_fits (s := y) hc hl).trans (if_pos hs)))
      · exact effect (here.trans ((firstFrame_fits (s := y) hc ‹_›).trans (if_neg (by omega))))
    case later =>
      have here : Dict.canFrame p f (Ops.begin s) = Dict.nextFrame p client (kind == 3) f.data y :=
        canFrame_next (s := Ops.begin s) hm rfl hk
      refine ⟨fun hi => effect (here.trans (nextFrame_ignored (s := y) hi)),
        fun hi hr => effect (here.trans (nextFrame_unknown (s := y) hi hr)), fun r hi hr hc => ?_⟩
      obtain ⟨broken, goes⟩ := nextFrame_own (s := y) (last := kind == 3) (d := f.data) hi hr hc
      refine ⟨fun hg => effect (here.trans (broken (mt segmentGood_iff.mp hg))), fun hg h3 => ?_, fun hg h3 => ?_⟩
      all_goals replace goes := goes (segmentGood_iff.mpr hg)
      · have last := here.trans (goes.trans (if_pos (beq_iff_eq.mpr h3)))
        exact ⟨fun he => effect (last.trans (complete_joins he)), fun e he => effect (last.trans (complete_ends he))⟩
      · exact effect (here.trans (goes.trans (if_neg (mt beq_iff_eq.mp h3))))
  case ports =>
    intro u c i live makes moved
    have counts {k : Nat} (hk : k ≠ 1) (v : Nat) : Transports.canState (Ops.setReg i k v u) p = Transports.canState s p :=
      canState_setReg (by omega) v
    refine ⟨fun ha hr => ?_, fun r ha hr => ?_, fun ha hl => ?_, fun n l ha hl hn => ?_, fun t hw => ⟨fun ht => ?_, fun ht =>
      ⟨fun ho => ?_, fun ho => ?_⟩⟩, fun tec rxe ha => ⟨fun hi => ?_, fun hi ht => ?_, fun hi ht => ?_⟩, fun ha hb => ?_,
      fun ha hb => ?_⟩
    · exact run_awake_of ha (segmentTimeout_idle (s := u) hr)
    · exact run_awake_of ha (segmentTimeout_abandons (s := u) hr)
    · exact run_awake_of ha (sendNotice_idle (s := u) hl)
    · exact run_awake_of ha (sendNotice_oldest (s := u) hl hn)
    · exact operands_refused (size_portEnable p) hw (by omega) (by omega)
        ((chapterWrite_portDisable t p _).trans (congrArg some (if_pos ht)))
    · have off : Transports.canState (counted s) p = 0 := (canState_setReg (by omega) _).trans ho
      exact operands_taken (size_portEnable p) hw (by omega) (by omega) ((chapterWrite_portDisable t p _).trans
        (congrArg some ((if_neg ht).trans (congrArg (Sum.inr ∘ Bridges.follow) (disablePort_off off)))))
    · have on : Transports.canState (counted s) p ≠ 0 := fun h => ho ((canState_setReg (by omega) _).symm.trans h)
      exact operands_taken (size_portEnable p) hw (by omega) (by omega) ((chapterWrite_portDisable t p _).trans
        (congrArg some ((if_neg ht).trans (congrArg (Sum.inr ∘ Bridges.follow) (disablePort_moves on)))))
    · exact run_awake_of ha (busError_idle (s := u) hi)
    · exact ⟨fun h => run_awake_of ha ((busError_counts (s := u) hi ht).trans (change_same rfl h)),
        fun h => run_awake_of ha ((busError_counts (s := u) hi ht).trans (change_moves rfl h))⟩
    · have before : Transports.canState (Ops.bump i 0x0A u) p = Transports.canState s p := counts (by decide) _
      exact ⟨fun h => run_awake_of ha ((busError_off (s := u) hi ht).trans (change_same rfl (h.trans before.symm))),
        fun h => run_awake_of ha ((busError_off (s := u) hi ht).trans (change_moves rfl fun g => h (g.trans before)))⟩
    · exact run_awake_of ha (busOffRecovery_idle (s := u) hb)
    · exact ⟨fun h => run_awake_of ha ((busOffRecovery_due (s := u) hb).trans (change_same rfl h)),
        fun h => run_awake_of ha ((busOffRecovery_due (s := u) hb).trans (change_moves rfl h))⟩
  case publication =>
    exact ⟨fun hb => operands_refused (size_publication e) hw (by decide) (by decide)
        ((chapterWrite_publication t e v _).trans (congrArg some (if_pos hb))),
      fun hb => operands_taken (size_publication e) hw (by decide) (by decide)
        ((chapterWrite_publication t e v _).trans (congrArg some (if_neg hb)))⟩
  case published =>
    have place : 0xF000 ≤ 0xF000 + i.toNat := Nat.le_add_right _ _
    exact ⟨fun hr => ⟨fun b y he => run_read_published hr place he, fun e y he => run_read_published_fails hr place he⟩,
      fun e y hw he => run_write_published hw place he,
      fun ha hs => ⟨run_describe ha hs, run_describe_absent ha hs⟩⟩
  case words =>
    intro u v n w j y served fails he hm h8
    have place : 0xF000 ≤ j := Nat.le_add_right _ _
    have number : k.toNat ≠ 0 := fun h => hk (BitVec.eq_of_toNat_eq h)
    have range : w < 8192 := Nat.mod_lt _ (by decide)
    refine ⟨fun _ hin => ⟨fun d hr hd => ?read, fun hr hb => ?bad, fun hw hn => ?write, fun hw hn d hl hin' hd => ?notice⟩,
      fun hf => ⟨fun hr => ?refusedRead, fun hw => ?refusedWrite⟩, fun hf hin => ⟨fun hr => ?busyRead, fun hw => ?busyWrite⟩⟩
    case read => exact run_read_word place number he hm h8 hr (wordAccess_get rfl hin range hd)
    case bad => exact run_read_word_bad place number he hm h8 hr (wordAccess_bad rfl hin hb)
    case write => exact run_write_word place number he hm h8 hw (wordAccess_put rfl hin range _) (wordWrite_plain hn)
    case notice =>
      exact run_write_word place number he hm h8 hw (wordAccess_put rfl hin range _)
        (wordWrite_notice hn (noticeAccess_made rfl rfl rfl hin' hl hd))
    case refusedRead => exact run_read_word_bad place number he hm h8 hr (wordAccess_refused hf)
    case refusedWrite => exact run_write_word place number he hm h8 hw (wordAccess_refused hf) (wordWrite_bad ..)
    case busyRead => exact run_read_word_busy place number he hm h8 hr (wordAccess_waits hf hin)
    case busyWrite => exact run_write_word place number he hm h8 hw (wordAccess_waits hf hin) (wordWrite_busy ..)

end Sys2Proof.Laws
end
